-- ==== Sys2Proof/Word.lean ====
section
/-! DEFINITION. The widths of the ZX-4096: bytes, dwords, the vector entry, Benes words. -/

namespace Sys2Proof

/-- A byte (R6). -/
abbrev Byte := BitVec 8

/-- A word of 32 bits (R6). -/
abbrev Word32 := BitVec 32

/-- A dword of 64 bits (R6): scalar entries, syllables, CSRs. -/
abbrev W64 := BitVec 64

/-- The 4,096 bytes of a vector entry, row 0 lowest (R258, R289). -/
abbrev VBits := BitVec 32768

/-- The 352 bits of a Benes word (R308). -/
abbrev BenesWord := BitVec 352

/-- A table from numbers to values, one entry a key. -/
abbrev Table (α : Type) := List (Nat × α)

/-- Memory: bytes by address, in the canonical form of `Memory.wf`. -/
abbrev Mem := List (Nat × Byte)

end Sys2Proof
end

