-- ==== Sys2Proof/Machine/Flags.lean ====
section
/-! DEFINITION. The floating-point status flags of R42 and R43. -/

namespace Sys2Proof

/-- FPSTAT's flags (R43): bit 4 NV, 3 DZ, 2 OF, 1 UF, 0 NX. -/
abbrev Flags := BitVec 5

def flagNV : Flags := 16
def flagDZ : Flags := 8
def flagOF : Flags := 4
def flagUF : Flags := 2
def flagNX : Flags := 1

/-- OR of flags: all the lanes of an instruction at once (R43). -/
def orFlags (fs : List Flags) : Flags := fs.foldl (fun a b => a ||| b) 0

end Sys2Proof
end

