-- ==== Sys2Proof/Config.lean ====
section
/-! DEFINITION. What the spec leaves to each implementation, and the free values: constants without a body, so
that nothing proved rests on what they are. -/

namespace Sys2Proof

/-- A byte the spec leaves open, by draw number: data read from a host port without a link (R232), the
response to a read the spec gives no data for.  FREE VALUE (log entry 9). -/
opaque Config.freeByte : Nat → Byte

/-- A dword the spec leaves open, by draw number.  FREE VALUE (log entry 9). -/
opaque Config.freeWord : Nat → W64

/-- Which of a chiplet's two HBM controllers serves a sector (R18 names two and gives no rule).  FREE VALUE
(log entry 10). -/
opaque Config.upperController : Nat → Bool

/-- The device's private key of ECDSA P-384, and the nonce of each signature by draw number (R457).  FREE VALUES (log
entry 11). -/
opaque Config.deviceKey : Nat
opaque Config.signNonce : Nat → Nat

/-- The device's certificate chain (R457).  FREE VALUE (log entry 11). -/
opaque Config.certificates : Nat → List Byte

/-- The hash of the firmware key held in fuses (R456).  FREE VALUE (log entry 11). -/
opaque Config.fusedKeyHash : List Byte

/-- What a measured quantity reads, by draw number: power, temperatures of telemetry (R467).  FREE VALUE
(log entry 12). -/
opaque Config.measured : Nat → Nat

/-- The syndrome of a sector's code error (R441).  FREE VALUE (log entry 13). -/
opaque Config.syndrome : Nat → W64

/-- Whether a fabric route reaches a package (R286).  FREE VALUE (log entry 16). -/
opaque Config.fabricRoute : Nat → Bool

/-- What a package answers to an access of its memory, by draw number: 1 XLATE, 2 PROT, else none (R286).  FREE
VALUE (log entry 16). -/
opaque Config.fabricFault : Nat → Nat

/-- How many points a rail must give up for the draw to stay within a cap: cap in watts, rail, and draw number
(R30, R109).  FREE VALUE (log entry 12). -/
opaque Config.capPoints : Nat → Nat → Nat → Nat

/-- Whether the root complex answers an AtomicOp of the hub or of an engine with a status other than Successful, by draw
number (R113, R355).  FREE VALUE (log entry 74). -/
opaque Config.rootFails : Nat → Bool

/-- Whether firmware's scan of a fenced chiplet's L2 tags fails, by draw number (R444).  FREE VALUE (log entry 71). -/
opaque Config.scanFails : Nat → Bool

/-- Whether a store of a team that a launch's end has stopped still performs, by draw number (R408, R422).  FREE VALUE
(log entry 30). -/
opaque Config.stillPerforms : Nat → Bool

/-- The boot ROM, and the fused chiplet mask (R458).  FREE VALUES (log entry 8). -/
opaque Config.bootRom : List Byte
opaque Config.fusedMask : List Byte

/-- The set of a core's L1 in which a sector may lie, before it is taken modulo the number of sets (R235 gives no
rule).  FREE VALUE (log entry 72). -/
opaque Config.l1Set : Nat → Nat

/-- Which line of a full slice, or which sector of a full set of an L1, leaves it, by draw number (R234, R235 give no
rule).  FREE VALUE (log entry 72). -/
opaque Config.victim : Nat → Nat

end Sys2Proof
end

