-- ==== Sys2Proof/Syntax.lean ====
section
/-! DEFINITION. The steps of the ZX-4096, one constructor of `Instr` for each row of the opcode table:
the syllables with their operand fields (R149 to R176), and the device's own steps, each naming which
instance of it happens. -/

namespace Sys2Proof

/-- The four clusters, in slot order (R24, R159). -/
inductive Cluster where
  | c | a | v | m
  deriving DecidableEq, Repr

/-- Source modes (R149). -/
inductive SrcMode where
  | pop | keep | drop | hold
  deriving DecidableEq, Repr

/-- Destination modes that are not reserved (R150). -/
inductive DstMode where
  | push | replace
  deriving DecidableEq, Repr

/-- A scalar source field (R149, R151). -/
structure Src where
  mode : SrcMode
  reg : BitVec 6
  deriving DecidableEq, Repr

/-- A scalar destination field (R150, R151). -/
structure Dst where
  mode : DstMode
  reg : BitVec 6
  deriving DecidableEq, Repr

/-- A vector source field (R151). -/
structure VSrc where
  mode : SrcMode
  reg : BitVec 4
  deriving DecidableEq, Repr

/-- A vector destination field (R151). -/
structure VDst where
  mode : DstMode
  reg : BitVec 4
  deriving DecidableEq, Repr

/-- Predicate number p0 to p63 of the executing cluster. -/
abbrev Pred := BitVec 6

/-- Condition codes (R158). -/
inductive Cc where
  | eq | ne | lt | ge | le | gt | ltn | gen | len | gtn | un
  deriving DecidableEq, Repr

/-- Scopes (R26, R155). -/
inductive Scope where
  | ctx | team | bay | chip | pkg | sys
  deriving DecidableEq, Repr

/-- The typed scratchpad buffers (R155, R221). -/
inductive Buf where
  | w | y | z
  deriving DecidableEq, Repr

/-- Access types of LD and ST (R156, codes 0x0 to 0x7): signedness and size. -/
inductive ScalarTy where
  | n8 | n16 | n32 | n64 | i8 | i16 | i32 | i64
  deriving DecidableEq, Repr

/-- Types of AMO and RED (R156, R354). -/
inductive AmoTy where
  | n32 | n64 | i32 | i64 | f32 | bf16 | f16
  deriving DecidableEq, Repr

/-- Format codes (R31). -/
inductive Fmt where
  | fp32 | bf16 | fp16 | e4m3 | e5m2 | e2m3 | e3m2 | e2m1 | bi4 | bi6 | bi8 | bi16 | i32 | i16 | i8 | ra
  deriving DecidableEq, Repr

/-- Rounding modes (R40). -/
inductive Rnd where
  | rne | rtz | rup | rdn
  deriving DecidableEq, Repr

/-- Address space and ordering of a memory operand (R155). -/
inductive Space where
  | virt
  | virtOrdered (scope : Scope)
  | own (ordered : Bool) (lastUse : Bool) (buf : Buf)
  deriving DecidableEq, Repr

/-- The address fields of a MEM syllable with a scalar index (R155). -/
structure MemOp where
  base : Src
  index : Src
  disp : BitVec 16
  space : Space
  deriving DecidableEq, Repr

/-- The address fields of VGTH and VSCT, whose index is a vector of row offsets (R261). -/
structure VMemOp where
  base : Src
  index : VSrc
  disp : BitVec 16
  space : Space
  deriving DecidableEq, Repr

/-- Orders of AMO (R353). -/
inductive AmoOrder where
  | relaxed | acquire | release | acqRel
  deriving DecidableEq, Repr

/-- AMO operations (R173); cas carries its D field, a source holding the new value (R353). -/
inductive AmoOp where
  | add | and | or | xor | min | max | minn | maxn | swp | fadd
  | cas (new : Src)
  deriving DecidableEq, Repr

/-- RED operations (R173). -/
inductive RedOp where
  | add | and | or | xor | min | max | minn | maxn | fadd
  deriving DecidableEq, Repr

/-- Lock modes (R365). -/
inductive LockMode where
  | is | ix | s | six | inc | x
  deriving DecidableEq, Repr

/-- Lock levels (R362). -/
inductive LockLevel where
  | tensor | tile | line
  deriving DecidableEq, Repr

/-- Reduction operations of VREDR and VREDC (R174). -/
inductive VRedOp where
  | add | min | max | and | or | xor
  deriving DecidableEq, Repr

/-- A context of the team resident on a physical core (R21, R24). -/
structure CtxRef where
  core : Nat
  ctx : Nat
  deriving DecidableEq, Repr

/-- Which of a context's two queues (R378). -/
inductive QueueSel where
  | load | store
  deriving DecidableEq, Repr

/-- How the memory beyond a port answers an access: what the HBM code finds on a read (R438), and whether the root
complex's completion of an AtomicOp carries a status other than Successful (R355). -/
inductive Ecc where
  | clean | corrected | uncorrected | unsuccessful
  deriving DecidableEq, Repr

/-- The three BAR regions a host reads and writes (R90). -/
inductive Bar where
  | bar0 | bar2 | bar4
  deriving DecidableEq, Repr

/-- What the environment fixes of a discard (R408): of each context's store queue, which unperformed
entries still perform (by position). -/
structure DiscardChoice where
  stores : List (Nat × List Nat)
  deriving DecidableEq, Repr

/-- What firmware and the board supply at bring-up (R454, R455). -/
structure BringUpData where
  livemask : BitVec 16
  tiercap : BitVec 13
  pkgid : BitVec 8
  rated : BitVec 16
  floor : BitVec 16
  tvec : W64
  ports : List (Nat × W64)
  slotA : List Byte
  slotB : List Byte
  deriving DecidableEq, Repr

/-- A write to a register of BAR0: the port it came through, and its value. -/
structure PortWrite where
  port : BitVec 1
  value : W64
  deriving DecidableEq, Repr

/-- A line of an L2 slice: a flat one by its number, or a line of a tensor by its place among those held (R68). -/
inductive LineSel where
  | flat (line : Nat)
  | tensor (index : Nat)
  deriving DecidableEq, Repr

/-- What arrives from another package: the start of a command that names this package's memory, whose pages are
then translated and pinned, its reads, writes and completion addition, and its end (R286, R287); an all-to-all packet
(R284); and the answers to what this package's own commands sent: the last write of a command is acknowledged, and a
message has been delivered or dropped (R285, R287). -/
inductive FabricOp where
  | start (pkg id : Nat) (asid : BitVec 16) (runs : List (Nat × Nat × Bool))
  | write (pkg id : Nat) (va : Nat) (bytes : List Byte)
  | read (pkg id : Nat) (va : Nat) (n : Nat)
  | cplAdd (pkg id : Nat) (va : Nat)
  | finish (pkg id : Nat)
  | packet (header : BitVec 128) (payload : List Byte)
  | written (core q : Nat)
  | completed (core q : Nat) (cause : BitVec 8)
  | messageEnd (core : Nat) (dropped : Bool)
  deriving DecidableEq, Repr

/-- The steps of the machine (opcode table). Syllables first, then the steps of the device. -/
inductive Instr where
  -- scalar and predicate syllables (R171)
  | nop
  | add (d : Dst) (a b : Src)
  | sub (d : Dst) (a b : Src)
  | and (d : Dst) (a b : Src)
  | or (d : Dst) (a b : Src)
  | xor (d : Dst) (a b : Src)
  | andn (d : Dst) (a b : Src)
  | shl (d : Dst) (a b : Src)
  | shr (d : Dst) (a b : Src)
  | sar (d : Dst) (a b : Src)
  | rol (d : Dst) (a b : Src)
  | min (d : Dst) (a b : Src)
  | minn (d : Dst) (a b : Src)
  | max (d : Dst) (a b : Src)
  | maxn (d : Dst) (a b : Src)
  | mul (d : Dst) (a b : Src)
  | mulh (d : Dst) (a b : Src)
  | mulhn (d : Dst) (a b : Src)
  | div (d : Dst) (a b : Src)
  | divn (d : Dst) (a b : Src)
  | rem (d : Dst) (a b : Src)
  | remn (d : Dst) (a b : Src)
  | mov (d : Dst) (a : Src)
  | abs (d : Dst) (a : Src)
  | clz (d : Dst) (a : Src)
  | ctz (d : Dst) (a : Src)
  | popc (d : Dst) (a : Src)
  | sel (d : Dst) (a b : Src) (neg : Bool) (p : Pred)
  | lea (d : Dst) (a b : Src) (shift : BitVec 2)
  | cmp (cc : Cc) (pd : Pred) (a b : Src)
  | cmpi (cc : Cc) (pd : Pred) (a : Src) (imm : BitVec 24)
  | addi (d : Dst) (a : Src) (imm : BitVec 24)
  | andi (d : Dst) (a : Src) (imm : BitVec 24)
  | ori (d : Dst) (a : Src) (imm : BitVec 24)
  | xori (d : Dst) (a : Src) (imm : BitVec 24)
  | shli (d : Dst) (a : Src) (n : BitVec 6)
  | shri (d : Dst) (a : Src) (n : BitVec 6)
  | sari (d : Dst) (a : Src) (n : BitVec 6)
  | li (d : Dst) (imm : BitVec 24)
  | lih (d : Dst) (a : Src) (imm : BitVec 24)
  | pand (pd pa pb : Pred)
  | por (pd pa pb : Pred)
  | pxor (pd pa pb : Pred)
  | pandn (pd pa pb : Pred)
  | pnot (pd pa : Pred)
  | pmov (pd pa : Pred)
  -- control and system syllables (R172)
  | br (disp : BitVec 32)
  | bri (a : Src)
  | call (d : Dst) (disp : BitVec 32)
  | ret (a : Src)
  | loop (counter : BitVec 6) (disp : BitVec 32) (stages : BitVec 4)
  | split (disp : BitVec 32)
  | join (disp : BitVec 32)
  | brq (sense : Bool) (disp : BitVec 32)
  | pushb (neg : Bool) (p : Pred)
  | csrr (d : Dst) (csr : BitVec 16)
  | csrw (csr : BitVec 16) (a : Src)
  | csrx (d : Dst) (csr : BitVec 16) (a : Src)
  | halt
  | waiti
  | fencei
  | trap (code : BitVec 8)
  | eret
  | commit
  | yield
  | rplrel
  | phase (marker : BitVec 8)
  | segb (id : BitVec 16)
  | sege (id : BitVec 16) (a : Src)
  -- memory, synchronisation and engine syllables (R173)
  | ld (ty : ScalarTy) (d : Dst) (m : MemOp)
  | st (ty : ScalarTy) (s : Src) (m : MemOp)
  | vldr (f : Fmt) (d : VDst) (m : MemOp)
  | vstr (f : Fmt) (s : VSrc) (m : MemOp)
  | vldc (f : Fmt) (d : VDst) (m : MemOp)
  | vstc (f : Fmt) (s : VSrc) (m : MemOp)
  | vgth (f : Fmt) (d : VDst) (m : VMemOp)
  | vsct (f : Fmt) (s : VSrc) (m : VMemOp)
  | mark
  | fence (scope : Scope)
  | amo (op : AmoOp) (ty : AmoTy) (scope : Scope) (order : AmoOrder) (a b : Src)
  | red (op : RedOp) (ty : AmoTy) (scope : Scope) (release : Bool) (a b : Src)
  | lock (mode : LockMode) (domain : BitVec 2) (level : LockLevel) (a : Src)
  | unlock (domain : BitVec 2) (level : LockLevel) (a : Src)
  | bsig (scope : Scope) (a b : Src)
  | bwait (scope : Scope) (a b : Src)
  | rset (ring : BitVec 4) (a : Src)
  | rclaim (ring : BitVec 4) (d : Dst)
  | rpub (ring : BitVec 4) (a : Src)
  | rtake (ring : BitVec 4) (d : Dst)
  | rfree (ring : BitVec 4) (a : Src)
  | rwaitf (ring : BitVec 4) (a : Src)
  | rwaite (ring : BitVec 4) (a : Src)
  | rstat (ring : BitVec 4) (d : Dst) (a : Src)
  | evsig (ev : BitVec 5) (a b : Src)
  | evwait (ev : BitVec 5) (a : Src)
  | evstat (ev : BitVec 5) (d : Dst)
  | enq (q : BitVec 2) (a : Src)
  | chlink (q : BitVec 2) (a : Src)
  | chkick (q : BitVec 2) (a : Src)
  | engstat (q : BitVec 2) (d : Dst)
  | sheaf (a : Src)
  -- vector syllables (R174, R294); a mask operand is the C field under M = 1
  | vadd (f : Fmt) (r : Rnd) (d : VDst) (a b : VSrc) (mask : Option VSrc)
  | vsub (f : Fmt) (r : Rnd) (d : VDst) (a b : VSrc) (mask : Option VSrc)
  | vmul (f : Fmt) (r : Rnd) (d : VDst) (a b : VSrc) (mask : Option VSrc)
  | vmin (f : Fmt) (d : VDst) (a b : VSrc) (mask : Option VSrc)
  | vmax (f : Fmt) (d : VDst) (a b : VSrc) (mask : Option VSrc)
  | vfma (f : Fmt) (r : Rnd) (d : VDst) (a b c : VSrc)
  | vfms (f : Fmt) (r : Rnd) (d : VDst) (a b c : VSrc)
  | vabs (f : Fmt) (d : VDst) (a : VSrc) (mask : Option VSrc)
  | vneg (f : Fmt) (d : VDst) (a : VSrc) (mask : Option VSrc)
  | vrcp (f : Fmt) (r : Rnd) (d : VDst) (a : VSrc) (mask : Option VSrc)
  | vrsq (f : Fmt) (r : Rnd) (d : VDst) (a : VSrc) (mask : Option VSrc)
  | vsqrt (f : Fmt) (r : Rnd) (d : VDst) (a : VSrc) (mask : Option VSrc)
  | vexp2 (f : Fmt) (r : Rnd) (d : VDst) (a : VSrc) (mask : Option VSrc)
  | vlog2 (f : Fmt) (r : Rnd) (d : VDst) (a : VSrc) (mask : Option VSrc)
  | vtanh (f : Fmt) (r : Rnd) (d : VDst) (a : VSrc) (mask : Option VSrc)
  | viadd (f : Fmt) (uns sat : Bool) (d : VDst) (a b : VSrc) (mask : Option VSrc)
  | visub (f : Fmt) (uns sat : Bool) (d : VDst) (a b : VSrc) (mask : Option VSrc)
  | vimul (f : Fmt) (uns sat : Bool) (d : VDst) (a b : VSrc) (mask : Option VSrc)
  | vimulh (f : Fmt) (uns : Bool) (d : VDst) (a b : VSrc) (mask : Option VSrc)
  | vand (f : Fmt) (d : VDst) (a b : VSrc) (mask : Option VSrc)
  | vor (f : Fmt) (d : VDst) (a b : VSrc) (mask : Option VSrc)
  | vxor (f : Fmt) (d : VDst) (a b : VSrc) (mask : Option VSrc)
  | vshl (f : Fmt) (d : VDst) (a b : VSrc) (mask : Option VSrc)
  | vshr (f : Fmt) (d : VDst) (a b : VSrc) (mask : Option VSrc)
  | vsar (f : Fmt) (d : VDst) (a b : VSrc) (mask : Option VSrc)
  | vimin (f : Fmt) (uns : Bool) (d : VDst) (a b : VSrc) (mask : Option VSrc)
  | vimax (f : Fmt) (uns : Bool) (d : VDst) (a b : VSrc) (mask : Option VSrc)
  | vcmp (cc : Cc) (f : Fmt) (d : VDst) (a b : VSrc) (mask : Option VSrc)
  | vsel (f : Fmt) (d : VDst) (a b c : VSrc)
  | vcvt (fd fs : Fmt) (r : Rnd) (part : BitVec 2) (d : VDst) (a : VSrc)
  | vtobi (fd fs : Fmt) (r : Rnd) (part : BitVec 2) (d : VDst) (a : VSrc)
  | vfrombi (fd fs : Fmt) (r : Rnd) (part : BitVec 2) (d : VDst) (a : VSrc)
  | vrotr (d : VDst) (a : VSrc) (b : Src)
  | vrotc (d : VDst) (a : VSrc) (b : Src)
  | vbcr (d : VDst) (a : VSrc) (b : Src)
  | vbcc (d : VDst) (a : VSrc) (b : Src)
  | vscanr (f : Fmt) (r : Rnd) (d : VDst) (a : VSrc) (mask : Option VSrc)
  | vredr (op : VRedOp) (f : Fmt) (r : Rnd) (uns : Bool) (d : VDst) (a : VSrc) (mask : Option VSrc)
  | vredc (op : VRedOp) (f : Fmt) (r : Rnd) (uns : Bool) (d : VDst) (a : VSrc) (mask : Option VSrc)
  | vperm (d : VDst) (a : VSrc) (bw : BitVec 3)
  | pset (bw : BitVec 3) (a : VSrc)
  | vtopkr (f : Fmt) (d : VDst) (a : VSrc) (b : Src) (mask : Option VSrc)
  | vbuck (f : Fmt) (uns : Bool) (d : VDst) (a b : VSrc) (c : Src)
  | vmov (d : VDst) (a : VSrc)
  | vget (f : Fmt) (d : Dst) (a : VSrc) (b : Src)
  | vput (f : Fmt) (d : VDst) (a : VSrc) (b c : Src)
  | vli (f : Fmt) (d : VDst) (imm : BitVec 24)
  -- matrix-control syllables (R175, R316)
  | oclaim (first : BitVec 6) (count : BitVec 7)
  | orelease (first : BitVec 6) (count : BitVec 7)
  | mstr (a b : Src)
  | mwait (n : BitVec 4)
  | mcfg (d : Dst) (a : Src)
  | mstat (d : Dst)
  -- ends of waits and waiting submissions
  | rwaitEnd (r : CtxRef)
  | evwaitEnd (r : CtxRef)
  | bwaitEnd (r : CtxRef)
  | mwaitEnd (r : CtxRef)
  | waitiEnd (r : CtxRef)
  | wedge (r : CtxRef)
  | enqAppend (r : CtxRef)
  -- engine commands
  | commandStart (core q : Nat)
  | copy (core q : Nat) (sel : Option (List Nat))
  | fill (core q : Nat) (sel : Option (List Nat))
  | convert (core q : Nat) (sel : Option (List Nat))
  | gather (core q : Nat) (sel : Option (List Nat))
  | scatter (core q : Nat) (sel : Option (List Nat))
  | encode (core q : Nat) (sel : Option (List Nat))
  | a2a (core q : Nat)
  | a2aDelivery (index : Nat)
  | commandRetire (core q : Nat)
  | chainFetch (core q : Nat)
  -- the matrix sequencer
  | streamAppend (r : CtxRef)
  | streamStart (core : Nat)
  | recordFetch (core : Nat)
  | mma (core : Nat)
  | mmaz (core : Nat)
  | maddz (core : Nat)
  | mscl (core : Nat)
  | mconv (core : Nat)
  | streamComplete (core : Nat)
  | sequencerTrap (r : CtxRef)
  -- memory ports
  | accessPerform (r : CtxRef) (q : QueueSel) (fill : Bool) (ecc : Ecc)
  | redEntryPerform (index : Nat)
  | lineWriteback (line : LineSel)
  | storeFaultReport (r : CtxRef)
  | bankRetention (core bank : Nat)
  | bsigArrival (who : List CtxRef)
  | evsigArrival (r : CtxRef)
  -- lock managers
  | lockRequest (r : CtxRef)
  | lockRelease (r : CtxRef)
  | wound (core : Nat) (choice : DiscardChoice)
  -- traps and supervisor writes
  | trapEntry (r : CtxRef)
  | tctlRequeue (r : CtxRef) (choice : DiscardChoice)
  | tctlFatal (r : CtxRef) (cause : BitVec 8)
  | codesetWrite (r : CtxRef) (value : W64)
  | lkmtxWrite (r : CtxRef) (domain : BitVec 2) (value : W64)
  | commitWindowExpiry (core : Nat)
  | plotRetire (core : Nat)
  | pairCompare (slot plot : Nat)
  | migrationRequest (core : Nat)
  | migrationRetry (core : Nat)
  | migrationTimeout (core : Nat)
  | migration (core : Nat)
  -- host writes to launch registers
  | claim (w : PortWrite)
  | leaseRenew (port : BitVec 1) (value : W64)
  | ownershipLapse
  | handover (w : PortWrite)
  | queueEnable (port : BitVec 1) (q : Nat) (value : W64)
  | queueDisable (port : BitVec 1) (q : Nat) (value : W64)
  | abort (port : BitVec 1) (q : Nat)
  | poke (port : BitVec 1) (q : Nat)
  | qtail (port : BitVec 1) (q : Nat) (value : W64)
  | sqEnable (port : BitVec 1) (value : W64)
  | sqDisable (port : BitVec 1) (value : W64)
  | sqtail (port : BitVec 1) (value : W64)
  -- launching and placing
  | launchCheck (q : Nat)
  | waitdepRecheck
  | dispatch
  | costSort (slot segment : Nat)
  | launchComplete (slot : Nat)
  | steal (thief slot : Nat)
  | coreHandout (chip : Nat)
  | plotStart (core : Nat)
  | walkerPreempt (chip : Nat) (choice : DiscardChoice)
  | persistentSwap (core : Nat)
  | teamResume (core : Nat)
  | election (slot : Nat)
  | gleaner (chip : Nat)
  | chipletFatal (chip : Nat) (cause : BitVec 8) (scanFails : Bool)
  | deviceFatal (cause : BitVec 8)
  -- sheaves
  | sheafSubmit (r : CtxRef)
  | sheafTake
  | sheafSplit (id : Nat)
  | returnArrival (id task tile : Nat)
  | sheafTimeout (id : Nat)
  -- invalidation
  | invalidationStart (port : BitVec 1) (value : W64)
  | invalidationDelivery
  | invalidationDrain
  -- host and management
  | warm (w : PortWrite)
  | fencectlFence (port : BitVec 1) (value : W64)
  | unfence (port : BitVec 1) (value : W64)
  | unfenceComplete (chip : Nat) (passed : Bool)
  | bankClear (port : BitVec 1) (bank : Nat)
  | injectionArm (port : BitVec 1) (value : W64)
  | sensorForce (port : BitVec 1) (value : W64)
  | registerWrite (port : BitVec 1) (off : Nat) (value : W64)
  | hostWrite (port : BitVec 1) (pa : Nat) (bytes : List Byte)
  | hostRead (port : BitVec 1) (bar : Bar) (addr : Nat) (n : Nat)
  | lease (seq : BitVec 32) (watts : BitVec 16) (durms : BitVec 32)
  | leaseLapse
  | railChange (rail : BitVec 2)
  | optTableLearn (kernel : BitVec 16) (phase : BitVec 8) (edp : BitVec 16)
  | thermalThrottle (chip : Nat)
  | thermalTrip (chip : Nat)
  | hbmRefresh (chip : Nat)
  | hbmTrip (chip : Nat)
  | portRetrain (port : Nat) (status : W64)
  | coldReset
  | perst (port0 port1 : Bool)
  | bringUp (data : BringUpData)
  | telemetry
  | errbank (n : Nat)
  | events (index : Nat)
  | fwupdate (image : List Byte)
  | reset
  | getVersion
  | getCapabilities
  | negotiateAlgorithms
  | getDigests
  | getCertificate
  | challenge (nonce : List Byte)
  | getMeasurements
  | sensorBelow85 (core : Nat)
  | linkUp (port : BitVec 1)
  | rowNeighbourLinkDown (chip : Nat)
  | fabricWindowArrival (op : FabricOp)
  | podTaskArrival (descriptor : List Byte)
  deriving DecidableEq, Repr

/-- A decoded syllable (R147): sync bit, guard and the instruction. -/
structure Syllable where
  y : Bool
  guard : Pred
  gneg : Bool
  op : Instr
  deriving DecidableEq, Repr

end Sys2Proof
end

