-- ==== Sys2Proof/Machine/State.lean ====
section
/-! DEFINITION. The state of the ZX-4096 as plain data: contexts, teams, cores, chiplets, memory and the hub,
with the reasons a step can stop. -/

namespace Sys2Proof.Machine

/-! ### Stops -/

/-- Why the machine stops. -/
inductive Fault where
  /-- Raised by `step` when the list of agents to move names a syllable as a step of the device.  Safe: no
  agent of the device moves so. -/
  | badInput
  deriving DecidableEq, Repr

/-- Why an instruction has no next state. -/
inductive Refusal where
  /-- Raised by an arm of `exec` whose instruction has no meaning yet.  Safe: nothing is claimed of it. -/
  | notModelled (mnemonic : String)
  deriving DecidableEq, Repr

/-! ### Queue registers (R184, R185) -/

/-- The condition of a queue register. -/
inductive Cond where
  | idle | live | dead
  deriving DecidableEq, Repr

/-- An entry of g, iq, lq or bq: ready with its poison mark, pending under a tag, or an error mark (R240). -/
inductive SEntry where
  | ready (v : W64) (poison : Bool)
  | pending (tag : Nat)
  | error (cause : Nat) (value : W64)
  deriving DecidableEq, Repr

/-- An entry of v: the image with its sector poison marks, pending under a tag, or an error mark. -/
inductive VEntry where
  | ready (bits : VBits) (marks : BitVec 128)
  | pending (tag : Nat)
  | error (cause : Nat) (value : W64)
  deriving DecidableEq, Repr

/-- A scalar queue register, entries oldest first. -/
structure SQueue where
  entries : List SEntry
  drop : Bool
  retain : Bool
  cond : Cond
  producer : Option Cluster
  deriving DecidableEq, Repr

/-- A vector queue register, entries oldest first. -/
structure VQueue where
  entries : List VEntry
  drop : Bool
  retain : Bool
  cond : Cond
  producer : Option Cluster
  deriving DecidableEq, Repr

/-! ### Accesses in a context's queues (R374, R378) -/

/-- Where bytes of an access lie: a physical address with the page's C bit, a byte of the core's own pool, or
a window address that is resolved when the access performs. -/
inductive Place where
  | phys (pa : Nat) (cached : Bool)
  | pool (addr : Nat)
  | window (va : Nat)
  deriving DecidableEq, Repr

/-- A run of bytes of an access: its virtual address, its place, and where it stands in the access's data.  A
parked piece has no place: its page faulted with the cause (R249). -/
structure Piece where
  va : Nat
  place : Option Place
  cause : Nat
  off : Nat
  len : Nat
  deriving DecidableEq, Repr

/-- What an access does when it performs. -/
inductive AccKind where
  | loadScalar (reg : Nat) (tag : Nat) (ty : ScalarTy)
  | loadVector (reg : Nat) (tag : Nat) (fmt : Fmt) (columns : Bool)
  | store (data : List Byte)
  | amo (op : AmoOp) (ty : AmoTy) (b c : W64) (tag : Nat) (supported : Bool)
  | red (op : RedOp) (ty : AmoTy) (b : W64)
  | bsig (amount : W64)
  | evsig (event : Nat) (target amount : W64)
  | lock (mode : LockMode) (domain : Nat) (level : LockLevel) (name : W64) (tag : Nat)
  | unlock (domain : Nat) (level : LockLevel) (name : W64)
  deriving DecidableEq, Repr

/-- An access of a context: its place in program order, its scopes as acquire and as release, and whether it
has been sent to a lock manager and waits there; and whether an invalidation under way waits for it (R248). -/
structure Access where
  seq : Nat
  kind : AccKind
  acquire : Option Scope
  release : Option Scope
  pieces : List Piece
  lastUse : Bool
  buffer : Mem
  poison : List Nat
  sent : Bool
  awaited : Bool := false
  deriving DecidableEq, Repr

/-! ### Contexts (R128, R185, R210, R398) -/

/-- A cause raised or pending: code, value, cluster, and whether TCAUSE.ASYNC is set. -/
structure CauseRec where
  cause : Nat
  value : W64
  cluster : Cluster
  async : Bool
  deriving DecidableEq, Repr

/-- A cached translation (R243, R245): ASID, page base, log2 of its size, physical base, C U X W RD. -/
structure TlbEntry where
  asid : Nat
  va : Nat
  log2 : Nat
  pa : Nat
  flags : BitVec 5
  deriving DecidableEq, Repr

/-- An engine command in a queue: its bytes, the context that enqueued it or kicked its chain, the
translations it has pinned, the address of a chained one, why a fetched one cannot be accepted, how far the
steps of R80 have come, the ring slot it obtained, the sectors or messages it has done, the place in its
context's program order that forks it, whether its pages were translated as a user's, and whether an invalidation
under way waits for it (R248); its number in its queue, whether it is to be fetched again (R271), what its data step
read before the first byte it writes, with the marked sectors: GATHER's and SCATTER's index array (R276) or ENCODE's
source scales (R280); and whether its last write to another package is still to be acknowledged, and whether its
addition at a completion word there has been sent (R287). -/
structure Command where
  bytes : List Byte
  ctx : Nat
  pins : List TlbEntry
  chained : Bool
  addr : Nat
  fail : Option (Nat × W64)
  started : Bool
  dataDone : Bool
  ringDone : Bool
  slot : Option Nat
  doneSectors : List Nat
  waitSince : Nat
  forkSeq : Nat
  user : Bool
  flags : BitVec 8
  awaited : Bool := false
  serial : Nat := 0
  refetch : Bool := false
  kick : Option (Nat × Nat) := none
  early : Option (Mem × List Nat) := none
  away : List Nat := []
  cplSent : Bool := false
  deriving DecidableEq, Repr

/-- A record stream (R317, R318): its submitter, its records' address and count, the pages it has pinned, MCTL's
NOFUSE as it stood, its place in the submitter's program order, the records fetched and the record in work with
its loop position, whether a segment was open, whether a handler submitted it, and the flags its tiles have
raised; whether an invalidation under way waits for it (R248); and the cycle of its append. -/
structure Stream where
  ctx : Nat
  base : W64
  count : Nat
  pins : List TlbEntry
  noFuse : Bool
  forkSeq : Nat
  started : Bool
  index : Nat
  record : Option (List Byte)
  tile : Nat
  segment : Bool
  handler : Bool
  flags : BitVec 5
  awaited : Bool := false
  since : Nat := 0
  deriving DecidableEq, Repr

/-- What a cluster waits for: the wait instructions of R188; a CSR write that the hub applies, with the destination of
a CSRX; submissions that wait for room; and what a HALT or an ERET that has issued waits for (R214, R402). -/
inductive WaitFor where
  | ringFilled (ring : Nat) (n : Nat)
  | ringFree (ring : Nat) (n : Nat)
  | event (ev : Nat) (n : Nat) (since : Nat)
  | barrier (scope : Scope) (va : Nat) (place : Place) (n : Nat)
  | streams (n : Nat)
  | interrupt
  | csr (n : Nat) (value : W64) (dst : Option Dst)
  | enqRoom (q : Nat) (c : Command)
  | sheafRoom (desc : List Byte) (ticket : Nat)
  | streamRoom (x : Stream)
  | halt
  | eret
  deriving DecidableEq, Repr

/-- An entry a syllable popped, with the drop mark and condition it leaves behind when put back. -/
structure Popped where
  reg : Nat
  entry : SEntry
  drop : Bool
  deriving DecidableEq, Repr

/-- What a cluster does.  A JOIN that waits keeps its target, its place in the order of arrival and the core cycle of
its arrival (R165); a stall, what it waits for, the register, and how many entries that register held, which the
syllable's own reads had not sufficed with (R186, R188). -/
inductive ClusterStatus where
  | running
  | resting
  | joined (target : W64) (order : Nat) (cycle : Nat)
  | waiting (why : WaitFor) (popped : List Popped)
  | stalled (room : Bool) (reg : Nat) (held : Nat)
  deriving DecidableEq, Repr

/-- One cluster of a context.  `next` is where it goes on after the slot its counter addresses, when a transfer of that
bundle has been taken while its own wait instruction has not ended (R161, R393). -/
structure ClusterState where
  pc : W64
  status : ClusterStatus
  preds : BitVec 64
  next : Option W64 := none
  deriving DecidableEq, Repr

/-- A context's section of the save image (R412).  The layout gives no place to an error mark of a vector
entry, to REMAPIX and CODEIX, to what a parked access is, or to the bundle after a wait's (cluster, counter, where it goes
on); they stand beside the dwords, with the place of each parked load's entry (tag, register, position in it), and with
the bay's loft and the bytes of it that the section fills, if it does not lie in HBM (R396). -/
structure Section where
  dwords : List W64
  vectorErrors : List (Nat × Nat × Nat × W64)
  parked : List Access
  tags : List (Nat × Nat × Nat)
  remapix : BitVec 12
  codeix : BitVec 6
  targets : List (Nat × W64 × W64) := []
  loft : Option (Nat × Nat) := none
  deriving DecidableEq, Repr

/-- What a PHASE asked of the rails: when, and the points found then (R217). -/
structure PhaseRec where
  since : Nat
  points : List Nat
  deriving DecidableEq, Repr

/-- A context of a team.  `asked` is its latest PHASE's request, and `phaseDone` the last phase it has left that lasted
100 µs or more (R419, R462). -/
structure Ctx where
  halted : Bool
  sup : Bool
  apart : Bool
  c : ClusterState
  a : ClusterState
  v : ClusterState
  m : ClusterState
  joins : Nat
  scalars : Table SQueue
  vectors : Table VQueue
  benes : Table BenesWord
  fpstat : BitVec 5
  cycleBase : Nat
  cycleCarry : Nat
  issued : W64
  mark : BitVec 8
  phase : BitVec 8
  counters : Table W64
  remapix : BitVec 12
  codeix : BitVec 6
  mctl : BitVec 2
  mfltrec : W64
  mflttile : W64
  segOpen : Bool
  segId : BitVec 16
  segCyc : BitVec 32
  segCrc : BitVec 32
  loadQ : List Access
  storeQ : List Access
  replay : List Access
  nextTag : Nat
  nextSeq : Nat
  faultReports : List CauseRec
  storeFaults : List CauseRec
  pending : List CauseRec
  trapDue : Option CauseRec
  rplix : BitVec 6
  tcause : BitVec 16
  tval : W64
  epc : Table (BitVec 56)
  timgix : BitVec 17
  saved : Option Section
  dbgpc : BitVec 56
  code : Mem
  lastIssue : Nat
  asked : Option PhaseRec := none
  phaseDone : Option (BitVec 8) := none
  deriving DecidableEq, Repr

/-! ### Teams (R128, R219, R264, R313, R337, R346) -/

/-- The states of a ring slot (R337). -/
inductive RingSlot where
  | free | claimed | published | taken | freed
  deriving DecidableEq, Repr

/-- A ring descriptor (R337).  Slots not listed are free. -/
structure Ring where
  config : W64
  tail : Nat
  pub : Nat
  head : Nat
  freep : Nat
  free : Nat
  claimed : Nat
  filled : Nat
  taken : Nat
  drops : Nat
  slots : Table RingSlot
  deriving DecidableEq, Repr

/-- A ring slot that a command without a post action of its own left to a later one: ring, whether it was taken, slot,
and the command's number in its queue (R78, R345). -/
structure Obtained where
  ring : Nat
  taken : Bool
  slot : Nat
  serial : Nat
  deriving DecidableEq, Repr

/-- An engine queue (R264 to R271): its commands, the chain's LINK, ACT and next fetch address, the context that
issued its last CHKICK and that one's place in program order, whether it is halted, its CSRs, when its last
command started, the ring slots left to later commands, the number of the next command to enter, and the number of
the command that halted it. -/
structure EngineQueue where
  cmds : List Command
  link : W64
  act : Bool
  next : Nat
  kicker : Nat
  kickSeq : Nat
  halt : Bool
  fault : W64
  pace : BitVec 16
  lastStart : Nat
  flag : BitVec 8
  obtained : List Obtained
  nextSerial : Nat
  haltAt : Nat
  lastKick : Option Nat := none
  deriving DecidableEq, Repr

/-- Who holds an operand slot, and the stream whose completion a pending release waits for (R313, R314).  PEND is
computed from the queues; READS is 0 between steps, since a tile issue is one step. -/
structure OpSlot where
  owner : Option Nat
  release : Option Nat
  deriving DecidableEq, Repr

/-- What a team runs: a plot of a launch in a slot of the dispatch table, at a walk position; or a tile of a task of
a sheaf. -/
inductive Work where
  | launch (slot : Nat) (plot : Nat) (pos : Nat)
  | sheaf (id : Nat) (task : Nat) (tile : Nat)
  deriving DecidableEq, Repr

/-- COMMIT's progress (R405). -/
inductive CommitState where
  | none
  | done (at_ : Nat)
  deriving DecidableEq, Repr

/-- A team (R128).  `served` is the context from which each cluster issued last (R24). -/
structure Team where
  work : Work
  age : Nat
  asid : BitVec 16
  lslot : Nat
  width : Nat
  vregs : Nat
  persist : Bool
  save : Bool
  supLaunch : Bool
  regTop : Nat
  spadTop : Nat
  l1Top : Nat
  yTop : Nat
  wTop : Nat
  commit : CommitState
  ctxs : Table Ctx
  rings : Table Ring
  events : Table Nat
  queues : Table EngineQueue
  opslots : Table OpSlot
  streams : List Stream
  waits : Nat
  woundsDue : List (Nat × W64)
  lkwage : BitVec 48
  lkwname : W64
  pairSig : W64
  pairRun : BitVec 2
  amoLog : List SEntry
  kernel : Nat
  startTime : Nat
  sliceStart : Nat
  swapDue : Bool
  preemptDue : Bool
  yielded : Bool
  served : Table Nat
  deriving DecidableEq, Repr

/-! ### Cores (R218, R225, R235) -/

/-- A word of a core's L1: its value and whether the core owns it (R236). -/
structure L1Word where
  value : Word32
  owned : Bool
  poison : Bool
  deriving DecidableEq, Repr

/-- A request to move a core's team (R415): when it arose, when a target was last sought, whether its 200 µs have
been noted, and the target once the request has been taken (a context has reached a migration point, or the time has
run out, while a target existed).  The move has begun once the team's remap entry holds (R416). -/
structure MigRequest where
  since : Nat
  lastTry : Nat
  timedOut : Bool
  target : Option Nat
  deriving DecidableEq, Repr

/-- What a core that has left its idle FIFO is to run (R123 to R127): the work, the run of a paired plot, and whether
a saved team resumes. -/
structure Assign where
  work : Work
  run : Nat
  resume : Bool
  deriving DecidableEq, Repr

/-- An ENCODE command that the hub has issued for a parity task in a copy queue of a core (R282): the queue, the sheaf and
the task; and where it stands in the queue, if a team has the core: its age and the number of its first later command. -/
structure HubEncode where
  queue : Nat
  sheaf : Nat
  task : Nat
  behind : Option (Nat × Nat)
  deriving DecidableEq, Repr

/-- A physical core.  `banks` holds the banks in retention and `bankUse` the core cycle of each bank's last access
(R230); `l1` holds the words of the L1 by physical address and `l1Slots` the sector that each of its 32-byte slots
was filled with, eight slots to a set (R235). -/
structure Core where
  resident : Bool
  team : Team
  lastLaunch : Option Nat
  assign : Option Assign
  hot : Bool
  pool : Mem
  live : BitVec 512
  banks : Table Nat
  bankUse : Table Nat
  opmem : Mem
  poison : List Nat
  l1 : Table L1Word
  l1Slots : Table Nat
  itlb : List TlbEntry
  dtlb : List TlbEntry
  migration : Option MigRequest
  temp : Int
  encodes : List HubEncode := []
  deriving DecidableEq, Repr

/-! ### Memory side -/

/-- A sector of a C = 1 host page held in a slice: its bytes and which are modified. -/
structure HostSector where
  data : List Byte
  dirty : BitVec 32
  deriving DecidableEq, Repr

/-- The tag of a line of a tensor other than tensor 0 (R68): ASID, tensor id, the tile's column and row, and the
indices of dimensions 2 and 3. -/
structure TensorTag where
  asid : Nat
  tensor : Nat
  tx : Nat
  ty : Nat
  i2 : Nat
  i3 : Nat
  deriving DecidableEq, Repr

/-- A byte that a line of a tensor holds: the physical address it stands for, its value, whether a write modified it
since it last reached memory, and its poison mark. -/
structure TensorByte where
  pa : Nat
  value : Byte
  dirty : Bool
  mark : Bool
  deriving DecidableEq, Repr

/-- A line of a tensor in an L2 slice (R68, R69): its tag, the slice that holds it (chiplet and bay), and its bytes by
their place in the tile, row by row.  A place that no byte of the tensor fills is never listed. -/
structure TensorLine where
  tag : TensorTag
  chip : Nat
  bay : Nat
  bytes : Table TensorByte
  deriving DecidableEq, Repr

/-- An open RED merge entry at a port (R359): a home slice, or the scratchpad port of a core; the operands by
byte address, each with the cores whose REDs it combines, in order of arrival; the REDs it holds, as core, context and place in program order; and whether an invalidation under way
waits for it (R248); and the launches that have ended with a RED of theirs in it (R110). -/
structure RedEntry where
  core : Option Nat
  line : Nat
  op : RedOp
  ty : AmoTy
  opened : Nat
  words : List (Nat × W64 × List Nat)
  members : List (Nat × Nat × Nat)
  awaited : Bool := false
  slots : List Nat := []
  deriving DecidableEq, Repr

/-- A lock name with its home (R362, R363). -/
structure LockName where
  asid : Nat
  domain : Nat
  level : LockLevel
  word : W64
  deriving DecidableEq, Repr

/-- A holding of a team, known by its age. -/
structure Holding where
  team : Nat
  mode : LockMode
  deriving DecidableEq, Repr

/-- A waiting request: the team, the mode it holds and seeks, and the lq entries to fill. -/
structure Waiter where
  team : Nat
  seeks : LockMode
  escalation : Bool
  fills : List (Nat × Nat)
  deriving DecidableEq, Repr

/-- The locks on one name (R370). -/
structure LockEntry where
  name : LockName
  holders : List Holding
  waiters : List Waiter
  deriving DecidableEq, Repr

/-! ### The hub (R90 to R131) -/

/-- The condition of a queue's front (R101). -/
inductive Front where
  | empty | check | waitdep | tthold | ready
  deriving DecidableEq, Repr

/-- A launch queue (R97 to R106): its registers, its front with the record read, when it became READY, and the
counts from QHEAD on that have completed.  `t0` is when the front entered READY, or WAITDEP (R102). -/
structure LaunchQueue where
  base : BitVec 64
  control : BitVec 64
  tail : BitVec 32
  head : BitVec 32
  fseq : BitVec 32
  front : Front
  record : List Byte
  t0 : Nat
  finished : List Nat
  deriving DecidableEq, Repr

/-- The state of a plot in the plot log (R136). -/
inductive PlotState where
  | started (age : Nat) (core : Nat)
  | committed (age : Nat) (core : Nat)
  | returned (age : Nat)
  | retired
  deriving DecidableEq, Repr

/-- A range (first, stride, count) of positions a chiplet still has to start, with positions returned to its front
(R118, R125). -/
structure Range where
  chip : Nat
  first : Nat
  stride : Nat
  count : Nat
  returned : List Nat
  deriving DecidableEq, Repr

/-- A launch in the dispatch table (R106): its record, queue and count; when it was dispatched; the master and deputy
chiplets and S (R118, R119); P; the plot log; the ranges; the costs as read and the sorted segments (R117); how many
plots have retired; the copy of its tensor table (R70); for each chiplet when it last got a core, since when it waits
(R124, R125) and since when it asks the master for positions (R121); how it ended early, STATUS, CAUSE and DETAIL; the members of S that have been fenced since (R464), those
whose share is to be reissued, and whether an election is under way (R120, R135); the code its clusters first fetch (R168); for a plot whose team was
wounded and discarded, what LKWAGE and LKWNAME record of it (R408); and the operating points that its dispatch
requested (R108). -/
structure Launch where
  record : List Byte
  queue : Nat
  count : Nat
  time : Nat
  master : Nat
  deputy : Option Nat
  chips : BitVec 16
  plots : Nat
  log : Table PlotState
  ranges : List Range
  costs : List Byte
  segments : Table (List Nat)
  retiredCount : Nat
  tensors : List Byte
  lastGot : Table Nat
  waitSince : Table Nat
  asked : Table Nat
  ended : Option (Nat × Nat × Nat)
  lost : BitVec 16
  toGlean : BitVec 16
  electing : Bool
  code : Mem
  wounds : Table (Nat × W64) := []
  points : List Nat := []
  deriving DecidableEq, Repr

/-- The sheaf descriptor queue (R114), with the order in which its posted sheaves began to wait. -/
structure SheafQueue where
  base : BitVec 64
  control : BitVec 64
  tail : BitVec 32
  head : BitVec 32
  posts : List Nat
  deriving DecidableEq, Repr

/-- A row of an operand of a sheaf: whether it lies in memory, its blocks' scale codes and mantissas, and whether it is
poisoned. -/
structure BlockRow where
  present : Bool
  cells : List (Nat × List Int)
  bad : Bool
  deriving DecidableEq, Repr

/-- A task of a sheaf (R143, R144, R423): the chiplet that runs it, or the package where `remote`; the next tile it
hands out; the cause that ended it, 0 for a fence; when it last got a core and since when it has waited for
one; and, of a parity task, the planes of each coded row that its ENCODE commands wrote (R282). -/
structure Task where
  id : Nat
  chip : Nat
  remote : Bool
  next : Nat
  ended : Option Nat
  lastGot : Nat
  waitSince : Option Nat
  coded : List (List BlockRow) := []
  deriving DecidableEq, Repr

/-- A return of a task for a tile position, its 1,024 records as numbers; it is missing where it has none (R423). -/
structure Return where
  task : Nat
  tile : Nat
  missing : Bool
  records : List Nat
  deriving DecidableEq, Repr

/-- What the Winnower has made of a tile position (R425). -/
inductive TileEnd where
  | ok | corrected | mismatch | undecodable
  deriving DecidableEq, Repr

/-- A tile position that has been decoded: its end, the tasks whose returns it was decoded from, those whose return
was named faulty, the first of its C tiles that R428 left unwritten, whether a late return disagreed without a located
fault (R426), and the blocks whose C tiles have been written (R429). -/
structure TileState where
  result : TileEnd
  used : List Nat
  named : List Nat
  range : Option Nat
  lateMismatch : Bool
  wrote : List Nat := []
  deriving DecidableEq, Repr

/-- What the encodes of a parity task come to (R280, R281): one plane, two, or neither. -/
inductive Fit where
  | plain | wide | never
  deriving DecidableEq, Repr

/-- Where a sheaf stands: to be split, placed with its encodes to come, running, complete, final. -/
inductive SheafPhase where
  | waiting | placed | running | complete | final
  deriving DecidableEq, Repr

/-- A sheaf the hub holds (R143, R146, R288, R423 to R432): its descriptor and ASID, the PRIO and ctx.LSLOT of its
tasks, the DETAIL of its CPLFAULT events, whether it came from the sheaf queue, the pod-scope sheaf's task it
computes, whether another package submitted it, which of how many super-blocks it computes, the place in its
submitter's program order that forks it (age, context, place); whether STAT and DONE translated at the split; its
copied set; the k and r' it runs with and the parity tasks that run in two planes; its times, tasks, returns and
decoded positions; the cause of its first failed task; the tasks and chiplets named faulty; its counts; and whether its
ENCODE commands have been issued and what those that have run came to (R282). -/
structure Sheaf where
  id : Nat
  desc : List Byte
  asid : BitVec 16
  prio : Nat
  lslot : Nat
  source : Nat
  hosted : Bool
  parent : Option (Nat × Nat)
  remote : Bool
  outer : Option (Nat × Nat)
  fork : Option (Nat × Nat × Nat)
  statOk : Bool
  doneOk : Bool
  set : W64
  phase : SheafPhase
  k : Nat
  r : Nat
  wide : List Nat
  uncoded : Bool
  splitAt : Nat
  doneAt : Nat
  finalAt : Nat
  timedOut : Bool
  tasks : List Task
  returns : List Return
  tiles : Table TileState
  cause : Option Nat
  faulty : List Nat
  faultChips : BitVec 16
  written : Nat
  corrected : Nat
  late : Bool
  issued : Bool := false
  fits : List (Nat × Fit) := []
  deriving DecidableEq, Repr

/-- A team out of any core: its image (R409, R413) with the chiplet that keeps it, the bay in whose loft its pool part
lies and that part's size, if it does not lie in the chiplet's HBM (R22), and when it left. -/
structure Image where
  chip : Nat
  loft : Option (Nat × Nat)
  team : Team
  pool : Mem
  live : BitVec 512
  opmem : Mem
  poison : List Nat
  since : Nat
  deriving DecidableEq, Repr

/-- A store, AMO or RED of a team that a launch's end has stopped, not performed then: it still performs or is dropped,
before the launch's record is written (R408, R422).  Of the team only the work and the ASID are kept. -/
structure Orphan where
  slot : Nat
  core : Nat
  team : Team
  access : Access
  deriving DecidableEq, Repr

/-- An entry of the remap table (R133). -/
structure Remap where
  valid : Bool
  hold : Bool
  phys : Nat
  deriving DecidableEq, Repr

/-- A chiplet. -/
structure Chip where
  live : Bool
  fifo : List Nat
  stlb : List TlbEntry
  refresh : Bool
  stackTemp : Int
  throttled : Option Nat
  deriving DecidableEq, Repr

/-- An error bank (R441). -/
structure ErrBank where
  status : W64
  addr : W64
  misc : W64
  time : Nat
  deriving DecidableEq, Repr

/-- A CE or UE on its way into a bank: the type of its event, ADDR, MISC and TIME. -/
structure BankEvent where
  ue : Bool
  kind : Nat
  addr : Nat
  misc : Nat
  time : Nat
  deriving DecidableEq, Repr

/-- What a fabric cycle has brought a bank: the bank as the cycle found it, and its events in R442's order. -/
structure BankCycle where
  cycle : Nat
  before : ErrBank
  events : List BankEvent
  deriving DecidableEq, Repr

/-- What of a sector in HBM differs from what its last write stored: data bits, bits of its code, and the difference of
its address check from that of the address read (R438). -/
structure HbmFlips where
  data : BitVec 256
  code : BitVec 10
  check : BitVec 6
  deriving DecidableEq, Repr

/-- A poisoned sector or a quarantined frame (R439). -/
structure PoisonRec where
  sectors : List Nat
  frames : List Nat
  deriving DecidableEq, Repr

/-- A record of the event recorder: four dwords (R446). -/
structure EventRec where
  d0 : W64
  d1 : W64
  d2 : W64
  d3 : W64
  deriving DecidableEq, Repr

/-- An invalidation under way (R247, R248): its range as it stood at GO. -/
structure Inval where
  delivered : Bool
  asid : Nat
  all : Bool
  lo : Nat
  hi : Nat
  deriving DecidableEq, Repr

/-- What the device sends out: interrupts, replies, read completions, fabric traffic; among it the head flit of an
all-to-all packet and its further flits (R284), the answer to a message that came from another package (R285), and a
completion word's addition in another package (R287); and the marks of a poisoned TLP that writes host memory (R440). -/
inductive Outgoing where
  | msix (port : Nat) (vector : Nat)
  | readData (port : Nat) (bytes : List Byte)
  | reply (bytes : List Byte)
  | a2a (header : BitVec 128) (bytes : List Byte)
  | poisonedWrite (port : Nat) (pa n : Nat)
  | a2aMore (bytes : List Byte)
  | a2aEnd (pkg : Nat) (core : Nat) (dropped : Bool)
  | fabric (pkg : Nat) (va : Nat) (bytes : List Byte)
  | fabricAdd (pkg : Nat) (va : Nat)
  | podTask (bytes : List Byte)
  | podReturn (bytes : List Byte)
  | fabricReply (cause : Nat) (bytes : List Byte)
  deriving DecidableEq, Repr

/-- An all-to-all message on its way (R283): its target in list-entry form (R76) with TF in bit 32, the age, ASID and
persistent launch of the team that sent it, its bytes, and the core it left; for one that came from another package,
that package and its sending core (R284). -/
structure Message where
  target : Nat
  age : Nat
  asid : BitVec 16
  launch : Option Nat
  bytes : List Byte
  source : Nat
  origin : Option (Nat × Nat) := none
  marks : List (Nat × Nat) := []
  deriving DecidableEq, Repr

/-- A command of another package whose runs in this package's memory have been translated and pinned (R286), and
whether an invalidation under way waits for it (R248). -/
structure FarCommand where
  pkg : Nat
  id : Nat
  asid : Nat
  pins : List TlbEntry
  awaited : Bool
  deriving DecidableEq, Repr

/-! ### Bookkeeping of issue -/

/-- A write that waits until every slot of the bundle has read (R186). -/
inductive Deferred where
  | scalar (cl : Cluster) (d : Dst) (e : SEntry)
  | vector (cl : Cluster) (d : VDst) (e : VEntry)
  | lq (e : SEntry)
  | pred (cl : Cluster) (n : Nat) (b : Bool)
  | counter (cl : Cluster) (reg : Nat) (v : W64)
  | jump (cl : Cluster) (target : W64)
  | split (cl : Cluster) (target : W64)
  | join (cl : Cluster) (target : W64)
  | trapAfter (r : CauseRec)
  | commit
  deriving DecidableEq, Repr

/-- The syllable that issues: where, and what it leaves to do.  `segClosed` says that a SEGE that raises its
mismatch has closed its segment (R335); `spent`, that the raised cause is the context's oldest deferred one (R395). -/
structure Issue where
  core : Nat
  ctx : Nat
  cluster : Cluster
  pc : W64
  word : W64
  alone : Bool
  writes : List Deferred
  popped : List Popped
  raised : Option CauseRec
  blocked : List (Cluster × Option (Bool × Nat))
  segClosed : Bool
  spent : Bool
  waits : List (Cluster × WaitFor × List Popped)
  deriving DecidableEq, Repr

/-- What the surroundings do to the device beside its table's steps. -/
inductive EnvAct where
  | tick (n : Nat)
  | evictL1 (core word : Nat)
  | evictSector (pa : Nat)
  | evictTlb (core : Nat) (which : Nat) (index : Nat)
  | setTemp (core : Nat) (t : Int)
  | setStackTemp (chip : Nat) (t : Int)
  | hostLinkDown (port : Nat)
  | atomicEnable (port : Nat) (on : Bool)
  | management (code : BitVec 8)
  | idleCore (core : Nat)
  | requester (r : Nat)
  | hostMemory (pa : Nat) (bytes : List Byte)
  | sramError (bank : Nat) (ue : Bool) (addr : Nat)
  | sliceUe (chip addr : Nat) (scanFails : Bool)
  | hbmFlips (pa : Nat) (f : HbmFlips)
  | poolUe (core addr : Nat)
  deriving DecidableEq, Repr

/-- An agent that moves next: a cluster that issues, a step of the device, or the surroundings. -/
inductive Mover where
  | issue (core ctx : Nat) (cluster : Cluster)
  | event (i : Instr)
  | env (a : EnvAct)
  deriving DecidableEq, Repr

/-! ### The machine -/

/-- Host-side registers of the hub (R92 to R114, R247, R441 to R467). -/
structure Hub where
  owner : Nat
  claimAt : Option Nat
  claimSent : List Nat
  leaseMs : Nat
  leaseStart : Nat
  agep : BitVec 32
  queues : Table LaunchQueue
  sheafQ : SheafQueue
  invva : W64
  invlen : W64
  invctl : W64
  inval : Option Inval
  evcount : Nat
  evring : Table EventRec
  evix : W64
  evctl : W64
  banks : Table ErrBank
  bankCycles : Table BankCycle
  injection : W64
  injectOrder : List Nat
  forces : Table W64
  fatal : Bool
  ready : Bool
  booted : Bool
  heldInReset : Bool
  livemask : BitVec 16
  fencemask : BitVec 16
  unfencing : BitVec 16
  rootbase : W64
  tiercap : BitVec 13
  pkgid : BitVec 8
  rated : BitVec 16
  floor : BitVec 16
  optix : W64
  optable : Table W64
  optUse : Table Nat
  rails : Table Nat
  throttle : Nat
  portst : Table W64
  leaseSeq : Option Nat
  leaseWatts : Nat
  leaseUntil : Nat
  codesets : Table W64
  lkmtx : Table (BitVec 36)
  tvec : BitVec 56
  ageCounter : Nat
  remap : Table Remap
  msixTable : Table W64
  msixPending : List (Nat × Nat)
  requester : Nat
  challenged : List Nat
  slotA : List Byte
  slotB : List Byte
  bootSlot : Nat
  nextSlot : Option Nat
  looped : List Nat
  fuseCount : Nat
  hostLinks : BitVec 2
  atomics : BitVec 2
  rowDown : BitVec 16
  sheafIds : Nat
  sheafTickets : Nat
  rechecked : Nat
  deriving DecidableEq, Repr

/-- The state of the machine.  `l2` and `hostSectors` are the sectors that flat lines hold at their home slices,
`l2Tags` the ASIDs whose lines hold each of them (R68), `tensorLines` the lines of the other tensors. -/
structure State where
  now : Nat
  turn : List Mover
  cycleAcc : Nat
  freeSeed : Nat
  issue : Issue
  mem : Mem
  hostSectors : Table HostSector
  l2 : Table Bool
  l2Tags : Table (List Nat)
  tensorLines : List TensorLine
  owners : Table Nat
  redEntries : List RedEntry
  poison : Table PoisonRec
  flips : Table HbmFlips
  locks : List LockEntry
  cores : Table Core
  chips : Table Chip
  launches : Table (Option Launch)
  sheaves : List Sheaf
  images : List Image
  orphans : List Orphan
  messages : List Message
  farCommands : List FarCommand
  hub : Hub
  outbox : List Outgoing
  deriving DecidableEq, Repr

/-! ### Reset -/

/-- An empty queue register: IDLE, powered (R128, R185). -/
def SQueue.empty : SQueue := ⟨[], false, false, .idle, none⟩

def VQueue.empty : VQueue := ⟨[], false, false, .idle, none⟩

/-- A cluster at plot start but for its counter: running, p0 to p63 zero but p0 (R128). -/
def ClusterState.start : ClusterState := ⟨0, .running, 1, none⟩

/-- A context that runs nothing. -/
def Ctx.start : Ctx where
  halted := true
  sup := false
  apart := false
  c := ClusterState.start
  a := ClusterState.start
  v := ClusterState.start
  m := ClusterState.start
  joins := 0
  scalars := []
  vectors := []
  benes := []
  fpstat := 0
  cycleBase := 0
  cycleCarry := 0
  issued := 0
  mark := 0
  phase := 0
  counters := []
  remapix := 0
  codeix := 0
  mctl := 0
  mfltrec := 0
  mflttile := 0
  segOpen := false
  segId := 0
  segCyc := 0
  segCrc := 0xFFFFFFFF
  loadQ := []
  storeQ := []
  replay := []
  nextTag := 0
  nextSeq := 0
  faultReports := []
  storeFaults := []
  pending := []
  trapDue := none
  rplix := 0
  tcause := 0
  tval := 0
  epc := []
  timgix := 0
  saved := none
  dbgpc := 0
  code := []
  lastIssue := 0

/-- A ring descriptor that is unset (R337). -/
def Ring.unset : Ring := ⟨0, 0, 0, 0, 0, 0, 0, 0, 0, 0, []⟩

/-- An empty engine queue. -/
def EngineQueue.empty : EngineQueue where
  cmds := []
  link := 0
  act := false
  next := 0
  kicker := 0
  kickSeq := 0
  halt := false
  fault := 0
  pace := 0
  lastStart := 0
  flag := 0
  obtained := []
  nextSerial := 0
  haltAt := 0

/-- A free operand slot. -/
def OpSlot.empty : OpSlot := ⟨none, none⟩

/-- No team. -/
def Team.none : Team where
  work := .launch 0 0 0
  age := 0
  asid := 0
  lslot := 0
  width := 1
  vregs := 0
  persist := false
  save := false
  supLaunch := false
  regTop := 0
  spadTop := 0
  l1Top := 0
  yTop := 0
  wTop := 0
  commit := .none
  ctxs := []
  rings := []
  events := []
  queues := []
  opslots := []
  streams := []
  waits := 0
  woundsDue := []
  lkwage := 0
  lkwname := 0
  pairSig := 0
  pairRun := 0
  amoLog := []
  kernel := 0
  startTime := 0
  sliceStart := 0
  swapDue := false
  preemptDue := false
  yielded := false
  served := []

/-- A core that holds no team. -/
def Core.reset : Core where
  resident := false
  team := Team.none
  lastLaunch := none
  assign := none
  hot := false
  pool := []
  live := 0
  banks := []
  bankUse := []
  opmem := []
  poison := []
  l1 := []
  l1Slots := []
  itlb := []
  dtlb := []
  migration := none
  temp := 0

/-- A chiplet before bring-up. -/
def Chip.reset : Chip := ⟨false, [], [], false, 50, none⟩

/-- A launch queue that is off. -/
def LaunchQueue.reset : LaunchQueue := ⟨0, 0, 0, 0, 0, .empty, [], 0, []⟩

/-- The default lock matrix (R365). -/
def defaultMatrix : BitVec 36 := 0x100450CF

/-- The hub after a cold reset, before bring-up. -/
def Hub.reset : Hub where
  owner := 0
  claimAt := none
  claimSent := []
  leaseMs := 0
  leaseStart := 0
  agep := 1000
  queues := []
  sheafQ := ⟨0, 0, 0, 0, []⟩
  invva := 0
  invlen := 0
  invctl := 0
  inval := none
  evcount := 0
  evring := []
  evix := 0
  evctl := 0
  banks := []
  bankCycles := []
  injection := 0
  injectOrder := []
  forces := []
  fatal := false
  ready := false
  booted := false
  heldInReset := false
  livemask := 0
  fencemask := 0
  unfencing := 0
  rootbase := 0
  tiercap := 0
  pkgid := 0
  rated := 0
  floor := 0
  optix := 0
  optable := []
  optUse := []
  rails := []
  throttle := 0
  portst := []
  leaseSeq := none
  leaseWatts := 0
  leaseUntil := 0
  codesets := []
  lkmtx := []
  tvec := 0
  ageCounter := 0
  remap := []
  msixTable := []
  msixPending := []
  requester := 0
  challenged := []
  slotA := []
  slotB := []
  bootSlot := 0
  nextSlot := none
  looped := []
  fuseCount := 0
  hostLinks := 3
  atomics := 3
  rowDown := 0
  sheafIds := 0
  sheafTickets := 0
  rechecked := 0

/-- No syllable issues. -/
def Issue.idle : Issue where
  core := 0
  ctx := 0
  cluster := .c
  pc := 0
  word := 0
  alone := true
  writes := []
  popped := []
  raised := none
  blocked := []
  segClosed := false
  spent := false
  waits := []

/-- The machine right after a cold reset (R453). -/
def State.reset : State where
  now := 0
  turn := []
  cycleAcc := 0
  freeSeed := 0
  issue := Issue.idle
  mem := []
  hostSectors := []
  l2 := []
  l2Tags := []
  tensorLines := []
  owners := []
  redEntries := []
  poison := []
  flips := []
  locks := []
  cores := []
  chips := []
  launches := []
  sheaves := []
  images := []
  orphans := []
  messages := []
  farCommands := []
  hub := Hub.reset
  outbox := []

end Sys2Proof.Machine
end

