-- ==== Sys2Proof/Machine/Store.lean ====
section
/-! DEFINITION. Tables, memories and the read and write of each part of the state. -/

namespace Sys2Proof.Machine

/-! ### Tables -/

/-- The value of a key, if listed. -/
def tfind {α : Type} : Table α → Nat → Option α
  | [], _ => none
  | (k, v) :: t, n => if k = n then some v else tfind t n

/-- The value of a key, `d` where it is not listed. -/
def tget {α : Type} (d : α) (t : Table α) (n : Nat) : α := (tfind t n).getD d

/-- Set the value of a key; the keys stay in rising order. -/
def tput {α : Type} : Table α → Nat → α → Table α
  | [], n, x => [(n, x)]
  | (k, v) :: t, n, x =>
      if n < k then (n, x) :: (k, v) :: t
      else if n = k then (n, x) :: t
      else (k, v) :: tput t n x

/-- Drop a key. -/
def tdel {α : Type} (t : Table α) (n : Nat) : Table α := t.filter (fun e => e.1 != n)

/-! ### Memories: rising addresses, no zero byte listed -/

/-- What a memory holds at an address: 0 where nothing is listed (DESIGN CHOICE, log entry 5). -/
def Mem.byte (m : Mem) (a : Nat) : Byte := tget 0 m a

/-- Drop the listed byte of an address from a memory in rising order. -/
def Mem.clear : Mem → Nat → Mem
  | [], _ => []
  | (k, v) :: t, n =>
      if n < k then (k, v) :: t
      else if n = k then t
      else (k, v) :: Mem.clear t n

/-- Write a byte; writing 0 removes the entry. -/
def Mem.set (m : Mem) (a : Nat) (b : Byte) : Mem :=
  if b = 0 then Mem.clear m a else tput m a b

/-- The bytes from an address. -/
def Mem.read (m : Mem) : Nat → Nat → List Byte
  | _, 0 => []
  | a, n + 1 => Mem.byte m a :: Mem.read m (a + 1) n

/-- Write bytes from an address upward. -/
def Mem.write (m : Mem) : Nat → List Byte → Mem
  | _, [] => m
  | a, b :: bs => Mem.write (Mem.set m a b) (a + 1) bs

/-- Every listed address is above `lo` or there is no bound. -/
def Mem.above (lo : Option Nat) : Mem → Bool
  | [] => true
  | (k, v) :: t =>
      (match lo with | some l => decide (l < k) | none => true) && (v != 0) && Mem.above (some k) t

/-- The canonical form of a memory. -/
def Mem.wf (m : Mem) : Bool := Mem.above none m

/-- A list of bytes as a number, least significant first (R5). -/
def leNat (bs : List Byte) : Nat := bs.foldr (fun b acc => b.toNat + 256 * acc) 0

/-- The low `n` bytes of a number, least significant first (R5). -/
def leBytes : Nat → Nat → List Byte
  | 0, _ => []
  | n + 1, x => BitVec.ofNat 8 x :: leBytes n (x / 256)

/-- Bits `lo` to `lo + len - 1` of a number. -/
def bits (x lo len : Nat) : Nat := x / 2 ^ lo % 2 ^ len

/-- A bit of a number. -/
def bit (x n : Nat) : Bool := x / 2 ^ n % 2 == 1

/-- A number of a byte list's field. -/
def fieldOf (bs : List Byte) (off len : Nat) : Nat := leNat ((bs.drop off).take len)

/-! ### Clusters and their numbers (R24) -/

def Cluster.index : Cluster → Nat
  | .c => 0 | .a => 1 | .v => 2 | .m => 3

def Cluster.all : List Cluster := [.c, .a, .v, .m]

def Ctx.cluster (c : Ctx) : Cluster → ClusterState
  | .c => c.c | .a => c.a | .v => c.v | .m => c.m

def Ctx.setCluster (c : Ctx) (cl : Cluster) (x : ClusterState) : Ctx :=
  match cl with
  | .c => { c with c := x }
  | .a => { c with a := x }
  | .v => { c with v := x }
  | .m => { c with m := x }

/-! ### Parts of the state -/

def State.core (s : State) (p : Nat) : Core := tget Core.reset s.cores p
def State.setCore (s : State) (p : Nat) (c : Core) : State := { s with cores := tput s.cores p c }
def State.modCore (s : State) (p : Nat) (f : Core → Core) : State := s.setCore p (f (s.core p))

def State.team (s : State) (p : Nat) : Team := (s.core p).team
def State.setTeam (s : State) (p : Nat) (t : Team) : State := s.setCore p { s.core p with team := t }
def State.modTeam (s : State) (p : Nat) (f : Team → Team) : State := s.setTeam p (f (s.team p))

def Team.ctx (t : Team) (k : Nat) : Ctx := tget Ctx.start t.ctxs k
def Team.setCtx (t : Team) (k : Nat) (c : Ctx) : Team := { t with ctxs := tput t.ctxs k c }

def State.ctx (s : State) (p k : Nat) : Ctx := (s.team p).ctx k
def State.setCtx (s : State) (p k : Nat) (c : Ctx) : State := s.setTeam p ((s.team p).setCtx k c)
def State.modCtx (s : State) (p k : Nat) (f : Ctx → Ctx) : State := s.setCtx p k (f (s.ctx p k))

def State.chip (s : State) (c : Nat) : Chip := tget Chip.reset s.chips c
def State.setChip (s : State) (c : Nat) (x : Chip) : State := { s with chips := tput s.chips c x }

def State.launch (s : State) (n : Nat) : Option Launch := tget none s.launches n
def State.setLaunch (s : State) (n : Nat) (l : Option Launch) : State :=
  { s with launches := tput s.launches n l }

def Ctx.squeue (c : Ctx) (r : Nat) : SQueue := tget SQueue.empty c.scalars r
def Ctx.setSqueue (c : Ctx) (r : Nat) (q : SQueue) : Ctx := { c with scalars := tput c.scalars r q }
def Ctx.vqueue (c : Ctx) (r : Nat) : VQueue := tget VQueue.empty c.vectors r
def Ctx.setVqueue (c : Ctx) (r : Nat) (q : VQueue) : Ctx := { c with vectors := tput c.vectors r q }

def Team.ring (t : Team) (n : Nat) : Ring := tget Ring.unset t.rings n
def Team.setRing (t : Team) (n : Nat) (r : Ring) : Team := { t with rings := tput t.rings n r }
def Team.event (t : Team) (n : Nat) : Nat := tget 0 t.events n
def Team.setEvent (t : Team) (n x : Nat) : Team := { t with events := tput t.events n x }
def Team.queue (t : Team) (n : Nat) : EngineQueue := tget EngineQueue.empty t.queues n
def Team.setQueue (t : Team) (n : Nat) (q : EngineQueue) : Team := { t with queues := tput t.queues n q }
def Team.slot (t : Team) (n : Nat) : OpSlot := tget OpSlot.empty t.opslots n
def Team.setSlot (t : Team) (n : Nat) (o : OpSlot) : Team := { t with opslots := tput t.opslots n o }

/-- The remap entry of a logical core: VALID, not HOLD, itself, where software changed nothing (R133). -/
def State.remap (s : State) (l : Nat) : Remap := (tfind s.hub.remap l).getD ⟨true, false, l⟩
def State.setRemap (s : State) (l : Nat) (r : Remap) : State :=
  { s with hub := { s.hub with remap := tput s.hub.remap l r } }

def State.queueReg (s : State) (q : Nat) : LaunchQueue := tget LaunchQueue.reset s.hub.queues q
def State.setQueueReg (s : State) (q : Nat) (x : LaunchQueue) : State :=
  { s with hub := { s.hub with queues := tput s.hub.queues q x } }

def State.lkmtx (s : State) (d : Nat) : BitVec 36 := tget defaultMatrix s.hub.lkmtx d

/-- TIMENS: nanoseconds of device time (R7, R96); 36 units of `now` are 5 ns. -/
def State.timens (s : State) : Nat := s.now * 5 / 36

/-- A span of device time in nanoseconds, as units of `now`. -/
def nsUnits (ns : Nat) : Nat := ns * 36 / 5

def State.emit (s : State) (o : Outgoing) : State := { s with outbox := s.outbox ++ [o] }

end Sys2Proof.Machine
end

