-- ==== Sys2Proof/Machine/Section.lean ====
section
/-! DEFINITION. A context's section of the save image: how a context is written into dwords (R412), the
checks ERET makes of them (R403), and how a context is read back. -/

namespace Sys2Proof.Machine

/-- The core clock of the lowest of VMAT, VVEC and VSRAM, in units of 100 MHz (R460). -/
def pointClock : Nat → Nat
  | 0 => 12 | 1 => 16 | 2 => 20 | 3 => 24 | 4 => 27 | 5 => 30 | 6 => 33 | _ => 36

def State.clock (s : State) : Nat :=
  pointClock (min (tget 0 s.hub.rails 0) (min (tget 0 s.hub.rails 1) (tget 0 s.hub.rails 2)))

/-- Core cycles since reset. -/
def State.cycles (s : State) : Nat := s.cycleAcc / 72

/-- CYCLE of a context (R210): what it had carried in, and the cycles since. -/
def Ctx.cycleValue (c : Ctx) (cycles : Nat) : Nat := c.cycleCarry + (cycles - c.cycleBase)

/-- The number of streams of a context that have not completed (R322). -/
def Team.outstanding (t : Team) (k : Nat) : Nat := (t.streams.filter (fun x => x.ctx == k)).length

/-- MCLAIM (R322): one bit for each slot the context holds. -/
def Team.mclaim (t : Team) (k : Nat) : Nat :=
  (List.range 64).foldl (fun acc i => if (t.slot i).owner == some k then acc + 2 ^ i else acc) 0

/-- MSEQ (R322). -/
def Team.mseq (t : Team) (k : Nat) : Nat :=
  let c := t.ctx k
  c.segId.toNat * 2 ^ 24 + (if c.segOpen then 2 ^ 23 else 0) + t.streams.length * 16 + t.outstanding k

/-- A parked entry in RPLENT's form (R250). -/
def Piece.rplent (p : Piece) (write : Bool) : Nat :=
  p.cause * 2 ^ 56 + p.va / 65536 % 2 ^ 40 * 65536 + (if write then 1 else 0)

/-- Whether an access writes. -/
def AccKind.isWrite : AccKind → Bool
  | .loadScalar .. | .loadVector .. => false
  | _ => true

/-- The tag of the entry an access will fill. -/
def Access.tag : Access → Option Nat
  | { kind := .loadScalar _ t _, .. } => some t
  | { kind := .loadVector _ t _ _, .. } => some t
  | { kind := .amo _ _ _ _ t _, .. } => some t
  | { kind := .lock _ _ _ _ t, .. } => some t
  | _ => none

/-- The parked pages of an access, one entry a page (R249). -/
def Access.parkedPages (a : Access) : List Piece :=
  a.pieces.foldl (fun acc p =>
    if p.place.isNone && acc.all (fun q => q.va / 65536 != p.va / 65536) then acc ++ [p] else acc) []

/-- The replay entries of a context in order (R250). -/
def Ctx.replayEntries (c : Ctx) : List Nat :=
  c.replay.flatMap fun a => a.parkedPages.map fun p => p.rplent a.kind.isWrite

def condCode : Cond → Nat
  | .idle => 0 | .live => 1 | .dead => 2

def condOf : Nat → Cond
  | 1 => .live | 2 => .dead | _ => .idle

/-- A directory dword (R412). -/
def dirDword (count : Nat) (retain drop : Bool) (c : Cond) : Nat :=
  count * 16 + (if retain then 8 else 0) + (if drop then 4 else 0) + condCode c

/-- The two dwords of a scalar entry.  A pending entry of a parked load counts as filled with zero (R404). -/
def SEntry.dwords : SEntry → List Nat
  | .ready v p => [v.toNat, if p then 1 else 0]
  | .pending _ => [0, 0]
  | .error c v => [v.toNat, c * 256 + 2]

/-- The little-endian dwords of a number. -/
def natDwords : Nat → Nat → List Nat
  | 0, _ => []
  | n + 1, x => x % 2 ^ 64 :: natDwords n (x / 2 ^ 64)

/-- A sparse image of bytes as a number of `n` bytes. -/
def memNat (m : Mem) (n : Nat) : Nat := leNat (Mem.read m 0 n)

/-- The 514 dwords of a vector entry; that of a parked load holds what has arrived, the rest zero (R404). -/
def vectorDwords (parked : List Access) : VEntry → List Nat
  | .ready b m => natDwords 512 b.toNat ++ natDwords 2 m.toNat
  | .pending t =>
      match parked.find? (fun a => a.tag == some t) with
      | some a => natDwords 512 (memNat a.buffer 4096) ++ [0, 0]
      | none => natDwords 514 0
  | .error _ _ => natDwords 514 0

def clusterMask (c : Ctx) (f : ClusterState → Bool) : Nat :=
  (if f c.c then 1 else 0) + (if f c.a then 2 else 0) + (if f c.v then 4 else 0) + (if f c.m then 8 else 0)

def ClusterState.isResting (x : ClusterState) : Bool := x.status == .resting
def ClusterState.isJoined (x : ClusterState) : Bool :=
  match x.status with | .joined .. => true | _ => false

/-- ACTIVE: the clusters that do not rest (R398). -/
def Ctx.activeMask (c : Ctx) : Nat := clusterMask c (fun x => !x.isResting)

/-- The first 236 dwords of a section, the length aside. -/
def sectionHead (t : Team) (k : Nat) (cycles : Nat) : List Nat :=
  let c := t.ctx k
  let rep := c.replayEntries
  [c.activeMask * 2 ^ 12 + clusterMask c ClusterState.isJoined * 2 ^ 8 + (if c.apart then 1 else 0)]
    ++ [c.c.pc.toNat, c.a.pc.toNat, c.v.pc.toNat, c.m.pc.toNat]
    ++ [c.c.preds.toNat, c.a.preds.toNat, c.v.preds.toNat, c.m.preds.toNat]
    ++ (List.range 8).flatMap (fun i => natDwords 8 (tget 0 c.benes i).toNat)
    ++ [c.fpstat.toNat, c.cycleValue cycles % 2 ^ 64, c.issued.toNat, c.mark.toNat]
    ++ (List.range 6).map (fun i => (tget 0 c.counters i).toNat)
    ++ [c.mctl.toNat, t.mseq k, c.mfltrec.toNat, c.mflttile.toNat, c.segCyc.toNat, t.mclaim k]
    ++ [(if c.segOpen then 2 ^ 48 else 0) + c.segId.toNat * 2 ^ 32 + c.segCrc.toNat]
    ++ [rep.length]
    ++ (List.range 64).map (fun i => rep.getD i 0)
    ++ (List.range 64).map (fun i =>
        if i < 62 then
          let q := c.squeue i
          dirDword q.entries.length q.retain q.drop q.cond
        else 0)
    ++ (List.range 16).map (fun i =>
        let q := c.vqueue i
        dirDword q.entries.length q.retain q.drop q.cond)

/-- Bytes of an access that one bit of an element mask stands for: 8 of the 4,096, or 32 of the 16,384 of an .ra load
(DEDUCED, log entry 14). -/
def AccKind.maskUnit : AccKind → Nat
  | .loadVector _ _ .ra _ => 32
  | _ => 8

/-- The parked part of a page as a mask, in the order of the access's bytes (DEDUCED, log entry 14). -/
def parkedMask (a : Access) (p : Piece) : Nat :=
  let u := a.kind.maskUnit
  a.pieces.foldl (fun acc q =>
    if q.place.isNone && q.va / 65536 == p.va / 65536 then
      acc ||| ((2 ^ ((q.len + u - 1) / u) - 1) * 2 ^ (q.off / u))
    else acc) 0

/-- The dwords of a parked entry: mask, then the store's data or zeros (R412). -/
def parkedDwords (a : Access) (p : Piece) : List Nat :=
  natDwords 8 (parkedMask a p) ++
    natDwords 512 (match a.kind with | .store d => leNat d | _ => 0)

/-- Entries of vector registers that are error marks: register, position, cause, value. -/
def Ctx.vectorErrors (c : Ctx) : List (Nat × Nat × Nat × W64) :=
  (List.range 16).flatMap fun r =>
    (c.vqueue r).entries.zipIdx.filterMap fun (e, i) =>
      match e with
      | .error cause v => some (r, i, cause, v)
      | _ => none

/-- The entries of parked loads: tag, register, position in it. -/
def Ctx.parkedTags (c : Ctx) : List (Nat × Nat × Nat) :=
  (List.range 16).flatMap fun r =>
    (c.vqueue r).entries.zipIdx.filterMap fun (e, i) =>
      match e with
      | .pending t => some (t, r, i)
      | _ => none

/-- The replay part that the parked accesses beside the dwords give: entries, and masks with data. -/
def replayPart (parked : List Access) : List Nat × List Nat :=
  (parked.flatMap fun a => a.parkedPages.map fun y => y.rplent a.kind.isWrite,
    parked.flatMap fun a => a.parkedPages.flatMap (parkedDwords a))

/-- The section of a context (R412). -/
def makeSection (t : Team) (k : Nat) (cycles : Nat) : Section :=
  let c := t.ctx k
  let body := sectionHead t k cycles
    ++ (List.range 62).flatMap (fun i => (c.squeue i).entries.flatMap SEntry.dwords)
    ++ (List.range 16).flatMap (fun i => (c.vqueue i).entries.flatMap (vectorDwords c.replay))
    ++ (replayPart c.replay).2
  let d0 := (body.length + 1) * 2 ^ 32 + 2 ^ 8 + k
  { dwords := (d0 :: body).map (BitVec.ofNat 64)
    vectorErrors := c.vectorErrors
    parked := c.replay
    tags := c.parkedTags
    remapix := c.remapix
    codeix := c.codeix
    targets := Cluster.all.filterMap fun cl => (Ctx.cluster c cl).next.map fun t => (Cluster.index cl, (Ctx.cluster c cl).pc, t) }

/-- A dword of a section; zero beyond it (R398). -/
def Section.dword (x : Section) (i : Nat) : Nat := (x.dwords.getD i 0).toNat

/-- The depth of a queue register (R184). -/
def queueDepth (r : Nat) : Nat :=
  if r < 56 then 4 else if r < 60 then 16 else if r < 62 then 32 else 0

def vectorDepth : Nat := 2

/-- A directory dword that R403 accepts for a register of a depth. -/
def dirOk (d depth : Nat) : Bool :=
  let count := bits d 4 6
  let cond := bits d 0 2
  d < 2 ^ 10 && cond != 3 && count ≤ depth && (cond == 1 || count == 0)

/-- The count a directory dword gives: registers g0 to g63, then v0 to v15. -/
def Section.count (x : Section) (r : Nat) : Nat := bits (x.dword (156 + r)) 4 6

/-- The first dword of the entries of a vector register. -/
def Section.vectorStart (x : Section) (r : Nat) : Nat :=
  236 + 2 * ((List.range 62).map x.count).sum + 514 * ((List.range r).map fun i => x.count (64 + i)).sum

/-- Parked entries: RPLCNT. -/
def Section.parkedCount (x : Section) : Nat := x.dword 91

/-- The length the counts of a section give. -/
def Section.expected (x : Section) : Nat := x.vectorStart 16 + 520 * x.parkedCount

/-- The length a section gives itself. -/
def Section.length (x : Section) : Nat := bits (x.dword 0) 32 32

/-- The reserved bits of the fixed part are zero (R403, R412). -/
def Section.reservedOk (x : Section) : Bool :=
  bits (x.dword 0) 16 16 == 0 && bits (x.dword 0) 2 6 == 0
    && bits (x.dword 1) 1 7 == 0 && x.dword 1 < 2 ^ 16
    && (List.range 4).all (fun i => x.dword (2 + i) < 2 ^ 56)
    && (List.range 8).all (fun i => x.dword (10 + 8 * i + 5) < 2 ^ 32 && x.dword (10 + 8 * i + 6) == 0
        && x.dword (10 + 8 * i + 7) == 0)
    && x.dword 74 < 32 && x.dword 77 < 256 && x.dword 84 < 4 && x.dword 88 < 2 ^ 32
    && x.dword 85 < 2 ^ 40 && bits (x.dword 85) 8 15 == 0
    && x.dword 90 < 2 ^ 49 && x.parkedCount ≤ 64
    && (List.range 64).all (fun i => bits (x.dword (92 + i)) 2 14 == 0)
    && x.dword 218 == 0 && x.dword 219 == 0

/-- The mark dwords of the entries have no reserved bit set. -/
def marksOk (x : Section) (start n : Nat) : Bool :=
  (List.range n).all fun i =>
    let d := x.dword (start + 2 * i + 1)
    bits d 2 6 == 0 && d < 2 ^ 16

/-- A handler's write of a dword of its section (R398).  A longer length makes the section longer; what it then holds is
free (log entry 34). -/
def Section.edit (x : Section) (i : Nat) (v : W64) (seed : Nat) : Section :=
  let n := x.dwords.length
  let longer := max (i + 1) (if i = 0 then min (bits v.toNat 32 32) (2 ^ 17) else 0) - n
  { x with dwords := (x.dwords ++ (List.range longer).map fun j => Config.freeWord (seed + j)).set i v }

/-- R403: the sections ERET accepts. -/
def Section.ok (x : Section) : Bool :=
  x.length == x.expected && x.expected ≤ x.dwords.length && x.reservedOk
    && (List.range 62).all (fun i => dirOk (x.dword (156 + i)) (queueDepth i))
    && (List.range 16).all (fun i => dirOk (x.dword (220 + i)) vectorDepth)
    && marksOk x 236 ((List.range 62).map x.count).sum

/-! ### Parked accesses, as the dwords give them (R404, R412) -/

/-- A page's pieces of a parked access, with the entry's page and cause, without the parts whose mask bit is clear. -/
def Piece.reread (y : Piece) (u mask page cause : Nat) : List Piece :=
  let y := { y with va := page * 65536 + y.va % 65536, cause := cause }
  let n := (y.len + u - 1) / u
  if (List.range n).all fun i => bit mask (y.off / u + i) then [y]
  else (List.range n).filterMap fun i =>
    if bit mask (y.off / u + i) then some { y with va := y.va + u * i, off := y.off + u * i, len := min u (y.len - u * i) }
    else none

/-- Bytes of a list from an offset on, replaced. -/
def overwrite (data new : List Byte) (off : Nat) : List Byte :=
  data.take off ++ new ++ data.drop (off + new.length)

/-- Bytes of the store data of the parked entry whose dwords start at `at_`. -/
def Section.storeData (x : Section) (at_ off len : Nat) : List Byte :=
  (List.range len).map fun i => BitVec.ofNat 8 (x.dword (at_ + 8 + (off + i) / 8) / 2 ^ (8 * ((off + i) % 8)))

/-- One page of a parked access from the entry of a number: its pieces, and its part of the data. -/
def Section.rereadPage (x : Section) (a : Access) (y : Piece) (j : Nat) (acc : Access) : Access :=
  if x.parkedCount ≤ j then acc
  else
    let e := x.dword (92 + j)
    let at_ := x.vectorStart 16 + 520 * j
    let mask := leNat ((List.range 64).map fun i => BitVec.ofNat 8 (x.dword (at_ + i / 8) / 2 ^ (8 * (i % 8))))
    let mine := (a.pieces.filter fun q => q.place.isNone && q.va / 65536 == y.va / 65536).flatMap fun q =>
      q.reread a.kind.maskUnit mask (bits e 16 40) (bits e 56 8)
    { acc with
      pieces := acc.pieces ++ mine
      kind := match acc.kind with
        | .store d => .store (mine.foldl (fun d q => overwrite d (x.storeData at_ q.off q.len) q.off) d)
        | k => k }

/-- Parked accesses read back, their entries numbered from `j` on; one of which nothing is left is gone. -/
def Section.rereadAll (x : Section) : List Access → Nat → List Access
  | [], _ => []
  | a :: rest, j =>
      let pages := a.parkedPages
      let b := pages.zipIdx.foldl (fun acc e => x.rereadPage a e.1 (j + e.2) acc) { a with pieces := [] }
      let left := Section.rereadAll x rest (j + pages.length)
      if b.pieces.isEmpty then left else b :: left

/-- The parked accesses of a section: those beside it, as the handler's edits of its replay part leave them. -/
def Section.parkedNow (x : Section) : List Access :=
  let (es, ds) := replayPart x.parked
  let at_ := x.vectorStart 16
  if x.parkedCount == es.length && es.zipIdx.all (fun e => x.dword (92 + e.2) == e.1)
      && ds.zipIdx.all (fun e => x.dword (at_ + e.2) == e.1) then x.parked
  else x.rereadAll x.parked 0

/-- A scalar entry read back. -/
def entryOf (v mark : Nat) : SEntry :=
  if bit mark 1 then .error (bits mark 8 8) (BitVec.ofNat 64 v) else .ready (BitVec.ofNat 64 v) (bit mark 0)

/-- Scalar registers read back from register `r` on, entries starting at dword `at_`. -/
def readScalars (x : Section) : Nat → Nat → Nat → Table SQueue × Nat
  | 0, _, at_ => ([], at_)
  | fuel + 1, r, at_ =>
      let d := x.dword (156 + r)
      let n := bits d 4 6
      let es := (List.range n).map fun i => entryOf (x.dword (at_ + 2 * i)) (x.dword (at_ + 2 * i + 1))
      let (rest, fin) := readScalars x fuel (r + 1) (at_ + 2 * n)
      if d = 0 then (rest, fin)
      else ((r, ⟨es, bit d 2, bit d 3, condOf (bits d 0 2), none⟩) :: rest, fin)

/-- A vector entry read back. -/
def vectorAt (x : Section) (r i at_ : Nat) : VEntry :=
  match x.vectorErrors.find? (fun e => e.1 == r && e.2.1 == i), x.tags.find? (fun t => t.2.1 == r && t.2.2 == i) with
  | some (_, _, cause, v), _ => .error cause v
  | none, some (t, _, _) => .pending t
  | none, none =>
      .ready (BitVec.ofNat 32768 ((List.range 512).foldr (fun j acc => x.dword (at_ + j) + 2 ^ 64 * acc) 0))
        (BitVec.ofNat 128 (x.dword (at_ + 512) + 2 ^ 64 * x.dword (at_ + 513)))

/-- Vector registers read back. -/
def readVectors (x : Section) : Nat → Nat → Nat → Table VQueue
  | 0, _, _ => []
  | fuel + 1, r, at_ =>
      let d := x.dword (220 + r)
      let n := bits d 4 6
      let es := (List.range n).map fun i => vectorAt x r i (at_ + 514 * i)
      let rest := readVectors x fuel (r + 1) (at_ + 514 * n)
      if d = 0 then rest
      else (r, ⟨es, bit d 2, bit d 3, condOf (bits d 0 2), none⟩) :: rest

/-- A cluster read back: its counter and predicates, of which p0 stays 1; it runs unless it rests (R402). -/
def clusterOf (epc : BitVec 56) (preds : Nat) (active : Bool) : ClusterState :=
  { pc := BitVec.ofNat 64 epc.toNat
    status := if active then .running else .resting
    preds := BitVec.ofNat 64 preds ||| 1 }

/-- A restored cluster goes on where it would have, unless its counter has been changed. -/
def Section.targeted (x : Section) (cl : Cluster) (y : ClusterState) : ClusterState :=
  { y with next := (x.targets.find? fun e => e.1 == Cluster.index cl && e.2.1 == y.pc).map fun e => e.2.2 }

/-- A context restored from its section, its counters from the EPC CSRs (R402, R410).  The marker of its latest PHASE is
no part of the section (R419). -/
def restoreCtx (old : Ctx) (x : Section) (epc : Nat → BitVec 56) (cycles : Nat) (sup : Bool) : Ctx :=
  let flags := x.dword 1
  let sc := readScalars x 62 0 236
  { old with
    halted := false
    sup := sup
    apart := bit flags 0
    c := x.targeted .c (clusterOf (epc 0) (x.dword 6) (bit flags 12))
    a := x.targeted .a (clusterOf (epc 1) (x.dword 7) (bit flags 13))
    v := x.targeted .v (clusterOf (epc 2) (x.dword 8) (bit flags 14))
    m := x.targeted .m (clusterOf (epc 3) (x.dword 9) (bit flags 15))
    joins := 0
    scalars := sc.1
    vectors := readVectors x 16 0 sc.2
    benes := (List.range 8).map fun i =>
      (i, BitVec.ofNat 352 ((List.range 8).foldr (fun j acc => x.dword (10 + 8 * i + j) + 2 ^ 64 * acc) 0))
    fpstat := BitVec.ofNat 5 (x.dword 74)
    cycleCarry := x.dword 75
    cycleBase := cycles
    issued := BitVec.ofNat 64 (x.dword 76)
    mark := BitVec.ofNat 8 (x.dword 77)
    counters := (List.range 6).map fun i => (i, BitVec.ofNat 64 (x.dword (78 + i)))
    mctl := BitVec.ofNat 2 (x.dword 84)
    mfltrec := BitVec.ofNat 64 (x.dword 86)
    mflttile := BitVec.ofNat 64 (x.dword 87)
    segCyc := BitVec.ofNat 32 (x.dword 88)
    segOpen := bit (x.dword 90) 48
    segId := BitVec.ofNat 16 (x.dword 90 / 2 ^ 32)
    segCrc := BitVec.ofNat 32 (x.dword 90)
    replay := x.parkedNow
    remapix := x.remapix
    codeix := x.codeix
    saved := none }

end Sys2Proof.Machine
end

