-- ==== Sys2Proof/Machine/LockMgr.lean ====
section
/-! DEFINITION. The lock managers (R362 to R373): names, modes, requests, grants, wounds and releases. -/

namespace Sys2Proof.Machine

/-! ### Filling reserved entries (R187, R189) -/

/-- Give a pending scalar entry its value; an entry that a replace superseded is gone (R187). -/
def fillEntries (tag : Nat) (e : SEntry) (es : List SEntry) : List SEntry :=
  es.map fun x => if x = .pending tag then e else x

def Ctx.fillScalar (c : Ctx) (reg tag : Nat) (e : SEntry) : Ctx :=
  let q := c.squeue reg
  c.setSqueue reg { q with entries := fillEntries tag e q.entries }

def Ctx.fillVector (c : Ctx) (reg tag : Nat) (e : VEntry) : Ctx :=
  let q := c.vqueue reg
  c.setVqueue reg { q with entries := q.entries.map fun x => if x = .pending tag then e else x }

/-- The number of lq (R184). -/
def lqReg : Nat := 60

def Ctx.fillLq (c : Ctx) (tag : Nat) (e : SEntry) : Ctx := c.fillScalar lqReg tag e

/-! ### Teams by age (R364) -/

/-- The cores that hold a team. -/
def State.residents (s : State) : List (Nat × Core) := s.cores.filter (fun e => e.2.resident)

/-- The core on which the team of an age is resident. -/
def State.coreOfAge (s : State) (age : Nat) : Option Nat :=
  (s.residents.find? (fun e => e.2.team.age == age && e.2.team.pairRun.toNat < 2)).map Prod.fst

/-! ### Names (R362, R363) -/

def tidOf (w : W64) : Nat := bits w.toNat 52 12

/-- A name word with the fields its level ignores taken as zero. -/
def normWord (level : LockLevel) (w : W64) : W64 :=
  match level with
  | .tensor => BitVec.ofNat 64 (tidOf w * 2 ^ 52)
  | .tile => BitVec.ofNat 64 (bits w.toNat 26 38 * 2 ^ 26)
  | .line => w

/-- Home of a tensor's names: chiplet and bay. -/
def lockHome (asid tid : Nat) : Nat × Nat :=
  (Nat.xor (Nat.xor (bits tid 8 4) (bits tid 4 4)) (bits asid 0 4), Nat.xor (bits tid 0 4) (bits asid 4 4))

def LockName.home (n : LockName) : Nat × Nat := lockHome n.asid (tidOf n.word)

/-- The parent of a name. -/
def LockName.parent (n : LockName) : Option LockName :=
  match n.level with
  | .tensor => none
  | .tile => some { n with level := .tensor, word := normWord .tensor n.word }
  | .line => some { n with level := .tile, word := normWord .tile n.word }

/-! ### Modes (R365, R366) -/

def lockCode : LockMode → Nat
  | .is => 0 | .ix => 1 | .s => 2 | .six => 3 | .inc => 4 | .x => 5

/-- Bit 6r + c of a domain's matrix. -/
def State.compatible (s : State) (domain : Nat) (r c : LockMode) : Bool :=
  bit (s.lkmtx domain).toNat (6 * lockCode r + lockCode c)

/-- The least mode as strong as two (R366). -/
def lockSup : LockMode → LockMode → LockMode
  | .is, m => m
  | m, .is => m
  | .ix, .ix => .ix
  | .ix, .s => .six
  | .ix, .six => .six
  | .ix, .inc => .x
  | .s, .ix => .six
  | .s, .s => .s
  | .s, .six => .six
  | .s, .inc => .x
  | .six, .inc => .x
  | .inc, .ix => .x
  | .inc, .s => .x
  | .inc, .six => .x
  | .six, .ix => .six
  | .six, .s => .six
  | .six, .six => .six
  | .inc, .inc => .inc
  | .x, _ => .x
  | _, .x => .x

/-- R366: whether a parent's mode admits a request. -/
def parentAdmits (requested held : LockMode) : Bool :=
  match requested, held with
  | _, .inc => false
  | .is, _ => true
  | .s, _ => true
  | _, .ix => true
  | _, .six => true
  | _, .x => true
  | _, _ => false

/-! ### Entries -/

def LockEntry.heldBy (e : LockEntry) (team : Nat) : Option LockMode :=
  (e.holders.find? (fun h => h.team == team)).map Holding.mode

def State.lockEntry (s : State) (n : LockName) : LockEntry :=
  (s.locks.find? (fun e => e.name == n)).getD ⟨n, [], []⟩

/-- Put back a name's entry; a name without holders and waiters has none. -/
def State.putLock (s : State) (e : LockEntry) : State :=
  let rest := s.locks.filter (fun x => x.name != e.name)
  { s with locks := if e.holders.isEmpty && e.waiters.isEmpty then rest else rest ++ [e] }

/-- Entries a manager uses (R370). -/
def State.managerUse (s : State) (home : Nat × Nat) : Nat :=
  ((s.locks.filter (fun e => e.name.home == home)).map
    (fun e => e.holders.length + e.waiters.length)).sum

/-- The status word of R369. -/
def lockStatus (code : Nat) (held : Option LockMode) : W64 :=
  BitVec.ofNat 64 (code + (match held with | some m => 2 ^ 11 + lockCode m * 2 ^ 8 | none => 0))

/-- A LOCK whose status returns leaves its context's store queue and acquires at .pkg (R361, R369). -/
def State.lockDone (s : State) (p ctx tag : Nat) (w : W64) : State :=
  let s := s.modCtx p ctx fun c =>
    { c.fillLq tag (.ready w false) with
      storeQ := c.storeQ.filter (fun a => a.tag != some tag) }
  s.modCore p fun c => { c with l1 := c.l1.filter (fun e => e.2.owned) }

/-- Fill lq entries of a team with a status. -/
def State.fillLocks (s : State) (team : Nat) (fills : List (Nat × Nat)) (w : W64) : State :=
  match s.coreOfAge team with
  | none => s
  | some p => fills.foldl (fun s f => s.lockDone p f.1 f.2 w) s

/-- Whether a team has completed COMMIT. -/
def State.committedAge (s : State) (team : Nat) : Bool :=
  match s.coreOfAge team with
  | some p => (s.team p).commit != .none
  | none => s.images.any (fun i => i.team.age == team && i.team.commit != .none)

/-- Send a wound towards a holder (R372).  It takes effect when it reaches the holder's core. -/
def State.sendWound (s : State) (holder by_ : Nat) (word : W64) : State :=
  match s.coreOfAge holder with
  | some p => s.modTeam p (fun t => { t with woundsDue := t.woundsDue ++ [(by_, word)] })
  | none =>
      { s with images := s.images.map fun i =>
          if i.team.age == holder then
            { i with team := { i.team with woundsDue := i.team.woundsDue ++ [(by_, word)] } } else i }

/-- R372 for one waiter: every younger, uncommitted, incompatible holder is wounded. -/
def State.woundFor (s : State) (e : LockEntry) (w : Waiter) : State :=
  e.holders.foldl (fun s h =>
    if h.team != w.team && !s.compatible e.name.domain w.seeks h.mode && w.team < h.team
        && !s.committedAge h.team
    then s.sendWound h.team w.team e.name.word else s) s

/-- R372 for the waiting request of a team that has just been queued. -/
def State.woundQueued (s : State) (n : LockName) (team : Nat) : State :=
  let e := s.lockEntry n
  (e.waiters.filter fun w => w.team == team).foldl (fun s w => s.woundFor e w) s

/-- R372 for every waiter of a name, as a holder has been granted. -/
def State.woundAll (s : State) (n : LockName) : State :=
  let e := s.lockEntry n
  e.waiters.foldl (fun s w => s.woundFor e w) s

/-- Whether a mode is compatible with every holder but the team itself. -/
def State.fitsHolders (s : State) (e : LockEntry) (team : Nat) (m : LockMode) : Bool :=
  e.holders.all fun h => h.team == team || s.compatible e.name.domain m h.mode

/-- Make a team hold a mode. -/
def LockEntry.grant (e : LockEntry) (team : Nat) (m : LockMode) : LockEntry :=
  { e with holders := e.holders.filter (fun h => h.team != team) ++ [⟨team, m⟩] }

/-- The scan of R371 over waiters, front first: `ahead` are those passed over.  Each grant applies wound-wait again to
those that still wait (R372). -/
def State.scanWaiters (s : State) (e : LockEntry) : List Waiter → List Waiter → State × LockEntry × List Waiter
  | [], ahead => (s, e, ahead)
  | w :: ws, ahead =>
      if s.fitsHolders e w.team w.seeks
          && ahead.all (fun a => s.compatible e.name.domain w.seeks a.seeks) then
        let e := e.grant w.team w.seeks
        let s := s.fillLocks w.team w.fills (lockStatus 0 (some w.seeks))
        State.scanWaiters ((ahead ++ ws).foldl (fun s x => s.woundFor e x) s) e ws ahead
      else State.scanWaiters s e ws (ahead ++ [w])

/-- The scan of R371 for a name. -/
def State.rescan (s : State) (n : LockName) : State :=
  let e := s.lockEntry n
  let (s', e', ws) := s.scanWaiters { e with waiters := [] } e.waiters []
  s'.putLock { e' with waiters := ws }

/-! ### Requests (R370) -/

/-- Put an escalation behind the escalations that wait and ahead of other waiters. -/
def insertEscalation (w : Waiter) : List Waiter → List Waiter
  | [] => [w]
  | x :: xs => if x.escalation then x :: insertEscalation w xs else w :: x :: xs

/-- A team is granted a mode: the requests of it that waited end with the same status, wound-wait is applied for the
others, and the scan of R371 runs. -/
def State.grantNow (s : State) (e : LockEntry) (team : Nat) (m : LockMode) : State :=
  let mine := e.waiters.filter fun w => w.team == team
  let e' := e.grant team m
  let s := s.putLock { e' with waiters := e.waiters.filter fun w => w.team != team }
  let s := s.fillLocks team (mine.flatMap Waiter.fills) (lockStatus 0 (some m))
  (s.woundAll e.name).rescan e.name

/-- Whether a mode that a team asks for can be granted now: a holder's escalation looks at the other holders, another
request at the older waiters too (R370). -/
def State.grantable (s : State) (e : LockEntry) (team : Nat) (m : LockMode) : Bool :=
  s.fitsHolders e team m
    && ((e.heldBy team).isSome
      || e.waiters.all fun w => team ≤ w.team || s.compatible e.name.domain m w.seeks)

/-- A LOCK request at its home manager: the outcome, and none where it waits (R370).  A request of a team that waits
for the name already raises the mode it seeks, in its place in the queue (log entry 73). -/
def State.lockRequest (s : State) (team ctx tag : Nat) (n : LockName) (m : LockMode) :
    State × Option W64 :=
  let e := s.lockEntry n
  let held := e.heldBy team
  let parentOk := match n.parent with
    | none => true
    | some p => match (s.lockEntry p).heldBy team with
      | some h => parentAdmits m h
      | none => false
  if !(s.chip n.home.1).live then (s, some (lockStatus 4 none))
  else if !parentOk then (s, some (lockStatus 2 held))
  else if held.any (fun h => lockSup h m == h) then (s, some (lockStatus 0 held))
  else match e.waiters.find? (fun w => w.team == team), held with
    | some w, _ =>
        let m' := lockSup w.seeks m
        if s.grantable e team m' then (s.grantNow e team m', some (lockStatus 0 (some m')))
        else
          let ws := e.waiters.map fun x =>
            if x.team == team then { x with seeks := m', fills := x.fills ++ [(ctx, tag)] } else x
          ((s.putLock { e with waiters := ws }).woundQueued n team, none)
    | none, some h =>
        let m' := lockSup h m
        if s.grantable e team m' then (s.grantNow e team m', some (lockStatus 0 (some m')))
        else
          ((s.putLock { e with waiters := insertEscalation ⟨team, m', true, [(ctx, tag)]⟩ e.waiters }).woundQueued
            n team, none)
    | none, none =>
        if 4096 ≤ s.managerUse n.home then (s, some (lockStatus 1 none))
        else if s.grantable e team m then (s.grantNow e team m, some (lockStatus 0 (some m)))
        else
          ((s.putLock { e with waiters := e.waiters ++ [⟨team, m, false, [(ctx, tag)]⟩] }).woundQueued n team, none)

/-! ### Releases (R372, R373) -/

/-- Withdraw a team's waiting requests on names that satisfy `f`, with status WITHDRAWN. -/
def State.withdraw (s : State) (team : Nat) (f : LockName → Bool) : State :=
  s.locks.foldl (fun s e0 =>
    if f e0.name then
      let e := s.lockEntry e0.name
      match e.waiters.find? (fun w => w.team == team) with
      | none => s
      | some w =>
          let s := s.putLock { e with waiters := e.waiters.filter (fun x => x.team != team) }
          let s := s.fillLocks team w.fills (lockStatus 3 (e.heldBy team))
          s.rescan e.name
    else s) s

/-- Whether a team holds a child of a name. -/
def State.holdsChild (s : State) (team : Nat) (n : LockName) : Bool :=
  s.locks.any fun e => e.name.parent == some n && (e.heldBy team).isSome

/-- An UNLOCK at the manager: the next state, and whether it is refused with LOCKHIER (R373). -/
def State.lockRelease (s : State) (team : Nat) (n : LockName) : State × Bool :=
  if !(s.chip n.home.1).live then (s, false)
  else
    let e := s.lockEntry n
    if (e.heldBy team).isNone || s.holdsChild team n then (s, true)
    else
      let s := s.putLock { e with holders := e.holders.filter (fun h => h.team != team) }
      let s := s.withdraw team (fun x => x == n)
      (s.rescan n, false)

/-- Release every holding of a team and withdraw its requests (R372, R373). -/
def State.releaseAll (s : State) (team : Nat) : State :=
  let s := s.withdraw team (fun _ => true)
  s.locks.foldl (fun s e0 =>
    let e := s.lockEntry e0.name
    if (e.heldBy team).isSome then
      (s.putLock { e with holders := e.holders.filter (fun h => h.team != team) }).rescan e.name
    else s) s

/-- LKHELD's two counts (R367). -/
def State.heldCount (s : State) (team : Nat) : Nat :=
  (s.locks.filter (fun e => (e.heldBy team).isSome)).length
def State.waitingCount (s : State) (team : Nat) : Nat :=
  ((s.locks.map (fun e => (e.waiters.filter (fun w => w.team == team)).length)).sum)

/-- A fenced chiplet loses its locks (R363). -/
def State.dropLocks (s : State) (chip : Nat) : State :=
  { s with locks := s.locks.filter (fun e => e.name.home.1 != chip) }

end Sys2Proof.Machine
end

