-- ==== Sys2Proof/Machine/Act.lean ====
section
/-! DEFINITION. Causes and stops, the form every meaning is written in, and ctx. -/

namespace Sys2Proof.Machine

/-! ### Causes (R392) -/

def causeILLEGAL : Nat := 0x01
def causePRIV : Nat := 0x02
def causeQOVF : Nat := 0x03
def causeQUNF : Nat := 0x04
def causeQDROP : Nat := 0x05
def causeQBIND : Nat := 0x06
def causeJOINX : Nat := 0x07
def causeXLATE : Nat := 0x08
def causePROT : Nat := 0x09
def causeALIGN : Nat := 0x0A
def causeBANKDROP : Nat := 0x0B
def causePOISON : Nat := 0x0C
def causeAMOTGT : Nat := 0x0D
def causeFMTCOMBO : Nat := 0x0E
def causeBADSCALE : Nat := 0x0F
def causeACCRANGE : Nat := 0x10
def causeWOUND : Nat := 0x11
def causeLOCKHIER : Nat := 0x12
def causePRECOMMIT : Nat := 0x13
def causeSEGMISMATCH : Nat := 0x14
def causeTOKOVF : Nat := 0x15
def causeRINGERR : Nat := 0x16
def causeBARSAT : Nat := 0x17
def causeTRAPI : Nat := 0x18
def causeREPLAY : Nat := 0x19
def causeDEBUG : Nat := 0x1B

/-! ### Syllables that do not complete -/

/-- Why a syllable does not take effect now: it raises a cause; it raises the cause of an error mark that it popped
(R240); it raises the context's oldest deferred cause; it stalls on a queue register, for room or for an entry (R188);
it is held back until the machine has moved on; or the machine stops. -/
inductive Stop where
  | trap (cause : Nat) (value : W64)
  | marked (cause : Nat) (value : W64)
  | deferred (r : CauseRec)
  | stall (room : Bool) (reg : Nat)
  | hold
  | fault (f : Fault)
  | refuse (r : Refusal)
  deriving DecidableEq, Repr

/-- A computation of a meaning: it changes the state or stops. -/
abbrev Act (α : Type) := StateT State (Except Stop) α

def stop {α : Type} (x : Stop) : Act α := fun _ => .error x

def trap {α : Type} (cause : Nat) (value : W64) : Act α := stop (.trap cause value)

/-- Hold the syllable back unless `b`. -/
def holdUnless (b : Bool) : Act Unit := if b then pure () else stop .hold

/-- Raise a cause when `b`. -/
def trapIf (b : Bool) (cause : Nat) (value : W64) : Act Unit :=
  if b then trap cause value else pure ()

/-- The context that issues. -/
def State.cur (s : State) : Ctx := s.ctx s.issue.core s.issue.ctx
def State.curTeam (s : State) : Team := s.team s.issue.core
def State.setCur (s : State) (c : Ctx) : State := s.setCtx s.issue.core s.issue.ctx c

def getCtx : Act Ctx := do return (← get).cur
def setCtxA (c : Ctx) : Act Unit := modify (fun s => s.setCur c)
def modCtxA (f : Ctx → Ctx) : Act Unit := modify (fun s => s.setCur (f s.cur))
def getTeam : Act Team := do return (← get).curTeam
def modTeamA (f : Team → Team) : Act Unit := modify (fun s => s.modTeam s.issue.core f)

/-- Raise ILLEGAL with the syllable as its value (R148). -/
def illegal {α : Type} : Act α := do trap causeILLEGAL (← get).issue.word

/-! ### ctx (R211) -/

/-- The logical id of a physical core: the inverse of the remap table (R133). -/
def State.logicalOf (s : State) (p : Nat) : Nat :=
  match s.hub.remap.find? (fun e => e.2.phys == p) with
  | some e => e.1
  | none => p

/-- TEAMW's code of a number of contexts (R71). -/
def widthCode (n : Nat) : Nat := if n = 1 then 0 else if n = 2 then 1 else 2

def State.ctxWord (s : State) (p k : Nat) : W64 :=
  let t := s.team p
  BitVec.ofNat 64 (s.hub.pkgid.toNat * 2 ^ 56 + t.asid.toNat * 2 ^ 32 + t.lslot % 64 * 2 ^ 24
    + (if (t.ctx k).sup then 2 ^ 16 else 0) + widthCode t.width * 2 ^ 14 + k % 4 * 2 ^ 12
    + s.logicalOf p % 4096)

end Sys2Proof.Machine
end

