-- ==== Sys2Proof/Machine/Operands.lean ====
section
/-! DEFINITION. The operand forms: source and destination fields, predicates, and the flags an instruction
leaves in FPSTAT. -/

namespace Sys2Proof.Machine

/-! ### Source fields (R149, R185, R187) -/

/-- iq0 to iq3, lq and bq never become DEAD (R185). -/
def neverDead (r : Nat) : Bool := 56 ≤ r

/-- The condition a register has when it holds these entries. -/
def condAfter (r : Nat) (drop : Bool) (empty : Bool) : Cond :=
  if empty then (if drop && !neverDead r then .dead else .idle) else .live

/-- Pop or keep the oldest entry as the mode says. -/
def SQueue.take (q : SQueue) (r : Nat) (mode : SrcMode) : SQueue :=
  match mode with
  | .keep => { q with retain := false }
  | .hold => { q with retain := true }
  | .pop =>
      { q with entries := q.entries.tail, retain := false, cond := condAfter r q.drop q.entries.tail.isEmpty }
  | .drop =>
      { q with entries := q.entries.tail, drop := true, retain := false, cond := condAfter r true q.entries.tail.isEmpty }

def VQueue.take (q : VQueue) (mode : SrcMode) : VQueue :=
  match mode with
  | .keep => { q with retain := false }
  | .hold => { q with retain := true }
  | .pop => { q with entries := q.entries.tail, retain := false, cond := condAfter 0 q.drop q.entries.tail.isEmpty }
  | .drop =>
      { q with entries := q.entries.tail, drop := true, retain := false, cond := condAfter 0 true q.entries.tail.isEmpty }

/-- Whether a mode removes the entry it reads. -/
def popsEntry : SrcMode → Bool
  | .pop | .drop => true
  | .keep | .hold => false

/-- The context after a read, with the popped entry noted for a wait instruction (R393). -/
def State.notePopped (s : State) (c : Ctx) (pops : Bool) (x : Popped) : State :=
  let s := s.setCur c
  if pops then { s with issue := { s.issue with popped := s.issue.popped ++ [x] } } else s

/-- A scalar source with its poison mark (R187, R440). -/
def readSrcP (f : Src) : Act (W64 × Bool) := do
  let s ← get
  let r := f.reg.toNat
  if r = 63 then return (0, false)
  else if r = 62 then return (s.ctxWord s.issue.core s.issue.ctx, false)
  else
    let c := s.cur
    let q := c.squeue r
    if q.cond = .dead then trap causeQDROP (BitVec.ofNat 64 r)
    else match q.entries with
    | [] => stop (.stall false r)
    | .pending _ :: _ => stop .hold
    | .error cause v :: _ => stop (.marked cause v)
    | .ready v p :: _ =>
        set (s.notePopped (c.setSqueue r (q.take r f.mode)) (popsEntry (f.mode)) ⟨r, .ready v p, q.drop⟩)
        return (v, p)

/-- A scalar source; a poisoned entry raises POISON with the register number (R440). -/
def readSrc (f : Src) : Act W64 := do
  let (v, p) ← readSrcP f
  if p then trap causePOISON (BitVec.ofNat 64 f.reg.toNat) else return v

/-- A vector source with its sector marks (R151, R187, R291); a stall on vn names register 64 + n. -/
def readVecP (f : VSrc) : Act (VBits × BitVec 128) := do
  let s ← get
  let r := f.reg.toNat
  let c := s.cur
  let q := c.vqueue r
  if q.cond = .dead then trap causeQDROP (BitVec.ofNat 64 r)
  else match q.entries with
  | [] => stop (.stall false (64 + r))
  | .pending _ :: _ => stop .hold
  | .error cause v :: _ => stop (.marked cause v)
  | .ready b m :: _ =>
      setCtxA (c.setVqueue r (q.take f.mode))
      return (b, m)

/-- A vector source of which these sectors are read: a mark on one of them raises POISON (R291). -/
def readVecOf (f : VSrc) (reads : BitVec 128) : Act VBits := do
  let (b, m) ← readVecP f
  if m &&& reads ≠ 0 then trap causePOISON (BitVec.ofNat 64 f.reg.toNat) else return b

/-- A vector source whose marks raise POISON (R291). -/
def readVec (f : VSrc) : Act VBits := readVecOf f (BitVec.allOnes 128)

/-! ### Writes, deferred to the end of the syllable or bundle (R186) -/

def defer (d : Deferred) : Act Unit :=
  modify fun s => { s with issue := { s.issue with writes := s.issue.writes ++ [d] } }

def writeEntry (d : Dst) (e : SEntry) : Act Unit := do
  defer (.scalar (← get).issue.cluster d e)

/-- Write a scalar result (R187). -/
def writeDst (d : Dst) (v : W64) : Act Unit := writeEntry d (.ready v false)

def writeVecP (d : VDst) (b : VBits) (m : BitVec 128) : Act Unit := do
  defer (.vector (← get).issue.cluster d (.ready b m))

def writeVec (d : VDst) (b : VBits) : Act Unit := writeVecP d b 0

/-- Write a predicate of the executing cluster; p0 stays 1 (R202). -/
def writePred (p : Pred) (b : Bool) : Act Unit := do
  defer (.pred (← get).issue.cluster p.toNat b)

/-- A predicate of the executing cluster. -/
def State.pred (s : State) (n : Nat) : Bool :=
  n = 0 || (Ctx.cluster s.cur s.issue.cluster).preds.getLsbD n

def getPred (p : Pred) : Act Bool := do return (← get).pred p.toNat

/-- A fresh tag for a reserved entry. -/
def freshTag : Act Nat := do
  let c ← getCtx
  setCtxA { c with nextTag := c.nextTag + 1 }
  return c.nextTag

/-- OR flags into FPSTAT (R43). -/
def raiseFlags (f : Flags) : Act Unit := modCtxA fun c => { c with fpstat := c.fpstat ||| f }

end Sys2Proof.Machine
end

