-- ==== Sys2Proof/Machine/Ops.lean ====
section
/-! DEFINITION. The operations every meaning ends in: settling deferred writes, taking a trap and returning
from one, and concluding a syllable. -/

namespace Sys2Proof.Machine

/-! ### Settling writes (R166, R187, R190) -/

/-- Bind a register to a cluster: QBIND if another one has bound it (R190). -/
def bindOk (p : Option Cluster) (cl : Cluster) : Bool :=
  match p with
  | none => true
  | some x => x = cl

/-- WriteDst on a queue; bq holds bit 0 of the value (R184, R187). -/
def SQueue.write (q : SQueue) (mode : DstMode) (e : SEntry) : SQueue :=
  match mode, q.entries with
  | .replace, _ :: _ => { q with entries := q.entries.dropLast ++ [e], retain := false }
  | _, _ => { q with entries := q.entries ++ [e], drop := false, retain := false, cond := .live }

def VQueue.write (q : VQueue) (mode : DstMode) (e : VEntry) : VQueue :=
  match mode, q.entries with
  | .replace, _ :: _ => { q with entries := q.entries.dropLast ++ [e], retain := false }
  | _, _ => { q with entries := q.entries ++ [e], drop := false, retain := false, cond := .live }

/-- Bit 0 of a value for bq. -/
def bqEntry : SEntry → SEntry
  | .ready v p => .ready (v &&& 1) p
  | e => e

/-- Whether a write needs room that the register lacks (R188). -/
def noRoom (mode : DstMode) (count depth : Nat) : Bool :=
  depth ≤ count && (mode == .push || count == 0)

/-- A scalar write that has been found to fit (R187, R190). -/
def Ctx.writeNow (c : Ctx) (cl : Cluster) (d : Dst) (e : SEntry) : Ctx :=
  let r := d.reg.toNat
  if r = 63 then c
  else
    let q := { c.squeue r with producer := some cl }
    c.setSqueue r (q.write d.mode (if r = 61 then bqEntry e else e))

/-- The result of settling one write: the state, or why it cannot settle, with the cluster at fault. -/
abbrev Settle := Except (Cluster × Stop) State

def settleScalar (s : State) (cl : Cluster) (d : Dst) (e : SEntry) : Settle :=
  let r := d.reg.toNat
  if r = 63 then .ok s
  else
    let c := s.cur
    let q := c.squeue r
    if !bindOk q.producer cl then .error (cl, .trap causeQBIND (BitVec.ofNat 64 r))
    else if noRoom d.mode q.entries.length (queueDepth r) then .error (cl, .stall true r)
    else .ok (s.setCur (c.writeNow cl d e))

def settleVector (s : State) (cl : Cluster) (d : VDst) (e : VEntry) : Settle :=
  let r := d.reg.toNat
  let c := s.cur
  let q := c.vqueue r
  if !bindOk q.producer cl then .error (cl, .trap causeQBIND (BitVec.ofNat 64 r))
  else if noRoom d.mode q.entries.length vectorDepth then .error (cl, .stall true (64 + r))
  else
    let q := { q with producer := some cl }
    .ok (s.setCur (c.setVqueue r (q.write d.mode e)))

/-- Reserve the next lq entry; lq has no producer binding (R189, R190). -/
def settleLq (s : State) (e : SEntry) : Settle :=
  let c := s.cur
  let q := c.squeue lqReg
  if queueDepth lqReg ≤ q.entries.length then .error (.a, .stall true lqReg)
  else .ok (s.setCur (c.setSqueue lqReg (q.write .push e)))

/-- LOOP's write-back to the oldest entry (R205).  DESIGN CHOICE (log entry 94): where another slot of the bundle pops the
counter's entry, the entry that is then the oldest is written, or none. -/
def settleCounter (s : State) (cl : Cluster) (r : Nat) (v : W64) : Settle :=
  let c := s.cur
  let q := c.squeue r
  if !bindOk q.producer cl then .error (cl, .trap causeQBIND (BitVec.ofNat 64 r))
  else
    .ok (s.setCur (c.setSqueue r { q with
      producer := some cl
      retain := false
      entries := match q.entries with | [] => [] | _ :: es => .ready v false :: es }))

def setBit64 (x : W64) (n : Nat) (b : Bool) : W64 :=
  let m : W64 := 1#64 <<< n
  if b then x ||| m else x &&& ~~~m

def ClusterState.setPred (x : ClusterState) (n : Nat) (b : Bool) : ClusterState :=
  if n = 0 then x else { x with preds := setBit64 x.preds n b }

/-- Forget every producer binding: a rendezvous (R166). -/
def Ctx.unbind (c : Ctx) : Ctx :=
  { c with
    scalars := c.scalars.map fun e => (e.1, { e.2 with producer := none })
    vectors := c.vectors.map fun e => (e.1, { e.2 with producer := none }) }

/-- Every cluster runs at one bundle (R165). -/
def Ctx.lockstepAt (c : Ctx) (pc : W64) : Ctx :=
  { c with
    apart := false
    joins := 0
    c := { c.c with pc := pc, status := .running, next := none }
    a := { c.a with pc := pc, status := .running, next := none }
    v := { c.v with pc := pc, status := .running, next := none }
    m := { c.m with pc := pc, status := .running, next := none } }

/-- The targets of clusters at a JOIN with their order of arrival. -/
def ClusterState.joinOf (x : ClusterState) : Option (Nat × W64) :=
  match x.status with
  | .joined t n _ => some (n, t)
  | _ => none

/-- A cluster has arrived at its JOIN in this core cycle. -/
def ClusterState.joinedIn (x : ClusterState) (cycle : Nat) : Bool :=
  match x.status with
  | .joined _ _ n => n == cycle
  | _ => false

/-- The target of the earliest JOIN among those that wait. -/
def earliestJoin : List (Nat × W64) → Option (Nat × W64)
  | [] => none
  | x :: xs =>
      match earliestJoin xs with
      | none => some x
      | some y => if x.1 ≤ y.1 then some x else some y

/-- The JOIN that raises JOINX: of those that have arrived in the cycle of the last, the lowest cluster's (R165; log
entry 95). -/
def Ctx.joinRaiser (c : Ctx) (cl : Cluster) (cycle : Nat) : Cluster :=
  (Cluster.all.find? fun x => x == cl || (Ctx.cluster c x).joinedIn cycle).getD cl

/-- A JOIN arrives (R165). -/
def settleJoin (s : State) (cl : Cluster) (target : W64) : Settle :=
  let c := s.cur
  let others := Cluster.all.filter (fun x => x != cl && !(Ctx.cluster c x).isResting)
  let waiting := others.filterMap (fun x => (Ctx.cluster c x).joinOf)
  if waiting.length < others.length then
    .ok (s.setCur ({ Ctx.setCluster c cl { Ctx.cluster c cl with status := .joined target c.joins s.cycles } with
      joins := c.joins + 1 }))
  else if waiting.all (fun w => w.2 == target) then
    .ok (s.setCur (c.unbind.lockstepAt target))
  else
    .error (c.joinRaiser cl s.cycles, .trap causeJOINX (((earliestJoin waiting).map Prod.snd).getD 0))

/-- A SPLIT makes its cluster active at its target (R163); the clusters that rest are set by the bundle. -/
def settleSplit (s : State) (cl : Cluster) (target : W64) : Settle :=
  let c := s.cur
  .ok (s.setCur { Ctx.setCluster c cl { Ctx.cluster c cl with pc := target, status := .running } with
    apart := true })

/-- A cluster that stalled has issued: it runs (R188). -/
def ClusterState.resume (x : ClusterState) : ClusterState :=
  match x.status with
  | .stalled .. => { x with status := .running }
  | _ => x

/-- Move a cluster's counter. -/
def Ctx.moveTo (c : Ctx) (cl : Cluster) (target : W64) : Ctx :=
  Ctx.setCluster c cl { (Ctx.cluster c cl).resume with pc := target, next := none }

/-- A taken transfer: all four counters in lockstep, the cluster's own in a stream (R203). -/
def settleJump (s : State) (cl : Cluster) (target : W64) : Settle :=
  let c := s.cur
  .ok (s.setCur (if c.apart then c.moveTo cl target else Cluster.all.foldl (fun c x => c.moveTo x target) c))

/-- A team completes COMMIT, and its plot's log entry says so (R136, R405). -/
def State.logCommit (s : State) (p : Nat) : State :=
  let t := s.team p
  if t.commit != .none then s
  else
    let s := s.setTeam p { t with commit := .done s.cycles }
    match t.work with
    | .launch slot plot _ =>
        (match s.launch slot with
         | some l =>
             (match tfind l.log plot with
              | some (.started age q) => s.setLaunch slot (some { l with log := tput l.log plot (.committed age q) })
              | _ => s)
         | none => s)
    | _ => s

def settleOne (s : State) : Deferred → Settle
  | .scalar cl d e => settleScalar s cl d e
  | .vector cl d e => settleVector s cl d e
  | .lq e => settleLq s e
  | .pred cl n b =>
      .ok (s.setCur (Ctx.setCluster s.cur cl ((Ctx.cluster s.cur cl).setPred n b)))
  | .counter cl r v => settleCounter s cl r v
  | .jump cl t => settleJump s cl t
  | .split cl t => settleSplit s cl t
  | .join cl t => settleJoin s cl t
  | .trapAfter _ => .ok s
  | .commit => .ok (s.logCommit s.issue.core)

/-- Settle each of a list of writes that can settle; the others are listed with what keeps them (R188, R190). -/
def settleEach (s : State) : List Deferred → State × List (Cluster × Stop)
  | [] => (s, [])
  | d :: ds =>
      match settleOne s d with
      | .ok s => settleEach s ds
      | .error e => ((settleEach s ds).1, e :: (settleEach s ds).2)

/-- Settle a list of writes in order. -/
def settleAll (s : State) : List Deferred → Settle
  | [] => .ok s
  | d :: ds =>
      match settleOne s d with
      | .ok s => settleAll s ds
      | .error e => .error e

/-! ### Ends of work (R408, R422) -/

def chipOf (p : Nat) : Nat := p / 256

/-- A core enters its chiplet's idle FIFO, unless it is hot or its chiplet is fenced (R123, R416). -/
def State.idleCore (s : State) (p : Nat) : State :=
  let ch := s.chip (chipOf p)
  let c := s.core p
  if ch.live && !c.hot && !c.resident && c.assign.isNone && !ch.fifo.contains p then
    s.setChip (chipOf p) { ch with fifo := ch.fifo ++ [p] }
  else s

/-- A later run of a paired plot, which performs nothing outside its core (R435). -/
def Team.suppressed (t : Team) : Bool := 2 ≤ t.pairRun.toNat

/-- Release the locks of a core's team; a later run of a pair has none (R373). -/
def State.releaseLocks (s : State) (p : Nat) : State :=
  if (s.team p).suppressed then s else s.releaseAll (s.team p).age

/-- REDs of a core's team that a port has taken are no longer its own: they perform there (R359, R408), before its launch
completes (R110). -/
def RedEntry.forget (e : RedEntry) (p : Nat) (w : Work) : RedEntry :=
  if e.members.any fun m => m.1 == p then
    { e with
      members := e.members.filter fun m => m.1 != p
      slots := match w with
        | .launch slot _ _ => if e.slots.contains slot then e.slots else e.slots ++ [slot]
        | .sheaf .. => e.slots }
  else e

def State.forgetReds (s : State) (p : Nat) : State :=
  { s with redEntries := s.redEntries.map fun e => e.forget p (s.team p).work }

/-- A move under way ends with its team: HOLD clears, and its target is idle again (R416). -/
def State.endMove (s : State) (p : Nat) : State :=
  match (s.core p).migration.bind MigRequest.target with
  | some q =>
      let l := s.logicalOf p
      (s.setRemap l { s.remap l with hold := false }).idleCore q
  | none => s

/-- Drop the team of a core with its locks; scratchpad and L1 stay (R408). -/
def State.dropTeam (s : State) (p : Nat) : State :=
  let s := ((s.releaseLocks p).forgetReds p).endMove p
  let s := s.modCore p fun c =>
    { c with
      resident := false
      migration := none
      team := { Team.none with
        regTop := c.team.regTop
        spadTop := c.team.spadTop
        l1Top := c.team.l1Top
        yTop := c.team.yTop
        wTop := c.team.wTop } }
  s.idleCore p

/-- Whether work belongs to a launch. -/
def Work.ofLaunch (w : Work) (slot : Nat) : Bool :=
  match w with
  | .launch l _ _ => l == slot
  | .sheaf .. => false

/-- Whether a team belongs to a launch. -/
def Team.ofLaunch (t : Team) (slot : Nat) : Bool := t.work.ofLaunch slot

/-- The stores, AMOs and REDs of a core's team that no port has taken. -/
def State.orphansOf (s : State) (slot p : Nat) : List Orphan :=
  let t := s.team p
  let kept := { Team.none with work := t.work, asid := t.asid, persist := t.persist }
  if t.suppressed then []
  else t.ctxs.flatMap fun e => (e.2.storeQ.filter fun a => !a.sent).map fun a => ⟨slot, p, kept, a⟩

/-- A launch ends with STATUS FAULT (R422): its teams are discarded, its images freed, what has not started is
dropped.  What its teams have stored without its having performed performs or is dropped until LAUNCH_COMPLETE, which
writes the record. -/
def State.faultLaunch (s : State) (slot cause detail : Nat) : State :=
  match s.launch slot with
  | none => s
  | some l =>
      let s := s.setLaunch slot (some { l with
        ended := match l.ended with | some e => some e | none => some (3, cause, detail % 2 ^ 24)
        ranges := [] })
      let s := (s.residents.filter (fun e => e.2.team.ofLaunch slot)).foldl
        (fun s e => { s with orphans := s.orphans ++ s.orphansOf slot e.1 }.dropTeam e.1) s
      let gone := s.images.filter (fun i => i.team.ofLaunch slot && !i.team.suppressed)
      let s := gone.foldl (fun s i => s.releaseAll i.team.age) s
      let s := { s with images := s.images.filter (fun i => !i.team.ofLaunch slot) }
      let owed := s.cores.filter fun e => (e.2.assign.map fun a => a.work.ofLaunch slot).getD false
      owed.foldl (fun s e => (s.modCore e.1 fun c => { c with assign := none }).idleCore e.1) s

/-- Whether work belongs to a task of a sheaf. -/
def Work.ofTask (w : Work) (id task : Nat) : Bool :=
  match w with
  | .sheaf i t _ => i == id && t == task
  | .launch .. => false

/-- A task of a sheaf ends with a cause, 0 for a fence: its plots stop, and what it has not returned is missing
(R144, R423). -/
def State.endTask (s : State) (id task cause : Nat) : State :=
  let finish : Task → Task := fun t => if t.id == task && t.ended.isNone then { t with ended := some cause } else t
  let upd : Sheaf → Sheaf := fun x =>
    if x.id == id then { x with tasks := x.tasks.map finish, cause := some (x.cause.getD cause) } else x
  let s := { s with sheaves := s.sheaves.map upd }
  let s := (s.residents.filter fun e => e.2.team.work.ofTask id task).foldl (fun s e => s.dropTeam e.1) s
  let s := { s with images := s.images.filter fun i => !i.team.work.ofTask id task }
  let owed := s.cores.filter fun e => (e.2.assign.map fun a => a.work.ofTask id task).getD false
  owed.foldl (fun s e => (s.modCore e.1 fun c => { c with assign := none }).idleCore e.1) s

/-- A trap that no handler takes ends the launch or the task (R397, R423). -/
def State.endByTrap (s : State) (p cause : Nat) : State :=
  match (s.team p).work with
  | .launch slot plot _ => s.faultLaunch slot cause plot
  | .sheaf id task _ => s.endTask id task cause

/-! ### Waits that end (R188, R407) -/

/-- The next syllable or bundle of a cluster. -/
def Ctx.advance (c : Ctx) (cl : Cluster) : Ctx :=
  let x := Ctx.cluster c cl
  Ctx.setCluster c cl { x.resume with pc := x.next.getD (x.pc + (if c.apart then 8 else 32)), next := none }

/-- What a waiting cluster waits for. -/
def Ctx.waitOf (c : Ctx) (cl : Cluster) : Option WaitFor :=
  match (Ctx.cluster c cl).status with
  | .waiting w _ => some w
  | _ => none

/-- A wait instruction ends: its cluster runs on past it. -/
def Ctx.endWait (c : Ctx) (cl : Cluster) : Ctx :=
  (Ctx.setCluster c cl { Ctx.cluster c cl with status := .running }).advance cl

/-- An asynchronous request ends a WAITI (R407). -/
def Ctx.endWaiti (c : Ctx) : Ctx := if c.waitOf .c == some .interrupt then c.endWait .c else c

/-! ### Taking a trap (R393 to R397) -/

/-- Put an entry a wait instruction popped back at the front of its queue (R393). -/
def Ctx.putBack (c : Ctx) (x : Popped) : Ctx :=
  let q := c.squeue x.reg
  c.setSqueue x.reg { q with entries := x.entry :: q.entries, drop := x.drop, cond := .live }

/-- Abandon the wait of a cluster; a stalled cluster runs again. -/
def Ctx.abandon (c : Ctx) (cl : Cluster) : Ctx :=
  let x := Ctx.cluster c cl
  match x.status with
  | .waiting _ popped =>
      Ctx.setCluster (popped.reverse.foldl Ctx.putBack c) cl { x with status := .running }
  | .stalled .. => Ctx.setCluster c cl { x with status := .running }
  | _ => c

/-- Precise boundaries on all four clusters (R393). -/
def Ctx.stopClusters (c : Ctx) : Ctx := Cluster.all.foldl Ctx.abandon c

def SEntry.isPending : SEntry → Bool
  | .pending _ => true
  | _ => false

def VEntry.isPending : VEntry → Bool
  | .pending _ => true
  | _ => false

/-- Some reserved entry has not received its value, parked loads aside, or a load has not performed (R191,
R393, R404). -/
def Ctx.reserved (c : Ctx) : Bool :=
  let parked := c.replay.filterMap Access.tag
  !c.loadQ.isEmpty || c.scalars.any (fun q => q.2.entries.any SEntry.isPending)
    || c.vectors.any (fun q => q.2.entries.any fun e =>
        match e with
        | .pending t => !parked.contains t
        | _ => false)

/-- The handler's first bundle: TVEC (R398). -/
def State.handler (s : State) : W64 := BitVec.ofNat 64 (s.hub.tvec.toNat / 32 * 32)

/-- The context a handler starts with: the state of R128 but for g0 to g4; queues of accesses, pending causes
and the counters of tags stay (R396). -/
def handlerCtx (c : Ctx) (x : Section) (r : CauseRec) (handler : W64) (cycles : Nat) : Ctx :=
  { Ctx.start.lockstepAt handler with
    halted := false
    sup := true
    cycleBase := cycles
    phase := c.phase
    asked := c.asked
    phaseDone := c.phaseDone
    loadQ := c.loadQ
    storeQ := c.storeQ
    nextTag := c.nextTag
    nextSeq := c.nextSeq
    faultReports := c.faultReports
    storeFaults := c.storeFaults
    pending := c.pending
    rplix := c.rplix
    tcause := BitVec.ofNat 16 (c.activeMask * 2 ^ 12 + (if c.apart then 2 ^ 11 else 0)
      + (if r.async then 2 ^ 10 else 0) + Cluster.index r.cluster * 2 ^ 8 + r.cause)
    tval := r.value
    epc := [(0, BitVec.ofNat 56 c.c.pc.toNat), (1, BitVec.ofNat 56 c.a.pc.toNat),
      (2, BitVec.ofNat 56 c.v.pc.toNat), (3, BitVec.ofNat 56 c.m.pc.toNat)]
    timgix := c.timgix
    saved := some x
    dbgpc := c.dbgpc
    code := c.code }

/-- The bay of a core (R21). -/
def bayOf (p : Nat) : Nat := p / 16

/-- Bytes of a loft, one to a bay (R20). -/
def loftBytes : Nat := 4 * 2 ^ 20

/-- Bytes of a bay's loft that something fills. -/
def inLoft (bay : Nat) (place : Option (Nat × Nat)) : Nat :=
  match place with
  | some (b, n) => if b == bay then n else 0
  | none => 0

/-- Bytes of a bay's loft that images and the sections of trapped contexts fill (R22, R396). -/
def State.loftUsed (s : State) (bay : Nat) : Nat :=
  (s.images.map fun i => inLoft bay i.loft).sum
    + (s.residents.flatMap fun e => e.2.team.ctxs.map fun c => inLoft bay (c.2.saved.bind Section.loft)).sum

/-- Where something of a size that a core's bay saves lies: the bay's loft with its size while that has room, else HBM. -/
def State.loftPlace (s : State) (p size : Nat) : Option (Nat × Nat) :=
  if s.loftUsed (bayOf p) + size ≤ loftBytes then some (bayOf p, size) else none

/-- The section that trap entry writes: to the bay's loft, or to the chiplet's HBM save area when the loft is full
(R396). -/
def State.trapSection (s : State) (p k : Nat) : Section :=
  let x := makeSection (s.team p) k s.cycles
  { x with loft := s.loftPlace p (8 * x.dwords.length) }

/-- Trap entry (R396), or the end of the work where no handler can run (R397). -/
def State.enterTrap (s : State) (p k : Nat) (r : CauseRec) : State :=
  let c := s.ctx p k
  if s.hub.tvec = 0 || c.sup then s.endByTrap p r.cause
  else s.setCtx p k (handlerCtx c (s.trapSection p k) r s.handler s.cycles)

/-- A context raises a trap: its clusters stop at precise boundaries; the value PRIV carries is a
free one (log entry 15); entry follows at once when every
reserved entry has its value, else at TRAP_ENTRY (R393, R396). -/
def State.raise (s : State) (p k : Nat) (r : CauseRec) : State :=
  let s := if r.cause = causePRIV then { s with freeSeed := s.freeSeed + 1 } else s
  let s := s.modCtx p k (fun c => { c.stopClusters with trapDue := some r })
  if (s.ctx p k).reserved then s
  else (s.modCtx p k (fun c => { c with trapDue := none })).enterTrap p k r

/-- Wait for a trap's reserved entries, then enter it. -/
def State.finishTrap (s : State) (p k : Nat) : State :=
  match (s.ctx p k).trapDue with
  | some r =>
      if (s.ctx p k).reserved then s
      else (s.modCtx p k (fun c => { c with trapDue := none })).enterTrap p k r
  | none => s

/-! ### Returning from a trap (R402, R403) -/

/-- Alignment of the saved counters (R402). -/
def epcAligned (c : Ctx) (x : Section) : Bool :=
  let unit := if bit (x.dword 1) 0 then 8 else 32
  (List.range 4).all fun i => (tget 0 c.epc i).toNat % unit == 0

/-- The cause a context takes at a request point: WOUND before others (R395); none while a handler runs. -/
def Ctx.requestCause (c : Ctx) : Option CauseRec :=
  if c.saved.isSome then none
  else match c.pending.find? (fun r => r.cause == causeWOUND) with
  | some r => some r
  | none => c.pending.head?

/-- A pending asynchronous cause is taken: it ends a WAITI (R407). -/
def Ctx.dropCause (c : Ctx) (r : CauseRec) : Ctx := { c.endWaiti with pending := c.pending.erase r }

/-- ERET's restoration of the trapped context; parked elements, else a pending cause, are taken at once (R402). -/
def State.returnTrap (s : State) (p k : Nat) (x : Section) : State :=
  let c := s.ctx p k
  if !x.ok then s.endByTrap p causeILLEGAL
  else if !epcAligned c x then s.endByTrap p causeALIGN
  else
    let c' := restoreCtx c x (fun i => tget 0 c.epc i) s.cycles false
    let s := s.setCtx p k c'
    match c'.replay.flatMap Access.pieces with
    | [] =>
        match c'.requestCause with
        | some r => (s.setCtx p k (c'.dropCause r)).raise p k r
        | none => s
    | y :: _ => s.raise p k ⟨causeREPLAY, BitVec.ofNat 64 y.va, .a, false⟩

/-! ### Concluding a syllable -/

/-- Whether a deferred write moves the counters itself. -/
def Deferred.moves : Deferred → Bool
  | .jump .. | .split .. | .join .. => true
  | _ => false

/-- A P+ cause, taken after the syllable or bundle (R392, R394). -/
def trapAfterOf (ds : List Deferred) : Option CauseRec :=
  ds.findSome? fun d => match d with | .trapAfter r => some r | _ => none

/-- How many entries a register holds: scalar registers by number, vn as 64 + n. -/
def Ctx.entriesOf (c : Ctx) (r : Nat) : Nat :=
  if r < 64 then (c.squeue r).entries.length else (c.vqueue (r - 64)).entries.length

/-- The mark of a cluster that stalls on a register (R188). -/
def Ctx.stallMark (c : Ctx) (cl : Cluster) (room : Bool) (r : Nat) : Ctx :=
  Ctx.setCluster c cl { Ctx.cluster c cl with status := .stalled room r (c.entriesOf r) }

/-- Mark the issuing cluster stalled on a register (R188). -/
def State.markStall (s : State) (cl : Cluster) (room : Bool) (r : Nat) : State := s.setCur (s.cur.stallMark cl room r)

/-- Another JOIN than the one that issues raises JOINX: it stands at its JOIN again, and the one that issues has
arrived (R165). -/
def State.joinSwap (s : State) (cl : Cluster) (cause : Nat) (v : W64) : State :=
  if cause != causeJOINX || cl == s.issue.cluster then s
  else
    let c := Ctx.setCluster s.cur s.issue.cluster
      { Ctx.cluster s.cur s.issue.cluster with status := .joined v s.cur.joins s.cycles }
    s.setCur (Ctx.setCluster c cl { Ctx.cluster c cl with status := .running })

/-- The state after a syllable that stopped, from the state before it: its trap is raised, its cluster marks
its stall, or nothing has happened (R148, R188, R191).  The cause of an error mark is a deferred one (R398). -/
def State.stopped (s : State) (cl : Cluster) : Stop → Host.Outcome State Fault Refusal
  | .trap cause v => .next ((s.joinSwap cl cause v).raise s.issue.core s.issue.ctx ⟨cause, v, cl, false⟩)
  | .marked cause v => .next (s.raise s.issue.core s.issue.ctx ⟨cause, v, cl, true⟩)
  | .deferred r =>
      .next ((s.modCtx s.issue.core s.issue.ctx fun c => { c with storeFaults := c.storeFaults.drop 1 }).raise
        s.issue.core s.issue.ctx { r with cluster := cl, async := true })
  | .stall room r => .next (s.markStall cl room r)
  | .hold => .next s
  | .fault f => .fault f
  | .refuse r => .refused r

/-- Enter the wait a slot has begun, its counter left where it stood (R393); a transfer taken in its bundle says where
the cluster goes on (R161). -/
def Ctx.enterWait (old c : Ctx) (jumped : Bool) (w : Cluster × WaitFor × List Popped) : Ctx :=
  let x := Ctx.cluster c w.1
  let x := if jumped then { x with pc := (Ctx.cluster old w.1).pc, next := some x.pc } else x
  Ctx.setCluster c w.1 { x with status := .waiting w.2.1 w.2.2 }

/-- Settle the deferred writes of syllables that issued together on `cls`, advance their counters, and take
a TRAP. -/
def State.settle (s : State) (cls : List Cluster) : Except (Cluster × Stop) State :=
  let ds := s.issue.writes
  match settleAll s ds with
  | .error e => .error e
  | .ok s1 =>
      let waits := s1.issue.waits
      let c := s1.cur
      let moved := ds.any Deferred.moves
      let c := if moved then c else cls.foldl (fun c cl =>
        if waits.any (fun w => w.1 == cl) then c else c.advance cl) c
      let c := waits.foldl (Ctx.enterWait s.cur · moved ·) c
      let s2 := s1.setCur { c with issued := c.issued + BitVec.ofNat 64 cls.length, lastIssue := s1.now }
      let s3 := { s2 with issue := { s2.issue with writes := [], popped := [], waits := [] } }
      .ok (match trapAfterOf ds with
        | some r => s3.raise s3.issue.core s3.issue.ctx r
        | none => s3)

/-- Note the cause a slot of a bundle raises.  The lowest slot's is taken (R394), a precise one before a deferred one
(R395). -/
def Issue.note (i : Issue) (r : CauseRec) (spent : Bool) : Issue :=
  match i.raised with
  | some x => if x.async && !r.async then { i with raised := some r, spent := spent } else i
  | none => { i with raised := some r, spent := spent }

def State.noteCause (s : State) (r : CauseRec) (spent : Bool) : State := { s with issue := s.issue.note r spent }

/-- Run the body of a syllable's meaning.  A syllable that issues alone settles at once; in a bundle the step
settles all its slots, and a stop is noted for it. -/
def concludeSyllable (body : Act Unit) (s : State) : Host.Outcome State Fault Refusal :=
  match body s with
  | .error x =>
      if s.issue.alone then s.stopped s.issue.cluster x
      else match x with
        | .trap cause v => .next (s.noteCause ⟨cause, v, s.issue.cluster, false⟩ false)
        | .marked cause v => .next (s.noteCause ⟨cause, v, s.issue.cluster, true⟩ false)
        | .deferred r => .next (s.noteCause { r with cluster := s.issue.cluster, async := true } true)
        | .stall room r =>
            .next { s with issue := { s.issue with blocked := s.issue.blocked ++ [(s.issue.cluster, some (room, r))] } }
        | .hold => .next { s with issue := { s.issue with blocked := s.issue.blocked ++ [(s.issue.cluster, none)] } }
        | .fault f => .fault f
        | .refuse r => .refused r
  | .ok (_, s1) =>
      if s.issue.alone then
        match s1.settle [s.issue.cluster] with
        | .ok s2 => .next s2
        | .error (cl, x) => s.stopped cl x
      else .next s1

/-- The reading of a core's sensor, forced or measured (R451). -/
def State.sensor (s : State) (p : Nat) : Int :=
  let w := (tget 0 s.hub.forces 0).toNat
  if bit w 63 && bits w 32 12 == p then (bits w 0 8 : Nat) else (s.core p).temp

/-- The coolest of a list of cores, the first among equals. -/
def State.coolest (s : State) : List Nat → Option Nat
  | [] => none
  | q :: qs =>
      match s.coolest qs with
      | none => some q
      | some r => if s.sensor q ≤ s.sensor r then some q else some r

/-- The target of a migration from a core, if there is one (R415). -/
def State.migTarget (s : State) (p : Nat) : Option Nat :=
  s.coolest ((s.chip (chipOf p)).fifo.filter fun q => q != p && s.sensor q < 85)

/-- A request to move a core's team is taken, if there is a target: the target leaves its FIFO, and no context of the
team issues further (R415, R416). -/
def State.takeMove (s : State) (p : Nat) (m : MigRequest) : State :=
  match s.migTarget p with
  | some q =>
      let ch := s.chip (chipOf q)
      let s := s.setChip (chipOf q) { ch with fifo := ch.fifo.filter fun x => x != q }
      s.modCore p fun c => { c with migration := some { m with target := some q } }
  | none => s.modCore p fun c => { c with migration := some m }

/-- A context of a core reaches a migration point (R415). -/
def State.reachPoint (s : State) (p : Nat) : State :=
  match (s.core p).migration with
  | some m => if m.target.isNone then s.takeMove p m else s
  | none => s

def migrationPoint : Act Unit := modify fun s => s.reachPoint s.issue.core

/-- Begin a wait instruction: its cluster waits with what it has popped (R393); its entry is a migration point. -/
def beginWait (w : WaitFor) : Act Unit := do
  migrationPoint
  modify fun s => { s with issue := { s.issue with
    waits := s.issue.waits ++ [(s.issue.cluster, w, s.issue.popped)] } }

/-- A step of the device: it is the function of the state that its meaning gives. -/
def concludeEvent (f : State → State) (s : State) : Host.Outcome State Fault Refusal := .next (f s)

/-- A free value: the next one of the stream that nothing constrains. -/
def State.draw (s : State) : State := { s with freeSeed := s.freeSeed + 1 }

end Sys2Proof.Machine
end

