-- ==== Sys2Proof/Machine/Translate.lean ====
section
/-! DEFINITION. Physical memory (R232), the bytes the points of coherence hold, and translation (R242 to R246,
R463). -/

namespace Sys2Proof.Machine

/-! ### Physical memory -/

/-- 1 GB of DRAM (R4). -/
def gigabyte : Nat := 10 ^ 9

/-- HBM of the 16 chiplets: each stack's 64 GB from the start of its window (R4, R232). -/
def isHbm (pa : Nat) : Bool := pa < 2 ^ 40 && pa % 2 ^ 36 < 64 * gigabyte

/-- Second-tier memory up to the reported capacity (R2, R4, R232, R455). -/
def State.isTier (s : State) (pa : Nat) : Bool :=
  2 ^ 42 ≤ pa && pa < 2 ^ 42 + s.hub.tiercap.toNat * gigabyte && pa < 2 ^ 43

def isHost (pa : Nat) : Bool := 2 ^ 51 ≤ pa && pa < 2 ^ 52

def State.isMemory (s : State) (pa : Nat) : Bool := isHbm pa || s.isTier pa || isHost pa

/-- Memory a page table may lie in (R244). -/
def State.isTableMemory (s : State) (pa : Nat) : Bool := isHbm pa || s.isTier pa

/-- The host port of a host address (R232). -/
def hostPort (pa : Nat) : Nat := bits pa 50 1

/-- Whether a host port has a link. -/
def State.hostUp (s : State) (pa : Nat) : Bool := s.hub.hostLinks.getLsbD (hostPort pa)

def sectorOf (pa : Nat) : Nat := pa / 32

/-- The first live chiplet from a number on, wrapping round (R444). -/
def State.liveFrom (s : State) (chip : Nat) : Nat :=
  (((List.range 16).map fun i => (chip + i) % 16).find? fun c => (s.chip c).live).getD chip

/-- The home chiplet of a second-tier or host line (R233, R444). -/
def State.tierHome (s : State) (pa : Nat) : Nat := s.liveFrom (bits pa 16 4)

/-- The home slice of a flat line: chiplet and bay (R233). -/
def State.homeSlice (s : State) (pa : Nat) : Nat × Nat :=
  if isHbm pa then (bits pa 36 4, Nat.xor (bits pa 8 4) (bits pa 16 4))
  else (s.tierHome pa, Nat.xor (bits pa 8 4) (bits pa 20 4))

/-- The newest byte at a point of coherence: that of a host sector held in a slice, else that of memory. -/
def State.phys (s : State) (pa : Nat) : Byte :=
  match tfind s.hostSectors (sectorOf pa) with
  | some h => h.data.getD (pa % 32) 0
  | none => Mem.byte s.mem pa

/-- Bytes from a physical address. -/
def State.physRead (s : State) : Nat → Nat → List Byte
  | _, 0 => []
  | pa, n + 1 => s.phys pa :: s.physRead (pa + 1) n

def State.physNat (s : State) (pa n : Nat) : Nat := leNat (s.physRead pa n)

/-- Memory as fetch may see it: modified host sectors written over memory (R168, R216). -/
def State.codeView (s : State) : Mem :=
  s.hostSectors.foldl (fun m e => Mem.write m (e.1 * 32) e.2.data) s.mem

/-! ### Table walks (R242 to R244) -/

/-- The levels still to walk: first index bit, index width, log2 of the page a leaf maps (0: none). -/
structure Level where
  lo : Nat
  width : Nat
  leafLog : Nat
  tableLog : Nat
  mustLeaf : Bool
  deriving DecidableEq, Repr

def levels : List Level :=
  [⟨39, 17, 0, 20, false⟩, ⟨30, 9, 30, 12, false⟩, ⟨21, 9, 21, 12, false⟩, ⟨16, 5, 16, 8, true⟩]

/-- The bits of an entry that are not must-be-zero (R243). -/
def entryMbz (e : Nat) : Bool := bits e 52 12 == 0 && !bit e 7

/-- A region that lies wholly in memory of a kind. -/
def wholly (f : Nat → Bool) (pa log : Nat) : Bool := f pa && f (pa + 2 ^ log - 1)

/-- Walk the levels from a table; none is XLATE. -/
def State.walkFrom (s : State) (asid va : Nat) : List Level → Nat → Option TlbEntry
  | [], _ => none
  | l :: ls, table =>
      if !(wholly s.isTableMemory table l.tableLog) then none
      else
        let e := s.physNat (table + 8 * bits va l.lo l.width) 8
        let addr := bits e 8 44 * 256
        if !bit e 0 || !entryMbz e then none
        else if bit e 1 then
          if l.leafLog = 0 || addr % 2 ^ l.leafLog != 0 || !wholly s.isMemory addr l.leafLog then none
          else some ⟨asid, va / 2 ^ l.leafLog * 2 ^ l.leafLog, l.leafLog, addr, BitVec.ofNat 5 (bits e 2 5)⟩
        else if l.mustLeaf then none
        else match ls with
          | [] => none
          | n :: _ => if addr % 2 ^ n.tableLog != 0 then none else s.walkFrom asid va ls addr

/-- The root array's entry of an ASID: its level-0 table (R463). -/
def State.rootTable (s : State) (asid : Nat) : Option Nat :=
  let pa := bits s.hub.rootbase.toNat 19 33 * 2 ^ 19 + 8 * asid
  let e := s.physNat pa 8
  if !s.isTableMemory pa || !bit e 0 || bits e 1 19 != 0 || bits e 52 12 != 0 then none
  else some (bits e 20 32 * 2 ^ 20)

/-- A whole walk; none is XLATE. -/
def State.walk (s : State) (asid va : Nat) : Option TlbEntry :=
  match s.rootTable asid with
  | none => none
  | some t => s.walkFrom asid va levels t

/-! ### Cached translations (R245) -/

def TlbEntry.covers (e : TlbEntry) (asid va : Nat) : Bool :=
  e.asid == asid && e.va ≤ va && va < e.va + 2 ^ e.log2

/-- Keep the newest `n` entries, the new one last. -/
def tlbInsert (n : Nat) (l : List TlbEntry) (e : TlbEntry) : List TlbEntry :=
  let l := l ++ [e]
  l.drop (l.length - n)

def tlbFind (l : List TlbEntry) (asid va : Nat) : Option TlbEntry := l.find? (fun e => e.covers asid va)

/-- The kinds of access Translate checks. -/
structure AccessKind where
  read : Bool
  write : Bool
  exec : Bool
  atomic : Bool
  deriving DecidableEq, Repr

def accRead : AccessKind := ⟨true, false, false, false⟩
def accWrite : AccessKind := ⟨false, true, false, false⟩
def accExec : AccessKind := ⟨false, false, true, false⟩
def accAtomic : AccessKind := ⟨true, true, false, true⟩

def TlbEntry.cached (e : TlbEntry) : Bool := e.flags.getLsbD 4
def TlbEntry.paOf (e : TlbEntry) (va : Nat) : Nat := e.pa + va % 2 ^ e.log2

/-- R244: the accesses a leaf forbids. -/
def TlbEntry.forbids (e : TlbEntry) (k : AccessKind) (user : Bool) : Bool :=
  (k.read && !e.flags.getLsbD 0) || (k.write && !e.flags.getLsbD 1) || (k.exec && !e.flags.getLsbD 2)
    || (user && !e.flags.getLsbD 3) || (k.atomic && !e.cached && !isHost e.pa)

def xwalkIx : Nat := 5

/-- Count into one of a context's traffic counters L1HIT to XWALK (R251). -/
def State.count (s : State) (p k ix n : Nat) : State :=
  s.modCtx p k fun c => { c with counters := tput c.counters ix (tget 0 c.counters ix + BitVec.ofNat 64 n) }

/-- Count traffic of an engine command to the context that enqueued it: to what its section saves, while its handler
runs (R251, R396). -/
def State.countEngine (s : State) (p k ix n : Nat) : State :=
  s.modCtx p k fun c =>
    match c.saved with
    | some x => { c with saved := some { x with
        dwords := x.dwords.set (78 + ix) (x.dwords.getD (78 + ix) 0 + BitVec.ofNat 64 n) } }
    | none => { c with counters := tput c.counters ix (tget 0 c.counters ix + BitVec.ofNat 64 n) }

/-- Find or walk a translation for a core; micro-TLB, then the chiplet's TLB, then the tables.  Walks are
counted to context `k`. -/
def State.findPage (s : State) (p k : Nat) (fetch : Bool) (asid va : Nat) : Option TlbEntry × State :=
  let c := s.core p
  match tlbFind (if fetch then c.itlb else c.dtlb) asid va with
  | some e => (some e, s)
  | none =>
      let put (s : State) (e : TlbEntry) : State := s.modCore p fun c =>
        if fetch then { c with itlb := tlbInsert 16 c.itlb e } else { c with dtlb := tlbInsert 64 c.dtlb e }
      let ch := s.chip (chipOf p)
      match tlbFind ch.stlb asid va with
      | some e => (some e, put s e)
      | none =>
          let s := s.count p k xwalkIx 1
          match s.walk asid va with
          | none => (none, s)
          | some e =>
              let s := s.setChip (chipOf p) { s.chip (chipOf p) with
                stlb := tlbInsert 16384 (s.chip (chipOf p)).stlb e }
              (some e, put s e)

/-- A translated address, or the cause XLATE or PROT (R244). -/
inductive Xlated where
  | ok (pa : Nat) (cached : Bool)
  | bad (cause : Nat)
  deriving DecidableEq, Repr

/-- Translate (R242 to R245). -/
def State.translate (s : State) (p k : Nat) (fetch : Bool) (asid va : Nat) (kind : AccessKind)
    (user : Bool) : Xlated × State :=
  match s.findPage p k fetch asid va with
  | (none, s) => (.bad causeXLATE, s)
  | (some e, s) => if e.forbids kind user then (.bad causePROT, s) else (.ok (e.paOf va) e.cached, s)

/-- The window and the fabric window (R238, R286). -/
def isWindow (va : Nat) : Bool := bits va 48 8 == 0xFE && va < 2 ^ 56
def isFabric (va : Nat) : Bool := bits va 48 8 == 0xFD && va < 2 ^ 56

end Sys2Proof.Machine
end

