-- ==== Sys2Proof/Machine/Pool.lean ====
section
/-! DEFINITION. The pool of a core: buffers, granules and their power, poison marks, and the fields of a window
address (R218 to R231, R238, R239). -/

namespace Sys2Proof.Machine

/-! ### Buffers (R218, R221) -/

/-- The pool address at which a buffer starts. -/
def Team.bufStart (t : Team) : Buf → Nat
  | .w => t.regTop * 1024
  | .y => t.wTop * 1024
  | .z => t.yTop * 1024

def Team.bufSize (t : Team) : Buf → Nat
  | .w => (t.wTop - t.regTop) * 1024
  | .y => (t.yTop - t.wTop) * 1024
  | .z => (t.spadTop - t.yTop) * 1024

/-- The buffer of a window's BUF code; 3 is operand memory (R238). -/
def winBuf : Nat → Option Buf
  | 0 => some .w | 1 => some .y | 2 => some .z | _ => none

/-! ### Admission (R222) -/

/-- The agents of R222 that instructions are. -/
inductive Agent where
  | load | store | atomic | vload | vstore | raLoad
  deriving DecidableEq, Repr

/-- Whether a buffer admits an agent. -/
def admits : Agent → Buf → Bool
  | .load, .w => true
  | .load, .y => true
  | .load, .z => false
  | .store, b => b == .y
  | .atomic, b => b == .y
  | .vload, .w => false
  | .vload, .y => true
  | .vload, .z => true
  | .vstore, b => b == .y
  | .raLoad, b => b == .z

/-! ### Granules and banks (R227 to R230) -/

def granuleOf (a : Nat) : Nat := a / 1024
def bankOf (a : Nat) : Nat := a / 16384

/-- The units of `size` that bytes a to a + n - 1 touch. -/
def unitsOf (size a n : Nat) : List Nat :=
  if n = 0 then [] else (List.range ((a + n - 1) / size - a / size + 1)).map (fun i => a / size + i)

def Core.isLive (c : Core) (g : Nat) : Bool := c.live.getLsbD g

/-- The first byte from `a` on that lies in a dead granule. -/
def Core.deadByte (c : Core) (a n : Nat) : Option Nat :=
  ((unitsOf 1024 a n).find? (fun g => !c.isLive g)).map (fun g => max a (g * 1024))

def Core.isDead (c : Core) (a n : Nat) : Bool := (c.deadByte a n).isSome

def setBit512 (x : BitVec 512) (n : Nat) (b : Bool) : BitVec 512 :=
  let m : BitVec 512 := 1#512 <<< n
  if b then x ||| m else x &&& ~~~m

/-- An access in core cycle `cyc` wakes its banks (R230). -/
def Core.wake (c : Core) (cyc a n : Nat) : Core :=
  { c with
    banks := (unitsOf 16384 a n).foldl tdel c.banks
    bankUse := (unitsOf 16384 a n).foldl (fun t b => tput t b cyc) c.bankUse }

/-- A dead granule revives with zeros and no marks (R227). -/
def Core.revive (c : Core) (g : Nat) : Core :=
  if c.isLive g then c
  else
    { c with
      live := setBit512 c.live g true
      pool := c.pool.filter (fun e => granuleOf e.1 != g)
      poison := c.poison.filter (fun x => x / 32 != g) }

/-- Mark granules dead (R229). -/
def Core.kill (c : Core) (a n : Nat) : Core :=
  { c with live := (unitsOf 1024 a n).foldl (fun l g => setBit512 l g false) c.live }

/-- Whether a sector of the range carries a poison mark (R440). -/
def Core.poolPoison (c : Core) (a n : Nat) : Bool := (unitsOf 32 a n).any c.poison.contains

/-- The marks after a write: poisoned data marks its sectors, whole clean sectors lose their mark. -/
def markSectors (marks : List Nat) (a n : Nat) (poisoned : Bool) : List Nat :=
  (unitsOf 32 a n).foldl (fun ms x =>
    if poisoned then (if ms.contains x then ms else ms ++ [x])
    else if a ≤ x * 32 && x * 32 + 32 ≤ a + n then ms.filter (fun y => y != x) else ms) marks

/-- Write bytes into the pool in core cycle `cyc`: granules revive, banks wake (R227, R230). -/
def Core.poolWrite (c : Core) (cyc a : Nat) (bs : List Byte) (poisoned : Bool) : Core :=
  let c := (unitsOf 1024 a bs.length).foldl Core.revive (c.wake cyc a bs.length)
  { c with
    pool := Mem.write c.pool a bs
    poison := markSectors c.poison a bs.length poisoned }

/-- Read bytes of the pool. -/
def Core.poolRead (c : Core) (a n : Nat) : List Byte := Mem.read c.pool a n

/-! ### The window (R238, R239) -/

/-- The fields of a window address. -/
structure WinAddr where
  teamForm : Bool
  target : Nat
  buf : Nat
  off : Nat
  deriving DecidableEq, Repr

def winAddr (va : Nat) : WinAddr :=
  ⟨bit va 47, if bit va 47 then bits va 32 14 else bits va 32 12, bits va 22 2, bits va 0 22⟩

/-- R239 check 1, the must-be-zero fields. -/
def winMbz (va : Nat) : Bool :=
  !bit va 46 && bits va 24 8 == 0 && (bit va 47 || bits va 44 2 == 0)

/-- The launch slot and plot of a team's own persistent launch, if it has one. -/
def Team.persistentSlot (t : Team) : Option Nat :=
  match t.work with
  | .launch slot _ _ => if t.persist then Option.some slot else Option.none
  | _ => Option.none

def State.plotCount (s : State) (slot : Nat) : Nat :=
  match s.launch slot with
  | some l => l.plots
  | none => 0

/-- R239 checks 1 and 2 that the accessing core makes. -/
def State.winCheck (s : State) (t : Team) (va : Nat) : Option Nat :=
  let w := winAddr va
  if !winMbz va then some causeXLATE
  else if w.teamForm then
    match t.persistentSlot with
    | some slot => if s.plotCount slot ≤ w.target then some causeXLATE else none
    | none => some causeXLATE
  else if !(s.remap w.target).valid then some causeXLATE
  else none

/-- All checks of R239 that R240 places at the accessing core, for an instruction. -/
def State.winPrecise (s : State) (t : Team) (agent : Agent) (va : Nat) : Option Nat :=
  match s.winCheck t va with
  | some c => some c
  | none =>
      match winBuf (winAddr va).buf with
      | none => some causePROT
      | some b => if admits agent b then none else some causePROT

/-- Where a window access finds its target. -/
inductive Target where
  | core (p : Nat)
  | held
  | gone (cause : Nat)
  deriving DecidableEq, Repr

/-- The core that runs a plot of a launch. -/
def State.coreOfPlot (s : State) (slot plot : Nat) : Option Nat :=
  (s.residents.find? fun e =>
    match e.2.team.work with
    | .launch l q _ => l == slot && q == plot
    | _ => false).map Prod.fst

/-- Whether a range still holds a position. -/
def Range.holds (r : Range) (p : Nat) : Bool :=
  r.returned.contains p || (r.first ≤ p && (p - r.first) % r.stride == 0 && (p - r.first) / r.stride < r.count)

/-- A chiplet that is fenced, or has been since the launch was dispatched (R464). -/
def State.lostTo (s : State) (l : Launch) (chip : Nat) : Bool := !(s.chip chip).live || l.lost.getLsbD chip

/-- A team that no core runs, on a fenced chiplet and not yet reissued; a team is its field's position (R130, R135). -/
def State.stranded (s : State) (l : Launch) (team : Nat) : Bool := l.ranges.any fun r => r.holds team && s.lostTo l r.chip

/-- R239 check 2 and R241: the core an access aimed at a core or a team reaches. -/
def State.targetOf (s : State) (slot : Option Nat) (teamForm : Bool) (target : Nat) : Target :=
  if teamForm then
    match slot with
    | none => .gone causeXLATE
    | some slot =>
        match s.coreOfPlot slot target, s.launch slot with
        | some p, _ => if (s.remap (s.logicalOf p)).hold then .held else .core p
        | none, some l =>
            (match tfind l.log target with
             | some .retired => .gone causeXLATE
             | some (.started _ p) => if s.lostTo l (chipOf p) then .gone causeXLATE else .held
             | some (.committed _ p) => if s.lostTo l (chipOf p) then .gone causeXLATE else .held
             | some (.returned _) => if s.stranded l target then .gone causeXLATE else .held
             | none => if s.stranded l target then .gone causeXLATE else .held)
        | none, none => .gone causeXLATE
  else
    let r := s.remap target
    if !r.valid then .gone causeXLATE else if r.hold then .held else .core r.phys

/-- R239 check 3. -/
def State.sameAsid (s : State) (p : Nat) (asid : BitVec 16) : Bool :=
  (s.core p).resident && (s.team p).asid == asid

end Sys2Proof.Machine
end

