-- ==== Sys2Proof/Machine/Record.lean ====
section
/-! DEFINITION. The event recorder, the error banks, poison records and interrupts to the host (R90, R439 to
R446). -/

namespace Sys2Proof.Machine

/-! ### Interrupts -/

/-- Units of device time in a fabric cycle, in a millisecond and in a microsecond (R7). -/
def fabricCycle : Nat := 3
def millisecond : Nat := 7200000
def microsecond : Nat := 7200

/-- The ownership lease has run out: a renewal in the fabric cycle in which it ends is still on time (R94). -/
def State.leaseOver (s : State) : Bool :=
  s.hub.leaseMs != 0
    && (s.hub.leaseStart + s.hub.leaseMs * millisecond) / fabricCycle < s.now / fabricCycle

/-- The owner: 0 none, else the port plus 1 (R92, R94). -/
def State.ownerNow (s : State) : Nat := if s.leaseOver then 0 else s.hub.owner

/-- A vector's pending bit of a port plus 1, or of the next owner's port for 0 (R110, R453). -/
def State.holdVector (s : State) (port v : Nat) : State :=
  { s with hub := { s.hub with msixPending :=
    if s.hub.msixPending.contains (port, v) then s.hub.msixPending else s.hub.msixPending ++ [(port, v)] } }

/-- Send an MSI-X vector on the owner's port; without an owner, or without a link, it stays pending (R110, R453). -/
def State.sendVector (s : State) (v : Nat) : State :=
  let o := s.ownerNow
  if o = 0 then s.holdVector 0 v
  else if s.hub.hostLinks.getLsbD (o - 1) then s.emit (.msix (o - 1) v)
  else s.holdVector o v

/-! ### The event recorder (R445, R446) -/

def evDROPWR : Nat := 0x01
def evCE : Nat := 0x02
def evUE : Nat := 0x03
def evQUARANTINE : Nat := 0x04
def evFENCE : Nat := 0x05
def evELECT : Nat := 0x06
def evLAUNCHFAULT : Nat := 0x07
def evFAULTNODE : Nat := 0x08
def evLATEFIX : Nat := 0x09
def evPAIRDIFF : Nat := 0x0A
def evA2ADROP : Nat := 0x0B
def evREDDROP : Nat := 0x0C
def evLATERET : Nat := 0x0D
def evLEASE : Nat := 0x0E
def evDEVFATAL : Nat := 0x0F
def evCPLFAULT : Nat := 0x10

/-- Record an event (R445); its interrupt follows R446. -/
def State.post (s : State) (type cause source addr detail : Nat) : State :=
  let n := s.hub.evcount
  let d1 := type * 2 ^ 56 + cause % 256 * 2 ^ 48 + source % 2 ^ 16 * 2 ^ 32 + n % 2 ^ 32
  let r : EventRec := ⟨BitVec.ofNat 64 s.timens, BitVec.ofNat 64 d1, BitVec.ofNat 64 addr, BitVec.ofNat 64 detail⟩
  let s := { s with hub := { s.hub with evcount := n + 1, evring := tput s.hub.evring (n % 4096) r } }
  if s.hub.evctl.getLsbD 6 && 3 ≤ type then s.sendVector (bits s.hub.evctl.toNat 0 6) else s

/-- An event's record by its number: zero unless it is among the last 4,096 (R446). -/
def State.eventRec (s : State) (n : Nat) : EventRec :=
  if n < s.hub.evcount && s.hub.evcount ≤ n + 4096 then tget ⟨0, 0, 0, 0⟩ s.hub.evring (n % 4096)
  else ⟨0, 0, 0, 0⟩

/-- Sources by kind and id (R445). -/
def srcHub : Nat := 0
def srcChip (c : Nat) : Nat := 2 ^ 12 + c
def srcHbm (n : Nat) : Nat := 2 * 2 ^ 12 + n
def srcPort (n : Nat) : Nat := 3 * 2 ^ 12 + n

/-! ### Requesters of the management path (R467) -/

/-- The present requester has completed SPDM CHALLENGE since the last reset. -/
def Hub.trusted (h : Hub) : Bool := h.challenged.contains h.requester

/-- The present requester has completed SPDM CHALLENGE. -/
def Hub.trust (h : Hub) : Hub := if h.trusted then h else { h with challenged := h.challenged ++ [h.requester] }

/-! ### Error banks (R441, R442) -/

def bankEmpty : ErrBank := ⟨0, 0, 0, 0⟩

def bankField (b : ErrBank) (lo len : Nat) : Nat := bits b.status.toNat lo len

/-- A count that saturates at 0xFFFF. -/
def sat16 (n : Nat) : Nat := if n < 0xFFFF then n else 0xFFFF

def bankStatus (valid ue ovf : Bool) (ce uecnt kind : Nat) : W64 :=
  BitVec.ofNat 64 ((if valid then 2 ^ 63 else 0) + (if ue then 2 ^ 62 else 0) + (if ovf then 2 ^ 61 else 0)
    + ce * 2 ^ 32 + uecnt * 2 ^ 16 + kind)

/-- What a CE or UE makes of a bank (R442). -/
def ErrBank.apply (b : ErrBank) (e : BankEvent) : ErrBank :=
  let held := b.status.getLsbD 62
  let ovf := b.status.getLsbD 61
  let ce := bankField b 32 16
  let uc := bankField b 16 16
  let record (ovf : Bool) (ce uc : Nat) : ErrBank :=
    ⟨bankStatus true e.ue ovf ce uc e.kind, BitVec.ofNat 64 e.addr, BitVec.ofNat 64 e.misc, e.time⟩
  if !b.status.getLsbD 63 then record false (if e.ue then 0 else 1) (if e.ue then 1 else 0)
  else if !e.ue then { b with status := bankStatus true held ovf (sat16 (ce + 1)) uc (bankField b 0 8) }
  else if !held then record ovf ce (sat16 (uc + 1))
  else { b with status := bankStatus true true true ce (sat16 (uc + 1)) (bankField b 0 8) }

/-- R442's order among the events of one fabric cycle: UEs first, then by ADDR; a bank has one SOURCE. -/
def BankEvent.before (a b : BankEvent) : Bool := if a.ue == b.ue then a.addr < b.addr else a.ue

def insertBankEvent (e : BankEvent) : List BankEvent → List BankEvent
  | [] => [e]
  | f :: fs => if e.before f then e :: f :: fs else f :: insertBankEvent e fs

/-- A bank as this fabric cycle finds it, and the events it has brought so far, in R442's order. -/
def State.bankCycle (s : State) (n : Nat) : BankCycle :=
  let cycle := s.now / fabricCycle
  match tfind s.hub.bankCycles n with
  | some y => if y.cycle = cycle then y else ⟨cycle, tget bankEmpty s.hub.banks n, []⟩
  | none => ⟨cycle, tget bankEmpty s.hub.banks n, []⟩

/-- A CE or UE reaches a bank (R442). -/
def State.bankEvent (s : State) (n : Nat) (ue : Bool) (kind addr misc : Nat) : State :=
  let y := s.bankCycle n
  let y := { y with events := insertBankEvent ⟨ue, kind, addr, misc, s.timens⟩ y.events }
  { s with hub := { s.hub with
    bankCycles := tput s.hub.bankCycles n y
    banks := tput s.hub.banks n (y.events.foldl ErrBank.apply y.before) } }

/-- A bank is cleared, before the events of the same fabric cycle (R442). -/
def State.clearBank (s : State) (n : Nat) : State :=
  let y := { s.bankCycle n with before := bankEmpty }
  { s with hub := { s.hub with
    bankCycles := tput s.hub.bankCycles n y
    banks := if y.events.isEmpty then tdel s.hub.banks n
      else tput s.hub.banks n (y.events.foldl ErrBank.apply bankEmpty) } }

/-- An error that the SEC-DED of a chiplet's pools, slices, lofts and operand memory, or of the hub, finds: its bank and
an event (R441, log entry 13). -/
def State.sramError (s : State) (bank : Nat) (ue : Bool) (addr : Nat) : State :=
  if bank < 32 || 48 < bank then s
  else
    let syn := (Config.syndrome s.freeSeed).toNat
    let kind := if ue then evUE else evCE
    ((s.bankEvent bank ue kind addr syn).post kind 0 (if bank = 48 then srcHub else srcChip (bank - 32)) addr syn).draw

/-! ### Poison of memory (R439, R440, R444) -/

def poisonNone : PoisonRec := ⟨[], []⟩

/-- The controllers of the chiplet whose stack holds an address (R18). -/
def controllersOf (pa : Nat) : List Nat := [2 * (pa / 2 ^ 36), 2 * (pa / 2 ^ 36) + 1]

/-- The key under which poison of second-tier and host sectors is kept. -/
def otherPoison : Nat := 32

def poisonKeys (pa : Nat) : List Nat := if isHbm pa then controllersOf pa else [otherPoison]

/-- The key under which the marks of sectors held in L2 slices are kept (R440). -/
def slicePoison : Nat := 33

/-- Whether a flat line of the home slice holds the sector of an address. -/
def State.sliceHas (s : State) (pa : Nat) : Bool :=
  if isHost pa then (tfind s.hostSectors (sectorOf pa)).isSome else (tfind s.l2 (sectorOf pa)).isSome

def State.sliceMarked (s : State) (pa : Nat) : Bool :=
  (tget poisonNone s.poison slicePoison).sectors.contains (sectorOf pa)

/-- Whether the controller of a sector has it listed, or its frame quarantined (R439). -/
def State.recPoison (s : State) (pa : Nat) : Bool :=
  (poisonKeys pa).any fun k =>
    let r := tget poisonNone s.poison k
    r.sectors.contains (sectorOf pa) || r.frames.contains (pa / 65536)

/-- Whether an address lies in the stack of a fenced chiplet (R444). -/
def State.stackFenced (s : State) (pa : Nat) : Bool := isHbm pa && s.hub.fencemask.getLsbD (pa / 2 ^ 36)

/-- Whether a sector reads as poisoned from memory itself (R439, R444). -/
def State.storedPoison (s : State) (pa : Nat) : Bool := s.recPoison pa || s.stackFenced pa

/-- Whether a sector reads as poisoned: by its mark where a slice holds it, else as memory gives it (R439, R440). -/
def State.memPoison (s : State) (pa : Nat) : Bool :=
  (if s.sliceHas pa then s.sliceMarked pa else s.recPoison pa) || s.stackFenced pa

/-- Whether memory's writes to an address are dropped: a quarantined frame or a fenced stack (R439, R444). -/
def State.writeDropped (s : State) (pa : Nat) : Bool :=
  (poisonKeys pa).any (fun k => (tget poisonNone s.poison k).frames.contains (pa / 65536)) || s.stackFenced pa

/-- The frame of a record that holds the most entries, the lowest among equals (R439). -/
def fullestFrame (sectors : List Nat) : Nat :=
  let frames := sectors.map (fun x => x / 2048)
  let count (f : Nat) : Nat := (frames.filter (fun g => g == f)).length
  frames.foldl (fun best f =>
    if count best < count f || (count best == count f && f < best) then f else best) (frames.headD 0)

/-- Which controller records a sector. -/
def controllerOf (pa : Nat) : Nat :=
  if isHbm pa then 2 * (pa / 2 ^ 36) + (if Config.upperController (sectorOf pa) then 1 else 0) else otherPoison

/-- Add a poisoned sector to its controller's record; a full record quarantines a frame (R439).  A 33rd frame is
kept until the chiplet-fatal fault that it is has been taken. -/
def State.addPoison (s : State) (pa : Nat) : State :=
  if (poisonKeys pa).any (fun k => (tget poisonNone s.poison k).sectors.contains (sectorOf pa)) then s
  else
    let k := controllerOf pa
    let r := tget poisonNone s.poison k
    if k = otherPoison || r.sectors.length < 512 then
      { s with poison := tput s.poison k { r with sectors := r.sectors ++ [sectorOf pa] } }
    else
      let f := fullestFrame r.sectors
      let kept := r.sectors.filter (fun x => x / 2048 != f)
      let s := { s with poison := tput s.poison k ⟨kept ++ [sectorOf pa], r.frames ++ [f]⟩ }
      s.post evQUARANTINE 0 (srcHbm k) (f * 65536) (r.sectors.length - kept.length)

/-- A controller of a chiplet's stack has made a 33rd quarantine (R439). -/
def State.overQuarantined (s : State) (chip : Nat) : Bool :=
  [2 * chip, 2 * chip + 1].any fun k => decide (32 < (tget poisonNone s.poison k).frames.length)

/-- The controllers of a chiplet's stack hold 32 quarantined frames at most. -/
def State.capFrames (s : State) (chip : Nat) : State :=
  [2 * chip, 2 * chip + 1].foldl (fun s k =>
    match tfind s.poison k with
    | some r => { s with poison := tput s.poison k { r with frames := r.frames.take 32 } }
    | none => s) s

/-- A full 32-byte write of memory removes the sector from its controller's record (R439). -/
def State.clearPoison (s : State) (pa : Nat) : State :=
  (poisonKeys pa).foldl (fun s k =>
    match tfind s.poison k with
    | some r =>
        if r.sectors.contains (sectorOf pa) then
          { s with poison := tput s.poison k { r with sectors := r.sectors.filter (fun x => x != sectorOf pa) } }
        else s
    | none => s) s

/-- Memory itself takes a write: its sectors get a fresh code (R438), and poison follows the data (R439, R440). -/
def State.storeMarks (s : State) (pa n : Nat) (poisoned : Bool) : State :=
  (List.range ((pa + n + 31) / 32 - pa / 32)).foldl (fun s i =>
    let x := pa / 32 + i
    let s := { s with flips := tdel s.flips x }
    if poisoned then s.addPoison (x * 32)
    else if pa ≤ x * 32 && x * 32 + 32 ≤ pa + n then s.clearPoison (x * 32) else s) s

/-! ### The controllers' codes (R438) -/

/-- The address check of a sector: bit n is the XOR of PA[5 + n + 6m] over every m with 5 + n + 6m ≤ 51. -/
def addrCheck (pa : Nat) : BitVec 6 :=
  BitVec.ofNat 6 ((List.range 6).foldl (fun acc n =>
    acc + 2 ^ n * (((List.range 8).filter fun m => 5 + n + 6 * m ≤ 51 && bit pa (5 + n + 6 * m)).length % 2)) 0)

/-- How many bits of a word are 1. -/
def onesOf {w : Nat} (b : BitVec w) : Nat := ((List.range w).filter b.getLsbD).length

/-- What reading a sector of HBM finds: the address check, then the code's syndrome.  More than two flipped bits are
taken as two (log entry 96). -/
def State.judge (s : State) (pa : Nat) : Ecc :=
  match tfind s.flips (sectorOf pa) with
  | none => .clean
  | some f =>
      if addrCheck pa ^^^ f.check != addrCheck pa then .uncorrected
      else match onesOf f.data + onesOf f.code with
        | 0 => .clean
        | 1 => .corrected
        | _ => .uncorrected

/-- The worse of two results of a read. -/
def worseEcc : Ecc → Ecc → Ecc
  | .uncorrected, _ => .uncorrected
  | _, .uncorrected => .uncorrected
  | .corrected, _ => .corrected
  | _, .corrected => .corrected
  | _, e => e

/-- Bits of a sector of HBM flip: further flips add to those that stand. -/
def State.flipBits (s : State) (pa : Nat) (f : HbmFlips) : State :=
  if !isHbm pa then s
  else
    let old := tget ⟨0, 0, 0⟩ s.flips (sectorOf pa)
    { s with flips := tput s.flips (sectorOf pa) ⟨old.data ^^^ f.data, old.code ^^^ f.code, old.check ^^^ f.check⟩ }

end Sys2Proof.Machine
end

