-- ==== Sys2Proof/Machine/Coherence.lean ====
section
/-! DEFINITION. The points of coherence: slices, ownership of words, L1 copies, write-backs and poison of memory
(R232 to R237, R374 to R376, R438 to R440). -/

namespace Sys2Proof.Machine

/-- Bytes the spec leaves open. -/
def freeBytes (seed n : Nat) : List Byte := (List.range n).map (fun i => Config.freeByte (seed + i))

def State.drawBytes (s : State) (n : Nat) : State := { s with freeSeed := s.freeSeed + n }

/-! ### Traffic counters (R251) -/

def l1HitIx : Nat := 0
def l1FillIx : Nat := 1
def l2HitIx : Nat := 2
def l2FillIx : Nat := 3
def wbackIx : Nat := 4

/-- On whose behalf slices are accessed: the ASID that tags the lines (R68), and the context that counts the traffic
(R251), if one does, and whether an engine accesses for it. -/
structure Client where
  asid : Nat
  ctx : Option (Nat × Nat)
  engine : Bool := false
  deriving DecidableEq, Repr

/-- The tag of agents that reach memory through no ASID. -/
def noAsid : Nat := 65536

/-- A context as a client. -/
def State.client (s : State) (p k : Nat) : Client := ⟨(s.team p).asid.toNat, some (p, k), false⟩

/-- An engine command of a context as a client. -/
def State.engineClient (s : State) (p k : Nat) : Client := ⟨(s.team p).asid.toNat, some (p, k), true⟩

/-- Count into a traffic counter of a client's context. -/
def State.countTo (s : State) (cl : Client) (ix n : Nat) : State :=
  match cl.ctx with
  | some (p, k) => if cl.engine then s.countEngine p k ix n else s.count p k ix n
  | none => s

/-! ### Marks of sectors in slices -/

def addSector (r : PoisonRec) (x : Nat) : PoisonRec :=
  if r.sectors.contains x then r else { r with sectors := r.sectors ++ [x] }

def State.markSlice (s : State) (pa : Nat) : State :=
  { s with poison := tput s.poison slicePoison (addSector (tget poisonNone s.poison slicePoison) (sectorOf pa)) }

def State.unmarkSlice (s : State) (pa : Nat) : State :=
  match tfind s.poison slicePoison with
  | some r =>
      let r := PoisonRec.mk (r.sectors.filter (fun x => x != sectorOf pa)) r.frames
      { s with poison := tput s.poison slicePoison r }
  | none => s

/-- A sector that a slice holds, or else memory, is poisoned. -/
def State.poisonSector (s : State) (pa : Nat) : State := if s.sliceHas pa then s.markSlice pa else s.addPoison pa

/-! ### Sectors leave slices (R234, R390) -/

/-- Whether the line of an ASID holds it: two ASIDs never share a line (R68, R234). -/
def State.lineHas (s : State) (asid pa : Nat) : Bool :=
  s.sliceHas pa && (tget [] s.l2Tags (sectorOf pa)).contains asid

/-- Write a sector back, with its mark: a full sector, which a quarantined frame does not take (R439, R440); true where
it was modified. -/
def State.writebackSector (s : State) (pa : Nat) : State × Bool :=
  if isHost pa then
    match tfind s.hostSectors (sectorOf pa) with
    | none => (s, false)
    | some h =>
        if h.dirty = 0 then (s, false)
        else if s.hostUp pa then
          let mem := (List.range 32).foldl (fun m i =>
            if h.dirty.getLsbD i then Mem.set m (pa / 32 * 32 + i) (h.data.getD i 0) else m) s.mem
          let s := { s with mem := mem, hostSectors := tput s.hostSectors (sectorOf pa) { h with dirty := 0 } }
          (if s.sliceMarked pa then (s.addPoison pa).emit (.poisonedWrite (hostPort pa) (pa / 32 * 32) 32)
            else s.clearPoison pa, true)
        else
          (({ s with hostSectors := tput s.hostSectors (sectorOf pa) { h with dirty := 0 } }).post
            evDROPWR 0 (srcPort (hostPort pa)) (pa / 32 * 32) (hostPort pa), true)
  else
    match tfind s.l2 (sectorOf pa) with
    | some true =>
        let s := { s with l2 := tput s.l2 (sectorOf pa) false }
        if s.writeDropped pa then (s.post evDROPWR 0 srcHub (pa / 32 * 32) 0, true)
        else (s.storeMarks (pa / 32 * 32) 32 (s.sliceMarked pa), true)
    | _ => (s, false)

/-- A sector leaves its slice. -/
def State.evictSector (s : State) (pa : Nat) : State :=
  let s := (s.writebackSector pa).1.unmarkSlice pa
  { s with
    l2 := tdel s.l2 (sectorOf pa)
    l2Tags := tdel s.l2Tags (sectorOf pa)
    hostSectors := tdel s.hostSectors (sectorOf pa) }

/-- One modified byte of a tensor's line reaches host memory; HBM and second-tier memory have it from the flat home. -/
def State.writebackByte (s : State) (b : TensorByte) : State :=
  if b.dirty && isHost b.pa then
    if s.hostUp b.pa then { s with mem := Mem.set s.mem b.pa b.value }
    else s.post evDROPWR 0 (srcPort (hostPort b.pa)) b.pa (hostPort b.pa)
  else s

/-- Sectors of a tensor's line that are modified. -/
def TensorLine.dirtySectors (l : TensorLine) : Nat :=
  ((l.bytes.filter fun e => e.2.dirty).map fun e => e.1 / 32).eraseDups.length

/-- A line of a tensor writes its modified bytes back (R69, R234). -/
def State.writebackLine (s : State) (l : TensorLine) : State :=
  let s := l.bytes.foldl (fun s e => s.writebackByte e.2) s
  { s with tensorLines := s.tensorLines.map fun x =>
    if x == l then { x with bytes := x.bytes.map fun e => (e.1, { e.2 with dirty := false }) } else x }

/-- A line of a tensor leaves its slice. -/
def State.evictTensor (s : State) (l : TensorLine) : State :=
  let s := l.bytes.foldl (fun s e => s.writebackByte e.2) s
  { s with tensorLines := s.tensorLines.filter fun x => x != l }

/-- Write back every modified sector of a C = 1 host page (R382, R390, R468), and how many there were. -/
def State.writebackHost (s : State) : State × Nat :=
  let r := s.hostSectors.foldl (fun (acc : State × Nat) e =>
    let r := acc.1.writebackSector (e.1 * 32)
    (r.1, if r.2 then acc.2 + 1 else acc.2)) (s, 0)
  (r.1.tensorLines.filter fun l => l.bytes.any fun e => e.2.dirty && isHost e.2.pa).foldl
    (fun acc l => (acc.1.writebackLine l, acc.2 + l.dirtySectors)) r

/-! ### The lines of a slice (R20, R68, R234) -/

/-- Lines of 256 bytes in a slice of 8 MiB (R20). -/
def sliceCapacity : Nat := 32768

/-- The flat lines that a slice holds, by ASID and number: a sector held by lines of two ASIDs stands in two. -/
def State.flatLines (s : State) (home : Nat × Nat) : List (Nat × Nat) :=
  ((s.l2Tags.filter fun e => s.homeSlice (32 * e.1) == home).flatMap fun e => e.2.map fun a => (a, e.1 / 8)).eraseDups

/-- The lines of tensors that a slice holds. -/
def State.tensorLinesAt (s : State) (home : Nat × Nat) : List TensorLine :=
  s.tensorLines.filter fun l => l.chip == home.1 && l.bay == home.2

/-- The line of an ASID gives up a sector; with the last such line the sector leaves the slice.  The line that a write
left alone with it stands first, and writes it back as it goes where it is modified (R234).  True where it was written
back. -/
def State.untag (s : State) (asid pa : Nat) : State × Bool :=
  let tags := tget [] s.l2Tags (sectorOf pa)
  let rest := tags.filter (fun a => a != asid)
  if rest.isEmpty then (s.evictSector pa, (s.writebackSector pa).2)
  else
    let r := if tags.head? = some asid then s.writebackSector pa else (s, false)
    ({ r.1 with l2Tags := tput r.1.l2Tags (sectorOf pa) rest }, r.2)

/-- A flat line of an ASID leaves its slice: the state, and the sectors written back. -/
def State.evictFlat (s : State) (asid line : Nat) : State × Nat :=
  (List.range 8).foldl (fun acc i =>
    let pa := line * 256 + 32 * i
    if acc.1.lineHas asid pa then
      let r := acc.1.untag asid pa
      (r.1, if r.2 then acc.2 + 1 else acc.2)
    else acc) (s, 0)

/-- Make room for one more line in a slice: a full one gives up a line, which the spec does not name, and what is
written back counts to the client (R234, R251). -/
def State.makeRoom (s : State) (cl : Client) (home : Nat × Nat) : State :=
  let flat := s.flatLines home
  let lines := s.tensorLinesAt home
  if flat.length + lines.length < sliceCapacity then s
  else
    let n := Config.victim s.freeSeed % (flat.length + lines.length)
    let s := { s with freeSeed := s.freeSeed + 1 }
    match flat[n]?, lines[n - flat.length]? with
    | some (a, line), _ => let r := s.evictFlat a line; r.1.countTo cl wbackIx r.2
    | none, some l => (s.evictTensor l).countTo cl wbackIx l.dirtySectors
    | none, none => s

/-- The line of an ASID takes the sector of an address, with room made for the line where the slice has none of it. -/
def State.tagSector (s : State) (cl : Client) (pa : Nat) : State :=
  let s := if (List.range 8).any fun i => (tget [] s.l2Tags (pa / 256 * 8 + i)).contains cl.asid then s
    else s.makeRoom cl (s.homeSlice pa)
  let tags := tget [] s.l2Tags (sectorOf pa)
  { s with l2Tags := tput s.l2Tags (sectorOf pa) (if tags.contains cl.asid then tags else tags ++ [cl.asid]) }

/-! ### Sectors enter slices (R234, R438) -/

/-- What the HBM code finds when a sector is read (R438, R439, R442): what the bits that have flipped give, and what
the reading itself meets. -/
def State.eccEvent (s : State) (pa : Nat) (ecc : Ecc) : State :=
  let n := controllerOf pa
  let syn := (Config.syndrome s.freeSeed).toNat
  match worseEcc (s.judge pa) ecc with
  | .clean | .unsuccessful => s
  | .corrected => ((s.bankEvent n false evCE (pa / 32 * 32) syn).post evCE 0 (srcHbm n) (pa / 32 * 32) syn).draw
  | .uncorrected =>
      (((s.addPoison pa).bankEvent n true evUE (pa / 32 * 32) syn).post evUE 0 (srcHbm n) (pa / 32 * 32) syn).draw

/-- A sector that enters a slice brings memory's poison with it as its mark (R440). -/
def State.enterMark (s : State) (pa : Nat) : State :=
  if s.sliceHas pa then s else if s.recPoison pa then s.markSlice pa else s.unmarkSlice pa

/-- Bring the sector of an address into its home slice from memory. -/
def State.fillSlice (s : State) (pa : Nat) (ecc : Ecc) : State :=
  if s.sliceHas pa then s
  else if isHost pa then
    if s.hostUp pa then
      let s := s.enterMark pa
      { s with hostSectors := tput s.hostSectors (sectorOf pa) ⟨Mem.read s.mem (pa / 32 * 32) 32, 0⟩ }
    else
      (({ s with hostSectors := tput s.hostSectors (sectorOf pa) ⟨freeBytes s.freeSeed 32, 0⟩ }).markSlice pa).drawBytes 32
  else
    let s := (if isHbm pa then s.eccEvent pa ecc else s).enterMark pa
    { s with l2 := tput s.l2 (sectorOf pa) false }

/-- A client needs the sector of an address in its line: a hit, or a fill (R234, R251). -/
def State.needSector (s : State) (cl : Client) (pa : Nat) (ecc : Ecc) : State :=
  if s.lineHas cl.asid pa then s.countTo cl l2HitIx 1
  else ((s.tagSector cl pa).fillSlice pa ecc).countTo cl l2FillIx 1

def State.needSectors (s : State) (cl : Client) (pa n : Nat) (ecc : Ecc) : State :=
  (unitsOf 32 pa n).foldl (fun s x => s.needSector cl (x * 32) ecc) s

/-! ### Reads at a point of coherence -/

/-- Whether any sector of a range reads as poisoned. -/
def State.rangePoison (s : State) (pa n : Nat) : Bool := (unitsOf 32 pa n).any (fun x => s.memPoison (x * 32))

/-- Whether any sector of a range reads as poisoned from memory itself. -/
def State.rangeStored (s : State) (pa n : Nat) : Bool := (unitsOf 32 pa n).any (fun x => s.storedPoison (x * 32))

/-- The controllers read the sectors of a range that no slice holds. -/
def State.readSectors (s : State) (pa n : Nat) (ecc : Ecc) : State :=
  (unitsOf 32 pa n).foldl (fun s x =>
    if isHbm (x * 32) && !s.sliceHas (x * 32) then s.eccEvent (x * 32) ecc else s) s

/-- Read bytes of a C = 1 page at their home, or of a C = 0 page; with their mark. -/
def State.homeRead (s : State) (cl : Client) (pa n : Nat) (cached : Bool) (ecc : Ecc) : List Byte × Bool × State :=
  if cached then
    let s := s.needSectors cl pa n ecc
    (s.physRead pa n, s.rangePoison pa n, s)
  else if isHost pa && !s.hostUp pa then (freeBytes s.freeSeed n, true, s.drawBytes n)
  else
    let s := s.readSectors pa n ecc
    (Mem.read s.mem pa n, s.rangeStored pa n, s)

/-! ### L1 copies (R235, R236, R375) -/

def Team.hasL1 (t : Team) : Bool := t.spadTop < t.l1Top

def wordsOf (pa n : Nat) : List Nat := unitsOf 4 pa n

/-- Bytes of L1 words, if the core holds them all. -/
def Core.l1Bytes (c : Core) (pa n : Nat) : Option (List Byte × Bool) :=
  let ws := (wordsOf pa n).map (tfind c.l1)
  if ws.all Option.isSome then
    let vs := ws.filterMap id
    some (((vs.flatMap fun w => leBytes 4 w.value.toNat).drop (pa % 4)).take n, vs.any L1Word.poison)
  else none

def State.phys32 (s : State) (w : Nat) : Word32 := BitVec.ofNat 32 (s.physNat (4 * w) 4)

/-- Sets of a core's L1: it occupies the pool from SPADTOP to L1TOP, in sectors, eight to a set (R235). -/
def Team.l1Sets (t : Team) : Nat := (t.l1Top - t.spadTop) * 1024 / 256

/-- Whether the L1 holds a word of a sector. -/
def Core.l1Holds (c : Core) (x : Nat) : Bool := (List.range 8).any fun i => (tfind c.l1 (x * 8 + i)).isSome

/-- The slot a sector was last filled into, if it is still there. -/
def Core.l1SlotOf (c : Core) (x : Nat) : Option Nat :=
  (c.l1Slots.find? fun e => e.2 == x && c.l1Holds x).map Prod.fst

/-- The words of a sector leave an L1. -/
def dropSector (l : Table L1Word) (x : Nat) : Table L1Word := l.filter fun e => e.1 / 8 != x

/-- The slot of a set that a sector takes: its own, else one that holds nothing, else one that the spec does not
name. -/
def Core.l1Choose (c : Core) (set x seed : Nat) : Nat :=
  let ways := (List.range 8).map fun i => 8 * set + i
  match c.l1SlotOf x, ways.find? (fun i => !((tfind c.l1Slots i).any c.l1Holds)) with
  | some i, _ => i
  | none, some i => i
  | none, none => 8 * set + Config.victim seed % 8

/-- The pool address at which a slot of the L1 lies. -/
def Team.l1Addr (t : Team) (slot : Nat) : Nat := t.spadTop * 1024 + 32 * slot

/-- Bring a sector into a core's L1, in place of what its slot held (R235); the bank of the slot is accessed (R230). -/
def State.fillL1 (s : State) (p pa : Nat) : State :=
  let mark := s.memPoison pa
  let x := sectorOf pa
  let c := s.core p
  let slot := c.l1Choose (Config.l1Set x % c.team.l1Sets) x s.freeSeed
  let l := match tfind c.l1Slots slot with
    | some y => if y = x then c.l1 else dropSector c.l1 y
    | none => c.l1
  let c := { c with
    l1 := (List.range 8).foldl (fun l i =>
      let w := x * 8 + i
      tput l w ⟨s.phys32 w, tfind s.owners w == some p, mark⟩) l
    l1Slots := tput c.l1Slots slot x }
  { s.setCore p (c.wake s.cycles (c.team.l1Addr slot) 32) with freeSeed := s.freeSeed + 1 }

/-- A hit in the L1 accesses the bank of its sector (R230). -/
def State.touchL1 (s : State) (p pa : Nat) : State :=
  match (s.core p).l1SlotOf (sectorOf pa) with
  | some slot => s.modCore p fun c => c.wake s.cycles (c.team.l1Addr slot) 32
  | none => s

/-- A load served elsewhere leaves the core no copy of its words that is not owned: none of them may later be older
than what it returned (R375). -/
def State.dropStale (s : State) (p pa n : Nat) : State :=
  let keep (l : Table L1Word) (w : Nat) : Table L1Word := if (tfind l w).any L1Word.owned then l else tdel l w
  s.modCore p fun c => { c with l1 := (wordsOf pa n).foldl keep c.l1 }

/-- An acquire at .bay scope or wider: only owned words stay (R236). -/
def State.discardL1 (s : State) (p : Nat) : State :=
  s.modCore p fun c => { c with l1 := c.l1.filter (fun e => e.2.owned) }

/-- A load of a C = 1 page by a core's LD: from its L1, else from the home; `fill` is whether the sector then
stays in the L1. -/
def State.cachedLoad (s : State) (p k pa n : Nat) (fill : Bool) (ecc : Ecc) : List Byte × Bool × State :=
  let hit := if (s.team p).hasL1 then (s.core p).l1Bytes pa n else none
  match hit with
  | some (bs, m) => (bs, m, (s.touchL1 p pa).count p k l1HitIx 1)
  | none =>
      let (bs, m, s) := s.homeRead (s.client p k) pa n true ecc
      let s := if fill && (s.team p).hasL1 then (s.fillL1 p pa).count p k l1FillIx 1 else s.dropStale p pa n
      (bs, m, s)

/-! ### Writes at a point of coherence (R236, R374, R376) -/

/-- Put bytes into the slice copy of host sectors. -/
def HostSector.put (h : HostSector) (off : Nat) : List Byte → HostSector
  | [] => h
  | b :: bs => HostSector.put ⟨h.data.set off b, h.dirty ||| (1#32 <<< off)⟩ (off + 1) bs

def State.putHost (s : State) (cl : Client) (pa : Nat) (bs : List Byte) : State :=
  (unitsOf 32 pa bs.length).foldl (fun s x =>
    let lo := max pa (x * 32)
    let part := (bs.drop (lo - pa)).take (x * 32 + 32 - lo)
    let s := if s.sliceHas (x * 32) then s else (s.fillSlice (x * 32) .clean).countTo cl l2FillIx 1
    let h := (tget (HostSector.mk [] 0) s.hostSectors x).put (lo % 32) part
    { s with hostSectors := tput s.hostSectors x h }) s

/-- Register a writer as owner of a word and revoke the previous owner's copy. -/
def State.ownWord (s : State) (writer : Option Nat) (w : Nat) : State :=
  let s := match tfind s.owners w with
    | some o => if writer == some o then s else s.modCore o fun c => { c with l1 := tdel c.l1 w }
    | none => s
  match writer with
  | some p => { s with owners := tput s.owners w p }
  | none => { s with owners := tdel s.owners w }

/-- The writing core's L1, where it holds the word's sector, takes the word as owned (R235, R236, R374). -/
def State.ownCopy (s : State) (p w : Nat) : State :=
  if (s.core p).l1Holds (w / 8) then
    (s.modCore p fun c => { c with l1 := tput c.l1 w ⟨s.phys32 w, true, s.memPoison (4 * w)⟩ }).touchL1 p (4 * w)
  else s

/-- The marks a write leaves on sectors in slices (R440). -/
def State.markWrite (s : State) (pa n : Nat) (poisoned : Bool) : State :=
  (unitsOf 32 pa n).foldl (fun s x =>
    if poisoned then s.markSlice (x * 32)
    else if pa ≤ x * 32 && x * 32 + 32 ≤ pa + n then s.unmarkSlice (x * 32) else s) s

/-- The slices that hold a line of a tensor with a byte of the flat line of an address: those of the home chiplet, and
whether there is one elsewhere (R237). -/
def State.coverSet (s : State) (pa : Nat) : List (Nat × Nat) × Bool :=
  let home := s.homeSlice pa
  let ls := s.tensorLines.filter fun l => l.bytes.any fun e => e.2.pa / 256 == pa / 256
  ((ls.filter fun l => l.chip == home.1).map (fun l => (l.chip, l.bay)), ls.any fun l => l.chip != home.1)

/-- The flat home invalidates a word in the lines of tensors that its set names (R237). -/
def State.invalidateWord (s : State) (w : Nat) : State :=
  let (slices, elsewhere) := s.coverSet (4 * w)
  { s with tensorLines := s.tensorLines.map fun l =>
    if elsewhere || slices.contains (l.chip, l.bay) then
      { l with bytes := l.bytes.filter fun e => e.2.pa / 4 != w } else l }

/-- The sectors a client writes stand modified in its line; the lines of other ASIDs lose them (R68, R234). -/
def State.takeSectors (s : State) (cl : Client) (pa n : Nat) : State :=
  (unitsOf 32 pa n).foldl (fun s x =>
    let s := (s.tagSector cl (x * 32)).enterMark (x * 32)
    { s with l2Tags := tput s.l2Tags x [cl.asid] }) s

/-- A write of a C = 1 page performs at its flat home (R236, R237, R374).  Host sectors absent from the slice are
filled first and count to L2FILL; of an HBM or second-tier sector only what is written enters it (DESIGN CHOICE, log
entry 97). -/
def State.homeWrite (s : State) (cl : Client) (writer : Option Nat) (pa : Nat) (bs : List Byte) (poisoned : Bool) :
    State :=
  if s.stackFenced pa then s.post evDROPWR 0 srcHub pa (writer.getD 0)
  else
    let s := s.takeSectors cl pa bs.length
    let s := if isHost pa then s.putHost cl pa bs
      else
        let l2 := (unitsOf 32 pa bs.length).foldl (fun t x => tput t x true) s.l2
        { s with mem := Mem.write s.mem pa bs, l2 := l2 }
    let s := (wordsOf pa bs.length).foldl State.invalidateWord s
    let s := s.markWrite pa bs.length poisoned
    let s := (wordsOf pa bs.length).foldl (fun s w => s.ownWord writer w) s
    match writer with
    | some p => (wordsOf pa bs.length).foldl (fun s w => s.ownCopy p w) s
    | none => s

/-- A write of a C = 0 page: host memory through its port, where poisoned data goes out as a poisoned TLP and host
memory is taken to keep the poison (R440, log entry 96), else memory. -/
def State.plainWrite (s : State) (writer : Option Nat) (pa : Nat) (bs : List Byte) (poisoned : Bool) : State :=
  if isHost pa then
    if s.hostUp pa then
      let s := { s with mem := Mem.write s.mem pa bs }.storeMarks pa bs.length poisoned
      if poisoned then s.emit (.poisonedWrite (hostPort pa) pa bs.length) else s
    else s.post evDROPWR 0 (srcPort (hostPort pa)) pa (writer.getD (hostPort pa))
  else if s.writeDropped pa then s.post evDROPWR 0 srcHub pa (writer.getD 0)
  else
    let s := (wordsOf pa bs.length).foldl State.invalidateWord { s with mem := Mem.write s.mem pa bs }
    let s := s.storeMarks pa bs.length poisoned
    (wordsOf pa bs.length).foldl (fun s w => s.ownWord writer w) s

def State.physWrite (s : State) (cl : Client) (writer : Option Nat) (pa : Nat) (cached : Bool) (bs : List Byte)
    (poisoned : Bool) : State :=
  if cached then s.homeWrite cl writer pa bs poisoned else s.plainWrite writer pa bs poisoned

end Sys2Proof.Machine
end

