-- ==== Sys2Proof/WellFormed.lean ====
section
/-! DEFINITION. The limits the spec sets on the fields of a syllable beyond their widths: the register
classes and modes of R151 and R152, the accepted formats of R259 and R294, the types of R354, and the
special rules of single instructions.  A syllable outside them raises ILLEGAL (R176). -/

namespace Sys2Proof

/-- R152: which modes a scalar source field may carry. -/
def Src.wf (s : Src) : Bool :=
  s.reg.toNat < 56 || s.reg.toNat == 63 || s.mode == .pop || s.mode == .keep

/-- R152: lq and ctx are no destinations. -/
def Dst.wf (d : Dst) : Bool :=
  d.reg.toNat != 60 && d.reg.toNat != 62

/-- The scalar sources of a memory operand. -/
def MemOp.wf (m : MemOp) : Bool := m.base.wf && m.index.wf

/-- The scalar source of a memory operand whose index is a vector. -/
def VMemOp.wf (m : VMemOp) : Bool := m.base.wf

/-- The arithmetic floating formats, codes 0x0 to 0x2 (R31). -/
def Fmt.isFloat : Fmt → Bool
  | .fp32 | .bf16 | .fp16 => true
  | _ => false

/-- The integer formats, codes 0xC to 0xE (R31). -/
def Fmt.isInt : Fmt → Bool
  | .i32 | .i16 | .i8 => true
  | _ => false

/-- The block-integer formats a register holds, codes 0xA and 0xB. -/
def Fmt.isRegBlock : Fmt → Bool
  | .bi8 | .bi16 => true
  | _ => false

/-- Codes 0x0 to 0x4 and 0xA to 0xE (R259, R294). -/
def Fmt.isElement : Fmt → Bool
  | .fp32 | .bf16 | .fp16 | .e4m3 | .e5m2 | .bi8 | .bi16 | .i32 | .i16 | .i8 => true
  | _ => false

/-- Codes 0x0 to 0x7 and 0xC to 0xE: what VCVT converts (R294). -/
def Fmt.isConvertible : Fmt → Bool
  | .bi4 | .bi6 | .bi8 | .bi16 | .ra => false
  | _ => true

/-- Elements in a row of a vector entry (R289); codes with no register form count as bytes. -/
def Fmt.perRow : Fmt → Nat
  | .fp32 | .i32 => 64
  | .bf16 | .fp16 | .bi16 | .i16 => 128
  | _ => 256

/-- R158: cc codes that compare scalars. -/
def Cc.isScalar : Cc → Bool
  | .un => false
  | _ => true

/-- R158: codes a comparison of this format accepts. -/
def Cc.accepts (f : Fmt) : Cc → Bool
  | .un => f.isFloat
  | .ltn | .gen | .len | .gtn => f.isInt
  | _ => f.isFloat || f.isInt

/-- R354: integer types. -/
def AmoTy.isInt : AmoTy → Bool
  | .n32 | .n64 | .i32 | .i64 => true
  | _ => false

/-- R354: types an AMO operation accepts, and the source class of cas. -/
def AmoOp.accepts (ty : AmoTy) : AmoOp → Bool
  | .fadd => !ty.isInt
  | .cas new => ty.isInt && new.wf
  | _ => ty.isInt

/-- R354: types a RED operation accepts. -/
def RedOp.accepts (ty : AmoTy) : RedOp → Bool
  | .fadd => !ty.isInt
  | _ => ty.isInt

/-- R300: where SAT and UNS may stand together. -/
def satOk (uns sat : Bool) : Bool := sat || !uns

/-- R294: the rounding field of an instruction that rounds only floating formats. -/
def rndOk (f : Fmt) (r : Rnd) : Bool := f.isFloat || r == .rne

/-- R294: the formats, rounding and UNS of VREDR and VREDC. -/
def VRedOp.accepts (f : Fmt) (r : Rnd) (uns : Bool) : VRedOp → Bool
  | .add => (f.isFloat || f.isInt) && rndOk f r && !uns
  | .min | .max => (f.isFloat || f.isInt) && r == .rne && (f.isInt || !uns)
  | .and | .or | .xor => f.isInt && r == .rne && !uns

/-- R303: PART below the number of parts of the wider count. -/
def cvtPartOk (fd fs : Fmt) (part : BitVec 2) : Bool :=
  part.toNat * Nat.min fd.perRow fs.perRow < Nat.max fd.perRow fs.perRow

/-- R304: PART of VTOBI and VFROMBI by the floating format. -/
def blockPartOk (f : Fmt) (part : BitVec 2) : Bool :=
  match f with
  | .fp32 => part == 0
  | _ => part.toNat ≤ 1

/-- R209: the CSR numbers that name a CSR. -/
def csrDefined (n : BitVec 16) : Bool :=
  let k := n.toNat
  k ≤ 0x4 || k == 0x40 || (0x80 ≤ k && k ≤ 0x84) || (0x88 ≤ k && k ≤ 0x92)
    || (0xA0 ≤ k && k ≤ 0xA5) || (0x100 ≤ k && k ≤ 0x103) || (0x140 ≤ k && k ≤ 0x14B)
    || (0x180 ≤ k && k ≤ 0x186) || (0x1C0 ≤ k && k ≤ 0x1C7) || (0x200 ≤ k && k ≤ 0x20A)
    || k == 0x300 || k == 0x301

/-- R312: VLI's immediate by format. -/
def vliOk (f : Fmt) (imm : BitVec 24) : Bool :=
  match f with
  | .bf16 | .fp16 => imm.toNat < 65536
  | .fp32 | .i32 | .i16 | .i8 => true
  | _ => false

/-- The fields of a syllable lie in the limits of the spec.  A step of the device is no syllable. -/
def Instr.wf : Instr → Bool
  | .nop => true
  | .add d a b | .sub d a b | .and d a b | .or d a b | .xor d a b | .andn d a b
  | .shl d a b | .shr d a b | .sar d a b | .rol d a b
  | .min d a b | .minn d a b | .max d a b | .maxn d a b
  | .mul d a b | .mulh d a b | .mulhn d a b
  | .div d a b | .divn d a b | .rem d a b | .remn d a b => d.wf && a.wf && b.wf
  | .mov d a | .abs d a | .clz d a | .ctz d a | .popc d a => d.wf && a.wf
  | .sel d a b _ _ => d.wf && a.wf && b.wf
  | .lea d a b _ => d.wf && a.wf && b.wf
  | .cmp cc _ a b => cc.isScalar && a.wf && b.wf
  | .cmpi cc _ a _ => cc.isScalar && a.wf
  | .addi d a _ | .andi d a _ | .ori d a _ | .xori d a _ => d.wf && a.wf
  | .shli d a _ | .shri d a _ | .sari d a _ => d.wf && a.wf
  | .li d _ => d.wf
  | .lih d a _ => d.wf && a.wf
  | .pand _ _ _ | .por _ _ _ | .pxor _ _ _ | .pandn _ _ _ => true
  | .pnot _ _ | .pmov _ _ => true
  | .br _ => true
  | .bri a => a.wf
  | .call d _ => d.wf
  | .ret a => a.wf
  | .loop c _ s => c.toNat < 56 && s.toNat ≤ 8
  | .split _ | .join _ => true
  | .brq _ _ | .pushb _ _ => true
  | .csrr d n => d.wf && csrDefined n
  | .csrw n a => csrDefined n && a.wf
  | .csrx d n a => d.wf && csrDefined n && a.wf
  | .halt | .waiti | .fencei | .trap _ | .eret | .commit | .yield | .rplrel | .phase _ => true
  | .segb _ => true
  | .sege _ a => a.wf
  | .ld _ d m => d.wf && m.wf
  | .st _ s m => s.wf && m.wf
  | .vldr f _ m => (f.isElement || f == .ra) && m.wf
  | .vstr f _ m | .vldc f _ m | .vstc f _ m => f.isElement && m.wf
  | .vgth f _ m | .vsct f _ m => f.isElement && m.wf
  | .mark | .fence _ => true
  | .amo op ty _ _ a b => op.accepts ty && a.wf && b.wf
  | .red op ty _ _ a b => op.accepts ty && a.wf && b.wf
  | .lock _ _ _ a | .unlock _ _ a => a.wf
  | .bsig _ a b | .bwait _ a b => a.wf && b.wf
  | .rset _ a | .rpub _ a | .rfree _ a | .rwaitf _ a | .rwaite _ a => a.wf
  | .rclaim _ d | .rtake _ d => d.wf
  | .rstat _ d a => d.wf && a.wf
  | .evsig _ a b => a.wf && b.wf
  | .evwait _ a => a.wf
  | .evstat _ d => d.wf
  | .enq _ a | .chlink _ a | .chkick _ a => a.wf
  | .engstat _ d => d.wf
  | .sheaf a => a.wf
  | .vadd f _ _ _ _ _ | .vsub f _ _ _ _ _ | .vmul f _ _ _ _ _ => f.isFloat
  | .vmin f _ _ _ _ | .vmax f _ _ _ _ => f.isFloat
  | .vfma f _ _ _ _ _ | .vfms f _ _ _ _ _ => f.isFloat
  | .vabs f _ _ _ | .vneg f _ _ _ => f.isFloat
  | .vrcp f _ _ _ _ | .vrsq f _ _ _ _ | .vsqrt f _ _ _ _ => f.isFloat
  | .vexp2 f _ _ _ _ | .vlog2 f _ _ _ _ | .vtanh f _ _ _ _ => f.isFloat
  | .viadd f u s _ _ _ _ | .visub f u s _ _ _ _ | .vimul f u s _ _ _ _ => f.isInt && satOk u s
  | .vimulh f _ _ _ _ _ => f.isInt
  | .vand f _ _ _ _ | .vor f _ _ _ _ | .vxor f _ _ _ _ => f.isInt
  | .vshl f _ _ _ _ | .vshr f _ _ _ _ | .vsar f _ _ _ _ => f.isInt
  | .vimin f _ _ _ _ _ | .vimax f _ _ _ _ _ => f.isInt
  | .vcmp cc f _ _ _ _ => cc.accepts f
  | .vsel f _ _ _ _ => f.isElement
  | .vcvt fd fs _ part _ _ => fd.isConvertible && fs.isConvertible && cvtPartOk fd fs part
  | .vtobi fd fs _ part _ _ => fd.isRegBlock && fs.isFloat && blockPartOk fs part
  | .vfrombi fd fs _ part _ _ => fd.isFloat && fs.isRegBlock && blockPartOk fd part
  | .vrotr _ _ b | .vrotc _ _ b | .vbcr _ _ b | .vbcc _ _ b => b.wf
  | .vscanr f r _ _ _ => (f.isFloat || f.isInt) && rndOk f r
  | .vredr op f r u _ _ _ | .vredc op f r u _ _ _ => op.accepts f r u
  | .vperm _ _ _ | .pset _ _ => true
  | .vtopkr f _ _ b _ => (f == .fp32 || f == .i32) && b.wf
  | .vbuck f u _ _ _ c => (f == .fp32 || f == .i32) && (f == .i32 || !u) && c.wf
  | .vmov _ _ => true
  | .vget f d _ b => f.isElement && d.wf && b.wf
  | .vput f _ _ b c => f.isElement && b.wf && c.wf
  | .vli f _ imm => vliOk f imm
  | .oclaim _ n | .orelease _ n => 1 ≤ n.toNat && n.toNat ≤ 64
  | .mstr a b => a.wf && b.wf
  | .mwait n => n.toNat ≤ 8
  | .mcfg d a => d.wf && a.wf
  | .mstat d => d.wf
  | .rwaitEnd _ => false
  | .evwaitEnd _ => false
  | .bwaitEnd _ => false
  | .mwaitEnd _ => false
  | .waitiEnd _ => false
  | .wedge _ => false
  | .enqAppend _ => false
  | .commandStart _ _ => false
  | .copy _ _ _ => false
  | .fill _ _ _ => false
  | .convert _ _ _ => false
  | .gather _ _ _ => false
  | .scatter _ _ _ => false
  | .encode _ _ _ => false
  | .a2a _ _ => false
  | .a2aDelivery _ => false
  | .commandRetire _ _ => false
  | .chainFetch _ _ => false
  | .streamAppend _ => false
  | .streamStart _ => false
  | .recordFetch _ => false
  | .mma _ => false
  | .mmaz _ => false
  | .maddz _ => false
  | .mscl _ => false
  | .mconv _ => false
  | .streamComplete _ => false
  | .sequencerTrap _ => false
  | .accessPerform _ _ _ _ => false
  | .redEntryPerform _ => false
  | .lineWriteback _ => false
  | .storeFaultReport _ => false
  | .bankRetention _ _ => false
  | .bsigArrival _ => false
  | .evsigArrival _ => false
  | .lockRequest _ => false
  | .lockRelease _ => false
  | .wound _ _ => false
  | .trapEntry _ => false
  | .tctlRequeue _ _ => false
  | .tctlFatal _ _ => false
  | .codesetWrite _ _ => false
  | .lkmtxWrite _ _ _ => false
  | .commitWindowExpiry _ => false
  | .plotRetire _ => false
  | .pairCompare _ _ => false
  | .claim _ => false
  | .leaseRenew _ _ => false
  | .ownershipLapse => false
  | .handover _ => false
  | .queueEnable _ _ _ => false
  | .queueDisable _ _ _ => false
  | .abort _ _ => false
  | .poke _ _ => false
  | .qtail _ _ _ => false
  | .sqEnable _ _ => false
  | .sqDisable _ _ => false
  | .sqtail _ _ => false
  | .launchCheck _ => false
  | .waitdepRecheck => false
  | .dispatch => false
  | .costSort _ _ => false
  | .launchComplete _ => false
  | .steal _ _ => false
  | .coreHandout _ => false
  | .plotStart _ => false
  | .walkerPreempt _ _ => false
  | .persistentSwap _ => false
  | .teamResume _ => false
  | .election _ => false
  | .gleaner _ => false
  | .chipletFatal _ _ _ => false
  | .deviceFatal _ => false
  | .sheafSubmit _ => false
  | .sheafTake => false
  | .sheafSplit _ => false
  | .returnArrival _ _ _ => false
  | .sheafTimeout _ => false
  | .invalidationStart _ _ => false
  | .invalidationDelivery => false
  | .invalidationDrain => false
  | .warm _ => false
  | .fencectlFence _ _ => false
  | .unfence _ _ => false
  | .unfenceComplete _ _ => false
  | .bankClear _ _ => false
  | .injectionArm _ _ => false
  | .sensorForce _ _ => false
  | .registerWrite _ _ _ => false
  | .hostWrite _ _ _ => false
  | .hostRead _ _ _ _ => false
  | .migrationRequest _ => false
  | .migrationRetry _ => false
  | .migrationTimeout _ => false
  | .migration _ => false
  | .lease _ _ _ => false
  | .leaseLapse => false
  | .railChange _ => false
  | .optTableLearn _ _ _ => false
  | .thermalThrottle _ => false
  | .thermalTrip _ => false
  | .hbmRefresh _ => false
  | .hbmTrip _ => false
  | .portRetrain _ _ => false
  | .coldReset => false
  | .perst _ _ => false
  | .bringUp _ => false
  | .telemetry => false
  | .errbank _ => false
  | .events _ => false
  | .fwupdate _ => false
  | .reset => false
  | .getVersion => false
  | .getCapabilities => false
  | .negotiateAlgorithms => false
  | .getDigests => false
  | .getCertificate => false
  | .challenge _ => false
  | .getMeasurements => false
  | .sensorBelow85 _ => false
  | .linkUp _ => false
  | .rowNeighbourLinkDown _ => false
  | .fabricWindowArrival _ => false
  | .podTaskArrival _ => false

/-- A syllable's fields and, for NOP, SPLIT and JOIN, its guard lie in the limits of the spec
(R163, R165, R170). -/
def Syllable.wf (s : Syllable) : Bool :=
  s.op.wf &&
    match s.op with
    | .nop | .split _ | .join _ => s.guard == 0 && !s.gneg
    | _ => true

end Sys2Proof
end

