-- ==== Sys2Proof/Machine/Float.lean ====
section
/-! DEFINITION. Floating formats, exact values and RoundTo (R31, R39 to R45), and the arithmetic the vector
pipe, the engines and the memory ports share. -/

namespace Sys2Proof

/-- Low `w` bits of a number. -/
def lowBits (w n : Nat) : Nat := n % 2 ^ w

/-- An integer in two's complement of width `w`, as its bits. -/
def wrapInt (w : Nat) (i : Int) : Nat := (i % (2 ^ w : Int)).toNat

/-- The signed value of the low `w` bits. -/
def signedOf (w n : Nat) : Int :=
  let m := n % 2 ^ w
  if m < 2 ^ (w - 1) then (m : Int) else (m : Int) - 2 ^ w

/-- A finite value ±m × 2^e; zero keeps its sign. -/
structure Dyadic where
  neg : Bool
  m : Nat
  e : Int
  deriving DecidableEq, Repr

/-- A value of a floating format. -/
inductive Num where
  | nan (signalling : Bool)
  | inf (neg : Bool)
  | fin (d : Dyadic)
  deriving DecidableEq, Repr

/-- The parameters of a floating format: exponent and fraction bits, bias, whether it has infinities, whether
its all-ones exponent with all-ones fraction is NaN (E4M3). -/
structure FloatParams where
  ebits : Nat
  fbits : Nat
  bias : Nat
  hasInf : Bool
  nanTop : Bool
  deriving DecidableEq, Repr

/-- R31, R39, R44.  Formats that are not floating get FP32's parameters, which nothing uses. -/
def Fmt.params : Fmt → FloatParams
  | .bf16 => ⟨8, 7, 127, true, false⟩
  | .fp16 => ⟨5, 10, 15, true, false⟩
  | .e4m3 => ⟨4, 3, 7, false, true⟩
  | .e5m2 => ⟨5, 2, 15, true, false⟩
  | .e2m3 => ⟨2, 3, 1, false, false⟩
  | .e3m2 => ⟨3, 2, 3, false, false⟩
  | .e2m1 => ⟨2, 1, 1, false, false⟩
  | _ => ⟨8, 23, 127, true, false⟩

def FloatParams.width (p : FloatParams) : Nat := 1 + p.ebits + p.fbits

/-- Exponent of the least subnormal. -/
def FloatParams.qmin (p : FloatParams) : Int := 1 - (p.bias : Int) - (p.fbits : Int)

/-- The largest finite magnitude's bits without sign (R44, R45). -/
def FloatParams.maxBits (p : FloatParams) : Nat :=
  if p.hasInf then (2 ^ p.ebits - 1) * 2 ^ p.fbits - 1
  else if p.nanTop then 2 ^ (p.ebits + p.fbits) - 2
  else 2 ^ (p.ebits + p.fbits) - 1

/-- The value of magnitude bits without sign. -/
def FloatParams.magnitude (p : FloatParams) (bits : Nat) : Nat × Int :=
  let ex := bits / 2 ^ p.fbits
  let fr := bits % 2 ^ p.fbits
  if ex = 0 then (fr, p.qmin) else (2 ^ p.fbits + fr, p.qmin + (ex : Int) - 1)

/-- R39, R44: the value of an encoding. -/
def FloatParams.decode (p : FloatParams) (bits : Nat) : Num :=
  let neg := bits / 2 ^ (p.ebits + p.fbits) % 2 = 1
  let mag := bits % 2 ^ (p.ebits + p.fbits)
  let ex := mag / 2 ^ p.fbits
  let fr := mag % 2 ^ p.fbits
  if p.hasInf && ex == 2 ^ p.ebits - 1 then
    if fr = 0 then .inf neg else .nan (fr / 2 ^ (p.fbits - 1) == 0)
  else if p.nanTop && mag == 2 ^ (p.ebits + p.fbits) - 1 then .nan false
  else
    let v := p.magnitude mag
    .fin ⟨neg, v.1, v.2⟩

def FloatParams.signBit (p : FloatParams) (neg : Bool) : Nat :=
  if neg then 2 ^ (p.ebits + p.fbits) else 0

/-- R41, R44: the bits a NaN result becomes; formats without NaN give their largest magnitude. -/
def FloatParams.nanBits (p : FloatParams) : Nat :=
  if p.hasInf then (2 ^ p.ebits - 1) * 2 ^ p.fbits + 2 ^ (p.fbits - 1)
  else if p.nanTop then 2 ^ (p.ebits + p.fbits) - 1
  else p.maxBits

/-- The bits of infinity of a format that has one. -/
def FloatParams.infBits (p : FloatParams) : Nat := (2 ^ p.ebits - 1) * 2 ^ p.fbits

/-- Bit length. -/
def bitLength (n : Nat) : Nat := if n = 0 then 0 else n.log2 + 1

/-- m × 2^(-s) rounded to an integer in a mode, and whether it was inexact (R40). -/
def roundShift (r : Rnd) (neg : Bool) (m s : Nat) : Nat × Bool :=
  let q := m / 2 ^ s
  let rem := m % 2 ^ s
  let half := 2 ^ s / 2
  let up : Bool := match r with
    | .rne => s != 0 && (rem > half || (rem == half && q % 2 == 1))
    | .rtz => false
    | .rup => !neg && rem != 0
    | .rdn => neg && rem != 0
  (if up then q + 1 else q, rem != 0)

/-- m × 2^e rounded to a multiple of 2^q, in units of 2^q, and whether it was inexact. -/
def roundUnits (r : Rnd) (neg : Bool) (m : Nat) (e q : Int) : Nat × Bool :=
  if q ≤ e then (m * 2 ^ (e - q).toNat, false)
  else roundShift r neg m (q - e).toNat

/-- Whether a × 2^i is greater than b × 2^j. -/
def dyadicGt (a : Nat) (i : Int) (b : Nat) (j : Int) : Bool :=
  if i ≤ j then decide (a > b * 2 ^ (j - i).toNat) else decide (a * 2 ^ (i - j).toNat > b)

/-- The overflow result of R42 to R45. -/
def FloatParams.overflow (p : FloatParams) (r : Rnd) (neg : Bool) : Nat :=
  let toInf : Bool := match r with
    | .rne => true
    | .rtz => false
    | .rup => !neg
    | .rdn => neg
  p.signBit neg + (if p.hasInf && toInf then p.infBits else p.maxBits)

/-- RoundTo of a finite value into a floating format (R39 to R42, R44, R45). -/
def FloatParams.round (p : FloatParams) (r : Rnd) (d : Dyadic) : Nat × Flags :=
  if d.m = 0 then (p.signBit d.neg, 0)
  else
    let top : Int := (bitLength d.m : Int) - 1 + d.e
    let qu : Int := top - p.fbits
    let q : Int := max qu p.qmin
    let (units, inexact) := roundUnits r d.neg d.m d.e q
    let mx := p.magnitude p.maxBits
    if dyadicGt units q mx.1 mx.2 then (p.overflow r d.neg, flagOF ||| flagNX)
    else
      let (uu, _) := roundUnits r d.neg d.m d.e qu
      let tiny : Bool := dyadicGt 1 (1 - (p.bias : Int)) uu qu
      (p.signBit d.neg + ((q - p.qmin).toNat * 2 ^ p.fbits + units),
        (if inexact then flagNX else 0) ||| (if tiny && inexact then flagUF else 0))

/-- R41, R44: a value of any kind into a floating format, as a conversion writes it. -/
def FloatParams.ofNum (p : FloatParams) (r : Rnd) : Num → Nat × Flags
  | .fin d => p.round r d
  | .nan s =>
      if p.hasInf || p.nanTop then (p.nanBits, if s then flagNV else 0) else (p.nanBits, flagNV)
  | .inf neg =>
      if p.hasInf then (p.signBit neg + p.infBits, 0)
      else if p.nanTop then (p.nanBits, flagNV)
      else (p.signBit neg + p.maxBits, flagNV)

/-- A NaN operand: whether it is signalling; none for a number. -/
def Num.nan? : Num → Option Bool
  | .nan s => some s
  | _ => none

def Num.isNan (x : Num) : Bool := x.nan?.isSome

def Num.isSnan (x : Num) : Bool := x.nan? == some true

def Num.neg : Num → Num
  | .nan s => .nan s
  | .inf n => .inf (!n)
  | .fin d => .fin { d with neg := !d.neg }

/-- The sign bit of a value. -/
def Num.sign : Num → Bool
  | .nan _ => false
  | .inf n => n
  | .fin d => d.neg

/-- The signed integer m of a dyadic. -/
def Dyadic.int (d : Dyadic) : Int := if d.neg then -(d.m : Int) else d.m

/-- The exact sum; an exact zero takes the sign of R39 (IEEE 754). -/
def Dyadic.add (r : Rnd) (a b : Dyadic) : Dyadic :=
  let e := min a.e b.e
  let s : Int := a.int * 2 ^ (a.e - e).toNat + b.int * 2 ^ (b.e - e).toNat
  if s = 0 then
    ⟨if a.m = 0 && b.m = 0 && a.neg == b.neg then a.neg else r == .rdn, 0, e⟩
  else ⟨decide (s < 0), s.natAbs, e⟩

def Dyadic.mul (a b : Dyadic) : Dyadic := ⟨a.neg != b.neg, a.m * b.m, a.e + b.e⟩

/-- The NaN result of an operation on operands of which one is NaN (R41, R42). -/
def FloatParams.quiet (p : FloatParams) (signalling : Bool) : Nat × Flags :=
  (p.nanBits, if signalling then flagNV else 0)

/-- The result of an invalid operation. -/
def FloatParams.invalid (p : FloatParams) : Nat × Flags := (p.nanBits, flagNV)

def FloatParams.inf (p : FloatParams) (neg : Bool) : Nat × Flags := (p.signBit neg + p.infBits, 0)

/-- a + b of two values that are no NaN. -/
def FloatParams.addNum (p : FloatParams) (r : Rnd) : Num → Num → Nat × Flags
  | .inf a, .inf b => if a == b then p.inf a else p.invalid
  | .inf a, _ => p.inf a
  | _, .inf b => p.inf b
  | .fin a, .fin b => p.round r (a.add r b)
  | _, _ => p.invalid

/-- RoundTo(a + b) (R296). -/
def FloatParams.add (p : FloatParams) (r : Rnd) (a b : Num) : Nat × Flags :=
  if a.isNan || b.isNan then p.quiet (a.isSnan || b.isSnan) else p.addNum r a b

/-- The exact product of two values that are no NaN; none when it is 0 × ∞. -/
def Num.mul : Num → Num → Option Num
  | .fin a, .fin b => some (.fin (a.mul b))
  | .inf a, .inf b => some (.inf (a != b))
  | .inf a, .fin b => if b.m = 0 then none else some (.inf (a != b.neg))
  | .fin a, .inf b => if a.m = 0 then none else some (.inf (a.neg != b))
  | _, _ => none

/-- RoundTo(a × b) (R296). -/
def FloatParams.mul (p : FloatParams) (r : Rnd) (a b : Num) : Nat × Flags :=
  if a.isNan || b.isNan then p.quiet (a.isSnan || b.isSnan)
  else match Num.mul a b with
    | none => p.invalid
    | some (.fin d) => p.round r d
    | some x => p.ofNum r x

/-- RoundTo(a × b + c) (R297). -/
def FloatParams.fma (p : FloatParams) (r : Rnd) (a b c : Num) : Nat × Flags :=
  if a.isNan || b.isNan then
    p.quiet (a.isSnan || b.isSnan || c.isSnan)
  else match Num.mul a b with
    | none => p.invalid
    | some x => if c.isNan then p.quiet c.isSnan else p.addNum r x c

/-- Order of two values that are no NaN: -1, 0 or 1. -/
def Num.cmp (a b : Num) : Int :=
  match a, b with
  | .inf x, .inf y => if x == y then 0 else if x then -1 else 1
  | .inf x, _ => if x then -1 else 1
  | _, .inf y => if y then 1 else -1
  | .fin x, .fin y =>
      let e := min x.e y.e
      let s : Int := x.int * 2 ^ (x.e - e).toNat - y.int * 2 ^ (y.e - e).toNat
      if s < 0 then -1 else if s = 0 then 0 else 1
  | _, _ => 0

/-- R158 on floating operands. -/
def Cc.floatHolds (cc : Cc) (a b : Num) : Bool :=
  let un := a.isNan || b.isNan
  let c := a.cmp b
  match cc with
  | .eq => !un && c == 0
  | .ne => un || c != 0
  | .lt => !un && decide (c < 0)
  | .ge => !un && decide (c ≥ 0)
  | .le => !un && decide (c ≤ 0)
  | .gt => !un && decide (c > 0)
  | .un => un
  | .ltn | .gen | .len | .gtn => false

/-- R158 on integer operands given as their signed and unsigned values. -/
def Cc.intHolds (cc : Cc) (sa sb : Int) (ua ub : Nat) : Bool :=
  match cc with
  | .eq => ua == ub
  | .ne => ua != ub
  | .lt => decide (sa < sb)
  | .ge => decide (sa ≥ sb)
  | .le => decide (sa ≤ sb)
  | .gt => decide (sa > sb)
  | .ltn => decide (ua < ub)
  | .gen => decide (ua ≥ ub)
  | .len => decide (ua ≤ ub)
  | .gtn => decide (ua > ub)
  | .un => false

/-- −0 before +0, else by value: the order VMIN and VMAX choose by (R296). -/
def Num.lessForMin (a b : Num) : Bool :=
  match a, b with
  | .fin x, .fin y =>
      if x.m = 0 && y.m = 0 then x.neg && !y.neg else decide (a.cmp b < 0)
  | _, _ => decide (a.cmp b < 0)

/-- VMIN and VMAX: one operand's bits unrounded (R296). -/
def FloatParams.minMax (p : FloatParams) (isMax : Bool) (x y : Nat) : Nat × Flags :=
  let a := p.decode x
  let b := p.decode y
  match a.nan?, b.nan? with
  | some s, some t => (p.nanBits, if s || t then flagNV else 0)
  | some s, none => (y, if s then flagNV else 0)
  | none, some t => (x, if t then flagNV else 0)
  | none, none =>
      let takeB := if isMax then a.lessForMin b else b.lessForMin a
      (if takeB then y else x, 0)

/-- A value rounded to an integer (R40). -/
def Dyadic.toInt (r : Rnd) (d : Dyadic) : Int × Bool :=
  let (u, inexact) := roundUnits r d.neg d.m d.e 0
  (if d.neg then -(u : Int) else u, inexact)

/-- Floating to a two's-complement integer of width `w` (R275). -/
def numToInt (w : Nat) (r : Rnd) : Num → Nat × Flags
  | .nan _ => (0, flagNV)
  | .inf neg => (if neg then 2 ^ (w - 1) else 2 ^ (w - 1) - 1, flagNV)
  | .fin d =>
      let (i, inexact) := d.toInt r
      if i > 2 ^ (w - 1) - 1 then (2 ^ (w - 1) - 1, flagNV)
      else if i < -(2 ^ (w - 1)) then (2 ^ (w - 1), flagNV)
      else (wrapInt w i, if inexact then flagNX else 0)

/-- An integer as an exact value. -/
def Num.ofInt (i : Int) : Num := .fin ⟨decide (i < 0), i.natAbs, 0⟩

/-- Integer to integer with saturation (R275). -/
def satInt (w : Nat) (i : Int) : Nat × Flags :=
  if i > 2 ^ (w - 1) - 1 then (2 ^ (w - 1) - 1, flagOF)
  else if i < -(2 ^ (w - 1)) then (2 ^ (w - 1), flagOF)
  else (wrapInt w i, 0)

/-- Width of an integer format. -/
def Fmt.intWidth : Fmt → Nat
  | .i32 => 32
  | .i16 => 16
  | _ => 8

/-- R289: bits of an element in a register. -/
def Fmt.elemWidth (f : Fmt) : Nat := 2048 / f.perRow

/-- The value bits of an element, without the bits that are ignored on read (R289). -/
def Fmt.valueWidth : Fmt → Nat
  | .e2m3 | .e3m2 | .bi6 => 6
  | .e2m1 | .bi4 => 4
  | f => f.elemWidth

/-- What an element of a floating or integer format holds. -/
def Fmt.num (f : Fmt) (bits : Nat) : Num :=
  if f.isInt then .ofInt (signedOf f.intWidth bits)
  else f.params.decode (bits % 2 ^ f.valueWidth)

/-- Convert an element by the rows of R275 that involve no block format. -/
def convertNum (fd : Fmt) (r : Rnd) (x : Num) : Nat × Flags :=
  if fd.isInt then numToInt fd.intWidth r x else fd.params.ofNum r x

/-- Convert an element's bits between formats; equal formats copy bit for bit (R303), without the bits that an element
does not use (R289). -/
def convertElem (fd fs : Fmt) (r : Rnd) (bits : Nat) : Nat × Flags :=
  if fd = fs then (bits % 2 ^ fd.valueWidth, 0)
  else if fs.isInt && fd.isInt then satInt fd.intWidth (signedOf fs.intWidth bits)
  else convertNum fd r (fs.num bits)

end Sys2Proof
end

