-- ==== Sys2Proof/Machine/AtomicOps.lean ====
section
/-! DEFINITION. What AMO and RED compute (R353 to R359). -/

namespace Sys2Proof.Machine

/-- Size of a type in bytes (R156). -/
def AmoTy.size : AmoTy → Nat
  | .n32 | .i32 | .f32 => 4
  | .n64 | .i64 => 8
  | .bf16 | .f16 => 2

/-- The float format of a type. -/
def AmoTy.fmt : AmoTy → Fmt
  | .bf16 => .bf16
  | .f16 => .fp16
  | _ => .fp32

/-- The value AMO returns (R356): sign-extended for the signed types. -/
def amoExtend (ty : AmoTy) (old : Nat) : W64 :=
  match ty with
  | .i32 => BitVec.ofInt 64 (signedOf 32 old)
  | .i64 => BitVec.ofNat 64 old
  | _ => BitVec.ofNat 64 old

/-- RoundTo(old + b, T, RNE) of the type's format. -/
def amoFadd (ty : AmoTy) (a b : Nat) : Nat :=
  let q := Fmt.params (AmoTy.fmt ty)
  (q.add .rne (q.decode a) (q.decode b)).1

/-- Bits of an operation on words of `w` bits, for the operations that always write (R354, R356). -/
def redNew (op : RedOp) (ty : AmoTy) (a b : Nat) : Nat :=
  let w := 8 * AmoTy.size ty
  let b := b % 2 ^ w
  match op with
  | .add => (a + b) % 2 ^ w
  | .and => Nat.land a b
  | .or => Nat.lor a b
  | .xor => Nat.xor a b
  | .min => if signedOf w a ≤ signedOf w b then a else b
  | .max => if signedOf w a < signedOf w b then b else a
  | .minn => if a ≤ b then a else b
  | .maxn => if a < b then b else a
  | .fadd => amoFadd ty a b

/-- The word an AMO writes, if it writes (R356). -/
def amoNew (op : AmoOp) (ty : AmoTy) (old b c : Nat) : Option Nat :=
  let w := 8 * AmoTy.size ty
  match op with
  | .add => some (redNew .add ty old b)
  | .and => some (redNew .and ty old b)
  | .or => some (redNew .or ty old b)
  | .xor => some (redNew .xor ty old b)
  | .min => some (redNew .min ty old b)
  | .max => some (redNew .max ty old b)
  | .minn => some (redNew .minn ty old b)
  | .maxn => some (redNew .maxn ty old b)
  | .fadd => some (redNew .fadd ty old b)
  | .swp => some (b % 2 ^ w)
  | .cas _ => if old = b % 2 ^ w then some (c % 2 ^ w) else none

/-- The minor of an operation (R173). -/
def redMinor : RedOp → Nat
  | .add => 0 | .and => 1 | .or => 2 | .xor => 3 | .min => 4 | .max => 5 | .minn => 6 | .maxn => 7 | .fadd => 10

def amoMinor : AmoOp → Nat
  | .add => 0 | .and => 1 | .or => 2 | .xor => 3 | .min => 4 | .max => 5 | .minn => 6 | .maxn => 7
  | .swp => 8 | .cas _ => 9 | .fadd => 10

/-- What the root complex supports (R355). -/
def rootSupports (op : AmoOp) : Bool :=
  match op with
  | .add | .swp | .cas _ => true
  | _ => false

def rootSupportsRed (op : RedOp) : Bool := op == .add

end Sys2Proof.Machine
end

