-- ==== Sys2Proof/Machine/Pair.lean ====
section
/-! DEFINITION. The signature of a run of a paired plot (R434, R435). -/

namespace Sys2Proof.Machine

/-- One bit of CRC-64 with the ECMA-182 polynomial, unreflected. -/
def crc64Shift (c : W64) : W64 := if c.msb then (c <<< 1) ^^^ 0x42F0E1EBA9EA3693 else c <<< 1

def crc64Byte (c : W64) (b : Byte) : W64 :=
  (List.range 8).foldl (fun c _ => crc64Shift c) (c ^^^ (b.zeroExtend 64 <<< 56))

/-- CRC-64 of bytes, initial value and final XOR all ones (R434). -/
def crc64 (bs : List Byte) : W64 := bs.foldl crc64Byte 0xFFFFFFFFFFFFFFFF ^^^ 0xFFFFFFFFFFFFFFFF

/-- H of a term: kind and address, then data. -/
def pairHash (kind addr data : Nat) : W64 :=
  crc64 (leBytes 8 (kind * 2 ^ 56 + addr % 2 ^ 56) ++ leBytes 8 data)

/-- Add a term to the signature of a core's team, where its launch is paired. -/
def State.pairTerm (s : State) (p kind addr data : Nat) : State :=
  if (s.team p).pairRun = 0 then s
  else s.modTeam p fun t => { t with pairSig := t.pairSig + pairHash kind addr data }

/-- The terms of bytes written: one for each aligned dword, bytes not written taken as zero (R434). -/
def State.pairDwords (s : State) (p va : Nat) (bs : List Byte) : State :=
  if (s.team p).pairRun = 0 then s
  else (List.range ((bs.length + 7) / 8)).foldl (fun s i =>
    s.pairTerm p 3 (va + 8 * i) (leNat ((bs.drop (8 * i)).take 8))) s

/-- What the first run's AMOs returned (R435): values, poisoned ones and errors too. -/
def State.firstAmos (s : State) (slot plot : Nat) : List SEntry :=
  match s.residents.find? (fun e => e.2.team.pairRun == 1 &&
      (match e.2.team.work with | .launch l q _ => l == slot && q == plot | _ => false)) with
  | some e => e.2.team.amoLog
  | none =>
      match s.images.find? (fun i => i.team.pairRun == 1 &&
          (match i.team.work with | .launch l q _ => l == slot && q == plot | _ => false)) with
      | some i => i.team.amoLog
      | none => []

end Sys2Proof.Machine
end

