-- ==== Sys2Proof/Machine/BlockInt.lean ====
section
/-! DEFINITION. Block-integer elements and ToBlock (R33 to R38), and MXFP blocks (R46). -/

namespace Sys2Proof

/-- The mantissa width of a block format (R33). -/
def Fmt.blockWidth : Fmt → Nat
  | .bi4 => 4
  | .bi6 => 6
  | .bi8 => 8
  | _ => 16

/-- Block formats (R31). -/
def Fmt.isBlock : Fmt → Bool
  | .bi4 | .bi6 | .bi8 | .bi16 => true
  | _ => false

/-- R33: the value of a mantissa under scale code E. -/
def blockValue (w E : Nat) (m : Int) : Num :=
  .fin ⟨decide (m < 0), m.natAbs, (E : Int) - 127 - ((w : Int) - 2)⟩

/-- A value that is finite, as its dyadic. -/
def Num.finite? : Num → Option Dyadic
  | .fin d => some d
  | _ => none

/-- floor(log2 |x|) of a nonzero value. -/
def Dyadic.topExp (d : Dyadic) : Int := (bitLength d.m : Int) - 1 + d.e

/-- The scale code of a block of finite values (R37). -/
def blockScale (xs : List Dyadic) : Nat :=
  match (xs.filter (fun d => d.m != 0)).map Dyadic.topExp with
  | [] => 0
  | t :: ts => (min (max (ts.foldl max t + 127) 0) 254).toNat

/-- One mantissa of R37 in units of 2^q. -/
def blockMantissa (w : Nat) (r : Rnd) (q : Int) (d : Dyadic) : Int × Flags :=
  let (u, inexact) := roundUnits r d.neg d.m d.e q
  let lim := 2 ^ (w - 1) - 1
  if u > lim then (if d.neg then -(lim : Int) else lim, flagOF ||| flagNX)
  else (if d.neg then -(u : Int) else u, if inexact then flagNX else 0)

/-- ToBlock (R37): scale code, mantissas and flags. -/
def toBlock (xs : List Num) (w : Nat) (r : Rnd) : Nat × List Int × Flags :=
  match xs.mapM Num.finite? with
  | none => (0xFF, xs.map (fun _ => 0), flagNV)
  | some ds =>
      let E := blockScale ds
      let ms := ds.map (blockMantissa w r ((E : Int) - 127 - ((w : Int) - 2)))
      (E, ms.map Prod.fst, orFlags (ms.map Prod.snd))

/-- R46: an element of a scaled narrow block, 2^(S-127) × f; none makes the block invalid. -/
def scaledNum (s : Nat) : Num → Option Num
  | .fin d => if s = 0xFF then none else some (.fin { d with e := d.e + (s : Int) - 127 })
  | _ => none

/-- An element of a source that carries no value, into a destination that is no block format (R34). -/
def invalidElem (fd : Fmt) : Nat × Flags :=
  if fd.isInt then (0, flagNV)
  else (fd.params.nanBits, if fd.params.hasInf || fd.params.nanTop then 0 else flagNV)

end Sys2Proof
end

