-- ==== Sys2Proof/Machine/Residue.lean ====
section
/-! DEFINITION. Residue accumulator records (R47 to R56): the three channels, rebasing, accumulation, and
reading a record out. -/

namespace Sys2Proof

/-- The moduli of the three channels. -/
def mod0 : Nat := 2 ^ 32
def mod1 : Nat := 2 ^ 32 - 1
def mod2 : Nat := 2 ^ 32 + 1

/-- A residue accumulator record (R47). -/
structure RaRec where
  ch0 : Nat
  ch1 : Nat
  ch2 : Nat
  head : Nat
  bexp : Nat
  deriving DecidableEq, Repr

/-- R47, R48: a record read from its 16 bytes as a little-endian number. -/
def RaRec.ofBits (n : Nat) : RaRec :=
  let w3 := n / 2 ^ 96 % 2 ^ 32
  { ch0 := n % 2 ^ 32
    ch1 := n / 2 ^ 32 % 2 ^ 32 % mod1
    ch2 := (n / 2 ^ 64 % 2 ^ 32 + w3 % 2 * 2 ^ 32) % mod2
    head := w3 / 2 ^ 11 % 2 ^ 7
    bexp := w3 / 2 % 2 ^ 10 }

/-- R47: a record as its 16 bytes. -/
def RaRec.bits (t : RaRec) : Nat :=
  t.ch0 % mod0 + t.ch1 % mod1 * 2 ^ 32 + t.ch2 % mod2 % 2 ^ 32 * 2 ^ 64
    + (t.ch2 % mod2 / 2 ^ 32 + t.bexp % 2 ^ 10 * 2 + t.head % 2 ^ 7 * 2 ^ 11) * 2 ^ 96

/-- R51: multiply by 2^d; none is ACCRANGE. -/
def RaRec.scale (t : RaRec) (d : Nat) : Option RaRec :=
  if t.bexp < d || t.head + d > 95 then none
  else
    let s := d % 32
    let u := t.ch2 * 2 ^ s
    let c2 := (u % 2 ^ 32 + mod2 * 2 ^ 33 - u / 2 ^ 32) % mod2
    some
      { ch0 := t.ch0 * 2 ^ d % mod0
        ch1 := t.ch1 * 2 ^ s % mod1
        ch2 := if d / 32 % 2 = 1 then (mod2 - c2) % mod2 else c2
        head := t.head + d
        bexp := t.bexp - d }

/-- Add an integer to the three channels (R56). -/
def RaRec.addInt (t : RaRec) (x : Int) : RaRec :=
  { t with
    ch0 := (((t.ch0 : Int) + x) % (mod0 : Int)).toNat
    ch1 := (((t.ch1 : Int) + x) % (mod1 : Int)).toNat
    ch2 := (((t.ch2 : Int) + x) % (mod2 : Int)).toNat }

/-- R52: add a chunk sum x with exponent code e; none is ACCRANGE. -/
def RaRec.addChunk (t : RaRec) (x : Int) (e c l : Nat) (join first : Bool) : Option RaRec := do
  let t ← if t.head = 0 then some { ch0 := 0, ch1 := 0, ch2 := 0, head := 0, bexp := e }
    else if e < t.bexp then t.scale (t.bexp - e) else some t
  let t := t.addInt (x * 2 ^ (e - t.bexp))
  let j := if join then 1 else 0
  let h := c + (e - t.bexp) + l + j
  let h := if first then max h (t.head + j) else max h t.head
  if h > 95 then none else some { t with head := h }

/-- R56: the sum of two records, as MADDZ forms it; an empty record holds zero (R48). -/
def RaRec.add (a b : RaRec) : Option RaRec :=
  if b.head = 0 then some a
  else if a.head = 0 then some b
  else
    let e := min a.bexp b.bexp
    match a.scale (a.bexp - e), b.scale (b.bexp - e) with
    | some a, some b =>
        let h := max a.head b.head + 1
        if h > 95 then none
        else some (RaRec.mk ((a.ch0 + b.ch0) % mod0) ((a.ch1 + b.ch1) % mod1)
          ((a.ch2 + b.ch2) % mod2) h e)
    | _, _ => none

/-- The integer of the channels, whatever HEAD says. -/
def RaRec.channels (t : RaRec) : Int :=
  let m := mod0 * mod1 * mod2
  -- mod2 × 2^31 is 1 modulo mod1 and 0 modulo mod2; mod1 × 2^31 is 0 modulo mod1 and 1 modulo mod2
  let n := mod1 * mod2
  let low := (t.ch1 * (mod2 * 2 ^ 31) + t.ch2 * (mod1 * 2 ^ 31)) % n
  -- modulo 2^32 × n: n is -1 modulo 2^32
  let k := (low + mod0 * n - t.ch0) % mod0
  let v := low + n * k
  if 2 * v < m then (v : Int) else (v : Int) - m

/-- R48: the integer V of a record, by the Chinese remainder theorem over the three moduli. -/
def RaRec.value (t : RaRec) : Int := if t.head = 0 then 0 else t.channels

/-- R55: the exact value of a record; an empty record gives (0, 0). -/
def RaRec.num (t : RaRec) : Num :=
  let v := t.value
  if t.head = 0 then .fin ⟨false, 0, 0⟩
  else .fin ⟨decide (v < 0), v.natAbs, (t.bexp : Int) - 512⟩

/-- R52, R54: ceil(log2 n), 0 for n = 1. -/
def ceilLog2 (n : Nat) : Nat := if n ≤ 1 then 0 else (n - 1).log2 + 1

end Sys2Proof
end

