-- ==== Sys2Proof/Machine/Access.lean ====
section
/-! DEFINITION. Accesses of a context: where they go (R252, R239 to R241), in which order they perform (R378 to
R382), and how each performs (R374). -/

namespace Sys2Proof.Machine

/-! ### Where bytes are found -/

/-- A resolved place: a physical address with its page's C bit, or a pool address of a physical core. -/
inductive Spot where
  | mem (pa : Nat) (cached : Bool)
  | pool (p : Nat) (addr : Nat)
  deriving DecidableEq, Repr

/-- What an access finds: its target is held, it faults, or its pieces have spots. -/
inductive Found (α : Type) where
  | wait
  | bad (cause : Nat)
  | ok (x : α)
  deriving DecidableEq, Repr

/-- Checks 2 to 5 of R239 made at the target, for bytes of a window address. -/
def State.findWindow (s : State) (t : Team) (va n : Nat) : Found Spot :=
  let w := winAddr va
  match s.targetOf t.persistentSlot w.teamForm w.target with
  | .held => .wait
  | .gone c => .bad c
  | .core q =>
      if !s.sameAsid q t.asid then .bad causePROT
      else match winBuf w.buf with
      | none => .bad causePROT
      | some b =>
          if w.off + n ≤ (s.team q).bufSize b then .ok (.pool q ((s.team q).bufStart b + w.off))
          else .bad causePROT

/-- Where a piece of an access of a team on core p lies. -/
def State.findPieceOf (s : State) (t : Team) (p : Nat) (x : Piece) : Found Spot :=
  match x.place with
  | some (.phys pa c) => .ok (.mem pa c)
  | some (.pool a) => .ok (.pool p a)
  | some (.window va) => s.findWindow t va x.len
  | none => .wait

def State.findPiece (s : State) (p : Nat) (x : Piece) : Found Spot := s.findPieceOf (s.team p) p x

/-- The spots of all pieces of an access. -/
def State.findAll (s : State) (p : Nat) : List Piece → Found (List (Piece × Spot))
  | [] => .ok []
  | x :: xs =>
      match s.findPiece p x, s.findAll p xs with
      | .wait, _ => .wait
      | .bad c, _ => .bad c
      | .ok _, .wait => .wait
      | .ok _, .bad c => .bad c
      | .ok y, .ok ys => .ok ((x, y) :: ys)

/-- Whether a spot's bytes lie in a dead granule (R228). -/
def State.spotDead (s : State) (y : Spot) (n : Nat) : Bool :=
  match y with
  | .mem _ _ => false
  | .pool q a => (s.core q).isDead a n

/-! ### Order (R378 to R382) -/

/-- Words of a piece as an interval in a space: 0 for memory, p + 1 for the pool of core p. -/
def State.span (s : State) (p : Nat) (x : Piece) : Option (Nat × Nat × Nat) :=
  match s.findPiece p x with
  | .ok (.mem pa _) => some (0, pa / 4, (pa + x.len - 1) / 4)
  | .ok (.pool q a) => some (q + 1, a / 4, (a + x.len - 1) / 4)
  | _ => none

def meet (x y : Nat × Nat × Nat) : Bool := x.1 == y.1 && x.2.1 ≤ y.2.2 && y.2.1 ≤ x.2.2

/-- Whether a piece lies in the own scratchpad, so that its `va` is an offset. -/
def Piece.inPool (x : Piece) : Bool :=
  match x.place with
  | some (.pool _) => true
  | _ => false

/-- Whether two accesses touch a common aligned word (R379). -/
def State.sameWord (s : State) (p : Nat) (x y : List Piece) : Bool :=
  let xs := x.filterMap (s.span p)
  let ys := y.filterMap (s.span p)
  xs.any (fun a => ys.any (meet a))
    || x.any (fun a => y.any fun b => ((a.place.isNone && !b.inPool) || (b.place.isNone && !a.inPool))
        && a.va / 4 ≤ (b.va + b.len - 1) / 4 && b.va / 4 ≤ (a.va + a.len - 1) / 4)

/-- The parked accesses a handler has still to release (R249, R404). -/
def Ctx.savedParked (c : Ctx) : List Access :=
  match c.saved with
  | some x => x.parkedNow
  | none => []

/-- Accesses of a context that have not performed. -/
def Ctx.accesses (c : Ctx) : List Access := c.loadQ ++ c.storeQ ++ c.replay ++ c.savedParked

/-- Whether two accesses enter the same queue of their context (R253, R361, R378). -/
def Access.sameQueue (a e : Access) : Bool := a.kind.isWrite == e.kind.isWrite

/-- No parked element, nor one of the trapped context while its handler runs, holds an earlier place in the queue of an
access (R378). -/
def Ctx.placeFree (c : Ctx) (a : Access) : Bool :=
  (c.replay ++ c.savedParked).all fun e => !(e.seq < a.seq && a.sameQueue e)

/-- Whether an earlier access holds a later one back, its place in a common queue apart (R379 to R382). -/
def State.holdsBack (s : State) (p : Nat) (a e : Access) : Bool :=
  e.acquire.isSome || s.sameWord p a.pieces e.pieces ||
    (match a.release with
     | none => false
     | some .ctx => !e.kind.isWrite
     | some _ => true)

/-- Whether the queues of its context let an access perform now. -/
def State.mayPerform (s : State) (p : Nat) (c : Ctx) (a : Access) : Bool :=
  c.placeFree a && (c.accesses.filter (fun e => e.seq < a.seq)).all fun e => !s.holdsBack p a e

/-! ### Merged REDs at a port (R359) -/

/-- Cores other than the writer lose their copies of words. -/
def State.revokeCores (s : State) (cores : List Nat) (writer pa n : Nat) : State :=
  cores.foldl (fun s p =>
    if p = writer then s else s.modCore p fun c => { c with l1 := (wordsOf pa n).foldl tdel c.l1 }) s

/-- Perform one word of an entry at a pool or at a home: the cores whose REDs it combines have written it in their order
of arrival, so that the last of them owns it and the others hold no copy (R236, R374). -/
def State.performWord (s : State) (e : RedEntry) (cl : Client) (w : Nat × W64 × List Nat) : State :=
  let n := AmoTy.size e.ty
  let operand := w.2.1.toNat
  match e.core with
  | some q =>
      let c := s.core q
      if !c.isDead w.1 n && c.poolPoison w.1 n then s.post evREDDROP 0 (srcChip (chipOf q)) w.1 0
      else
        let old := if c.isDead w.1 n then 0 else leNat (c.poolRead w.1 n)
        s.setCore q (c.poolWrite s.cycles w.1 (leBytes n (redNew e.op e.ty old operand)) false)
  | none =>
      let s := s.needSectors cl w.1 n .clean
      if s.rangePoison w.1 n then s.post evREDDROP 0 srcHub w.1 0
      else
        let writer := w.2.2.getLast?
        let s := s.homeWrite cl writer w.1 (leBytes n (redNew e.op e.ty (s.physNat w.1 n) operand)) false
        s.revokeCores w.2.2 (writer.getD 0) w.1 n

/-- An entry performs: every RED it holds performs at that moment. -/
def State.performRed (s : State) (e : RedEntry) : State :=
  let last := (e.members.getLast?).getD (0, 0, 0)
  let s := e.words.foldl (fun s w => s.performWord e (s.client last.1 last.2.1) w) s
  let s := e.members.foldl (fun s m =>
    s.modCtx m.1 m.2.1 fun c => { c with storeQ := c.storeQ.filter (fun a => a.seq != m.2.2) }) s
  { s with redEntries := s.redEntries.filter (fun x => x != e) }

/-- Any other access to a line is served only after the entries open for it (R359): they perform first. -/
def State.flushReds (s : State) (port : Option Nat) (a n : Nat) : State :=
  (s.redEntries.filter (fun e => e.core == port && (unitsOf 256 a n).contains e.line)).foldl State.performRed s

def State.flushSpot (s : State) (y : Spot) (n : Nat) : State :=
  match y with
  | .mem pa cached => if cached then s.flushReds none pa n else s
  | .pool q a => s.flushReds (some q) a n

/-! ### Reading and writing spots -/

/-- Read bytes at a spot for a client. -/
def State.readAt (s : State) (cl : Client) (y : Spot) (n : Nat) (ecc : Ecc) : List Byte × Bool × State :=
  let s := s.flushSpot y n
  match y with
  | .mem pa cached => s.homeRead cl pa n cached ecc
  | .pool q a =>
      let c := s.core q
      (c.poolRead a n, c.poolPoison a n, s.setCore q (c.wake s.cycles a n))

/-- Read bytes at a spot for a context: an LD may be served by the L1; what is served elsewhere leaves it no older
copy (R375). -/
def State.readSpot (s : State) (p k : Nat) (y : Spot) (n : Nat) (scalar fill : Bool) (ecc : Ecc) :
    List Byte × Bool × State :=
  match y with
  | .mem pa true =>
      if scalar then (s.flushSpot y n).cachedLoad p k pa n fill ecc
      else
        let (bs, bad, s) := s.readAt (s.client p k) y n ecc
        (bs, bad, s.dropStale p pa n)
  | _ => s.readAt (s.client p k) y n ecc

def State.writeSpot (s : State) (cl : Client) (writer : Option Nat) (y : Spot) (bs : List Byte) (poisoned : Bool) :
    State :=
  let s := s.flushSpot y bs.length
  match y with
  | .mem pa cached => s.physWrite cl writer pa cached bs poisoned
  | .pool q a => s.modCore q fun c => c.poolWrite s.cycles a bs poisoned

/-- A context writes at a spot. -/
def State.writeOwn (s : State) (p k : Nat) (y : Spot) (bs : List Byte) (poisoned : Bool) : State :=
  s.writeSpot (s.client p k) (some p) y bs poisoned

/-! ### Loads -/

/-- Size and signedness of LD and ST types (R156). -/
def ScalarTy.size : ScalarTy → Nat
  | .n8 | .i8 => 1
  | .n16 | .i16 => 2
  | .n32 | .i32 => 4
  | .n64 | .i64 => 8

def ScalarTy.signed : ScalarTy → Bool
  | .i8 | .i16 | .i32 | .i64 => true
  | _ => false

/-- The value LD pushes (R256). -/
def loadValue (ty : ScalarTy) (bs : List Byte) : W64 :=
  let n := leNat bs
  if ScalarTy.signed ty then BitVec.ofInt 64 (signedOf (8 * ScalarTy.size ty) n) else BitVec.ofNat 64 n

/-- Fill the entry a scalar load reserved; bq holds bit 0 (R184). -/
def Ctx.fillLoad (c : Ctx) (reg tag : Nat) (e : SEntry) : Ctx :=
  c.fillScalar reg tag (if reg = 61 then bqEntry e else e)

/-- Where byte n of a column transfer stands in the register image (R258, R260). -/
def columnIndex (bytes n : Nat) : Nat :=
  let q := n / bytes
  256 * (q % 16) + q / 16 * bytes + n % bytes

/-- Where byte n of a vector load's data stands in its image. -/
def imageIndex (f : Fmt) (columns : Bool) (n : Nat) : Nat :=
  if columns then columnIndex (Fmt.elemWidth f / 8) n else n

/-- Put bytes of the data into an image. -/
def putImage (f : Fmt) (columns : Bool) (m : Mem) (off : Nat) (bs : List Byte) : Mem :=
  if columns then
    (bs.zipIdx).foldl (fun m b => Mem.set m (imageIndex f columns (off + b.2)) b.1) m
  else Mem.write m off bs

/-- Read the pieces of a vector load into its buffer, noting image sectors that are poisoned. -/
def State.readPieces (s : State) (p k : Nat) (f : Fmt) (columns : Bool) (ecc : Ecc) :
    List (Piece × Spot) → Mem → List Nat → Mem × List Nat × State
  | [], m, marks => (m, marks, s)
  | (x, y) :: rest, m, marks =>
      let (bs, bad, s) := s.readSpot p k y x.len false false ecc
      let marks := if bad then
          marks ++ ((List.range x.len).map (fun i => imageIndex f columns (x.off + i) / 32)).eraseDups else marks
      State.readPieces s p k f columns ecc rest (putImage f columns m x.off bs) marks

/-- The mark bits of sectors. -/
def markBits (marks : List Nat) : BitVec 128 := marks.foldl (fun b x => b ||| (1#128 <<< x)) 0

/-- The image of an entry. -/
def imageBits (m : Mem) : VBits := BitVec.ofNat 32768 (memNat m 4096)

/-- Convert 1,024 residue records to FP32 cells (R262): the first record that is out of range, or the image and
its flags. -/
def raCells (m : Mem) : List Nat → Except Nat (List Nat × Flags)
  | [] => .ok ([], 0)
  | q :: qs =>
      let t := RaRec.ofBits (leNat (Mem.read m (16 * q) 16))
      if 96 ≤ t.head then .error q
      else
        let (b, f) := (Fmt.params .fp32).ofNum .rne t.num
        match raCells m qs with
        | .ok (bs, g) => .ok (b :: bs, f ||| g)
        | .error e => .error e

/-- What a vector load leaves: an entry with flags, or a fault with its address. -/
def vectorResult (f : Fmt) (va : Nat) (m : Mem) (marks : List Nat) : Except (Nat × Nat) (VEntry × Flags) :=
  if f = .ra then
    match raCells m (List.range 1024) with
    | .error q => .error (causeACCRANGE, va + 16 * q)
    | .ok (cells, fl) =>
        .ok (.ready (BitVec.ofNat 32768 (cells.foldr (fun b acc => b + 2 ^ 32 * acc) 0))
          (markBits (marks.map (fun x => 2 * x / 8))), fl)
  else .ok (.ready (imageBits m) (markBits marks), 0)

/-- The virtual address of an access's first byte. -/
def Access.va (a : Access) : W64 :=
  BitVec.ofNat 64 ((a.pieces.head?).map Piece.va |>.getD 0)

/-- An acquire at .bay scope or wider discards the L1's words that are not owned (R380). -/
def wideScope : Scope → Bool
  | .ctx | .team => false
  | .bay | .chip | .pkg | .sys => true

def State.acquireAt (s : State) (p : Nat) (sc : Option Scope) : State :=
  match sc with
  | some x => if wideScope x then s.discardL1 p else s
  | none => s

/-- A .sys release needs modified sectors of host pages written back (R382). -/
def State.releaseAt (s : State) (p k : Nat) (sc : Option Scope) : State :=
  match sc with
  | some .sys => let r := s.writebackHost; r.1.count p k wbackIx r.2
  | _ => s

def State.popLoad (s : State) (p k : Nat) : State := s.modCtx p k fun c => { c with loadQ := c.loadQ.tail }
def State.popStore (s : State) (p k seq : Nat) : State :=
  s.modCtx p k fun c => { c with storeQ := c.storeQ.filter (fun a => a.seq != seq) }

/-- A store's fault is on its way back to its context (R240). -/
def State.storeFault (s : State) (p k cause : Nat) (v : W64) : State :=
  s.modCtx p k fun c => { c with faultReports := c.faultReports ++ [⟨cause, v, .a, true⟩] }

/-- Give a load's entry its value, or keep what arrived with the parked part (R249). -/
def State.finishVector (s : State) (p k : Nat) (a : Access) (reg tag : Nat) (f : Fmt) (m : Mem)
    (marks : List Nat) : State :=
  let c := s.ctx p k
  if c.replay.any (fun x => x.seq == a.seq) then
    s.setCtx p k { c with replay := c.replay.map fun x =>
      if x.seq == a.seq then { x with buffer := m, poison := marks, sent := true } else x }
  else match vectorResult f a.va.toNat m marks with
  | .ok (e, fl) =>
      let c := c.fillVector reg tag e
      s.setCtx p k { c with fpstat := c.fpstat ||| fl }
  | .error (cause, va) => s.setCtx p k (c.fillVector reg tag (.error cause (BitVec.ofNat 64 va)))

/-- The head of the load queue performs (R374). -/
def State.performLoad (s : State) (p k : Nat) (a : Access) (fill : Bool) (ecc : Ecc) : State :=
  let fail (cause : Nat) : State :=
    let s := s.popLoad p k
    match a.kind with
    | .loadScalar reg tag _ => s.modCtx p k fun c => c.fillLoad reg tag (.error cause a.va)
    | .loadVector reg tag _ _ => s.modCtx p k fun c => c.fillVector reg tag (.error cause a.va)
    | _ => s
  match s.findAll p a.pieces with
  | .wait => s
  | .bad cause => fail cause
  | .ok spots =>
      if spots.any (fun x => s.spotDead x.2 x.1.len) then fail causeBANKDROP
      else
        match a.kind, spots with
        | .loadScalar reg tag ty, (x, y) :: _ =>
            let (bs, bad, s) := s.readSpot p k y x.len true (fill && a.acquire.isNone) ecc
            let s := (s.popLoad p k).modCtx p k fun c => c.fillLoad reg tag (.ready (loadValue ty bs) bad)
            s.acquireAt p a.acquire
        | .loadVector reg tag f columns, _ =>
            let (m, marks, s) := s.readPieces p k f columns ecc spots [] []
            ((s.popLoad p k).finishVector p k a reg tag f m marks).acquireAt p a.acquire
        | _, _ => s.popLoad p k

/-! ### Stores -/

/-- The bytes of a piece of a store's data. -/
def pieceData (data : List Byte) (x : Piece) : List Byte := (data.drop x.off).take x.len

/-- Sectors of the data that are poisoned, by offset. -/
def piecePoison (poison : List Nat) (x : Piece) : Bool := (unitsOf 32 x.off x.len).any poison.contains

/-- Last use: the granules of own-scratchpad pieces die (R229). -/
def State.killPieces (s : State) (spots : List (Piece × Spot)) : State :=
  spots.foldl (fun s x => match x.2 with
    | .pool q a => s.modCore q fun c => c.kill a x.1.len
    | .mem _ _ => s) s

/-- A store performs. -/
def State.performStore (s : State) (p k : Nat) (a : Access) (data : List Byte) : State :=
  match s.findAll p a.pieces with
  | .wait => s
  | .bad cause => (s.popStore p k a.seq).storeFault p k cause a.va
  | .ok spots =>
      let s := s.releaseAt p k a.release
      let s := spots.foldl (fun s x =>
        s.writeOwn p k x.2 (pieceData data x.1) (piecePoison a.poison x.1)) s
      let s := if a.lastUse then s.killPieces spots else s
      (s.popStore p k a.seq).modCtx p k fun c => { c with
        replay := c.replay.map fun x => if x.seq == a.seq then { x with sent := true } else x }

/-! ### Atomics (R355 to R359) -/

/-- The root complex of a host port executes an AMO or RED (R355). -/
def State.rootWorks (s : State) (pa : Nat) : Bool := s.hostUp pa && s.hub.atomics.getLsbD (hostPort pa)

/-- An AtomicOp of the hub or of an engine at the root complex succeeds (R113, R355). -/
def State.rootAdds (s : State) (pa : Nat) : Bool := s.rootWorks pa && !Config.rootFails s.freeSeed

/-- Old bytes of an atomic's target, and whether they are poisoned; a dead granule revives with zeros. -/
def State.oldWord (s : State) (p k : Nat) (y : Spot) (n : Nat) (ecc : Ecc) : Nat × Bool × State :=
  match y with
  | .pool q a =>
      let s := (s.flushReds (some q) a n).modCore q fun c => c.wake s.cycles a n
      if (s.core q).isDead a n then (0, false, s)
      else let c := s.core q; (leNat (c.poolRead a n), c.poolPoison a n, s)
  | .mem pa cached =>
      let s := if cached then s.flushReds none pa n else s
      let (bs, bad, s) := s.homeRead (s.client p k) pa n cached ecc
      (leNat bs, bad, if cached then s.dropStale p pa n else s)

/-- Give an AMO's lq entry what it returns, a value or an error, and log it for a paired run (R435). -/
def State.finishAmo (s : State) (p k : Nat) (a : Access) (tag : Nat) (e : SEntry) (log : Bool) : State :=
  let s := (s.popStore p k a.seq).modCtx p k fun c => c.fillLq tag e
  let s := if log then s.modTeam p fun t => { t with amoLog := t.amoLog ++ [e] } else s
  s.acquireAt p a.acquire

/-- An AMO performs (R356); in a later run of a pair it takes the first run's value (R435).  A completion of the root
complex that is not Successful fails it (R355); that the host's memory is then unchanged is the model's reading (log
entry 74).  A cas that does not match writes nothing and so leaves a dead granule dead (DESIGN CHOICE, log entry
98). -/
def State.performAmo (s : State) (p k : Nat) (a : Access) (op : AmoOp) (ty : AmoTy) (b c : W64) (tag : Nat)
    (supported : Bool) (ecc : Ecc) : State :=
  match s.findAll p a.pieces with
  | .wait => s
  | .bad cause => s.finishAmo p k a tag (.error cause a.va) true
  | .ok [] => s
  | .ok ((x, y) :: _) =>
      let t := s.team p
      let own := match y with | .pool q _ => q == p | _ => false
      if t.suppressed && !own then
        match t.work with
        | .launch slot plot _ =>
            (match (s.firstAmos slot plot)[t.amoLog.length]? with
             | some e => s.finishAmo p k a tag e true
             | none => s)
        | _ => s
      else
        let works := match y with
          | .mem pa cached => cached || (s.rootWorks pa && ecc != .unsuccessful)
          | .pool _ _ => true
        let s := s.releaseAt p k a.release
        if !supported || !works then s.finishAmo p k a tag (.error causeAMOTGT a.va) (!own)
        else
          let (old, bad, s) := s.oldWord p k y x.len ecc
          if bad then s.finishAmo p k a tag (.ready (amoExtend ty old) true) (!own)
          else
            let s := match amoNew op ty old b.toNat c.toNat with
              | some v => s.writeOwn p k y (leBytes x.len v) false
              | none => s
            s.finishAmo p k a tag (.ready (amoExtend ty old) false) (!own)

/-- The port and line of a RED that can merge. -/
def redPort : Spot → Option (Option Nat × Nat)
  | .mem pa cached => if cached then some (none, pa) else none
  | .pool q a => some (some q, a)

/-- Whether an earlier entry of the store queue is a RED in a given merge entry. -/
def inEntry (e : Option RedEntry) (p k : Nat) (a : Access) : Bool :=
  match e with
  | some e => e.members.contains (p, k, a.seq)
  | none => false

/-- Join an entry that is open for the line, operation and type, or open one; operands are words of the type, each with
the cores they come from. -/
def State.joinRed (s : State) (e : Option RedEntry) (port : Option Nat) (addr : Nat) (op : RedOp) (ty : AmoTy)
    (b : W64) (m : Nat × Nat × Nat) : State :=
  match e with
  | some e =>
      let old := e.words.find? (fun w => w.1 == addr)
      let v := match old with
        | some w => (BitVec.ofNat 64 (redNew op ty w.2.1.toNat b.toNat), w.2.2 ++ [m.1])
        | none => (BitVec.ofNat 64 (b.toNat % 2 ^ (8 * AmoTy.size ty)), [m.1])
      let words := if old.isSome then e.words.map (fun w => if w.1 == addr then (addr, v) else w)
        else e.words ++ [(addr, v)]
      let e' := { e with words := words, members := e.members ++ [m] }
      { s with redEntries := s.redEntries.map fun x => if x == e then e' else x }
  | none =>
      { s with redEntries := s.redEntries ++ [⟨port, addr / 256, op, ty, s.now,
        [(addr, BitVec.ofNat 64 (b.toNat % 2 ^ (8 * AmoTy.size ty)), [m.1])], [m], false, []⟩] }

/-- A RED reaches its port (R357, R359).  At the root complex it fails as an AMO does (R355), and to a poisoned sector it
is dropped and logged. -/
def State.sendRed (s : State) (p k : Nat) (a : Access) (op : RedOp) (ty : AmoTy) (b : W64) (ecc : Ecc) :
    State :=
  match s.findAll p a.pieces with
  | .wait => s
  | .bad cause => (s.popStore p k a.seq).storeFault p k cause a.va
  | .ok [] => s
  | .ok ((x, y) :: _) =>
      let c := s.ctx p k
      let earlier := c.accesses.filter (fun e => e.seq < a.seq)
      match redPort y with
      | none =>
          if c.placeFree a && earlier.all (fun e => !s.holdsBack p a e) && (c.storeQ.head?).any (fun h => h.seq == a.seq) then
            let s := s.releaseAt p k a.release
            let noAtomic : Bool := match y with
              | .mem pa _ => isHost pa && !(s.rootWorks pa && ecc != .unsuccessful)
              | .pool _ _ => false
            if noAtomic then (s.popStore p k a.seq).storeFault p k causeAMOTGT a.va else
            let (old, bad, s) := s.oldWord p k y x.len ecc
            if bad then
              (s.popStore p k a.seq).post evREDDROP 0 srcHub (match y with | .mem pa _ => pa | .pool _ a => a) 0
            else
            (s.writeOwn p k y (leBytes x.len (redNew op ty old b.toNat)) false).popStore p k a.seq
          else s
      | some (port, addr) =>
          let line := addr / 256
          let e := s.redEntries.find? (fun e => e.core == port && e.line == line && e.op == op && e.ty == ty)
          let clash := s.redEntries.any (fun r => r.core == port && r.line == line && some r != e)
          let before := c.storeQ.filter (fun e => e.seq < a.seq)
          let ready := c.placeFree a && before.all (inEntry e p k)
            && (earlier.filter (fun x => !inEntry e p k x)).all (fun e => !s.holdsBack p a e)
            && (a.release.isNone || earlier.isEmpty)
          if clash || !ready then s
          else
            let s := s.releaseAt p k a.release
            let s := s.joinRed e port addr op ty b (p, k, a.seq)
            s.modCtx p k fun c => { c with
              storeQ := c.storeQ.map fun x => if x.seq == a.seq then { x with sent := true } else x }

/-! ### Stores of teams that a launch's end has stopped (R408, R422) -/

/-- Bytes of a piece of an orphan's data at a spot, or the new value of its AMO or RED; poisoned words and operations
that the root complex does not execute change nothing. -/
def State.orphanWrite (s : State) (cl : Client) (o : Orphan) (x : Piece) (y : Spot) : State :=
  let update (f : Nat → Option Nat) : State :=
    let root := match y with | .mem pa cached => !cached && isHost pa && !s.rootWorks pa | .pool _ _ => false
    let (bs, bad, s') := s.readAt cl y x.len .clean
    match f (leNat bs) with
    | some v => if root || bad then s else s'.writeSpot cl none y (leBytes x.len v) false
    | none => s
  match o.access.kind with
  | .store data => s.writeSpot cl none y (pieceData data x) (piecePoison o.access.poison x)
  | .amo op ty b c _ supported => update fun old => if supported then amoNew op ty old b.toNat c.toNat else none
  | .red op ty b => update fun old => some (redNew op ty old b.toNat)
  | _ => s

/-- An orphan performs as a whole, or, by a free value, is dropped.  What it would write in its own scratchpad no later
plot can read (R129). -/
def State.settleOrphan (s : State) (o : Orphan) : State :=
  let s' := s.draw
  if !Config.stillPerforms s.freeSeed then s'
  else o.access.pieces.foldl (fun s x =>
    match s.findPieceOf o.team o.core x with
    | .ok (.pool q a) => if q == o.core then s else s.orphanWrite ⟨o.team.asid.toNat, none, false⟩ o x (.pool q a)
    | .ok y => s.orphanWrite ⟨o.team.asid.toNat, none, false⟩ o x y
    | _ => s) s'

/-- Every orphan of a launch performs or is dropped. -/
def State.settleOrphans (s : State) (slot : Nat) : State :=
  let s' := (s.orphans.filter fun o => o.slot == slot).foldl State.settleOrphan s
  { s' with orphans := s'.orphans.filter fun o => o.slot != slot }

/-! ### The performing of a queue's next access -/

/-- The first access of a store queue that is not a RED already sent. -/
def Ctx.nextStore (c : Ctx) : Option Access := c.storeQ.find? (fun a => !a.sent)

/-- Whether an access is the head of its context's store queue and may perform. -/
def State.storeReady (s : State) (p k : Nat) (a : Access) : Bool :=
  let c := s.ctx p k
  (c.storeQ.head?).any (fun h => h.seq == a.seq) && s.mayPerform p c a

/-- One access of a context performs, if its queue and the rules of order let it. -/
def State.performNext (s : State) (r : CtxRef) (q : QueueSel) (fill : Bool) (ecc : Ecc) : State :=
  let c := s.ctx r.core r.ctx
  if !(s.core r.core).resident then s
  else match q with
  | .load =>
      (match c.loadQ with
       | a :: _ => if s.mayPerform r.core c a then s.performLoad r.core r.ctx a fill ecc else s
       | [] => s)
  | .store =>
      match c.nextStore with
      | none => s
      | some a =>
          match a.kind with
          | .red op ty b => s.sendRed r.core r.ctx a op ty b ecc
          | .store data => if s.storeReady r.core r.ctx a then s.performStore r.core r.ctx a data else s
          | .amo op ty b c tag sup =>
              if s.storeReady r.core r.ctx a then s.performAmo r.core r.ctx a op ty b c tag sup ecc else s
          | _ => s

/-! ### The hub's reads and writes through an ASID (R74, R110, R113, R431) -/

/-- Where an access of the hub through an ASID goes, or its cause; at user level unless a sheaf's task makes it
(R113, R145).  DESIGN CHOICE (log entry 91): an address in the scratchpad or fabric window is an XLATE fault. -/
def State.hubAt (s : State) (user : Bool) (asid va : Nat) (k : AccessKind) : Xlated :=
  if 2 ^ 56 ≤ va || isWindow va || isFabric va then .bad causeXLATE
  else match s.walk asid va with
    | some e => if e.forbids k user then .bad causePROT else .ok (e.paOf va) e.cached
    | none => .bad causeXLATE

/-- The first fault of a run of bytes at a virtual address. -/
def State.hubFault (s : State) (user : Bool) (asid va n : Nat) (k : AccessKind) : Option Nat :=
  (unitsOf 65536 va n).findSome? fun x =>
    match s.hubAt user asid (max va (65536 * x)) k with
    | .ok _ _ => none
    | .bad c => some c

/-- The part of a run of bytes that lies in a page of 64 KiB. -/
def pagePart (va n x : Nat) : Nat × Nat :=
  let lo := max va (65536 * x)
  (lo, min (va + n) (65536 * x + 65536) - lo)

/-- Read bytes through an ASID, with their mark; a page that faults gives none. -/
def State.hubRead (s : State) (user : Bool) (asid va n : Nat) : Except Nat (List Byte × Bool × State) :=
  (unitsOf 65536 va n).foldl (fun acc x =>
    match acc with
    | .error c => .error c
    | .ok (bs, bad, s) =>
        let (lo, len) := pagePart va n x
        match s.hubAt user asid lo accRead with
        | .bad c => .error c
        | .ok pa cached =>
            let s := s.flushSpot (.mem pa cached) len
            let (more, m, s) := s.homeRead ⟨asid, none, false⟩ pa len cached .clean
            .ok (bs ++ more, bad || m, s)) (.ok ([], false, s))

/-- Write bytes through an ASID as an agent that is not a core; what a C = 1 host page takes reaches host memory at
once (R468). -/
def State.hubWrite (s : State) (asid va : Nat) (bs : List Byte) : State :=
  (unitsOf 65536 va bs.length).foldl (fun s x =>
    let (lo, len) := pagePart va bs.length x
    match s.hubAt true asid lo accWrite with
    | .bad _ => s
    | .ok pa cached =>
        let s := s.writeSpot ⟨asid, none, false⟩ none (.mem pa cached) ((bs.drop (lo - va)).take len) false
        if cached && isHost pa then (unitsOf 32 pa len).foldl (fun s y => (s.writebackSector (32 * y)).1) s else s) s

end Sys2Proof.Machine
end

