-- ==== Sys2Proof/Machine/Scalar.lean ====
section
/-! DEFINITION. Scalar integer and predicate syllables (R196 to R202). -/

namespace Sys2Proof.Machine

/-- The outcome of a step. -/
abbrev Out := Host.Outcome State Fault Refusal

/-! ### Results -/

/-- Sources A then B, one result (R186, R196). -/
def binaryOp (d : Dst) (a b : Src) (f : W64 → W64 → W64) : Act Unit := do
  let x ← readSrc a
  let y ← readSrc b
  writeDst d (f x y)

/-- Source A, one result. -/
def unaryOp (d : Dst) (a : Src) (f : W64 → W64) : Act Unit := do
  let x ← readSrc a
  writeDst d (f x)

/-- The shift amount b[5:0] (R196). -/
def shiftAmount (b : W64) : Nat := b.toNat % 64

def minSigned (a b : W64) : W64 := if a.slt b || a == b then a else b
def maxSigned (a b : W64) : W64 := if a.slt b then b else a
def minUnsigned (a b : W64) : W64 := if a.toNat ≤ b.toNat then a else b
def maxUnsigned (a b : W64) : W64 := if a.toNat < b.toNat then b else a

/-- MULH and MULHN: the high 64 bits of the product (R197). -/
def mulHigh (a b : W64) : W64 := BitVec.ofInt 64 (a.toInt * b.toInt / 2 ^ 64)
def mulHighUnsigned (a b : W64) : W64 := BitVec.ofNat 64 (a.toNat * b.toNat / 2 ^ 64)

/-- DIV, DIVN, REM, REMN with R197's corners. -/
def divSigned (a b : W64) : W64 :=
  if b = 0 then 0xFFFFFFFFFFFFFFFF else BitVec.ofInt 64 (Int.tdiv a.toInt b.toInt)
def divUnsigned (a b : W64) : W64 :=
  if b = 0 then 0xFFFFFFFFFFFFFFFF else BitVec.ofNat 64 (a.toNat / b.toNat)
def remSigned (a b : W64) : W64 :=
  if b = 0 then a else BitVec.ofInt 64 (Int.tmod a.toInt b.toInt)
def remUnsigned (a b : W64) : W64 :=
  if b = 0 then a else BitVec.ofNat 64 (a.toNat % b.toNat)

/-- CLZ, CTZ, POPC (R198). -/
def countBits : Nat → Nat → Nat
  | 0, _ => 0
  | n + 1, x => x % 2 + countBits n (x / 2)
def trailingZeros : Nat → Nat → Nat
  | 0, _ => 0
  | n + 1, x => if x % 2 = 1 then 0 else 1 + trailingZeros n (x / 2)
def leadingZeros (x : W64) : Nat := 64 - bitLength x.toNat

/-- R200's comparison on 64-bit operands. -/
def compareWords (cc : Cc) (a b : W64) : Bool := Cc.intHolds cc a.toInt b.toInt a.toNat b.toNat

/-- imm24 sign-extended (R154). -/
def sext24 (i : BitVec 24) : W64 := i.signExtend 64

/-- A predicate result of two predicates of the executing cluster (R202). -/
def predOp (pd pa pb : Pred) (f : Bool → Bool → Bool) : Act Unit := do
  let x ← getPred pa
  let y ← getPred pb
  writePred pd (f x y)

/-! ### Meanings -/

/-- NOP (R170). -/
def execNop (s : State) : Out := concludeSyllable (pure ()) s

/-- ADD (R196). -/
def execAdd (d : Dst) (a b : Src) (s : State) : Out :=
  concludeSyllable (binaryOp d a b fun x y => x + y) s

/-- SUB (R196). -/
def execSub (d : Dst) (a b : Src) (s : State) : Out :=
  concludeSyllable (binaryOp d a b fun x y => x - y) s

/-- AND (R196). -/
def execAnd (d : Dst) (a b : Src) (s : State) : Out :=
  concludeSyllable (binaryOp d a b fun x y => x &&& y) s

/-- OR (R196). -/
def execOr (d : Dst) (a b : Src) (s : State) : Out :=
  concludeSyllable (binaryOp d a b fun x y => x ||| y) s

/-- XOR (R196). -/
def execXor (d : Dst) (a b : Src) (s : State) : Out :=
  concludeSyllable (binaryOp d a b fun x y => x ^^^ y) s

/-- ANDN (R196). -/
def execAndn (d : Dst) (a b : Src) (s : State) : Out :=
  concludeSyllable (binaryOp d a b fun x y => x &&& ~~~y) s

/-- SHL (R196). -/
def execShl (d : Dst) (a b : Src) (s : State) : Out :=
  concludeSyllable (binaryOp d a b fun x y => x <<< shiftAmount y) s

/-- SHR (R196). -/
def execShr (d : Dst) (a b : Src) (s : State) : Out :=
  concludeSyllable (binaryOp d a b fun x y => x >>> shiftAmount y) s

/-- SAR (R196). -/
def execSar (d : Dst) (a b : Src) (s : State) : Out :=
  concludeSyllable (binaryOp d a b fun x y => x.sshiftRight (shiftAmount y)) s

/-- ROL (R196). -/
def execRol (d : Dst) (a b : Src) (s : State) : Out :=
  concludeSyllable (binaryOp d a b fun x y => x.rotateLeft (shiftAmount y)) s

/-- MIN (R196). -/
def execMin (d : Dst) (a b : Src) (s : State) : Out :=
  concludeSyllable (binaryOp d a b minSigned) s

/-- MINN (R196). -/
def execMinn (d : Dst) (a b : Src) (s : State) : Out :=
  concludeSyllable (binaryOp d a b minUnsigned) s

/-- MAX (R196). -/
def execMax (d : Dst) (a b : Src) (s : State) : Out :=
  concludeSyllable (binaryOp d a b maxSigned) s

/-- MAXN (R196). -/
def execMaxn (d : Dst) (a b : Src) (s : State) : Out :=
  concludeSyllable (binaryOp d a b maxUnsigned) s

/-- MUL (R197). -/
def execMul (d : Dst) (a b : Src) (s : State) : Out :=
  concludeSyllable (binaryOp d a b fun x y => x * y) s

/-- MULH (R197). -/
def execMulh (d : Dst) (a b : Src) (s : State) : Out :=
  concludeSyllable (binaryOp d a b mulHigh) s

/-- MULHN (R197). -/
def execMulhn (d : Dst) (a b : Src) (s : State) : Out :=
  concludeSyllable (binaryOp d a b mulHighUnsigned) s

/-- DIV (R197). -/
def execDiv (d : Dst) (a b : Src) (s : State) : Out :=
  concludeSyllable (binaryOp d a b divSigned) s

/-- DIVN (R197). -/
def execDivn (d : Dst) (a b : Src) (s : State) : Out :=
  concludeSyllable (binaryOp d a b divUnsigned) s

/-- REM (R197). -/
def execRem (d : Dst) (a b : Src) (s : State) : Out :=
  concludeSyllable (binaryOp d a b remSigned) s

/-- REMN (R197). -/
def execRemn (d : Dst) (a b : Src) (s : State) : Out :=
  concludeSyllable (binaryOp d a b remUnsigned) s

/-- MOV (R198): a poisoned entry keeps its mark (R440). -/
def execMov (d : Dst) (a : Src) (s : State) : Out :=
  concludeSyllable (do
    let (x, p) ← readSrcP a
    writeEntry d (.ready x p)) s

/-- ABS (R198). -/
def execAbs (d : Dst) (a : Src) (s : State) : Out :=
  concludeSyllable (unaryOp d a fun x => if x.toInt < 0 then -x else x) s

/-- CLZ (R198). -/
def execClz (d : Dst) (a : Src) (s : State) : Out :=
  concludeSyllable (unaryOp d a fun x => BitVec.ofNat 64 (leadingZeros x)) s

/-- CTZ (R198). -/
def execCtz (d : Dst) (a : Src) (s : State) : Out :=
  concludeSyllable (unaryOp d a fun x => BitVec.ofNat 64 (trailingZeros 64 x.toNat)) s

/-- POPC (R198). -/
def execPopc (d : Dst) (a : Src) (s : State) : Out :=
  concludeSyllable (unaryOp d a fun x => BitVec.ofNat 64 (countBits 64 x.toNat)) s

/-- SEL (R199): both sources are read; the chosen one's mark goes with it (R440). -/
def execSel (d : Dst) (a b : Src) (neg : Bool) (p : Pred) (s : State) : Out :=
  concludeSyllable (do
    let (x, mx) ← readSrcP a
    let (y, my) ← readSrcP b
    let c ← getPred p
    if c != neg then writeEntry d (.ready x mx) else writeEntry d (.ready y my)) s

/-- LEA (R199). -/
def execLea (d : Dst) (a b : Src) (shift : BitVec 2) (s : State) : Out :=
  concludeSyllable (binaryOp d a b fun x y => x + (y <<< shift.toNat)) s

/-- CMP.cc (R200). -/
def execCmp (cc : Cc) (pd : Pred) (a b : Src) (s : State) : Out :=
  concludeSyllable (do
    let x ← readSrc a
    let y ← readSrc b
    writePred pd (compareWords cc x y)) s

/-- CMPI.cc (R200). -/
def execCmpi (cc : Cc) (pd : Pred) (a : Src) (imm : BitVec 24) (s : State) : Out :=
  concludeSyllable (do
    let x ← readSrc a
    writePred pd (compareWords cc x (sext24 imm))) s

/-- ADDI (R201). -/
def execAddi (d : Dst) (a : Src) (imm : BitVec 24) (s : State) : Out :=
  concludeSyllable (unaryOp d a fun x => x + sext24 imm) s

/-- ANDI (R201). -/
def execAndi (d : Dst) (a : Src) (imm : BitVec 24) (s : State) : Out :=
  concludeSyllable (unaryOp d a fun x => x &&& sext24 imm) s

/-- ORI (R201). -/
def execOri (d : Dst) (a : Src) (imm : BitVec 24) (s : State) : Out :=
  concludeSyllable (unaryOp d a fun x => x ||| sext24 imm) s

/-- XORI (R201). -/
def execXori (d : Dst) (a : Src) (imm : BitVec 24) (s : State) : Out :=
  concludeSyllable (unaryOp d a fun x => x ^^^ sext24 imm) s

/-- SHLI (R201). -/
def execShli (d : Dst) (a : Src) (n : BitVec 6) (s : State) : Out :=
  concludeSyllable (unaryOp d a fun x => x <<< n.toNat) s

/-- SHRI (R201). -/
def execShri (d : Dst) (a : Src) (n : BitVec 6) (s : State) : Out :=
  concludeSyllable (unaryOp d a fun x => x >>> n.toNat) s

/-- SARI (R201). -/
def execSari (d : Dst) (a : Src) (n : BitVec 6) (s : State) : Out :=
  concludeSyllable (unaryOp d a fun x => x.sshiftRight n.toNat) s

/-- LI (R201). -/
def execLi (d : Dst) (imm : BitVec 24) (s : State) : Out :=
  concludeSyllable (writeDst d (sext24 imm)) s

/-- LIH (R201). -/
def execLih (d : Dst) (a : Src) (imm : BitVec 24) (s : State) : Out :=
  concludeSyllable (unaryOp d a fun x => (x <<< 24) ||| imm.zeroExtend 64) s

/-- PAND (R202). -/
def execPand (pd pa pb : Pred) (s : State) : Out :=
  concludeSyllable (predOp pd pa pb fun x y => x && y) s

/-- POR (R202). -/
def execPor (pd pa pb : Pred) (s : State) : Out :=
  concludeSyllable (predOp pd pa pb fun x y => x || y) s

/-- PXOR (R202). -/
def execPxor (pd pa pb : Pred) (s : State) : Out :=
  concludeSyllable (predOp pd pa pb fun x y => x != y) s

/-- PANDN (R202). -/
def execPandn (pd pa pb : Pred) (s : State) : Out :=
  concludeSyllable (predOp pd pa pb fun x y => x && !y) s

/-- PNOT (R202). -/
def execPnot (pd pa : Pred) (s : State) : Out :=
  concludeSyllable (predOp pd pa pa fun x _ => !x) s

/-- PMOV (R202). -/
def execPmov (pd pa : Pred) (s : State) : Out :=
  concludeSyllable (predOp pd pa pa fun x _ => x) s

end Sys2Proof.Machine
end

