-- ==== Sys2Proof/Machine/Memory.lean ====
section
/-! DEFINITION. Loads, stores and fences (R252 to R263, R383, R384), and the steps of the memory ports. -/

namespace Sys2Proof.Machine

/-! ### Issue of an access -/

/-- base + index × s + disp16 × s (R155). -/
def memAddress (m : MemOp) (size : Nat) : Act W64 := do
  let b ← readSrc m.base
  let x ← readSrc m.index
  return b + x * BitVec.ofNat 64 size + m.disp.signExtend 64 * BitVec.ofNat 64 size

/-- Whether a context translates at user level. -/
def Ctx.user (c : Ctx) : Bool := !c.sup

/-- Translate a virtual address for the issuing context; the cause where it faults (R244). -/
def translateA (va : Nat) (kind : AccessKind) : Act Xlated := do
  let s ← get
  let (r, s) := s.translate s.issue.core s.issue.ctx false s.curTeam.asid.toNat va kind s.cur.user
  set s
  return r

/-- R252 for a scalar access that is not of the own-scratchpad form. -/
def resolveVirtual (agent : Agent) (ea : W64) (kind : AccessKind) : Act Place := do
  let va := ea.toNat
  if 2 ^ 56 ≤ va then trap causeXLATE ea
  else if isWindow va then
    match (← get).winPrecise (← getTeam) agent va with
    | some c => trap c ea
    | none => return .window va
  else if isFabric va then trap causePROT ea
  else match ← translateA va kind with
    | .ok pa cached => return .phys pa cached
    | .bad c => trap c ea

/-- R221, R222 for bytes of an own-scratchpad buffer: the pool address. -/
def ownAddress (agent : Agent) (b : Buf) (ea : W64) (n : Nat) : Act Nat := do
  let t ← getTeam
  trapIf (!admits agent b) causePROT ea
  trapIf (t.bufSize b < ea.toNat + n) causePROT ea
  return t.bufStart b + ea.toNat

/-- Put an access into a queue of the issuing context, in program order. -/
def pushAccess (q : QueueSel) (kind : AccKind) (acquire release : Option Scope) (pieces parked : List Piece)
    (lastUse : Bool) (poison : List Nat) : Act Unit :=
  modCtxA fun c =>
    let a : Access := ⟨c.nextSeq, kind, acquire, release, pieces, lastUse, [], poison, false, false⟩
    let c := { c with nextSeq := c.nextSeq + 1 }
    let c := if pieces.isEmpty && !parked.isEmpty then c
      else match q with
        | .load => { c with loadQ := c.loadQ ++ [a] }
        | .store => { c with storeQ := c.storeQ ++ [a] }
    if parked.isEmpty then c
    else
      let b : Access := { a with pieces := parked, sent := pieces.isEmpty }
      { c with replay := c.replay ++ [b] }

/-- A release that issues while a store fault is pending raises it (R240, R395). -/
def raisePending : Act Unit := do
  match (← getCtx).storeFaults with
  | r :: _ => stop (.deferred r)
  | [] => pure ()

def raiseIfRelease (release : Option Scope) : Act Unit :=
  if release.isSome then raisePending else pure ()

/-- Scope of an ordered virtual access. -/
def orderScope : Space → Option Scope
  | .virt => none
  | .virtOrdered sc => some sc
  | .own ordered _ _ => if ordered then some .team else none

/-- Whether a place is the issuing team's own scratchpad (R355, R434). -/
def State.ownPlace (s : State) (p : Nat) (x : Place) : Bool :=
  match x with
  | .pool _ => true
  | .phys _ _ => false
  | .window va =>
      let w := winAddr va
      match s.targetOf (s.team p).persistentSlot w.teamForm w.target with
      | .core q => q == p
      | _ => false

/-- An own-scratchpad read performs at issue: it is held back by the loads before it in its queue (R378) and by what
R379 and R380 order before it, parked accesses too. -/
def holdForOwn (pieces : List Piece) : Act Unit := do
  let s ← get
  holdUnless (s.cur.loadQ.isEmpty && (s.cur.replay ++ s.cur.savedParked).all (fun e => e.kind.isWrite)
    && s.cur.accesses.all fun e => e.acquire.isNone && !s.sameWord s.issue.core pieces e.pieces)

/-- BANKDROP where an own-scratchpad read meets a dead granule (R228). -/
def checkLive (ea : W64) (pieces : List Piece) : Act Unit := do
  let s ← get
  let c := s.core s.issue.core
  trapIf (pieces.any fun x => match x.place with | some (.pool a) => c.isDead a x.len | _ => false) causeBANKDROP ea

def killOwn (lastUse : Bool) (pieces : List Piece) : Act Unit :=
  if lastUse then
    modify fun s => s.modCore s.issue.core fun c => pieces.foldl (fun c x =>
      match x.place with | some (.pool a) => c.kill a x.len | _ => c) c
  else pure ()

/-- The pieces of own-scratchpad bytes paired with their spots. -/
def ownSpots (p : Nat) (pieces : List Piece) : List (Piece × Spot) :=
  pieces.filterMap fun x => match x.place with | some (.pool a) => some (x, .pool p a) | _ => none

/-! ### LD and ST (R256, R257) -/

def alignCheck (ea : W64) (n : Nat) : Act Unit := trapIf (ea.toNat % n != 0) causeALIGN ea

/-- LD from the own scratchpad. -/
def loadOwn (ty : ScalarTy) (d : Dst) (ea : W64) (lastUse : Bool) (b : Buf) : Act Unit := do
  let n := ScalarTy.size ty
  let a ← ownAddress .load b ea n
  let x : Piece := ⟨ea.toNat, some (.pool a), 0, 0, n⟩
  holdForOwn [x]
  checkLive ea [x]
  let s ← get
  let (bs, bad, s) := s.readSpot s.issue.core s.issue.ctx (.pool s.issue.core a) n true false .clean
  set s
  killOwn lastUse [x]
  writeEntry d (.ready (loadValue ty bs) bad)

/-- LD (R256, R257). -/
def execLd (ty : ScalarTy) (d : Dst) (m : MemOp) (s : State) : Out :=
  concludeSyllable (do
    let n := ScalarTy.size ty
    let ea ← memAddress m n
    alignCheck ea n
    match m.space with
    | .own _ lastUse b => loadOwn ty d ea lastUse b
    | sp =>
        let pl ← resolveVirtual .load ea accRead
        let tag ← freshTag
        pushAccess .load (.loadScalar d.reg.toNat tag ty) (orderScope sp) none [⟨ea.toNat, some pl, 0, 0, n⟩] [] false []
        writeEntry d (.pending tag)) s

def sizeLog : Nat → Nat
  | 1 => 0 | 2 => 1 | 4 => 2 | _ => 3

/-- ST (R256, R257, R434, R440). -/
def execSt (ty : ScalarTy) (d : Src) (m : MemOp) (s : State) : Out :=
  concludeSyllable (do
    let n := ScalarTy.size ty
    let ea ← memAddress m n
    let (v, bad) ← readSrcP d
    alignCheck ea n
    let pl ← (match m.space with
      | .own _ _ b => do return .pool (← ownAddress .store b ea n)
      | _ => resolveVirtual .store ea accWrite)
    let lastUse := match m.space with | .own _ l _ => l | _ => false
    raiseIfRelease (orderScope m.space)
    let s ← get
    let data := leBytes n v.toNat
    let push := pushAccess .store (.store data) none (orderScope m.space) [⟨ea.toNat, some pl, 0, 0, n⟩] [] lastUse
      (if bad then [0] else [])
    if s.ownPlace s.issue.core pl then push
    else do
      set (s.pairTerm s.issue.core (sizeLog n) ea.toNat (leNat data))
      if s.curTeam.suppressed then pure () else push) s

/-! ### Vector accesses (R258 to R263) -/

/-- Sectors of `n` bytes at an address: virtual address and offset in the data. -/
def sectorsFrom (ea : W64) (off n : Nat) : List (Nat × Nat) :=
  (List.range (n / 32)).map fun i => ((ea + BitVec.ofNat 64 (32 * i)).toNat, off + 32 * i)

/-- Pages of translated sectors with what translation gives them. -/
def translatePages (kind : AccessKind) : List (Nat × Nat) → List (Nat × Xlated) → Act (List (Nat × Xlated))
  | [], pages => pure pages
  | x :: xs, pages =>
      if pages.any (fun q => q.1 == x.1 / 65536) then translatePages kind xs pages
      else do
        let r ← translateA (x.1 / 65536 * 65536) kind
        translatePages kind xs (pages ++ [(x.1 / 65536, r)])

/-- The precise faults of a vector access's sectors (R252, R263). -/
def checkSectors (agent : Agent) : List (Nat × Nat) → Act Unit
  | [] => pure ()
  | x :: xs => do
      let v := BitVec.ofNat 64 x.1
      trapIf (2 ^ 56 ≤ x.1) causeXLATE v
      trapIf (isFabric x.1) causePROT v
      trapIf (agent == .raLoad && !isWindow x.1) causePROT v
      if isWindow x.1 then
        match (← get).winPrecise (← getTeam) agent x.1 with
        | some c => trap c v
        | none => checkSectors agent xs
      else checkSectors agent xs

def pieceOf (pages : List (Nat × Xlated)) (x : Nat × Nat) : Piece :=
  if isWindow x.1 then ⟨x.1, some (.window x.1), 0, x.2, 32⟩
  else match pages.find? (fun q => q.1 == x.1 / 65536) with
    | some (_, .ok pa c) => ⟨x.1, some (.phys (pa + x.1 % 65536) c), 0, x.2, 32⟩
    | some (_, .bad cause) => ⟨x.1, none, cause, x.2, 32⟩
    | none => ⟨x.1, none, causeXLATE, x.2, 32⟩

/-- Parked pages of a context: replay entries in use (R249). -/
def Ctx.parkedCount (c : Ctx) : Nat := c.replayEntries.length

/-- Distinct pages of pieces. -/
def pagesOf (ps : List Piece) : List Nat := (ps.map (fun x => x.va / 65536)).eraseDups

/-- Resolve a translated or window vector access: pieces that go ahead and pieces that park (R249, R263). -/
def resolveVector (agent : Agent) (kind : AccessKind) (sectors : List (Nat × Nat)) :
    Act (List Piece × List Piece) := do
  checkSectors agent sectors
  let pages ← translatePages kind (sectors.filter (fun x => !isWindow x.1)) []
  let ps := sectors.map (pieceOf pages)
  let parked := ps.filter (fun x => x.place.isNone)
  let c ← getCtx
  match parked with
  | [] => return (ps, [])
  | x :: _ =>
      trapIf (64 - c.parkedCount < (pagesOf parked).length) x.cause (BitVec.ofNat 64 x.va)
      defer (.trapAfter ⟨causeREPLAY, BitVec.ofNat 64 x.va, .a, false⟩)
      return (ps.filter (fun x => x.place.isSome), parked)

/-- Pieces of own-scratchpad rows: start, offset, and bytes of each row (R221, R222). -/
def ownPieces (agent : Agent) (b : Buf) : List (W64 × Nat × Nat) → Act (List Piece)
  | [] => pure []
  | (ea, off, n) :: rows => do
      let a ← ownAddress agent b ea n
      let rest ← ownPieces agent b rows
      return ((List.range (n / 32)).map fun i =>
        Piece.mk (ea.toNat + 32 * i) (some (.pool (a + 32 * i))) 0 (off + 32 * i) 32) ++ rest

/-- A vector load of rows.  From the own scratchpad, BANKDROP's value is the first row's address, whichever row is dead
(DESIGN CHOICE, log entry 99). -/
def vectorLoad (agent : Agent) (f : Fmt) (columns : Bool) (d : VDst) (sp : Space)
    (rows : List (W64 × Nat × Nat)) : Act Unit := do
  let ea := ((rows.head?).map Prod.fst).getD 0
  match sp with
  | .own _ lastUse b => do
      let ps ← ownPieces agent b rows
      holdForOwn ps
      checkLive ea ps
      let s ← get
      let (m, marks, s) := s.readPieces s.issue.core s.issue.ctx f columns .clean (ownSpots s.issue.core ps) [] []
      match vectorResult f ea.toNat m marks with
      | .error (cause, va) => trap cause (BitVec.ofNat 64 va)
      | .ok (e, fl) => do
          set s
          raiseFlags fl
          killOwn lastUse ps
          defer (.vector s.issue.cluster d e)
  | _ => do
      let (ps, parked) ← resolveVector agent accRead (rows.flatMap fun r => sectorsFrom r.1 r.2.1 r.2.2)
      let tag ← freshTag
      pushAccess .load (.loadVector d.reg.toNat tag f columns) (orderScope sp) none ps parked false []
      defer (.vector (← get).issue.cluster d (.pending tag))

/-- Sectors of stored data that come from marked image sectors. -/
def dataPoison (index : Nat → Nat) (marks : BitVec 128) : List Nat :=
  if marks = 0 then []
  else (List.range 128).filter fun x => (List.range 32).any fun i => marks.getLsbD (index (32 * x + i) / 32)

/-- A vector store of rows.  Its parts in the own scratchpad make no term and perform in every run (R434, R435).  A
pending store fault is raised before a release, but not by an access that parks, whose REPLAY goes first (R395). -/
def vectorStore (sp : Space) (rows : List (W64 × Nat × Nat)) (data : List Byte) (poison : List Nat) :
    Act Unit := do
  match sp with
  | .own _ lastUse b => do
      let ps ← ownPieces .vstore b rows
      raiseIfRelease (orderScope sp)
      pushAccess .store (.store data) none (orderScope sp) ps [] lastUse poison
  | _ => do
      let (ps, parked) ← resolveVector .vstore accWrite (rows.flatMap fun r => sectorsFrom r.1 r.2.1 r.2.2)
      if parked.isEmpty then raiseIfRelease (orderScope sp)
      let s ← get
      let p := s.issue.core
      let own := ps.filter fun x => match x.place with | some pl => s.ownPlace p pl | none => false
      let other := ps.filter fun x => !own.contains x
      set ((other ++ parked).foldl (fun s x => s.pairDwords p x.va (pieceData data x)) s)
      let rest := if s.curTeam.suppressed then (own, []) else (ps, parked)
      if rest.1.isEmpty && rest.2.isEmpty then pure ()
      else pushAccess .store (.store data) none (orderScope sp) rest.1 rest.2 false poison

/-- The 4,096 bytes of an entry. -/
def imageBytes (v : VBits) : List Byte := leBytes 4096 v.toNat

/-- An entry's bytes in the order VSTC stores them. -/
def columnBytes (f : Fmt) (v : VBits) : List Byte :=
  (List.range 4096).map fun n => v.extractLsb' (8 * columnIndex (Fmt.elemWidth f / 8) n) 8

/-- The address of a whole-entry vector access. -/
def vectorAddress (m : MemOp) : Act W64 := do
  let ea ← memAddress m 64
  return ea

/-- VLDR (R260, R262). -/
def execVldr (f : Fmt) (d : VDst) (m : MemOp) (s : State) : Out :=
  concludeSyllable (do
    let ea ← vectorAddress m
    alignCheck ea 64
    if f = .ra then vectorLoad .raLoad f false d m.space [(ea, 0, 16384)]
    else vectorLoad .vload f false d m.space [(ea, 0, 4096)]) s

/-- VLDC (R260). -/
def execVldc (f : Fmt) (d : VDst) (m : MemOp) (s : State) : Out :=
  concludeSyllable (do
    let ea ← vectorAddress m
    alignCheck ea 64
    vectorLoad .vload f true d m.space [(ea, 0, 4096)]) s

/-- VSTR (R260). -/
def execVstr (_f : Fmt) (d : VSrc) (m : MemOp) (s : State) : Out :=
  concludeSyllable (do
    let ea ← vectorAddress m
    let (v, marks) ← readVecP d
    alignCheck ea 64
    vectorStore m.space [(ea, 0, 4096)] (imageBytes v) (dataPoison id marks)) s

/-- VSTC (R260). -/
def execVstc (f : Fmt) (d : VSrc) (m : MemOp) (s : State) : Out :=
  concludeSyllable (do
    let ea ← vectorAddress m
    let (v, marks) ← readVecP d
    alignCheck ea 64
    vectorStore m.space [(ea, 0, 4096)] (columnBytes f v)
      (dataPoison (columnIndex (Fmt.elemWidth f / 8)) marks)) s

/-- The sectors of an entry that hold bytes `lo` to `lo + n - 1` of every row. -/
def rowReads (lo n : Nat) : BitVec 128 :=
  markBits ((List.range 128).filter fun x => decide (lo < 32 * (x % 8) + 32 ∧ 32 * (x % 8) < lo + n))

/-- The row addresses of VGTH and VSCT (R261). -/
def rowAddresses (b : W64) (disp : BitVec 16) (idx : VBits) : List (W64 × Nat × Nat) :=
  (List.range 16).map fun i =>
    (b + disp.signExtend 64 * 64 + (idx.extractLsb' (2048 * i) 32).signExtend 64, 256 * i, 256)

/-- Every row address is a multiple of 64, or ALIGN with the first that is not (R261). -/
def alignRows (rows : List (W64 × Nat × Nat)) : Act Unit :=
  match rows.find? (fun r => r.1.toNat % 64 != 0) with
  | some r => trap causeALIGN r.1
  | none => pure ()

/-- VGTH (R261). -/
def execVgth (f : Fmt) (d : VDst) (m : VMemOp) (s : State) : Out :=
  concludeSyllable (do
    let b ← readSrc m.base
    let idx ← readVecOf m.index (rowReads 0 4)
    let rows := rowAddresses b m.disp idx
    alignRows rows
    vectorLoad .vload f false d m.space rows) s

/-- VSCT (R261). -/
def execVsct (_f : Fmt) (d : VSrc) (m : VMemOp) (s : State) : Out :=
  concludeSyllable (do
    let b ← readSrc m.base
    let idx ← readVecOf m.index (rowReads 0 4)
    let (v, marks) ← readVecP d
    let rows := rowAddresses b m.disp idx
    alignRows rows
    vectorStore m.space rows (imageBytes v) (dataPoison id marks)) s

/-! ### MARK and FENCE (R383, R384) -/

/-- Every access of a context has performed and every fault has been reported, what is parked in the section of a
context whose handler runs aside. -/
def Ctx.performedAll (c : Ctx) : Bool :=
  c.loadQ.isEmpty && c.storeQ.isEmpty && c.replay.isEmpty && c.faultReports.isEmpty

/-- Every access of a context has performed, every parked element too (R384), and every fault has been reported. -/
def Ctx.drained (c : Ctx) : Bool := c.performedAll && c.savedParked.isEmpty

/-- Accesses that return a value. -/
def AccKind.returns : AccKind → Bool
  | .loadScalar .. | .loadVector .. | .amo .. | .lock .. => true
  | _ => false

/-- Every access has performed at .ctx: stores have once they are queued (R382). -/
def Ctx.drainedCtx (c : Ctx) : Bool :=
  (c.loadQ ++ c.storeQ).all (fun a => !a.kind.returns) && c.replay.isEmpty && c.savedParked.isEmpty

/-- What MARK waits for, and the fault it raises (R384, R385). -/
def waitAll : Act Unit := do
  holdUnless (← getCtx).drained
  raisePending

/-- MARK (R384). -/
def execMark (s : State) : Out := concludeSyllable waitAll s

/-- FENCE (R384). -/
def execFence (scope : Scope) (s : State) : Out :=
  concludeSyllable (do
    let c ← getCtx
    holdUnless (if scope = .ctx then c.drainedCtx else c.drained)
    raisePending
    modify fun s => (s.releaseAt s.issue.core s.issue.ctx (some scope)).acquireAt s.issue.core (some scope)) s

/-! ### Steps of the memory ports -/

/-- ACCESS_PERFORM (R374). -/
def execAccessPerform (r : CtxRef) (q : QueueSel) (fill : Bool) (ecc : Ecc) (s : State) : Out :=
  concludeEvent (fun s => s.performNext r q fill ecc) s

/-- RED_ENTRY_PERFORM (R359). -/
def execRedEntryPerform (index : Nat) (s : State) : Out :=
  concludeEvent (fun s => match s.redEntries[index]? with | some e => s.performRed e | none => s) s

/-- LINE_WRITEBACK (R234): a flat line by its number, or a line of another tensor, leaves its slice. -/
def execLineWriteback (line : LineSel) (s : State) : Out :=
  concludeEvent (fun s => match line with
    | .flat n => (List.range 8).foldl (fun s i => s.evictSector (n * 256 + 32 * i)) s
    | .tensor i => match s.tensorLines[i]? with
      | some l => s.evictTensor l
      | none => s) s

/-- STORE_FAULT_REPORT (R240): the oldest fault on its way becomes pending. -/
def execStoreFaultReport (r : CtxRef) (s : State) : Out :=
  concludeEvent (fun s => s.modCtx r.core r.ctx fun c =>
    match c.faultReports with
    | x :: xs => { c with faultReports := xs, storeFaults := c.storeFaults ++ [x] }
    | [] => c) s

/-- A bank that has a live scratchpad granule or holds L1 lines, and no granule of the register region. -/
def Core.mayRetain (c : Core) (bank : Nat) : Bool :=
  c.team.regTop ≤ bank * 16 && bank < 32
    && ((List.range 16).any (fun i => c.isLive (bank * 16 + i))
      || (c.team.spadTop < bank * 16 + 16 && bank * 16 < c.team.l1Top))

/-- Core cycles without an access after which a bank goes into retention (R230). -/
def retentionCycles : Nat := 512

/-- BANK_RETENTION (R230). -/
def execBankRetention (core bank : Nat) (s : State) : Out :=
  concludeEvent (fun s =>
    if (s.core core).mayRetain bank && tget 0 (s.core core).bankUse bank + retentionCycles ≤ s.cycles then s.modCore core fun c => { c with banks := tput c.banks bank 1 } else s) s

end Sys2Proof.Machine
end

