-- ==== Sys2Proof/Machine/Atomic.lean ====
section
/-! DEFINITION. AMO, RED, BSIG and BWAIT (R351 to R360). -/

namespace Sys2Proof.Machine

/-- A plot of a DISCARD launch that has not passed COMMIT (R360). -/
def Team.uncommitted (t : Team) : Bool := !t.save && t.commit == .none

/-- PRECOMMIT (R360). -/
def checkCommitted (v : W64) : Act Unit := do trapIf (← getTeam).uncommitted causePRECOMMIT v

/-- Acquire and release scopes of an AMO. -/
def amoAcquire (sc : Scope) : AmoOrder → Option Scope
  | .acquire | .acqRel => some sc
  | _ => none
def amoRelease (sc : Scope) : AmoOrder → Option Scope
  | .release | .acqRel => some sc
  | _ => none

/-- Whether a place is a host page with C = 0, which the root complex serves. -/
def rootPlace : Place → Bool
  | .phys pa cached => !cached && isHost pa
  | _ => false

/-- Route of an AMO or RED: alignment, the port, and PRECOMMIT away from the own scratchpad (R356). -/
def routeAtomic (a : W64) (size : Nat) : Act Place := do
  alignCheck a size
  let pl ← resolveVirtual .atomic a accAtomic
  let s ← get
  if !s.ownPlace s.issue.core pl then checkCommitted a
  return pl

/-- AMO (R353 to R358). -/
def execAmo (op : AmoOp) (ty : AmoTy) (scope : Scope) (order : AmoOrder) (a b : Src) (s : State) : Out :=
  concludeSyllable (do
    let x ← readSrc a
    let y ← readSrc b
    let z ← (match op with | .cas new => readSrc new | _ => pure 0)
    let n := AmoTy.size ty
    let pl ← routeAtomic x n
    raiseIfRelease (amoRelease scope order)
    let tag ← freshTag
    let s ← get
    if !s.ownPlace s.issue.core pl then
      set (s.pairTerm s.issue.core (0x10 + amoMinor op) x.toNat y.toNat)
    pushAccess .store (.amo op ty y z tag (!rootPlace pl || rootSupports op))
      (amoAcquire scope order) (amoRelease scope order) [⟨x.toNat, some pl, 0, 0, n⟩] [] false []
    defer (.lq (.pending tag))) s

/-- RED (R353 to R359). -/
def execRed (op : RedOp) (ty : AmoTy) (scope : Scope) (release : Bool) (a b : Src) (s : State) : Out :=
  concludeSyllable (do
    let x ← readSrc a
    let y ← readSrc b
    let n := AmoTy.size ty
    let pl ← routeAtomic x n
    trapIf (rootPlace pl && !rootSupportsRed op) causeAMOTGT x
    let rel := if release then some scope else none
    raiseIfRelease rel
    let s ← get
    let push := pushAccess .store (.red op ty y) none rel [⟨x.toNat, some pl, 0, 0, n⟩] [] false []
    if s.ownPlace s.issue.core pl then push
    else do
      set (s.pairTerm s.issue.core (0x10 + redMinor op) x.toNat y.toNat)
      if s.curTeam.suppressed then pure () else push) s

/-! ### Barrier counters (R351, R352) -/

/-- A counter must lie in Y, through the window, or in a C = 1 page (R351). -/
def checkCounter (a : W64) (pl : Place) : Act Unit :=
  match pl with
  | .phys pa cached =>
      if cached then pure () else if isHost pa then trap causeAMOTGT a else trap causePROT a
  | _ => pure ()

/-- BSIG (R352). -/
def execBsig (scope : Scope) (a b : Src) (s : State) : Out :=
  concludeSyllable (do
    let x ← readSrc a
    let y ← readSrc b
    alignCheck x 8
    let pl ← resolveVirtual .atomic x accAtomic
    checkCounter x pl
    checkCommitted x
    raisePending
    let s ← get
    let push := pushAccess .store (.bsig y) none (some scope) [⟨x.toNat, some pl, 0, 0, 8⟩] [] false []
    if s.ownPlace s.issue.core pl then push
    else do
      set (s.pairTerm s.issue.core 0x20 x.toNat y.toNat)
      if s.curTeam.suppressed then pure () else push) s

/-- A counter as its port reads it for a BWAIT: its value or a fault at the target.  The read waits for what R379 and
R380 order before it, and for the REDs open for the line (R359). -/
def State.readCounter (s : State) (p k : Nat) (x : Piece) : Found (Nat × State) :=
  if (s.ctx p k).accesses.any (fun e => e.acquire.isSome || s.sameWord p [x] e.pieces) then .wait
  else match s.findPiece p x with
  | .wait => .wait
  | .bad c => .bad c
  | .ok y =>
      if s.spotDead y 8 then .bad causeBANKDROP
      else
        let s := s.flushSpot y 8
        match y with
        | .mem pa _ => .ok (s.physNat pa 8, s)
        | .pool q a => .ok (leNat ((s.core q).poolRead a 8), s)

/-- BWAIT (R352): one whose counter has met its target ends at once. -/
def execBwait (scope : Scope) (a b : Src) (s : State) : Out :=
  concludeSyllable (do
    let x ← readSrc a
    let y ← readSrc b
    alignCheck x 8
    let pl ← resolveVirtual .atomic x accRead
    checkCounter x pl
    let s ← get
    let p := s.issue.core
    let done : Act Unit := do
      migrationPoint
      modify fun s => s.acquireAt p (some scope)
    if y = 0 then done
    else match s.readCounter p s.issue.ctx ⟨x.toNat, some pl, 0, 0, 8⟩ with
    | .bad c => trap c x
    | .ok (v, s) => do
        set s
        if y.toNat ≤ v then done else beginWait (.barrier scope x.toNat pl y.toNat)
    | .wait => beginWait (.barrier scope x.toNat pl y.toNat)) s

/-- BWAIT_END (R352). -/
def execBwaitEnd (r : CtxRef) (s : State) : Out :=
  concludeEvent (fun s =>
    let c := s.ctx r.core r.ctx
    match c.waitOf .a with
    | some (.barrier scope va pl n) =>
        (match s.readCounter r.core r.ctx ⟨va, some pl, 0, 0, 8⟩ with
         | .wait => s
         | .bad cause => s.raise r.core r.ctx ⟨cause, BitVec.ofNat 64 va, .a, false⟩
         | .ok (v, s) =>
             if n ≤ v then (s.modCtx r.core r.ctx fun c => c.endWait .a).acquireAt r.core (some scope) else s)
    | _ => s) s

/-- The BSIG at the head of a context's store queue, if it may perform, and the word it adds to. -/
def State.bsigAt (s : State) (r : CtxRef) : Option (Access × W64 × Found Spot) :=
  let c := s.ctx r.core r.ctx
  match c.storeQ with
  | a :: _ =>
      (match a.kind, a.pieces with
       | .bsig n, x :: _ =>
           if (s.core r.core).resident && s.mayPerform r.core c a then some (a, n, s.findPiece r.core x) else none
       | _, _ => none)
  | [] => none

/-- One BSIG leaves its queue, with a fault where it failed. -/
def State.endBsig (s : State) (r : CtxRef) (a : Access) (fault : Option Nat) : State :=
  let s := s.popStore r.core r.ctx a.seq
  match fault with
  | some c => s.storeFault r.core r.ctx c a.va
  | none => s

/-- BSIGs that arrive at one word in the same fabric cycle add as one (R352). -/
def State.bsigAdd (s : State) (y : Spot) (who : List (CtxRef × Access × W64)) : State :=
  match who with
  | [] => s
  | (r0, _, _) :: _ =>
      let s := who.foldl (fun s w => s.releaseAt w.1.core w.1.ctx w.2.1.release) s
      let (old, bad, s) := s.oldWord r0.core r0.ctx y 8 .clean
      if bad then
        let s := s.post evREDDROP 0 srcHub (match y with | .mem pa _ => pa | .pool _ a => a) 0
        who.foldl (fun s w => s.endBsig w.1 w.2.1 none) s
      else
        let total := old + (who.map (fun w => w.2.2.toNat)).sum
        let past := decide (2 ^ 64 ≤ total)
        let last := ((who.getLast?).map (fun w => w.1.core)).getD r0.core
        let s := s.writeSpot (s.client r0.core r0.ctx) (some last) y (leBytes 8 (min total (2 ^ 64 - 1))) false
        let s := match y with
          | .mem pa _ => s.revokeCores (who.map fun w => w.1.core) last pa 8
          | .pool _ _ => s
        who.foldl (fun s w => s.endBsig w.1 w.2.1 (if past then some causeBARSAT else none)) s

/-- The listed contexts whose BSIG may perform. -/
def State.bsigReady (s : State) (who : List CtxRef) : List (CtxRef × Access × W64 × Found Spot) :=
  who.eraseDups.filterMap fun r => (s.bsigAt r).map fun x => (r, x.1, x.2.1, x.2.2)

/-- BSIG_ARRIVAL (R352): those of the listed contexts whose BSIG may perform at the first one's word. -/
def execBsigArrival (who : List CtxRef) (s : State) : Out :=
  concludeEvent (fun s =>
    let ready := s.bsigReady who
    match ready with
    | [] => s
    | (_, _, _, .wait) :: _ => s
    | (r, a, _, .bad c) :: _ => s.endBsig r a (some c)
    | (_, _, _, .ok y) :: _ =>
        s.bsigAdd y ((ready.filter fun x => x.2.2.2 == .ok y).map fun x => (x.1, x.2.1, x.2.2.1))) s

end Sys2Proof.Machine
end

