-- ==== Sys2Proof/Decode.lean ====
section
/-! DEFINITION. The encoding of syllables (R147 to R176, R195, R212, R255, R266, R294, R316, R333, R341,
R347, R352, R353, R368, R383, R400): the decoder, which rejects by name, and the encoder. -/

namespace Sys2Proof

/-- Why 64 bits are no syllable.  Every name stands for the fate ILLEGAL of R176, but for `short`:
fewer than 8 bytes were given. -/
inductive Reject where
  | short
  | major
  | minor
  | field
  deriving DecidableEq, Repr

/-- The bits `lo` to `lo + len - 1` of a word. -/
def slice {n : Nat} (x : BitVec n) (lo len : Nat) : BitVec len := BitVec.ofNat len (x.toNat / 2 ^ lo)

/-! ### Codes of the fixed sets of names -/

def SrcMode.code : SrcMode → Nat
  | .pop => 0 | .keep => 1 | .drop => 2 | .hold => 3

def SrcMode.ofCode (n : Nat) : SrcMode :=
  match n with
  | 0 => .pop | 1 => .keep | 2 => .drop | _ => .hold

def DstMode.code : DstMode → Nat
  | .push => 0 | .replace => 1

def DstMode.ofCode (n : Nat) : Except Reject DstMode :=
  match n with
  | 0 => .ok .push | 1 => .ok .replace | _ => .error .field

def Cc.code : Cc → Nat
  | .eq => 0 | .ne => 1 | .lt => 2 | .ge => 3 | .le => 4 | .gt => 5
  | .ltn => 6 | .gen => 7 | .len => 8 | .gtn => 9 | .un => 10

def Cc.ofCode (n : Nat) : Except Reject Cc :=
  match n with
  | 0 => .ok .eq | 1 => .ok .ne | 2 => .ok .lt | 3 => .ok .ge | 4 => .ok .le | 5 => .ok .gt
  | 6 => .ok .ltn | 7 => .ok .gen | 8 => .ok .len | 9 => .ok .gtn | 10 => .ok .un | _ => .error .minor

def Scope.code : Scope → Nat
  | .ctx => 0 | .team => 1 | .bay => 2 | .chip => 3 | .pkg => 4 | .sys => 5

def Scope.ofCode (n : Nat) : Except Reject Scope :=
  match n with
  | 0 => .ok .ctx | 1 => .ok .team | 2 => .ok .bay | 3 => .ok .chip | 4 => .ok .pkg | 5 => .ok .sys
  | _ => .error .field

def Buf.code : Buf → Nat
  | .w => 1 | .y => 2 | .z => 3

def Buf.ofCode (n : Nat) : Except Reject Buf :=
  match n with
  | 1 => .ok .w | 2 => .ok .y | 3 => .ok .z | _ => .error .field

def ScalarTy.code : ScalarTy → Nat
  | .n8 => 0 | .n16 => 1 | .n32 => 2 | .n64 => 3 | .i8 => 4 | .i16 => 5 | .i32 => 6 | .i64 => 7

def ScalarTy.ofCode (n : Nat) : Except Reject ScalarTy :=
  match n with
  | 0 => .ok .n8 | 1 => .ok .n16 | 2 => .ok .n32 | 3 => .ok .n64
  | 4 => .ok .i8 | 5 => .ok .i16 | 6 => .ok .i32 | 7 => .ok .i64 | _ => .error .field

def AmoTy.code : AmoTy → Nat
  | .n32 => 2 | .n64 => 3 | .i32 => 6 | .i64 => 7 | .f32 => 8 | .bf16 => 9 | .f16 => 10

def AmoTy.ofCode (n : Nat) : Except Reject AmoTy :=
  match n with
  | 2 => .ok .n32 | 3 => .ok .n64 | 6 => .ok .i32 | 7 => .ok .i64
  | 8 => .ok .f32 | 9 => .ok .bf16 | 10 => .ok .f16 | _ => .error .field

def Fmt.code : Fmt → Nat
  | .fp32 => 0 | .bf16 => 1 | .fp16 => 2 | .e4m3 => 3 | .e5m2 => 4 | .e2m3 => 5 | .e3m2 => 6
  | .e2m1 => 7 | .bi4 => 8 | .bi6 => 9 | .bi8 => 10 | .bi16 => 11 | .i32 => 12 | .i16 => 13
  | .i8 => 14 | .ra => 15

def Fmt.ofCode (n : Nat) : Fmt :=
  match n with
  | 0 => .fp32 | 1 => .bf16 | 2 => .fp16 | 3 => .e4m3 | 4 => .e5m2 | 5 => .e2m3 | 6 => .e3m2
  | 7 => .e2m1 | 8 => .bi4 | 9 => .bi6 | 10 => .bi8 | 11 => .bi16 | 12 => .i32 | 13 => .i16
  | 14 => .i8 | _ => .ra

def Rnd.code : Rnd → Nat
  | .rne => 0 | .rtz => 1 | .rup => 2 | .rdn => 3

def Rnd.ofCode (n : Nat) : Rnd :=
  match n with
  | 0 => .rne | 1 => .rtz | 2 => .rup | _ => .rdn

def AmoOrder.code : AmoOrder → Nat
  | .relaxed => 0 | .acquire => 1 | .release => 2 | .acqRel => 3

def AmoOrder.ofCode (n : Nat) : AmoOrder :=
  match n with
  | 0 => .relaxed | 1 => .acquire | 2 => .release | _ => .acqRel

def RedOp.code : RedOp → Nat
  | .add => 0 | .and => 1 | .or => 2 | .xor => 3 | .min => 4 | .max => 5 | .minn => 6 | .maxn => 7
  | .fadd => 10

def RedOp.ofCode (n : Nat) : Except Reject RedOp :=
  match n with
  | 0 => .ok .add | 1 => .ok .and | 2 => .ok .or | 3 => .ok .xor | 4 => .ok .min | 5 => .ok .max
  | 6 => .ok .minn | 7 => .ok .maxn | 10 => .ok .fadd | _ => .error .minor

def LockMode.code : LockMode → Nat
  | .is => 0 | .ix => 1 | .s => 2 | .six => 3 | .inc => 4 | .x => 5

def LockMode.ofCode (n : Nat) : Except Reject LockMode :=
  match n with
  | 0 => .ok .is | 1 => .ok .ix | 2 => .ok .s | 3 => .ok .six | 4 => .ok .inc | 5 => .ok .x
  | _ => .error .field

def LockLevel.code : LockLevel → Nat
  | .tensor => 0 | .tile => 1 | .line => 2

def LockLevel.ofCode (n : Nat) : Except Reject LockLevel :=
  match n with
  | 0 => .ok .tensor | 1 => .ok .tile | 2 => .ok .line | _ => .error .field

def VRedOp.code : VRedOp → Nat
  | .add => 0 | .min => 1 | .max => 2 | .and => 3 | .or => 4 | .xor => 5

def VRedOp.ofCode (n : Nat) : Except Reject VRedOp :=
  match n with
  | 0 => .ok .add | 1 => .ok .min | 2 => .ok .max | 3 => .ok .and | 4 => .ok .or | 5 => .ok .xor
  | _ => .error .minor

/-! ### Operand fields (R149 to R151) -/

def Src.enc (s : Src) : BitVec 8 := BitVec.ofNat 8 (s.mode.code * 64 + s.reg.toNat)
def Src.dec (x : BitVec 8) : Src := ⟨SrcMode.ofCode (slice x 6 2).toNat, slice x 0 6⟩
def Dst.enc (d : Dst) : BitVec 8 := BitVec.ofNat 8 (d.mode.code * 64 + d.reg.toNat)
def Dst.dec (x : BitVec 8) : Except Reject Dst := do
  let m ← DstMode.ofCode (slice x 6 2).toNat
  return ⟨m, slice x 0 6⟩
def VSrc.enc (s : VSrc) : BitVec 8 := BitVec.ofNat 8 (s.mode.code * 64 + s.reg.toNat)
def VSrc.dec (x : BitVec 8) : VSrc := ⟨SrcMode.ofCode (slice x 6 2).toNat, slice x 0 4⟩
def VDst.enc (d : VDst) : BitVec 8 := BitVec.ofNat 8 (d.mode.code * 64 + d.reg.toNat)
def VDst.dec (x : BitVec 8) : Except Reject VDst := do
  let m ← DstMode.ofCode (slice x 6 2).toNat
  return ⟨m, slice x 0 4⟩

/-- A predicate, Benes word, ring, counter or slot number in an operand field, mode bits zero. -/
def numField {n : Nat} (x : BitVec n) : BitVec 8 := BitVec.ofNat 8 x.toNat

/-- An optional mask in the C field (R290). -/
def maskEnc : Option VSrc → BitVec 8
  | some m => m.enc
  | none => 0

def maskDec (m : BitVec 1) (c : BitVec 8) : Option VSrc :=
  if m = 1 then some (VSrc.dec c) else none

def flagNat (b : Bool) : Nat := if b then 1 else 0

/-! ### The six formats (R153) -/

/-- Bits [48:0] of a syllable. -/
inductive Layout where
  | rrr (d a b : BitVec 8) (minor : BitVec 9) (modifier : BitVec 16)
  | rri (d a : BitVec 8) (imm : BitVec 24) (minor : BitVec 9)
  | mem (data base index : BitVec 8) (disp : BitVec 16) (scope : BitVec 3) (order : BitVec 2)
      (type : BitVec 4)
  | br (link : BitVec 8) (disp : BitVec 32) (minor : BitVec 9)
  | sys (d a : BitVec 8) (csr : BitVec 16) (minor : BitVec 17)
  | vec (d a b c : BitVec 8) (minor : BitVec 8) (modifier : BitVec 9)
  deriving DecidableEq, Repr

/-- The names of the six formats. -/
inductive Format where
  | rrr | rri | mem | br | sys | vec
  deriving DecidableEq, Repr

/-- Bits [48:0] as a number. -/
def Layout.bits : Layout → Nat
  | .rrr d a b minor modifier =>
      d.toNat * 2 ^ 41 + a.toNat * 2 ^ 33 + b.toNat * 2 ^ 25 + minor.toNat * 2 ^ 16 + modifier.toNat
  | .rri d a imm minor => d.toNat * 2 ^ 41 + a.toNat * 2 ^ 33 + imm.toNat * 2 ^ 9 + minor.toNat
  | .mem data base index disp scope order type =>
      data.toNat * 2 ^ 41 + base.toNat * 2 ^ 33 + index.toNat * 2 ^ 25 + disp.toNat * 2 ^ 9
        + scope.toNat * 2 ^ 6 + order.toNat * 2 ^ 4 + type.toNat
  | .br link disp minor => link.toNat * 2 ^ 41 + disp.toNat * 2 ^ 9 + minor.toNat
  | .sys d a csr minor => d.toNat * 2 ^ 41 + a.toNat * 2 ^ 33 + csr.toNat * 2 ^ 17 + minor.toNat
  | .vec d a b c minor modifier =>
      d.toNat * 2 ^ 41 + a.toNat * 2 ^ 33 + b.toNat * 2 ^ 25 + c.toNat * 2 ^ 17 + minor.toNat * 2 ^ 9
        + modifier.toNat

/-- The format of a layout. -/
def Layout.format : Layout → Format
  | .rrr .. => .rrr | .rri .. => .rri | .mem .. => .mem | .br .. => .br | .sys .. => .sys | .vec .. => .vec

/-- The fields of a syllable read by a format. -/
def Format.read (w : W64) : Format → Layout
  | .rrr => .rrr (slice w 41 8) (slice w 33 8) (slice w 25 8) (slice w 16 9) (slice w 0 16)
  | .rri => .rri (slice w 41 8) (slice w 33 8) (slice w 9 24) (slice w 0 9)
  | .mem => .mem (slice w 41 8) (slice w 33 8) (slice w 25 8) (slice w 9 16) (slice w 6 3) (slice w 4 2)
      (slice w 0 4)
  | .br => .br (slice w 41 8) (slice w 9 32) (slice w 0 9)
  | .sys => .sys (slice w 41 8) (slice w 33 8) (slice w 17 16) (slice w 0 17)
  | .vec => .vec (slice w 41 8) (slice w 33 8) (slice w 25 8) (slice w 17 8) (slice w 9 8) (slice w 0 9)

/-- The format of a major (R169, R172 to R175); NOP's unused bits are read as RRR. -/
def Format.ofMajor (m : Nat) : Except Reject Format :=
  match m with
  | 0x00 | 0x01 | 0x02 | 0x03 | 0x04 | 0x05 | 0x06 => .ok .rrr
  | 0x07 | 0x08 => .ok .rri
  | 0x10 => .ok .rrr
  | 0x20 => .ok .br | 0x21 => .ok .rrr | 0x22 => .ok .br | 0x23 => .ok .rrr
  | 0x24 | 0x25 | 0x26 | 0x27 => .ok .br
  | 0x28 => .ok .rrr | 0x29 | 0x2A | 0x2B => .ok .sys
  | 0x30 | 0x31 | 0x32 | 0x33 | 0x34 | 0x35 | 0x36 | 0x37 => .ok .mem
  | 0x38 | 0x39 | 0x3A | 0x3B | 0x3C | 0x3D | 0x3E | 0x3F => .ok .rrr
  | 0x50 | 0x51 | 0x52 | 0x53 | 0x54 | 0x55 | 0x56 | 0x57 | 0x58 | 0x59 | 0x5A | 0x5B => .ok .vec
  | 0x5C => .ok .rri
  | 0x70 | 0x71 => .ok .rrr
  | _ => .error .major

/-! ### Fields shared by several syllables -/

/-- order and scope of the MEM format (R155). -/
def Space.order : Space → BitVec 2
  | .virt => 0
  | .virtOrdered _ => 1
  | .own false _ _ => 2
  | .own true _ _ => 3

def Space.scope : Space → BitVec 3
  | .virt => 0
  | .virtOrdered s => BitVec.ofNat 3 s.code
  | .own _ lu b => BitVec.ofNat 3 (flagNat lu * 4 + b.code)

def Space.dec (order : BitVec 2) (scope : BitVec 3) : Except Reject Space :=
  match order.toNat with
  | 0 => .ok .virt
  | 1 => do return .virtOrdered (← Scope.ofCode scope.toNat)
  | 2 => do return .own false (slice scope 2 1 == 1) (← Buf.ofCode (slice scope 0 2).toNat)
  | _ => do return .own true (slice scope 2 1 == 1) (← Buf.ofCode (slice scope 0 2).toNat)

def MemOp.layout (data : BitVec 8) (m : MemOp) (type : BitVec 4) : Layout :=
  .mem data m.base.enc m.index.enc m.disp m.space.scope m.space.order type

def VMemOp.layout (data : BitVec 8) (m : VMemOp) (type : BitVec 4) : Layout :=
  .mem data m.base.enc m.index.enc m.disp m.space.scope m.space.order type

def memDec (base index : BitVec 8) (disp : BitVec 16) (scope : BitVec 3) (order : BitVec 2) :
    Except Reject MemOp := do
  return ⟨Src.dec base, Src.dec index, disp, ← Space.dec order scope⟩

def vmemDec (base index : BitVec 8) (disp : BitVec 16) (scope : BitVec 3) (order : BitVec 2) :
    Except Reject VMemOp := do
  return ⟨Src.dec base, VSrc.dec index, disp, ← Space.dec order scope⟩

/-- The modifier of SEL and PUSHB: negate bit and predicate. -/
def predModifier (neg : Bool) (p : Pred) : BitVec 16 := BitVec.ofNat 16 (flagNat neg * 64 + p.toNat)

/-- The modifier of AMO and RED (R353). -/
def amoModifier (ty : AmoTy) (scope : Scope) (order : Nat) : BitVec 16 :=
  BitVec.ofNat 16 (ty.code * 4096 + scope.code * 512 + order * 128)

/-- The modifier of LOCK and UNLOCK (R368). -/
def lockModifier (mode : Nat) (domain : BitVec 2) (level : LockLevel) : BitVec 16 :=
  BitVec.ofNat 16 (level.code * 32 + domain.toNat * 8 + mode)

/-- The modifier of OCLAIM and ORELEASE (R316). -/
def slotModifier (first : BitVec 6) (count : BitVec 7) : BitVec 16 :=
  BitVec.ofNat 16 (count.toNat * 64 + first.toNat)

/-- The VEC modifier (R157): format code, rounding mode and the axis bits. -/
def vecModifier (f : Fmt) (r : Rnd) (axis : Nat) : BitVec 9 :=
  BitVec.ofNat 9 (f.code * 32 + r.code * 8 + axis)

/-- The axis bits of R294: M, UNS, SAT. -/
def axisBits (mask : Option VSrc) (uns sat : Bool) : Nat :=
  flagNat mask.isSome * 4 + flagNat uns * 2 + flagNat sat

/-- Minor of an AMO operation and its D field. -/
def AmoOp.fields : AmoOp → Nat × BitVec 8
  | .add => (0, 0) | .and => (1, 0) | .or => (2, 0) | .xor => (3, 0) | .min => (4, 0) | .max => (5, 0)
  | .minn => (6, 0) | .maxn => (7, 0) | .swp => (8, 0) | .cas new => (9, new.enc) | .fadd => (10, 0)

def AmoOp.dec (minor : Nat) (d : BitVec 8) : Except Reject AmoOp :=
  match minor with
  | 0 => .ok .add | 1 => .ok .and | 2 => .ok .or | 3 => .ok .xor | 4 => .ok .min | 5 => .ok .max
  | 6 => .ok .minn | 7 => .ok .maxn | 8 => .ok .swp | 9 => .ok (.cas (Src.dec d)) | 10 => .ok .fadd
  | _ => .error .minor

/-! ### The opcode map (R169 to R175) -/

/-- Major and fields of each syllable.  A step of the device has no encoding; it gets the fields of NOP and
is not well formed. -/
def Instr.layout : Instr → Nat × Layout
  | .nop => (0x00, .rrr 0 0 0 0 0)
  | .add d a b => (0x01, .rrr d.enc a.enc b.enc 0 0)
  | .sub d a b => (0x01, .rrr d.enc a.enc b.enc 1 0)
  | .and d a b => (0x01, .rrr d.enc a.enc b.enc 2 0)
  | .or d a b => (0x01, .rrr d.enc a.enc b.enc 3 0)
  | .xor d a b => (0x01, .rrr d.enc a.enc b.enc 4 0)
  | .andn d a b => (0x01, .rrr d.enc a.enc b.enc 5 0)
  | .shl d a b => (0x01, .rrr d.enc a.enc b.enc 6 0)
  | .shr d a b => (0x01, .rrr d.enc a.enc b.enc 7 0)
  | .sar d a b => (0x01, .rrr d.enc a.enc b.enc 8 0)
  | .rol d a b => (0x01, .rrr d.enc a.enc b.enc 9 0)
  | .min d a b => (0x01, .rrr d.enc a.enc b.enc 10 0)
  | .minn d a b => (0x01, .rrr d.enc a.enc b.enc 11 0)
  | .max d a b => (0x01, .rrr d.enc a.enc b.enc 12 0)
  | .maxn d a b => (0x01, .rrr d.enc a.enc b.enc 13 0)
  | .mul d a b => (0x02, .rrr d.enc a.enc b.enc 0 0)
  | .mulh d a b => (0x02, .rrr d.enc a.enc b.enc 1 0)
  | .mulhn d a b => (0x02, .rrr d.enc a.enc b.enc 2 0)
  | .div d a b => (0x02, .rrr d.enc a.enc b.enc 3 0)
  | .divn d a b => (0x02, .rrr d.enc a.enc b.enc 4 0)
  | .rem d a b => (0x02, .rrr d.enc a.enc b.enc 5 0)
  | .remn d a b => (0x02, .rrr d.enc a.enc b.enc 6 0)
  | .mov d a => (0x03, .rrr d.enc a.enc 0 0 0)
  | .abs d a => (0x03, .rrr d.enc a.enc 0 1 0)
  | .clz d a => (0x03, .rrr d.enc a.enc 0 2 0)
  | .ctz d a => (0x03, .rrr d.enc a.enc 0 3 0)
  | .popc d a => (0x03, .rrr d.enc a.enc 0 4 0)
  | .sel d a b neg p => (0x04, .rrr d.enc a.enc b.enc 0 (predModifier neg p))
  | .lea d a b s => (0x05, .rrr d.enc a.enc b.enc 0 (BitVec.ofNat 16 s.toNat))
  | .cmp cc pd a b => (0x06, .rrr (numField pd) a.enc b.enc (BitVec.ofNat 9 cc.code) 0)
  | .cmpi cc pd a imm => (0x07, .rri (numField pd) a.enc imm (BitVec.ofNat 9 cc.code))
  | .addi d a imm => (0x08, .rri d.enc a.enc imm 0)
  | .andi d a imm => (0x08, .rri d.enc a.enc imm 1)
  | .ori d a imm => (0x08, .rri d.enc a.enc imm 2)
  | .xori d a imm => (0x08, .rri d.enc a.enc imm 3)
  | .shli d a n => (0x08, .rri d.enc a.enc (BitVec.ofNat 24 n.toNat) 4)
  | .shri d a n => (0x08, .rri d.enc a.enc (BitVec.ofNat 24 n.toNat) 5)
  | .sari d a n => (0x08, .rri d.enc a.enc (BitVec.ofNat 24 n.toNat) 6)
  | .li d imm => (0x08, .rri d.enc 0 imm 7)
  | .lih d a imm => (0x08, .rri d.enc a.enc imm 8)
  | .pand pd pa pb => (0x10, .rrr (numField pd) (numField pa) (numField pb) 0 0)
  | .por pd pa pb => (0x10, .rrr (numField pd) (numField pa) (numField pb) 1 0)
  | .pxor pd pa pb => (0x10, .rrr (numField pd) (numField pa) (numField pb) 2 0)
  | .pandn pd pa pb => (0x10, .rrr (numField pd) (numField pa) (numField pb) 3 0)
  | .pnot pd pa => (0x10, .rrr (numField pd) (numField pa) 0 4 0)
  | .pmov pd pa => (0x10, .rrr (numField pd) (numField pa) 0 5 0)
  | .br disp => (0x20, .br 0 disp 0)
  | .bri a => (0x21, .rrr 0 a.enc 0 0 0)
  | .call d disp => (0x22, .br d.enc disp 0)
  | .ret a => (0x23, .rrr 0 a.enc 0 0 0)
  | .loop c disp s => (0x24, .br (BitVec.ofNat 8 (64 + c.toNat)) disp (BitVec.ofNat 9 s.toNat))
  | .split disp => (0x25, .br 0 disp 0)
  | .join disp => (0x26, .br 0 disp 0)
  | .brq sense disp => (0x27, .br 0 disp (BitVec.ofNat 9 (flagNat sense)))
  | .pushb neg p => (0x28, .rrr 0 0 0 0 (predModifier neg p))
  | .csrr d n => (0x29, .sys d.enc 0 n 0)
  | .csrw n a => (0x29, .sys 0 a.enc n 1)
  | .csrx d n a => (0x29, .sys d.enc a.enc n 2)
  | .halt => (0x2A, .sys 0 0 0 0)
  | .waiti => (0x2A, .sys 0 0 0 256)
  | .fencei => (0x2A, .sys 0 0 0 512)
  | .trap c => (0x2A, .sys 0 0 0 (BitVec.ofNat 17 (3 * 256 + c.toNat)))
  | .eret => (0x2A, .sys 0 0 0 1024)
  | .commit => (0x2A, .sys 0 0 0 1280)
  | .yield => (0x2A, .sys 0 0 0 1536)
  | .rplrel => (0x2A, .sys 0 0 0 1792)
  | .phase c => (0x2A, .sys 0 0 0 (BitVec.ofNat 17 (8 * 256 + c.toNat)))
  | .segb id => (0x2B, .sys 0 0 0 (BitVec.ofNat 17 id.toNat))
  | .sege id a => (0x2B, .sys 0 a.enc 0 (BitVec.ofNat 17 (65536 + id.toNat)))
  | .ld ty d m => (0x30, m.layout d.enc (BitVec.ofNat 4 ty.code))
  | .st ty s m => (0x31, m.layout s.enc (BitVec.ofNat 4 ty.code))
  | .vldr f d m => (0x32, m.layout d.enc (BitVec.ofNat 4 f.code))
  | .vstr f s m => (0x33, m.layout s.enc (BitVec.ofNat 4 f.code))
  | .vldc f d m => (0x34, m.layout d.enc (BitVec.ofNat 4 f.code))
  | .vstc f s m => (0x35, m.layout s.enc (BitVec.ofNat 4 f.code))
  | .vgth f d m => (0x36, m.layout d.enc (BitVec.ofNat 4 f.code))
  | .vsct f s m => (0x37, m.layout s.enc (BitVec.ofNat 4 f.code))
  | .mark => (0x38, .rrr 0 0 0 0 0)
  | .fence s => (0x38, .rrr 0 0 0 1 (BitVec.ofNat 16 s.code))
  | .amo op ty s o a b => (0x39, .rrr op.fields.2 a.enc b.enc (BitVec.ofNat 9 op.fields.1) (amoModifier ty s o.code))
  | .red op ty s rel a b => (0x3A, .rrr 0 a.enc b.enc (BitVec.ofNat 9 op.code) (amoModifier ty s (flagNat rel * 2)))
  | .lock mode dom lvl a => (0x3B, .rrr 0 a.enc 0 0 (lockModifier mode.code dom lvl))
  | .unlock dom lvl a => (0x3B, .rrr 0 a.enc 0 1 (lockModifier 0 dom lvl))
  | .bsig s a b => (0x3C, .rrr 0 a.enc b.enc 0 (BitVec.ofNat 16 s.code))
  | .bwait s a b => (0x3C, .rrr 0 a.enc b.enc 1 (BitVec.ofNat 16 s.code))
  | .rset r a => (0x3D, .rrr 0 a.enc 0 0 (BitVec.ofNat 16 r.toNat))
  | .rclaim r d => (0x3D, .rrr d.enc 0 0 1 (BitVec.ofNat 16 r.toNat))
  | .rpub r a => (0x3D, .rrr 0 a.enc 0 2 (BitVec.ofNat 16 r.toNat))
  | .rtake r d => (0x3D, .rrr d.enc 0 0 3 (BitVec.ofNat 16 r.toNat))
  | .rfree r a => (0x3D, .rrr 0 a.enc 0 4 (BitVec.ofNat 16 r.toNat))
  | .rwaitf r a => (0x3D, .rrr 0 a.enc 0 5 (BitVec.ofNat 16 r.toNat))
  | .rwaite r a => (0x3D, .rrr 0 a.enc 0 6 (BitVec.ofNat 16 r.toNat))
  | .rstat r d a => (0x3D, .rrr d.enc a.enc 0 7 (BitVec.ofNat 16 r.toNat))
  | .evsig e a b => (0x3E, .rrr 0 a.enc b.enc 0 (BitVec.ofNat 16 e.toNat))
  | .evwait e a => (0x3E, .rrr 0 a.enc 0 1 (BitVec.ofNat 16 e.toNat))
  | .evstat e d => (0x3E, .rrr d.enc 0 0 2 (BitVec.ofNat 16 e.toNat))
  | .enq q a => (0x3F, .rrr 0 a.enc 0 0 (BitVec.ofNat 16 q.toNat))
  | .chlink q a => (0x3F, .rrr 0 a.enc 0 1 (BitVec.ofNat 16 q.toNat))
  | .chkick q a => (0x3F, .rrr 0 a.enc 0 2 (BitVec.ofNat 16 q.toNat))
  | .engstat q d => (0x3F, .rrr d.enc 0 0 3 (BitVec.ofNat 16 q.toNat))
  | .sheaf a => (0x3F, .rrr 0 a.enc 0 4 0)
  | .vadd f r d a b mask => (0x50, .vec d.enc a.enc b.enc (maskEnc mask) 0 (vecModifier f r (axisBits mask false false)))
  | .vsub f r d a b mask => (0x50, .vec d.enc a.enc b.enc (maskEnc mask) 1 (vecModifier f r (axisBits mask false false)))
  | .vmul f r d a b mask => (0x50, .vec d.enc a.enc b.enc (maskEnc mask) 2 (vecModifier f r (axisBits mask false false)))
  | .vmin f d a b mask => (0x50, .vec d.enc a.enc b.enc (maskEnc mask) 3 (vecModifier f .rne (axisBits mask false false)))
  | .vmax f d a b mask => (0x50, .vec d.enc a.enc b.enc (maskEnc mask) 4 (vecModifier f .rne (axisBits mask false false)))
  | .vfma f r d a b c => (0x51, .vec d.enc a.enc b.enc c.enc 0 (vecModifier f r 0))
  | .vfms f r d a b c => (0x51, .vec d.enc a.enc b.enc c.enc 1 (vecModifier f r 0))
  | .vabs f d a mask => (0x52, .vec d.enc a.enc 0 (maskEnc mask) 0 (vecModifier f .rne (axisBits mask false false)))
  | .vneg f d a mask => (0x52, .vec d.enc a.enc 0 (maskEnc mask) 1 (vecModifier f .rne (axisBits mask false false)))
  | .vrcp f r d a mask => (0x52, .vec d.enc a.enc 0 (maskEnc mask) 2 (vecModifier f r (axisBits mask false false)))
  | .vrsq f r d a mask => (0x52, .vec d.enc a.enc 0 (maskEnc mask) 3 (vecModifier f r (axisBits mask false false)))
  | .vsqrt f r d a mask => (0x52, .vec d.enc a.enc 0 (maskEnc mask) 4 (vecModifier f r (axisBits mask false false)))
  | .vexp2 f r d a mask => (0x52, .vec d.enc a.enc 0 (maskEnc mask) 5 (vecModifier f r (axisBits mask false false)))
  | .vlog2 f r d a mask => (0x52, .vec d.enc a.enc 0 (maskEnc mask) 6 (vecModifier f r (axisBits mask false false)))
  | .vtanh f r d a mask => (0x52, .vec d.enc a.enc 0 (maskEnc mask) 7 (vecModifier f r (axisBits mask false false)))
  | .viadd f u s d a b mask => (0x53, .vec d.enc a.enc b.enc (maskEnc mask) 0 (vecModifier f .rne (axisBits mask u s)))
  | .visub f u s d a b mask => (0x53, .vec d.enc a.enc b.enc (maskEnc mask) 1 (vecModifier f .rne (axisBits mask u s)))
  | .vimul f u s d a b mask => (0x53, .vec d.enc a.enc b.enc (maskEnc mask) 2 (vecModifier f .rne (axisBits mask u s)))
  | .vimulh f u d a b mask => (0x53, .vec d.enc a.enc b.enc (maskEnc mask) 3 (vecModifier f .rne (axisBits mask u false)))
  | .vand f d a b mask => (0x53, .vec d.enc a.enc b.enc (maskEnc mask) 4 (vecModifier f .rne (axisBits mask false false)))
  | .vor f d a b mask => (0x53, .vec d.enc a.enc b.enc (maskEnc mask) 5 (vecModifier f .rne (axisBits mask false false)))
  | .vxor f d a b mask => (0x53, .vec d.enc a.enc b.enc (maskEnc mask) 6 (vecModifier f .rne (axisBits mask false false)))
  | .vshl f d a b mask => (0x53, .vec d.enc a.enc b.enc (maskEnc mask) 7 (vecModifier f .rne (axisBits mask false false)))
  | .vshr f d a b mask => (0x53, .vec d.enc a.enc b.enc (maskEnc mask) 8 (vecModifier f .rne (axisBits mask false false)))
  | .vsar f d a b mask => (0x53, .vec d.enc a.enc b.enc (maskEnc mask) 9 (vecModifier f .rne (axisBits mask false false)))
  | .vimin f u d a b mask => (0x53, .vec d.enc a.enc b.enc (maskEnc mask) 10 (vecModifier f .rne (axisBits mask u false)))
  | .vimax f u d a b mask => (0x53, .vec d.enc a.enc b.enc (maskEnc mask) 11 (vecModifier f .rne (axisBits mask u false)))
  | .vcmp cc f d a b mask => (0x54, .vec d.enc a.enc b.enc (maskEnc mask) (BitVec.ofNat 8 cc.code) (vecModifier f .rne (axisBits mask false false)))
  | .vsel f d a b c => (0x55, .vec d.enc a.enc b.enc c.enc 0 (vecModifier f .rne 0))
  | .vcvt fd fs r part d a => (0x56, .vec d.enc a.enc 0 (BitVec.ofNat 8 fs.code) 0 (vecModifier fd r part.toNat))
  | .vtobi fd fs r part d a => (0x56, .vec d.enc a.enc 0 (BitVec.ofNat 8 fs.code) 1 (vecModifier fd r part.toNat))
  | .vfrombi fd fs r part d a => (0x56, .vec d.enc a.enc 0 (BitVec.ofNat 8 fs.code) 2 (vecModifier fd r part.toNat))
  | .vrotr d a b => (0x57, .vec d.enc a.enc b.enc 0 0 0)
  | .vrotc d a b => (0x57, .vec d.enc a.enc b.enc 0 1 0)
  | .vbcr d a b => (0x57, .vec d.enc a.enc b.enc 0 2 0)
  | .vbcc d a b => (0x57, .vec d.enc a.enc b.enc 0 3 0)
  | .vscanr f r d a mask => (0x57, .vec d.enc a.enc 0 (maskEnc mask) 4 (vecModifier f r (axisBits mask false false)))
  | .vredr op f r u d a mask => (0x58, .vec d.enc a.enc 0 (maskEnc mask) (BitVec.ofNat 8 op.code) (vecModifier f r (axisBits mask u false)))
  | .vredc op f r u d a mask => (0x58, .vec d.enc a.enc 0 (maskEnc mask) (BitVec.ofNat 8 (16 + op.code)) (vecModifier f r (axisBits mask u false)))
  | .vperm d a bw => (0x59, .vec d.enc a.enc (numField bw) 0 0 0)
  | .pset bw a => (0x59, .vec (numField bw) a.enc 0 0 1 0)
  | .vtopkr f d a b mask => (0x5A, .vec d.enc a.enc b.enc (maskEnc mask) 0 (vecModifier f .rne (axisBits mask false false)))
  | .vbuck f u d a b c => (0x5A, .vec d.enc a.enc b.enc c.enc 1 (vecModifier f .rne (axisBits none u false)))
  | .vmov d a => (0x5B, .vec d.enc a.enc 0 0 0 0)
  | .vget f d a b => (0x5B, .vec d.enc a.enc b.enc 0 1 (vecModifier f .rne 0))
  | .vput f d a b c => (0x5B, .vec d.enc a.enc b.enc c.enc 2 (vecModifier f .rne 0))
  | .vli f d imm => (0x5C, .rri d.enc 0 imm (BitVec.ofNat 9 f.code))
  | .oclaim first count => (0x70, .rrr 0 0 0 0 (slotModifier first count))
  | .orelease first count => (0x70, .rrr 0 0 0 1 (slotModifier first count))
  | .mstr a b => (0x71, .rrr 0 a.enc b.enc 0 0)
  | .mwait n => (0x71, .rrr 0 0 0 1 (BitVec.ofNat 16 n.toNat))
  | .mcfg d a => (0x71, .rrr d.enc a.enc 0 2 0)
  | .mstat d => (0x71, .rrr d.enc 0 0 3 0)
  | .rwaitEnd _ => (0x00, .rrr 0 0 0 0 0)
  | .evwaitEnd _ => (0x00, .rrr 0 0 0 0 0)
  | .bwaitEnd _ => (0x00, .rrr 0 0 0 0 0)
  | .mwaitEnd _ => (0x00, .rrr 0 0 0 0 0)
  | .waitiEnd _ => (0x00, .rrr 0 0 0 0 0)
  | .wedge _ => (0x00, .rrr 0 0 0 0 0)
  | .enqAppend _ => (0x00, .rrr 0 0 0 0 0)
  | .commandStart _ _ => (0x00, .rrr 0 0 0 0 0)
  | .copy _ _ _ => (0x00, .rrr 0 0 0 0 0)
  | .fill _ _ _ => (0x00, .rrr 0 0 0 0 0)
  | .convert _ _ _ => (0x00, .rrr 0 0 0 0 0)
  | .gather _ _ _ => (0x00, .rrr 0 0 0 0 0)
  | .scatter _ _ _ => (0x00, .rrr 0 0 0 0 0)
  | .encode _ _ _ => (0x00, .rrr 0 0 0 0 0)
  | .a2a _ _ => (0x00, .rrr 0 0 0 0 0)
  | .a2aDelivery _ => (0x00, .rrr 0 0 0 0 0)
  | .commandRetire _ _ => (0x00, .rrr 0 0 0 0 0)
  | .chainFetch _ _ => (0x00, .rrr 0 0 0 0 0)
  | .streamAppend _ => (0x00, .rrr 0 0 0 0 0)
  | .streamStart _ => (0x00, .rrr 0 0 0 0 0)
  | .recordFetch _ => (0x00, .rrr 0 0 0 0 0)
  | .mma _ => (0x00, .rrr 0 0 0 0 0)
  | .mmaz _ => (0x00, .rrr 0 0 0 0 0)
  | .maddz _ => (0x00, .rrr 0 0 0 0 0)
  | .mscl _ => (0x00, .rrr 0 0 0 0 0)
  | .mconv _ => (0x00, .rrr 0 0 0 0 0)
  | .streamComplete _ => (0x00, .rrr 0 0 0 0 0)
  | .sequencerTrap _ => (0x00, .rrr 0 0 0 0 0)
  | .accessPerform _ _ _ _ => (0x00, .rrr 0 0 0 0 0)
  | .redEntryPerform _ => (0x00, .rrr 0 0 0 0 0)
  | .lineWriteback _ => (0x00, .rrr 0 0 0 0 0)
  | .storeFaultReport _ => (0x00, .rrr 0 0 0 0 0)
  | .bankRetention _ _ => (0x00, .rrr 0 0 0 0 0)
  | .bsigArrival _ => (0x00, .rrr 0 0 0 0 0)
  | .evsigArrival _ => (0x00, .rrr 0 0 0 0 0)
  | .lockRequest _ => (0x00, .rrr 0 0 0 0 0)
  | .lockRelease _ => (0x00, .rrr 0 0 0 0 0)
  | .wound _ _ => (0x00, .rrr 0 0 0 0 0)
  | .trapEntry _ => (0x00, .rrr 0 0 0 0 0)
  | .tctlRequeue _ _ => (0x00, .rrr 0 0 0 0 0)
  | .tctlFatal _ _ => (0x00, .rrr 0 0 0 0 0)
  | .codesetWrite _ _ => (0x00, .rrr 0 0 0 0 0)
  | .lkmtxWrite _ _ _ => (0x00, .rrr 0 0 0 0 0)
  | .commitWindowExpiry _ => (0x00, .rrr 0 0 0 0 0)
  | .plotRetire _ => (0x00, .rrr 0 0 0 0 0)
  | .pairCompare _ _ => (0x00, .rrr 0 0 0 0 0)
  | .claim _ => (0x00, .rrr 0 0 0 0 0)
  | .leaseRenew _ _ => (0x00, .rrr 0 0 0 0 0)
  | .ownershipLapse => (0x00, .rrr 0 0 0 0 0)
  | .handover _ => (0x00, .rrr 0 0 0 0 0)
  | .queueEnable _ _ _ => (0x00, .rrr 0 0 0 0 0)
  | .queueDisable _ _ _ => (0x00, .rrr 0 0 0 0 0)
  | .abort _ _ => (0x00, .rrr 0 0 0 0 0)
  | .poke _ _ => (0x00, .rrr 0 0 0 0 0)
  | .qtail _ _ _ => (0x00, .rrr 0 0 0 0 0)
  | .sqEnable _ _ => (0x00, .rrr 0 0 0 0 0)
  | .sqDisable _ _ => (0x00, .rrr 0 0 0 0 0)
  | .sqtail _ _ => (0x00, .rrr 0 0 0 0 0)
  | .launchCheck _ => (0x00, .rrr 0 0 0 0 0)
  | .waitdepRecheck => (0x00, .rrr 0 0 0 0 0)
  | .dispatch => (0x00, .rrr 0 0 0 0 0)
  | .costSort _ _ => (0x00, .rrr 0 0 0 0 0)
  | .launchComplete _ => (0x00, .rrr 0 0 0 0 0)
  | .steal _ _ => (0x00, .rrr 0 0 0 0 0)
  | .coreHandout _ => (0x00, .rrr 0 0 0 0 0)
  | .plotStart _ => (0x00, .rrr 0 0 0 0 0)
  | .walkerPreempt _ _ => (0x00, .rrr 0 0 0 0 0)
  | .persistentSwap _ => (0x00, .rrr 0 0 0 0 0)
  | .teamResume _ => (0x00, .rrr 0 0 0 0 0)
  | .election _ => (0x00, .rrr 0 0 0 0 0)
  | .gleaner _ => (0x00, .rrr 0 0 0 0 0)
  | .chipletFatal _ _ _ => (0x00, .rrr 0 0 0 0 0)
  | .deviceFatal _ => (0x00, .rrr 0 0 0 0 0)
  | .sheafSubmit _ => (0x00, .rrr 0 0 0 0 0)
  | .sheafTake => (0x00, .rrr 0 0 0 0 0)
  | .sheafSplit _ => (0x00, .rrr 0 0 0 0 0)
  | .returnArrival _ _ _ => (0x00, .rrr 0 0 0 0 0)
  | .sheafTimeout _ => (0x00, .rrr 0 0 0 0 0)
  | .invalidationStart _ _ => (0x00, .rrr 0 0 0 0 0)
  | .invalidationDelivery => (0x00, .rrr 0 0 0 0 0)
  | .invalidationDrain => (0x00, .rrr 0 0 0 0 0)
  | .warm _ => (0x00, .rrr 0 0 0 0 0)
  | .fencectlFence _ _ => (0x00, .rrr 0 0 0 0 0)
  | .unfence _ _ => (0x00, .rrr 0 0 0 0 0)
  | .unfenceComplete _ _ => (0x00, .rrr 0 0 0 0 0)
  | .bankClear _ _ => (0x00, .rrr 0 0 0 0 0)
  | .injectionArm _ _ => (0x00, .rrr 0 0 0 0 0)
  | .sensorForce _ _ => (0x00, .rrr 0 0 0 0 0)
  | .registerWrite _ _ _ => (0x00, .rrr 0 0 0 0 0)
  | .hostWrite _ _ _ => (0x00, .rrr 0 0 0 0 0)
  | .hostRead _ _ _ _ => (0x00, .rrr 0 0 0 0 0)
  | .migrationRequest _ => (0x00, .rrr 0 0 0 0 0)
  | .migrationRetry _ => (0x00, .rrr 0 0 0 0 0)
  | .migrationTimeout _ => (0x00, .rrr 0 0 0 0 0)
  | .migration _ => (0x00, .rrr 0 0 0 0 0)
  | .lease _ _ _ => (0x00, .rrr 0 0 0 0 0)
  | .leaseLapse => (0x00, .rrr 0 0 0 0 0)
  | .railChange _ => (0x00, .rrr 0 0 0 0 0)
  | .optTableLearn _ _ _ => (0x00, .rrr 0 0 0 0 0)
  | .thermalThrottle _ => (0x00, .rrr 0 0 0 0 0)
  | .thermalTrip _ => (0x00, .rrr 0 0 0 0 0)
  | .hbmRefresh _ => (0x00, .rrr 0 0 0 0 0)
  | .hbmTrip _ => (0x00, .rrr 0 0 0 0 0)
  | .portRetrain _ _ => (0x00, .rrr 0 0 0 0 0)
  | .coldReset => (0x00, .rrr 0 0 0 0 0)
  | .perst _ _ => (0x00, .rrr 0 0 0 0 0)
  | .bringUp _ => (0x00, .rrr 0 0 0 0 0)
  | .telemetry => (0x00, .rrr 0 0 0 0 0)
  | .errbank _ => (0x00, .rrr 0 0 0 0 0)
  | .events _ => (0x00, .rrr 0 0 0 0 0)
  | .fwupdate _ => (0x00, .rrr 0 0 0 0 0)
  | .reset => (0x00, .rrr 0 0 0 0 0)
  | .getVersion => (0x00, .rrr 0 0 0 0 0)
  | .getCapabilities => (0x00, .rrr 0 0 0 0 0)
  | .negotiateAlgorithms => (0x00, .rrr 0 0 0 0 0)
  | .getDigests => (0x00, .rrr 0 0 0 0 0)
  | .getCertificate => (0x00, .rrr 0 0 0 0 0)
  | .challenge _ => (0x00, .rrr 0 0 0 0 0)
  | .getMeasurements => (0x00, .rrr 0 0 0 0 0)
  | .sensorBelow85 _ => (0x00, .rrr 0 0 0 0 0)
  | .linkUp _ => (0x00, .rrr 0 0 0 0 0)
  | .rowNeighbourLinkDown _ => (0x00, .rrr 0 0 0 0 0)
  | .fabricWindowArrival _ => (0x00, .rrr 0 0 0 0 0)
  | .podTaskArrival _ => (0x00, .rrr 0 0 0 0 0)

/-- The minors of major 0x01. -/
def parse01 (d a b : BitVec 8) (minor : Nat) : Except Reject Instr :=
  match minor with
  | 0 => do return .add (← Dst.dec d) (Src.dec a) (Src.dec b)
  | 1 => do return .sub (← Dst.dec d) (Src.dec a) (Src.dec b)
  | 2 => do return .and (← Dst.dec d) (Src.dec a) (Src.dec b)
  | 3 => do return .or (← Dst.dec d) (Src.dec a) (Src.dec b)
  | 4 => do return .xor (← Dst.dec d) (Src.dec a) (Src.dec b)
  | 5 => do return .andn (← Dst.dec d) (Src.dec a) (Src.dec b)
  | 6 => do return .shl (← Dst.dec d) (Src.dec a) (Src.dec b)
  | 7 => do return .shr (← Dst.dec d) (Src.dec a) (Src.dec b)
  | 8 => do return .sar (← Dst.dec d) (Src.dec a) (Src.dec b)
  | 9 => do return .rol (← Dst.dec d) (Src.dec a) (Src.dec b)
  | 10 => do return .min (← Dst.dec d) (Src.dec a) (Src.dec b)
  | 11 => do return .minn (← Dst.dec d) (Src.dec a) (Src.dec b)
  | 12 => do return .max (← Dst.dec d) (Src.dec a) (Src.dec b)
  | 13 => do return .maxn (← Dst.dec d) (Src.dec a) (Src.dec b)
  | _ => .error .minor

/-- The minors of major 0x02. -/
def parse02 (d a b : BitVec 8) (minor : Nat) : Except Reject Instr :=
  match minor with
  | 0 => do return .mul (← Dst.dec d) (Src.dec a) (Src.dec b)
  | 1 => do return .mulh (← Dst.dec d) (Src.dec a) (Src.dec b)
  | 2 => do return .mulhn (← Dst.dec d) (Src.dec a) (Src.dec b)
  | 3 => do return .div (← Dst.dec d) (Src.dec a) (Src.dec b)
  | 4 => do return .divn (← Dst.dec d) (Src.dec a) (Src.dec b)
  | 5 => do return .rem (← Dst.dec d) (Src.dec a) (Src.dec b)
  | 6 => do return .remn (← Dst.dec d) (Src.dec a) (Src.dec b)
  | _ => .error .minor

/-- The minors of major 0x03. -/
def parse03 (d a : BitVec 8) (minor : Nat) : Except Reject Instr :=
  match minor with
  | 0 => do return .mov (← Dst.dec d) (Src.dec a)
  | 1 => do return .abs (← Dst.dec d) (Src.dec a)
  | 2 => do return .clz (← Dst.dec d) (Src.dec a)
  | 3 => do return .ctz (← Dst.dec d) (Src.dec a)
  | 4 => do return .popc (← Dst.dec d) (Src.dec a)
  | _ => .error .minor

/-- The minors of major 0x04. -/
def parse04 (d a b : BitVec 8) (m : BitVec 16) (minor : Nat) : Except Reject Instr :=
  match minor with
  | 0 => do return .sel (← Dst.dec d) (Src.dec a) (Src.dec b) (slice m 6 1 == 1) (slice m 0 6)
  | _ => .error .minor

/-- The minors of major 0x05. -/
def parse05 (d a b : BitVec 8) (m : BitVec 16) (minor : Nat) : Except Reject Instr :=
  match minor with
  | 0 => do return .lea (← Dst.dec d) (Src.dec a) (Src.dec b) (slice m 0 2)
  | _ => .error .minor

/-- The minors of major 0x08. -/
def parse08 (d a : BitVec 8) (imm : BitVec 24) (minor : Nat) : Except Reject Instr :=
  match minor with
  | 0 => do return .addi (← Dst.dec d) (Src.dec a) imm
  | 1 => do return .andi (← Dst.dec d) (Src.dec a) imm
  | 2 => do return .ori (← Dst.dec d) (Src.dec a) imm
  | 3 => do return .xori (← Dst.dec d) (Src.dec a) imm
  | 4 => do return .shli (← Dst.dec d) (Src.dec a) (slice imm 0 6)
  | 5 => do return .shri (← Dst.dec d) (Src.dec a) (slice imm 0 6)
  | 6 => do return .sari (← Dst.dec d) (Src.dec a) (slice imm 0 6)
  | 7 => do return .li (← Dst.dec d) imm
  | 8 => do return .lih (← Dst.dec d) (Src.dec a) imm
  | _ => .error .minor

/-- The minors of major 0x10. -/
def parse10 (d a b : BitVec 8) (minor : Nat) : Except Reject Instr :=
  match minor with
  | 0 => do return .pand (slice d 0 6) (slice a 0 6) (slice b 0 6)
  | 1 => do return .por (slice d 0 6) (slice a 0 6) (slice b 0 6)
  | 2 => do return .pxor (slice d 0 6) (slice a 0 6) (slice b 0 6)
  | 3 => do return .pandn (slice d 0 6) (slice a 0 6) (slice b 0 6)
  | 4 => do return .pnot (slice d 0 6) (slice a 0 6)
  | 5 => do return .pmov (slice d 0 6) (slice a 0 6)
  | _ => .error .minor

/-- The minors of major 0x2A. -/
def parse2A (n : BitVec 17) (minor : Nat) : Except Reject Instr :=
  match minor with
  | 0 => do return .halt
  | 1 => do return .waiti
  | 2 => do return .fencei
  | 3 => do return .trap (slice n 0 8)
  | 4 => do return .eret
  | 5 => do return .commit
  | 6 => do return .yield
  | 7 => do return .rplrel
  | 8 => do return .phase (slice n 0 8)
  | _ => .error .minor

/-- The minors of major 0x38. -/
def parse38 (m : BitVec 16) (minor : Nat) : Except Reject Instr :=
  match minor with
  | 0 => do return .mark
  | 1 => do return .fence (← Scope.ofCode (slice m 0 3).toNat)
  | _ => .error .minor

/-- The minors of major 0x3B. -/
def parse3B (a : BitVec 8) (m : BitVec 16) (minor : Nat) : Except Reject Instr :=
  match minor with
  | 0 => do return .lock (← LockMode.ofCode (slice m 0 3).toNat) (slice m 3 2) (← LockLevel.ofCode (slice m 5 2).toNat) (Src.dec a)
  | 1 => do return .unlock (slice m 3 2) (← LockLevel.ofCode (slice m 5 2).toNat) (Src.dec a)
  | _ => .error .minor

/-- The minors of major 0x3C. -/
def parse3C (a b : BitVec 8) (m : BitVec 16) (minor : Nat) : Except Reject Instr :=
  match minor with
  | 0 => do return .bsig (← Scope.ofCode (slice m 0 3).toNat) (Src.dec a) (Src.dec b)
  | 1 => do return .bwait (← Scope.ofCode (slice m 0 3).toNat) (Src.dec a) (Src.dec b)
  | _ => .error .minor

/-- The minors of major 0x3D. -/
def parse3D (d a : BitVec 8) (m : BitVec 16) (minor : Nat) : Except Reject Instr :=
  match minor with
  | 0 => do return .rset (slice m 0 4) (Src.dec a)
  | 1 => do return .rclaim (slice m 0 4) (← Dst.dec d)
  | 2 => do return .rpub (slice m 0 4) (Src.dec a)
  | 3 => do return .rtake (slice m 0 4) (← Dst.dec d)
  | 4 => do return .rfree (slice m 0 4) (Src.dec a)
  | 5 => do return .rwaitf (slice m 0 4) (Src.dec a)
  | 6 => do return .rwaite (slice m 0 4) (Src.dec a)
  | 7 => do return .rstat (slice m 0 4) (← Dst.dec d) (Src.dec a)
  | _ => .error .minor

/-- The minors of major 0x3E. -/
def parse3E (d a b : BitVec 8) (m : BitVec 16) (minor : Nat) : Except Reject Instr :=
  match minor with
  | 0 => do return .evsig (slice m 0 5) (Src.dec a) (Src.dec b)
  | 1 => do return .evwait (slice m 0 5) (Src.dec a)
  | 2 => do return .evstat (slice m 0 5) (← Dst.dec d)
  | _ => .error .minor

/-- The minors of major 0x3F. -/
def parse3F (d a : BitVec 8) (m : BitVec 16) (minor : Nat) : Except Reject Instr :=
  match minor with
  | 0 => do return .enq (slice m 0 2) (Src.dec a)
  | 1 => do return .chlink (slice m 0 2) (Src.dec a)
  | 2 => do return .chkick (slice m 0 2) (Src.dec a)
  | 3 => do return .engstat (slice m 0 2) (← Dst.dec d)
  | 4 => do return .sheaf (Src.dec a)
  | _ => .error .minor

/-- The minors of major 0x50. -/
def parse50 (f : Fmt) (r : Rnd) (mask : Option VSrc) (d a b : BitVec 8) (minor : Nat) : Except Reject Instr :=
  match minor with
  | 0 => do return .vadd f r (← VDst.dec d) (VSrc.dec a) (VSrc.dec b) mask
  | 1 => do return .vsub f r (← VDst.dec d) (VSrc.dec a) (VSrc.dec b) mask
  | 2 => do return .vmul f r (← VDst.dec d) (VSrc.dec a) (VSrc.dec b) mask
  | 3 => do return .vmin f (← VDst.dec d) (VSrc.dec a) (VSrc.dec b) mask
  | 4 => do return .vmax f (← VDst.dec d) (VSrc.dec a) (VSrc.dec b) mask
  | _ => .error .minor

/-- The minors of major 0x51. -/
def parse51 (f : Fmt) (r : Rnd) (d a b c : BitVec 8) (minor : Nat) : Except Reject Instr :=
  match minor with
  | 0 => do return .vfma f r (← VDst.dec d) (VSrc.dec a) (VSrc.dec b) (VSrc.dec c)
  | 1 => do return .vfms f r (← VDst.dec d) (VSrc.dec a) (VSrc.dec b) (VSrc.dec c)
  | _ => .error .minor

/-- The minors of major 0x52. -/
def parse52 (f : Fmt) (r : Rnd) (mask : Option VSrc) (d a : BitVec 8) (minor : Nat) : Except Reject Instr :=
  match minor with
  | 0 => do return .vabs f (← VDst.dec d) (VSrc.dec a) mask
  | 1 => do return .vneg f (← VDst.dec d) (VSrc.dec a) mask
  | 2 => do return .vrcp f r (← VDst.dec d) (VSrc.dec a) mask
  | 3 => do return .vrsq f r (← VDst.dec d) (VSrc.dec a) mask
  | 4 => do return .vsqrt f r (← VDst.dec d) (VSrc.dec a) mask
  | 5 => do return .vexp2 f r (← VDst.dec d) (VSrc.dec a) mask
  | 6 => do return .vlog2 f r (← VDst.dec d) (VSrc.dec a) mask
  | 7 => do return .vtanh f r (← VDst.dec d) (VSrc.dec a) mask
  | _ => .error .minor

/-- The minors of major 0x53. -/
def parse53 (f : Fmt) (u s : Bool) (mask : Option VSrc) (d a b : BitVec 8) (minor : Nat) : Except Reject Instr :=
  match minor with
  | 0 => do return .viadd f u s (← VDst.dec d) (VSrc.dec a) (VSrc.dec b) mask
  | 1 => do return .visub f u s (← VDst.dec d) (VSrc.dec a) (VSrc.dec b) mask
  | 2 => do return .vimul f u s (← VDst.dec d) (VSrc.dec a) (VSrc.dec b) mask
  | 3 => do return .vimulh f u (← VDst.dec d) (VSrc.dec a) (VSrc.dec b) mask
  | 4 => do return .vand f (← VDst.dec d) (VSrc.dec a) (VSrc.dec b) mask
  | 5 => do return .vor f (← VDst.dec d) (VSrc.dec a) (VSrc.dec b) mask
  | 6 => do return .vxor f (← VDst.dec d) (VSrc.dec a) (VSrc.dec b) mask
  | 7 => do return .vshl f (← VDst.dec d) (VSrc.dec a) (VSrc.dec b) mask
  | 8 => do return .vshr f (← VDst.dec d) (VSrc.dec a) (VSrc.dec b) mask
  | 9 => do return .vsar f (← VDst.dec d) (VSrc.dec a) (VSrc.dec b) mask
  | 10 => do return .vimin f u (← VDst.dec d) (VSrc.dec a) (VSrc.dec b) mask
  | 11 => do return .vimax f u (← VDst.dec d) (VSrc.dec a) (VSrc.dec b) mask
  | _ => .error .minor

/-- The minors of major 0x56. -/
def parse56 (f : Fmt) (r : Rnd) (d a c : BitVec 8) (m : BitVec 9) (minor : Nat) : Except Reject Instr :=
  match minor with
  | 0 => do return .vcvt f (Fmt.ofCode (slice c 0 4).toNat) r (slice m 0 2) (← VDst.dec d) (VSrc.dec a)
  | 1 => do return .vtobi f (Fmt.ofCode (slice c 0 4).toNat) r (slice m 0 2) (← VDst.dec d) (VSrc.dec a)
  | 2 => do return .vfrombi f (Fmt.ofCode (slice c 0 4).toNat) r (slice m 0 2) (← VDst.dec d) (VSrc.dec a)
  | _ => .error .minor

/-- The minors of major 0x57. -/
def parse57 (f : Fmt) (r : Rnd) (mask : Option VSrc) (d a b : BitVec 8) (minor : Nat) : Except Reject Instr :=
  match minor with
  | 0 => do return .vrotr (← VDst.dec d) (VSrc.dec a) (Src.dec b)
  | 1 => do return .vrotc (← VDst.dec d) (VSrc.dec a) (Src.dec b)
  | 2 => do return .vbcr (← VDst.dec d) (VSrc.dec a) (Src.dec b)
  | 3 => do return .vbcc (← VDst.dec d) (VSrc.dec a) (Src.dec b)
  | 4 => do return .vscanr f r (← VDst.dec d) (VSrc.dec a) mask
  | _ => .error .minor

/-- The minors of major 0x59. -/
def parse59 (d a b : BitVec 8) (minor : Nat) : Except Reject Instr :=
  match minor with
  | 0 => do return .vperm (← VDst.dec d) (VSrc.dec a) (slice b 0 3)
  | 1 => do return .pset (slice d 0 3) (VSrc.dec a)
  | _ => .error .minor

/-- The minors of major 0x5A. -/
def parse5A (f : Fmt) (u : Bool) (mask : Option VSrc) (d a b c : BitVec 8) (minor : Nat) : Except Reject Instr :=
  match minor with
  | 0 => do return .vtopkr f (← VDst.dec d) (VSrc.dec a) (Src.dec b) mask
  | 1 => do return .vbuck f u (← VDst.dec d) (VSrc.dec a) (VSrc.dec b) (Src.dec c)
  | _ => .error .minor

/-- The minors of major 0x5B. -/
def parse5B (f : Fmt) (d a b c : BitVec 8) (minor : Nat) : Except Reject Instr :=
  match minor with
  | 0 => do return .vmov (← VDst.dec d) (VSrc.dec a)
  | 1 => do return .vget f (← Dst.dec d) (VSrc.dec a) (Src.dec b)
  | 2 => do return .vput f (← VDst.dec d) (VSrc.dec a) (Src.dec b) (Src.dec c)
  | _ => .error .minor

/-- The minors of major 0x70. -/
def parse70 (m : BitVec 16) (minor : Nat) : Except Reject Instr :=
  match minor with
  | 0 => do return .oclaim (slice m 0 6) (slice m 6 7)
  | 1 => do return .orelease (slice m 0 6) (slice m 6 7)
  | _ => .error .minor

/-- The minors of major 0x71. -/
def parse71 (d a b : BitVec 8) (m : BitVec 16) (minor : Nat) : Except Reject Instr :=
  match minor with
  | 0 => do return .mstr (Src.dec a) (Src.dec b)
  | 1 => do return .mwait (slice m 0 4)
  | 2 => do return .mcfg (← Dst.dec d) (Src.dec a)
  | 3 => do return .mstat (← Dst.dec d)
  | _ => .error .minor

/-- The syllables of RRR format. -/
def parseRrr (d a b : BitVec 8) (n : Nat) (m : BitVec 16) (major : Nat) : Except Reject Instr :=
  match major with
  | 0x00 => .ok .nop
  | 0x01 => parse01 d a b n
  | 0x02 => parse02 d a b n
  | 0x03 => parse03 d a n
  | 0x04 => parse04 d a b m n
  | 0x05 => parse05 d a b m n
  | 0x06 => do return .cmp (← Cc.ofCode n) (slice d 0 6) (Src.dec a) (Src.dec b)
  | 0x10 => parse10 d a b n
  | 0x21 => .ok (.bri (Src.dec a))
  | 0x23 => .ok (.ret (Src.dec a))
  | 0x28 => .ok (.pushb (slice m 6 1 == 1) (slice m 0 6))
  | 0x38 => parse38 m n
  | 0x39 => do
    return .amo (← AmoOp.dec n d) (← AmoTy.ofCode (slice m 12 4).toNat) (← Scope.ofCode (slice m 9 3).toNat)
      (AmoOrder.ofCode (slice m 7 2).toNat) (Src.dec a) (Src.dec b)
  | 0x3A => do
    return .red (← RedOp.ofCode n) (← AmoTy.ofCode (slice m 12 4).toNat) (← Scope.ofCode (slice m 9 3).toNat)
      (slice m 8 1 == 1) (Src.dec a) (Src.dec b)
  | 0x3B => parse3B a m n
  | 0x3C => parse3C a b m n
  | 0x3D => parse3D d a m n
  | 0x3E => parse3E d a b m n
  | 0x3F => parse3F d a m n
  | 0x70 => parse70 m n
  | 0x71 => parse71 d a b m n
  | _ => .error .major

/-- The syllables of RRI format. -/
def parseRri (d a : BitVec 8) (imm : BitVec 24) (n : Nat) (major : Nat) : Except Reject Instr :=
  match major with
  | 0x07 => do return .cmpi (← Cc.ofCode n) (slice d 0 6) (Src.dec a) imm
  | 0x08 => parse08 d a imm n
  | 0x5C => do return .vli (Fmt.ofCode (n % 16)) (← VDst.dec d) imm
  | _ => .error .major

/-- The syllables of MEM format. -/
def parseMem (data base index : BitVec 8) (disp : BitVec 16) (scope : BitVec 3) (order : BitVec 2)
    (t : Nat) (major : Nat) : Except Reject Instr :=
  match major with
  | 0x30 => do return .ld (← ScalarTy.ofCode t) (← Dst.dec data) (← memDec base index disp scope order)
  | 0x31 => do return .st (← ScalarTy.ofCode t) (Src.dec data) (← memDec base index disp scope order)
  | 0x32 => do return .vldr (Fmt.ofCode t) (← VDst.dec data) (← memDec base index disp scope order)
  | 0x33 => do return .vstr (Fmt.ofCode t) (VSrc.dec data) (← memDec base index disp scope order)
  | 0x34 => do return .vldc (Fmt.ofCode t) (← VDst.dec data) (← memDec base index disp scope order)
  | 0x35 => do return .vstc (Fmt.ofCode t) (VSrc.dec data) (← memDec base index disp scope order)
  | 0x36 => do return .vgth (Fmt.ofCode t) (← VDst.dec data) (← vmemDec base index disp scope order)
  | 0x37 => do return .vsct (Fmt.ofCode t) (VSrc.dec data) (← vmemDec base index disp scope order)
  | _ => .error .major

/-- The syllables of BR format. -/
def parseBr (link : BitVec 8) (disp : BitVec 32) (n : BitVec 9) (major : Nat) : Except Reject Instr :=
  match major with
  | 0x20 => .ok (.br disp)
  | 0x22 => do return .call (← Dst.dec link) disp
  | 0x24 => .ok (.loop (slice link 0 6) disp (slice n 0 4))
  | 0x25 => .ok (.split disp)
  | 0x26 => .ok (.join disp)
  | 0x27 => .ok (.brq (slice n 0 1 == 1) disp)
  | _ => .error .major

/-- The syllables of SYS format. -/
def parseSys (d a : BitVec 8) (csr : BitVec 16) (n : BitVec 17) (major : Nat) : Except Reject Instr :=
  match major with
  | 0x29 =>
    match n.toNat with
    | 0 => do return .csrr (← Dst.dec d) csr
    | 1 => .ok (.csrw csr (Src.dec a))
    | 2 => do return .csrx (← Dst.dec d) csr (Src.dec a)
    | _ => .error .minor
  | 0x2A => parse2A n (slice n 8 9).toNat
  | 0x2B => if slice n 16 1 = 1 then .ok (.sege (slice n 0 16) (Src.dec a)) else .ok (.segb (slice n 0 16))
  | _ => .error .major

/-- The syllables of VEC format; `f`, `r`, `u`, `s` and `mask` are the modifier's fields. -/
def parseVec (f : Fmt) (r : Rnd) (u s : Bool) (mask : Option VSrc) (d a b c : BitVec 8) (n : Nat)
    (m : BitVec 9) (major : Nat) : Except Reject Instr :=
  match major with
  | 0x50 => parse50 f r mask d a b n
  | 0x51 => parse51 f r d a b c n
  | 0x52 => parse52 f r mask d a n
  | 0x53 => parse53 f u s mask d a b n
  | 0x54 => do return .vcmp (← Cc.ofCode n) f (← VDst.dec d) (VSrc.dec a) (VSrc.dec b) mask
  | 0x55 => do return .vsel f (← VDst.dec d) (VSrc.dec a) (VSrc.dec b) (VSrc.dec c)
  | 0x56 => parse56 f r d a c m n
  | 0x57 => parse57 f r mask d a b n
  | 0x58 => do
    let op ← VRedOp.ofCode (n % 16)
    if n / 16 = 0 then return .vredr op f r u (← VDst.dec d) (VSrc.dec a) mask
    else return .vredc op f r u (← VDst.dec d) (VSrc.dec a) mask
  | 0x59 => parse59 d a b n
  | 0x5A => parse5A f u mask d a b c n
  | 0x5B => parse5B f d a b c n
  | _ => .error .major

/-- The instruction the fields of a syllable name, its must-be-zero bits not yet looked at. -/
def parseLayout (major : Nat) : Layout → Except Reject Instr
  | .rrr d a b n m => parseRrr d a b n.toNat m major
  | .rri d a imm n => parseRri d a imm n.toNat major
  | .mem data base index disp scope order t => parseMem data base index disp scope order t.toNat major
  | .br link disp n => parseBr link disp n major
  | .sys d a csr n => parseSys d a csr n major
  | .vec d a b c n m =>
      parseVec (Fmt.ofCode (slice m 5 4).toNat) (Rnd.ofCode (slice m 3 2).toNat) (slice m 1 1 == 1)
        (slice m 0 1 == 1) (maskDec (slice m 2 1) c) d a b c n.toNat m major

/-- The 64 bits of a syllable (R147). -/
def Syllable.encode (s : Syllable) : W64 :=
  BitVec.ofNat 64 (flagNat s.y * 2 ^ 63 + s.op.layout.1 * 2 ^ 56 + s.guard.toNat * 2 ^ 50
    + flagNat s.gneg * 2 ^ 49 + s.op.layout.2.bits)

/-- The fields of 64 bits (R147, R153). -/
def parseWord (w : W64) : Except Reject Syllable := do
  let major := (slice w 56 7).toNat
  let format ← Format.ofMajor major
  let op ← parseLayout major (format.read w)
  return ⟨slice w 63 1 == 1, slice w 50 6, slice w 49 1 == 1, op⟩

/-- R148, R176: decode a syllable.  Every must-be-zero bit is checked by encoding the result again. -/
def decodeWord (w : W64) : Except Reject Syllable := do
  let s ← parseWord w
  if s.wf && s.encode == w then return s else .error .field

/-- Eight bytes as a little-endian dword (R5). -/
def dwordOfBytes (bs : List Byte) : Nat :=
  bs.foldr (fun b acc => b.toNat + 256 * acc) 0

/-- The syllable that stands first in a list of bytes, and the bytes after it. -/
def decode (bs : List Byte) : Except Reject (Syllable × List Byte) :=
  if bs.length < 8 then .error .short
  else do
    let s ← decodeWord (BitVec.ofNat 64 (dwordOfBytes (bs.take 8)))
    return (s, bs.drop 8)

/-- The little-endian bytes of a dword (R5). -/
def bytesOfDword (w : W64) : List Byte :=
  (List.range 8).map fun i => BitVec.ofNat 8 (w.toNat / 2 ^ (8 * i))

/-- The instruction the decoder reads from the bits of an opcode-table row; the bits above `nbits` are
zero, and a syllable is 64 bits long. -/
def decodeTableWord (nbits w : Nat) : Option Instr :=
  match decode (bytesOfDword (BitVec.ofNat 64 (w % 2 ^ nbits))) with
  | .ok (s, _) => some s.op
  | .error _ => none

end Sys2Proof
end

