-- ==== Sys2Proof/Machine/Issue.lean ====
section
/-! DEFINITION. Fetch and issue: which cluster executes what (R161, R163, R164, R169), the decode checks that
need the context (R148, R151, R162), and how a bundle or a stream syllable issues (R159 to R168, R188, R394). -/

namespace Sys2Proof.Machine

/-! ### Which cluster executes a syllable (R169, R172) -/

/-- The clusters of a syllable; no cluster executes a step of the device. -/
def clustersOf : Instr → List Cluster
  | .nop | .pand .. | .por .. | .pxor .. | .pandn .. | .pnot .. | .pmov .. | .br .. | .bri ..
  | .loop .. | .split .. | .join .. => [.c, .a, .v, .m]
  | .add .. | .sub .. | .and .. | .or .. | .xor .. | .andn .. | .shl .. | .shr .. | .sar ..
  | .rol .. | .min .. | .minn .. | .max .. | .maxn .. | .mul .. | .mulh .. | .mulhn .. | .div ..
  | .divn .. | .rem .. | .remn .. | .mov .. | .abs .. | .clz .. | .ctz .. | .popc .. | .sel ..
  | .lea .. | .cmp .. | .cmpi .. | .addi .. | .andi .. | .ori .. | .xori .. | .shli .. | .shri ..
  | .sari .. | .li .. | .lih .. | .pushb .. => [.c, .a]
  | .call .. | .ret .. | .csrr .. | .csrw .. | .csrx .. | .halt | .waiti | .fencei | .trap ..
  | .eret | .commit | .yield | .rplrel | .phase .. => [.c]
  | .brq .. => [.c, .v, .m]
  | .segb .. | .sege .. | .oclaim .. | .orelease .. | .mstr .. | .mwait .. | .mcfg .. | .mstat .. => [.m]
  | .ld .. | .st .. | .vldr .. | .vstr .. | .vldc .. | .vstc .. | .vgth .. | .vsct .. | .mark
  | .fence .. | .amo .. | .red .. | .lock .. | .unlock .. | .bsig .. | .bwait .. | .rset ..
  | .rclaim .. | .rpub .. | .rtake .. | .rfree .. | .rwaitf .. | .rwaite .. | .rstat .. | .evsig ..
  | .evwait .. | .evstat .. | .enq .. | .chlink .. | .chkick .. | .engstat .. | .sheaf .. => [.a]
  | .vadd .. | .vsub .. | .vmul .. | .vmin .. | .vmax .. | .vfma .. | .vfms .. | .vabs ..
  | .vneg .. | .vrcp .. | .vrsq .. | .vsqrt .. | .vexp2 .. | .vlog2 .. | .vtanh .. | .viadd ..
  | .visub .. | .vimul .. | .vimulh .. | .vand .. | .vor .. | .vxor .. | .vshl .. | .vshr ..
  | .vsar .. | .vimin .. | .vimax .. | .vcmp .. | .vsel .. | .vcvt .. | .vtobi .. | .vfrombi ..
  | .vrotr .. | .vrotc .. | .vbcr .. | .vbcc .. | .vscanr .. | .vredr .. | .vredc .. | .vperm ..
  | .pset .. | .vtopkr .. | .vbuck .. | .vmov .. | .vget .. | .vput .. | .vli .. => [.v]
  | .rwaitEnd .. | .evwaitEnd .. | .bwaitEnd .. | .mwaitEnd .. | .waitiEnd .. | .wedge ..
  | .enqAppend .. | .commandStart .. | .copy .. | .fill .. | .convert .. | .gather .. | .scatter ..
  | .encode .. | .a2a .. | .a2aDelivery .. | .commandRetire .. | .chainFetch .. | .streamAppend ..
  | .streamStart .. | .recordFetch .. | .mma .. | .mmaz .. | .maddz .. | .mscl .. | .mconv ..
  | .streamComplete .. | .sequencerTrap .. | .accessPerform .. | .redEntryPerform ..
  | .lineWriteback .. | .storeFaultReport .. | .bankRetention .. | .bsigArrival ..
  | .evsigArrival .. | .lockRequest .. | .lockRelease .. | .wound .. | .trapEntry ..
  | .tctlRequeue .. | .tctlFatal .. | .codesetWrite .. | .lkmtxWrite .. | .commitWindowExpiry ..
  | .plotRetire .. | .pairCompare .. | .claim .. | .leaseRenew .. | .ownershipLapse | .handover ..
  | .queueEnable .. | .queueDisable .. | .abort .. | .poke .. | .qtail .. | .sqEnable ..
  | .sqDisable .. | .sqtail .. | .launchCheck .. | .waitdepRecheck | .dispatch | .costSort ..
  | .launchComplete .. | .steal .. | .coreHandout .. | .plotStart .. | .walkerPreempt ..
  | .persistentSwap .. | .teamResume .. | .election .. | .gleaner .. | .chipletFatal ..
  | .deviceFatal .. | .sheafSubmit .. | .sheafTake | .sheafSplit .. | .returnArrival ..
  | .sheafTimeout .. | .invalidationStart .. | .invalidationDelivery | .invalidationDrain
  | .warm .. | .fencectlFence .. | .unfence .. | .unfenceComplete .. | .bankClear ..
  | .injectionArm .. | .sensorForce .. | .registerWrite .. | .hostWrite .. | .hostRead ..
  | .migrationRequest .. | .migrationRetry .. | .migrationTimeout .. | .migration .. | .lease ..
  | .leaseLapse | .railChange .. | .optTableLearn .. | .thermalThrottle .. | .thermalTrip ..
  | .hbmRefresh .. | .hbmTrip .. | .portRetrain .. | .coldReset | .perst .. | .bringUp ..
  | .telemetry | .errbank .. | .events .. | .fwupdate .. | .reset | .getVersion | .getCapabilities
  | .negotiateAlgorithms | .getDigests | .getCertificate | .challenge .. | .getMeasurements
  | .sensorBelow85 .. | .linkUp .. | .rowNeighbourLinkDown .. | .fabricWindowArrival ..
  | .podTaskArrival .. => []

/-! ### Vector numbers of a syllable (R151) -/

def maskReg : Option VSrc → List Nat
  | some m => [m.reg.toNat]
  | none => []

/-- The vector registers a syllable names. -/
def vectorRegs : Instr → List Nat
  | .vldr _ d _ => [d.reg.toNat]
  | .vstr _ s _ => [s.reg.toNat]
  | .vldc _ d _ => [d.reg.toNat]
  | .vstc _ s _ => [s.reg.toNat]
  | .vgth _ d m => [d.reg.toNat, m.index.reg.toNat]
  | .vsct _ s m => [s.reg.toNat, m.index.reg.toNat]
  | .vadd _ _ d a b mask => [d.reg.toNat, a.reg.toNat, b.reg.toNat] ++ maskReg mask
  | .vsub _ _ d a b mask => [d.reg.toNat, a.reg.toNat, b.reg.toNat] ++ maskReg mask
  | .vmul _ _ d a b mask => [d.reg.toNat, a.reg.toNat, b.reg.toNat] ++ maskReg mask
  | .vmin _ d a b mask => [d.reg.toNat, a.reg.toNat, b.reg.toNat] ++ maskReg mask
  | .vmax _ d a b mask => [d.reg.toNat, a.reg.toNat, b.reg.toNat] ++ maskReg mask
  | .vfma _ _ d a b c => [d.reg.toNat, a.reg.toNat, b.reg.toNat, c.reg.toNat]
  | .vfms _ _ d a b c => [d.reg.toNat, a.reg.toNat, b.reg.toNat, c.reg.toNat]
  | .vabs _ d a mask => [d.reg.toNat, a.reg.toNat] ++ maskReg mask
  | .vneg _ d a mask => [d.reg.toNat, a.reg.toNat] ++ maskReg mask
  | .vrcp _ _ d a mask => [d.reg.toNat, a.reg.toNat] ++ maskReg mask
  | .vrsq _ _ d a mask => [d.reg.toNat, a.reg.toNat] ++ maskReg mask
  | .vsqrt _ _ d a mask => [d.reg.toNat, a.reg.toNat] ++ maskReg mask
  | .vexp2 _ _ d a mask => [d.reg.toNat, a.reg.toNat] ++ maskReg mask
  | .vlog2 _ _ d a mask => [d.reg.toNat, a.reg.toNat] ++ maskReg mask
  | .vtanh _ _ d a mask => [d.reg.toNat, a.reg.toNat] ++ maskReg mask
  | .viadd _ _ _ d a b mask => [d.reg.toNat, a.reg.toNat, b.reg.toNat] ++ maskReg mask
  | .visub _ _ _ d a b mask => [d.reg.toNat, a.reg.toNat, b.reg.toNat] ++ maskReg mask
  | .vimul _ _ _ d a b mask => [d.reg.toNat, a.reg.toNat, b.reg.toNat] ++ maskReg mask
  | .vimulh _ _ d a b mask => [d.reg.toNat, a.reg.toNat, b.reg.toNat] ++ maskReg mask
  | .vand _ d a b mask => [d.reg.toNat, a.reg.toNat, b.reg.toNat] ++ maskReg mask
  | .vor _ d a b mask => [d.reg.toNat, a.reg.toNat, b.reg.toNat] ++ maskReg mask
  | .vxor _ d a b mask => [d.reg.toNat, a.reg.toNat, b.reg.toNat] ++ maskReg mask
  | .vshl _ d a b mask => [d.reg.toNat, a.reg.toNat, b.reg.toNat] ++ maskReg mask
  | .vshr _ d a b mask => [d.reg.toNat, a.reg.toNat, b.reg.toNat] ++ maskReg mask
  | .vsar _ d a b mask => [d.reg.toNat, a.reg.toNat, b.reg.toNat] ++ maskReg mask
  | .vimin _ _ d a b mask => [d.reg.toNat, a.reg.toNat, b.reg.toNat] ++ maskReg mask
  | .vimax _ _ d a b mask => [d.reg.toNat, a.reg.toNat, b.reg.toNat] ++ maskReg mask
  | .vcmp _ _ d a b mask => [d.reg.toNat, a.reg.toNat, b.reg.toNat] ++ maskReg mask
  | .vsel _ d a b c => [d.reg.toNat, a.reg.toNat, b.reg.toNat, c.reg.toNat]
  | .vcvt _ _ _ _ d a => [d.reg.toNat, a.reg.toNat]
  | .vtobi _ _ _ _ d a => [d.reg.toNat, a.reg.toNat]
  | .vfrombi _ _ _ _ d a => [d.reg.toNat, a.reg.toNat]
  | .vrotr d a _ => [d.reg.toNat, a.reg.toNat]
  | .vrotc d a _ => [d.reg.toNat, a.reg.toNat]
  | .vbcr d a _ => [d.reg.toNat, a.reg.toNat]
  | .vbcc d a _ => [d.reg.toNat, a.reg.toNat]
  | .vscanr _ _ d a mask => [d.reg.toNat, a.reg.toNat] ++ maskReg mask
  | .vredr _ _ _ _ d a mask => [d.reg.toNat, a.reg.toNat] ++ maskReg mask
  | .vredc _ _ _ _ d a mask => [d.reg.toNat, a.reg.toNat] ++ maskReg mask
  | .vperm d a _ => [d.reg.toNat, a.reg.toNat]
  | .pset _ a => [a.reg.toNat]
  | .vtopkr _ d a _ mask => [d.reg.toNat, a.reg.toNat] ++ maskReg mask
  | .vbuck _ _ d a b _ => [d.reg.toNat, a.reg.toNat, b.reg.toNat]
  | .vmov d a => [d.reg.toNat, a.reg.toNat]
  | .vget _ _ a _ => [a.reg.toNat]
  | .vput _ d a _ _ => [d.reg.toNat, a.reg.toNat]
  | .vli _ d _ => [d.reg.toNat]
  | .nop | .add .. | .sub .. | .and .. | .or .. | .xor .. | .andn .. | .shl .. | .shr .. | .sar ..
  | .rol .. | .min .. | .minn .. | .max .. | .maxn .. | .mul .. | .mulh .. | .mulhn .. | .div ..
  | .divn .. | .rem .. | .remn .. | .mov .. | .abs .. | .clz .. | .ctz .. | .popc .. | .sel ..
  | .lea .. | .cmp .. | .cmpi .. | .addi .. | .andi .. | .ori .. | .xori .. | .shli .. | .shri ..
  | .sari .. | .li .. | .lih .. | .pand .. | .por .. | .pxor .. | .pandn .. | .pnot .. | .pmov ..
  | .br .. | .bri .. | .call .. | .ret .. | .loop .. | .split .. | .join .. | .brq .. | .pushb ..
  | .csrr .. | .csrw .. | .csrx .. | .halt | .waiti | .fencei | .trap .. | .eret | .commit | .yield
  | .rplrel | .phase .. | .segb .. | .sege .. | .ld .. | .st .. | .mark | .fence .. | .amo ..
  | .red .. | .lock .. | .unlock .. | .bsig .. | .bwait .. | .rset .. | .rclaim .. | .rpub ..
  | .rtake .. | .rfree .. | .rwaitf .. | .rwaite .. | .rstat .. | .evsig .. | .evwait ..
  | .evstat .. | .enq .. | .chlink .. | .chkick .. | .engstat .. | .sheaf .. | .oclaim ..
  | .orelease .. | .mstr .. | .mwait .. | .mcfg .. | .mstat .. | .rwaitEnd .. | .evwaitEnd ..
  | .bwaitEnd .. | .mwaitEnd .. | .waitiEnd .. | .wedge .. | .enqAppend .. | .commandStart ..
  | .copy .. | .fill .. | .convert .. | .gather .. | .scatter .. | .encode .. | .a2a ..
  | .a2aDelivery .. | .commandRetire .. | .chainFetch .. | .streamAppend .. | .streamStart ..
  | .recordFetch .. | .mma .. | .mmaz .. | .maddz .. | .mscl .. | .mconv .. | .streamComplete ..
  | .sequencerTrap .. | .accessPerform .. | .redEntryPerform .. | .lineWriteback ..
  | .storeFaultReport .. | .bankRetention .. | .bsigArrival .. | .evsigArrival .. | .lockRequest ..
  | .lockRelease .. | .wound .. | .trapEntry .. | .tctlRequeue .. | .tctlFatal ..
  | .codesetWrite .. | .lkmtxWrite .. | .commitWindowExpiry .. | .plotRetire .. | .pairCompare ..
  | .claim .. | .leaseRenew .. | .ownershipLapse | .handover .. | .queueEnable ..
  | .queueDisable .. | .abort .. | .poke .. | .qtail .. | .sqEnable .. | .sqDisable .. | .sqtail ..
  | .launchCheck .. | .waitdepRecheck | .dispatch | .costSort .. | .launchComplete .. | .steal ..
  | .coreHandout .. | .plotStart .. | .walkerPreempt .. | .persistentSwap .. | .teamResume ..
  | .election .. | .gleaner .. | .chipletFatal .. | .deviceFatal .. | .sheafSubmit .. | .sheafTake
  | .sheafSplit .. | .returnArrival .. | .sheafTimeout .. | .invalidationStart ..
  | .invalidationDelivery | .invalidationDrain | .warm .. | .fencectlFence .. | .unfence ..
  | .unfenceComplete .. | .bankClear .. | .injectionArm .. | .sensorForce .. | .registerWrite ..
  | .hostWrite .. | .hostRead .. | .migrationRequest .. | .migrationRetry .. | .migrationTimeout ..
  | .migration .. | .lease .. | .leaseLapse | .railChange .. | .optTableLearn ..
  | .thermalThrottle .. | .thermalTrip .. | .hbmRefresh .. | .hbmTrip .. | .portRetrain ..
  | .coldReset | .perst .. | .bringUp .. | .telemetry | .errbank .. | .events .. | .fwupdate ..
  | .reset | .getVersion | .getCapabilities | .negotiateAlgorithms | .getDigests | .getCertificate
  | .challenge .. | .getMeasurements | .sensorBelow85 .. | .linkUp .. | .rowNeighbourLinkDown ..
  | .fabricWindowArrival .. | .podTaskArrival .. => []

/-! ### The register a syllable writes (R190) -/

/-- The queue register a syllable names as its destination, with the mode of the write: scalar registers by number,
vn as 64 + n.  lq has no producer. -/
def writtenReg : Instr → Option (Nat × DstMode)
  | .add d _ _ | .sub d _ _ | .and d _ _ | .or d _ _ | .xor d _ _ | .andn d _ _ | .shl d _ _ | .shr d _ _
  | .sar d _ _ | .rol d _ _ | .min d _ _ | .minn d _ _ | .max d _ _ | .maxn d _ _ | .mul d _ _ | .mulh d _ _
  | .mulhn d _ _ | .div d _ _ | .divn d _ _ | .rem d _ _ | .remn d _ _ | .mov d _ | .abs d _ | .clz d _
  | .ctz d _ | .popc d _ | .sel d _ _ _ _ | .lea d _ _ _ | .addi d _ _ | .andi d _ _ | .ori d _ _ | .xori d _ _
  | .shli d _ _ | .shri d _ _ | .sari d _ _ | .li d _ | .lih d _ _ | .call d _ | .csrr d _ | .csrx d _ _
  | .ld _ d _ | .rclaim _ d | .rtake _ d | .rstat _ d _ | .evstat _ d | .engstat _ d | .vget _ d _ _ | .mcfg d _
  | .mstat d => some (d.reg.toNat, d.mode)
  | .vldr _ d _ | .vldc _ d _ | .vgth _ d _ | .vadd _ _ d _ _ _ | .vsub _ _ d _ _ _ | .vmul _ _ d _ _ _
  | .vmin _ d _ _ _ | .vmax _ d _ _ _ | .vfma _ _ d _ _ _ | .vfms _ _ d _ _ _ | .vabs _ d _ _ | .vneg _ d _ _
  | .vrcp _ _ d _ _ | .vrsq _ _ d _ _ | .vsqrt _ _ d _ _ | .vexp2 _ _ d _ _ | .vlog2 _ _ d _ _
  | .vtanh _ _ d _ _ | .viadd _ _ _ d _ _ _ | .visub _ _ _ d _ _ _ | .vimul _ _ _ d _ _ _ | .vimulh _ _ d _ _ _
  | .vand _ d _ _ _ | .vor _ d _ _ _ | .vxor _ d _ _ _ | .vshl _ d _ _ _ | .vshr _ d _ _ _ | .vsar _ d _ _ _
  | .vimin _ _ d _ _ _ | .vimax _ _ d _ _ _ | .vcmp _ _ d _ _ _ | .vsel _ d _ _ _ | .vcvt _ _ _ _ d _
  | .vtobi _ _ _ _ d _ | .vfrombi _ _ _ _ d _ | .vrotr d _ _ | .vrotc d _ _ | .vbcr d _ _ | .vbcc d _ _
  | .vscanr _ _ d _ _ | .vredr _ _ _ _ d _ _ | .vredc _ _ _ _ d _ _ | .vperm d _ _ | .vtopkr _ d _ _ _
  | .vbuck _ _ d _ _ _ | .vmov d _ | .vput _ d _ _ _ | .vli _ d _ => some (64 + d.reg.toNat, d.mode)
  | .pushb .. => some (61, .push)
  | .nop | .cmp .. | .cmpi .. | .pand .. | .por .. | .pxor .. | .pandn .. | .pnot .. | .pmov .. | .br ..
  | .bri .. | .ret .. | .loop .. | .split .. | .join .. | .brq .. | .csrw .. | .halt | .waiti | .fencei
  | .trap .. | .eret | .commit | .yield | .rplrel | .phase .. | .segb .. | .sege .. | .st .. | .vstr ..
  | .vstc .. | .vsct .. | .mark | .fence .. | .amo .. | .red .. | .lock .. | .unlock .. | .bsig .. | .bwait ..
  | .rset .. | .rpub .. | .rfree .. | .rwaitf .. | .rwaite .. | .evsig .. | .evwait .. | .enq .. | .chlink ..
  | .chkick .. | .sheaf .. | .pset .. | .oclaim .. | .orelease .. | .mstr .. | .mwait .. | .rwaitEnd ..
  | .evwaitEnd .. | .bwaitEnd .. | .mwaitEnd .. | .waitiEnd .. | .wedge .. | .enqAppend .. | .commandStart ..
  | .copy .. | .fill .. | .convert .. | .gather .. | .scatter .. | .encode .. | .a2a .. | .a2aDelivery ..
  | .commandRetire .. | .chainFetch .. | .streamAppend .. | .streamStart .. | .recordFetch .. | .mma ..
  | .mmaz .. | .maddz .. | .mscl .. | .mconv .. | .streamComplete .. | .sequencerTrap .. | .accessPerform ..
  | .redEntryPerform .. | .lineWriteback .. | .storeFaultReport .. | .bankRetention .. | .bsigArrival ..
  | .evsigArrival .. | .lockRequest .. | .lockRelease .. | .wound .. | .trapEntry .. | .tctlRequeue ..
  | .tctlFatal .. | .codesetWrite .. | .lkmtxWrite .. | .commitWindowExpiry .. | .plotRetire ..
  | .pairCompare .. | .migrationRequest .. | .migrationRetry .. | .migrationTimeout .. | .migration ..
  | .claim .. | .leaseRenew .. | .ownershipLapse | .handover .. | .queueEnable .. | .queueDisable .. | .abort ..
  | .poke .. | .qtail .. | .sqEnable .. | .sqDisable .. | .sqtail .. | .launchCheck .. | .waitdepRecheck
  | .dispatch | .costSort .. | .launchComplete .. | .steal .. | .coreHandout .. | .plotStart ..
  | .walkerPreempt .. | .persistentSwap .. | .teamResume .. | .election .. | .gleaner .. | .chipletFatal ..
  | .deviceFatal .. | .sheafSubmit .. | .sheafTake | .sheafSplit .. | .returnArrival .. | .sheafTimeout ..
  | .invalidationStart .. | .invalidationDelivery | .invalidationDrain | .warm .. | .fencectlFence ..
  | .unfence .. | .unfenceComplete .. | .bankClear .. | .injectionArm .. | .sensorForce .. | .registerWrite ..
  | .hostWrite .. | .hostRead .. | .lease .. | .leaseLapse | .railChange .. | .optTableLearn ..
  | .thermalThrottle .. | .thermalTrip .. | .hbmRefresh .. | .hbmTrip .. | .portRetrain .. | .coldReset
  | .perst .. | .bringUp .. | .telemetry | .errbank .. | .events .. | .fwupdate .. | .reset | .getVersion
  | .getCapabilities | .negotiateAlgorithms | .getDigests | .getCertificate | .challenge .. | .getMeasurements
  | .sensorBelow85 .. | .linkUp .. | .rowNeighbourLinkDown .. | .fabricWindowArrival .. | .podTaskArrival .. => none

/-! ### Where a syllable may stand (R161, R163, R164) -/

/-- Control transfers that stand in slot 0 only (R161). -/
def isTransfer : Instr → Bool
  | .br _ | .bri _ | .call _ _ | .ret _ | .loop _ _ _ | .brq _ _ => true
  | _ => false

def isSplit : Instr → Bool
  | .split _ => true
  | _ => false

def isNop : Instr → Bool
  | .nop => true
  | _ => false

/-- Slot 0 syllables that issue after the bundle's other slots have completed: CSR syllables (R160, R208). -/
def isLate : Instr → Bool
  | .csrr _ _ | .csrw _ _ | .csrx _ _ _ => true
  | _ => false

/-- TRAP. -/
def isTrap : Instr → Bool
  | .trap _ => true
  | _ => false

/-- Slot 0 syllables that make their bundle sync (R160, R161). -/
def makesSync : Instr → Bool
  | .commit | .halt => true
  | i => isTransfer i || isLate i || isSplit i

/-- The decode checks of a slot of a lockstep bundle that need its place (R147, R151, R161). -/
def slotOk (vregs slot : Nat) (split : Bool) (s : Syllable) : Bool :=
  (match slot with
    | 0 => (clustersOf s.op).contains .c
    | 1 => (clustersOf s.op).contains .a
    | 2 => (clustersOf s.op).contains .v
    | _ => (clustersOf s.op).contains .m)
    && (slot == 0 || !s.y)
    && (slot == 0 || !isTransfer s.op)
    && (slot == 0 || !isSplit s.op || split)
    && (match s.op with | .join _ => false | _ => true)
    && (vectorRegs s.op).all (fun r => r < vregs)

/-- The decode checks of a stream syllable (R147, R151, R164, R206). -/
def streamOk (vregs : Nat) (cl : Cluster) (s : Syllable) : Bool :=
  (clustersOf s.op).contains cl && !s.y && !isSplit s.op
    && (match s.op with | .halt => false | _ => true)
    && (vectorRegs s.op).all (fun r => r < vregs)

/-- A slot as fetched: its word, and its syllable where it decodes. -/
structure Slot where
  word : W64
  syl : Option Syllable
  deriving DecidableEq, Repr

def slotOf (w : W64) : Slot :=
  ⟨w, match decodeWord w with | .ok s => some s | .error _ => none⟩

/-- R163: a split bundle has Y = 0 and nothing but SPLIT and NOP. -/
def splitBundleOk (slots : List Slot) : Bool :=
  (match slots with | x :: _ => !(x.syl.map Syllable.y).getD true | [] => false)
    && slots.all fun x => match x.syl with
      | some s => isSplit s.op || isNop s.op
      | none => false

/-- Whether slot 0 holds SPLIT. -/
def isSplitBundle (slots : List Slot) : Bool :=
  match slots with
  | x :: _ => (match x.syl with | some s => isSplit s.op | none => false)
  | [] => false

/-- The slots that raise ILLEGAL, in order (R147, R161, R163): slot 0 of a bundle that would be a split bundle and is
not well formed does. -/
def badSlots (vregs : Nat) (slots : List Slot) : List Nat :=
  let split := isSplitBundle slots
  let bad := slots.zipIdx.filter fun (x, i) =>
    (i == 0 && split && !splitBundleOk slots) ||
    match x.syl with
    | some s => !slotOk vregs i split s
    | none => true
  bad.map Prod.snd

/-- The lowest slot that raises ILLEGAL (R162). -/
def badSlot (vregs : Nat) (slots : List Slot) : Option Nat := (badSlots vregs slots).head?

/-- The cluster of a slot. -/
def clusterOfSlot : Nat → Cluster
  | 0 => .c | 1 => .a | 2 => .v | _ => .m

/-! ### Fetch (R167, R168) -/

/-- The physical address of a fetch, or its cause. -/
def State.fetchAt (s : State) (p k : Nat) (va : W64) : Xlated × State :=
  if va.toNat ≥ 2 ^ 56 || isWindow va.toNat || isFabric va.toNat then (.bad causeXLATE, s)
  else s.translate p k true (s.team p).asid.toNat va.toNat accExec (!(s.ctx p k).sup)

/-- A syllable of the code a context sees. -/
def codeWord (c : Ctx) (pa : Nat) : W64 := BitVec.ofNat 64 (leNat (Mem.read c.code pa 8))

def fetchSlots (c : Ctx) (pa : Nat) : List Slot :=
  (List.range 4).map fun i => slotOf (codeWord c (pa + 8 * i))

/-- DBGPC names an address (R398). -/
def Ctx.debugs (c : Ctx) (va : W64) : Bool :=
  c.dbgpc.getLsbD 0 && va.toNat / 8 == c.dbgpc.toNat / 8

/-! ### Issue -/

/-- What runs an instruction: `exec`. -/
abbrev Run := Instr → State → Host.Outcome State Fault Refusal

/-- The issue record of a slot; its cluster issues from this context (R24). -/
def State.beginSlot (s : State) (p k : Nat) (cl : Cluster) (pc word : W64) (alone : Bool) : State :=
  { s.modTeam p fun t => { t with served := tput t.served (Cluster.index cl) k } with
    issue := { s.issue with
      core := p, ctx := k, cluster := cl, pc := pc, word := word, alone := alone, popped := [] } }

/-- Every step ends with no syllable at issue. -/
def State.endIssue (s : State) : State := { s with issue := Issue.idle }

/-- Run a syllable whose guard may be false (R148). -/
def runGuarded (run : Run) (syl : Syllable) (s : State) : Host.Outcome State Fault Refusal :=
  if (s.pred syl.guard.toNat) != syl.gneg then run syl.op s else concludeSyllable (pure ()) s

/-- Clear the issue record of an outcome. -/
def finishIssue : Host.Outcome State Fault Refusal → Host.Outcome State Fault Refusal
  | .next s => .next s.endIssue
  | .fault f => .fault f
  | .refused r => .refused r

/-- A syllable that issues alone: a stream syllable, a slot of a loose bundle, or a late slot 0. -/
def issueAlone (run : Run) (s : State) (p k : Nat) (cl : Cluster) (pc : W64) (x : Slot) :
    Host.Outcome State Fault Refusal :=
  match x.syl with
  | none => .next s
  | some syl => finishIssue (runGuarded run syl (s.beginSlot p k cl pc x.word true))

/-- Run the slots of a bundle in order, each on the state its predecessors' reads left (R186). -/
def runSlots (run : Run) (p k : Nat) (pc : W64) :
    List (Cluster × Slot) → State → Host.Outcome State Fault Refusal
  | [], s => .next s
  | (cl, x) :: rest, s =>
      match x.syl with
      | none => .next s
      | some syl =>
          match runGuarded run syl
              (s.beginSlot p k cl (pc + BitVec.ofNat 64 (8 * Cluster.index cl)) x.word false) with
          | .next s' => runSlots run p k pc rest s'
          | o => o

/-- The stall marks a blocked bundle leaves (R188), on the state before it: those of the slots that lack an entry or
room as they run, and of those whose writes have no room. -/
def markStalls (cls : List Cluster) (blocked : List (Cluster × Option (Bool × Nat))) (stops : List (Cluster × Stop))
    (c : Ctx) : Ctx :=
  cls.foldl (fun c cl =>
    let c := Ctx.setCluster c cl (Ctx.cluster c cl).resume
    match blocked.find? (fun e => e.1 == cl), stops.find? (fun e => e.1 == cl) with
    | some (_, some (room, r)), _ => c.stallMark cl room r
    | none, some (_, .stall room r) => c.stallMark cl room r
    | _, _ => c) c

/-- Clusters whose slot of a split bundle is NOP rest (R163). -/
def restNops (c : Ctx) (cls : List (Cluster × Slot)) : Ctx :=
  cls.foldl (fun c x =>
    match x.2.syl with
    | some syl => if isNop syl.op then
        Ctx.setCluster c x.1 { Ctx.cluster c x.1 with status := .resting } else c
    | none => c) c

/-- What waits for an entry or for room. -/
def Stop.isStall : Stop → Bool
  | .stall _ _ => true
  | _ => false

/-- The cause that a write which cannot settle raises. -/
def Stop.causeAt (cl : Cluster) : Stop → Option CauseRec
  | .trap cause v => some ⟨cause, v, cl, false⟩
  | _ => none

/-- The cause of the lower-numbered slot (R394); a precise one comes before a deferred one (R395). -/
def lowerCause : Option CauseRec → Option CauseRec → Option CauseRec
  | some x, some y =>
      if x.async != y.async then some (if x.async then y else x)
      else some (if Cluster.index y.cluster < Cluster.index x.cluster then y else x)
  | none, y => y
  | x, none => x

/-- Slots of a bundle that issue together: they wait for one another, then take the lowest slot's trap, or settle
(R160, R186, R190, R192, R394). -/
def issueTogether (run : Run) (s : State) (p k : Nat) (pc : W64) (cls : List (Cluster × Slot))
    (split rendezvous : Bool) : Host.Outcome State Fault Refusal :=
  match runSlots run p k pc cls s.endIssue with
  | .fault f => .fault f
  | .refused r => .refused r
  | .next s1 =>
      let s1 := if rendezvous then s1.modCtx p k Ctx.unbind else s1
      let stops := (settleEach s1 s1.issue.writes).2
      if !s1.issue.blocked.isEmpty || stops.any (fun e => e.2.isStall) then
        .next (s.modCtx p k (markStalls (cls.map Prod.fst) s1.issue.blocked stops)).endIssue
      else
        match lowerCause s1.issue.raised (stops.findSome? fun e => e.2.causeAt e.1) with
        | some r =>
            .next ((if r.async && s1.issue.spent then
                s.modCtx p k fun c => { c with storeFaults := c.storeFaults.drop 1 }
              else if s1.issue.segClosed && r.cause == causeSEGMISMATCH then
                s.modCtx p k fun c => { c with segOpen := false }
              else s).raise p k r).endIssue
        | none =>
            match s1.settle (cls.map Prod.fst) with
            | .ok s2 =>
                .next ((if split then s2.modCtx p k fun c => restNops c cls else s2).endIssue)
            | .error (cl, x) =>
                finishIssue ((s.beginSlot p k cl pc 0 true).stopped cl x)

/-! ### The discipline of R160 -/

/-- Whether a cluster has issued a wait instruction, or a submission, that has not ended. -/
def ClusterState.isWaiting (x : ClusterState) : Bool :=
  match x.status with
  | .waiting _ _ => true
  | _ => false

/-- How far a cluster has come in a straight-line run: 32 past the address of the first bundle of which it has still to
issue its slot.  It has issued the slot that it waits in; a slot whose bundle's transfer has been taken comes before
the target. -/
def ClusterState.front (x : ClusterState) : Nat :=
  match x.next with
  | some t => t.toNat + if x.isWaiting then 32 else 0
  | none => x.pc.toNat + if x.isWaiting then 64 else 32

/-- The front of the cluster furthest behind (R160). -/
def Ctx.minFront (c : Ctx) : Nat := min (min c.c.front c.a.front) (min c.v.front c.m.front)

/-- A cluster that may issue: it runs, or it is stalled and tries again. -/
def ClusterState.ready (x : ClusterState) : Bool :=
  match x.status with
  | .running | .stalled .. => true
  | _ => false

/-- A cluster has still to issue its slot of the bundle at which another one stands, and stands there too. -/
def Ctx.atBundle (c : Ctx) (cl x : Cluster) : Bool :=
  let y := Ctx.cluster c x
  !y.isWaiting && y.pc == (Ctx.cluster c cl).pc && y.front == (Ctx.cluster c cl).front

/-- Of the slots that keep a bundle from issuing, the lowest that has still to issue, and whether its cluster stands at
the bundle: where it does not, the trap is not yet precise (R162, R167). -/
def Ctx.blamed (c : Ctx) (cl : Cluster) (slots : List Nat) : Option (Nat × Bool) :=
  (slots.find? fun i => (Ctx.cluster c (clusterOfSlot i)).front ≤ (Ctx.cluster c cl).front).map
    fun i => (i, c.atBundle cl (clusterOfSlot i))

/-- Nothing of a context is in execution: its queues are empty, its entries have values, and no cluster is in a wait that
it has issued (R208). -/
def Ctx.quiet (c : Ctx) : Bool :=
  !c.reserved && c.replay.isEmpty && Cluster.all.all fun cl => !(Ctx.cluster c cl).isWaiting

/-- The issue of the syllable that a HALT or an ERET of a bundle waits to complete (R214, R402). -/
def Ctx.finishing (c : Ctx) : Option Instr :=
  match c.waitOf .c with
  | some .halt => some .halt
  | some .eret => some .eret
  | _ => none

/-- A CSR write that the hub has still to apply: no later syllable issues (R208). -/
def Ctx.csrWaits (c : Ctx) : Bool :=
  match c.waitOf .c with
  | some (.csr ..) => true
  | _ => false

/-- Complete a HALT or an ERET that has issued, once it may. -/
def finishLate (run : Run) (p k : Nat) : Host.Outcome State Fault Refusal → Host.Outcome State Fault Refusal
  | .next s =>
      match (s.ctx p k).finishing with
      | some i => finishIssue (run i (s.beginSlot p k .c (s.ctx p k).c.pc 0 true))
      | none => .next s
  | o => o

/-! ### Asynchronous causes (R332, R350, R372, R395) -/

/-- The asynchronous cause that is due at the issue boundary of one of some clusters, or while it waits, is stalled or
rests: WOUND before others, then in order of arrival.  None is taken while a handler runs. -/
def Ctx.dueAmong (c : Ctx) (cls : List Cluster) : Option CauseRec :=
  if c.saved.isSome then none
  else
    let mine := c.pending.filter (fun r => cls.contains r.cluster)
    match mine.find? (fun r => r.cause == causeWOUND) with
    | some r => some r
    | none => mine.head?

/-- The asynchronous cause due at a cluster's issue boundary. -/
def Ctx.dueCause (c : Ctx) (cl : Cluster) : Option CauseRec := c.dueAmong [cl]

/-- A context that had no trap in progress has taken one, or its work has ended with it. -/
def State.tookTrap (s : State) (p k : Nat) : Bool :=
  !(s.core p).resident || (s.ctx p k).trapDue.isSome || (s.ctx p k).saved.isSome

/-- A cause of the issuing syllable comes before an asynchronous one that is due at its boundary; without one, the
syllable does not issue (R395). -/
def ownTrapFirst (s : State) (p k : Nat) (due : Option CauseRec) (o : Host.Outcome State Fault Refusal) :
    Host.Outcome State Fault Refusal :=
  match due, o with
  | some r, .next t => if t.tookTrap p k then .next t else .next ((s.modCtx p k fun c => c.dropCause r).raise p k r)
  | _, o => o

/-! ### Issuing a bundle -/

/-- Where a syllable that issues from a slot would write an entry of its own: a push, or a replace of none (R190). -/
def State.pushOf (s : State) (p k : Nat) (cl : Cluster) (x : Slot) : Option Nat :=
  match x.syl with
  | none => none
  | some y =>
      if (s.beginSlot p k cl 0 0 true).pred y.guard.toNat == y.gneg then none
      else match writtenReg y.op with
      | some (r, mode) =>
          let empty := if r < 64 then ((s.ctx p k).squeue r).entries.isEmpty else ((s.ctx p k).vqueue (r - 64)).entries.isEmpty
          if r != 63 && (mode == .push || empty) then some r else none
      | none => none

/-- Two slots of a loose bundle that would push one register (R190): the higher of them, with the register, once both
clusters stand at the bundle; `none` for the register while one is still behind. -/
def State.pushClash (s : State) (p k : Nat) (cl : Cluster) (slots : List Slot) : Option (Cluster × Option Nat) :=
  let c := s.ctx p k
  let left := (Cluster.all.zip slots).filter fun e => (Ctx.cluster c e.1).front ≤ (Ctx.cluster c cl).front
  left.findSome? fun x => left.findSome? fun y =>
    if Cluster.index y.1 ≤ Cluster.index x.1 then none
    else
      match (x.2.syl.bind fun i => writtenReg i.op), (y.2.syl.bind fun i => writtenReg i.op) with
      | some a, some b =>
          if a.1 != b.1 || a.1 == 63 then none
          else if !(c.atBundle cl x.1 && c.atBundle cl y.1) then some (y.1, none)
          else
            match s.pushOf p k x.1 x.2, s.pushOf p k y.1 y.2 with
            | some r, some _ => some (y.1, some r)
            | _, _ => none
      | _, _ => none

/-- A TRAP that would be taken at C's slot 0 of a loose bundle waits until the bundle has issued in full: until every
other cluster has issued its slot (R394). -/
def State.trapHeld (s : State) (p k : Nat) (cl : Cluster) (x : Option Slot) : Bool :=
  let c := s.ctx p k
  match cl, x.bind Slot.syl with
  | .c, some y =>
      isTrap y.op && (s.beginSlot p k .c 0 0 true).pred y.guard.toNat != y.gneg
        && Cluster.all.any fun z => z != .c && decide ((Ctx.cluster c z).front ≤ c.c.front)
  | _, _ => false

/-- Issue from a checked bundle. -/
def issueBundle (run : Run) (s : State) (p k : Nat) (cl : Cluster) (pc : W64) (slots : List Slot) :
    Host.Outcome State Fault Refusal :=
  let c := s.ctx p k
  let front := (Ctx.cluster c cl).front
  let here := (Cluster.all.zip slots).filter fun x => c.atBundle cl x.1
  let op0 := match slots with | x :: _ => x.syl.map Syllable.op | [] => none
  let y := match slots with | x :: _ => (x.syl.map Syllable.y).getD false | [] => false
  let sync := y || (op0.map makesSync).getD false
  let held := decide (c.minFront < front)
    || Cluster.all.any fun x => (Ctx.cluster c x).front == front && !(Ctx.cluster c x).ready
  let due := c.dueAmong (here.map Prod.fst)
  if (op0.map isLate).getD false then
    let others := here.filter (fun x => x.1 != .c)
    if others.isEmpty then
      -- slot 0 issues alone, once every other slot has issued and all the context's work has completed
      match here with
      | (.c, x) :: _ =>
          if c.quiet && decide (front ≤ c.minFront) then issueAlone run (s.modCtx p k Ctx.unbind) p k .c pc x else .next s
      | _ => .next s
    else if held then .next s
    else ownTrapFirst s p k due (issueTogether run s p k pc others false false)
  else if sync then
    if held then .next s
    else ownTrapFirst s p k due (finishLate run p k (issueTogether run s p k pc here (isSplitBundle slots) true))
  else
    match s.pushClash p k cl slots with
    | some (_, none) => .next s
    | some (x, some r) => .next (s.raise p k ⟨causeQBIND, BitVec.ofNat 64 (r % 64), x, false⟩)
    | none =>
        match here.find? (fun x => x.1 == cl) with
        | some (_, x) =>
            if s.trapHeld p k cl (some x) then .next s
            else issueAlone run s p k cl (pc + BitVec.ofNat 64 (8 * Cluster.index cl)) x
        | none => .next s

/-- Whether a cluster behind still has to issue a late slot 0, which holds every later bundle (R160). -/
def lateBehind (s : State) (p k : Nat) (cl : Cluster) : Bool :=
  let c := s.ctx p k
  decide (c.c.front < (Ctx.cluster c cl).front) && !c.c.isWaiting &&
    match (s.fetchAt p k c.c.pc).1 with
    | .ok pa _ => (match (slotOf (codeWord c pa)).syl with | some syl => isLate syl.op | none => false)
    | .bad _ => false

/-- A bundle behind one whose MWAIT waits: no later bundle of the context issues (R320). -/
def Ctx.behindMwait (c : Ctx) (cl : Cluster) : Bool :=
  match c.waitOf .m with
  | some (.streams _) => decide (c.m.front ≤ (Ctx.cluster c cl).front)
  | _ => false

/-- A bundle that a cluster does not reach for now: it lies beyond the slack, or behind a late slot 0, or behind an MWAIT
that waits (R160, R167, R320). -/
def beyondReach (s : State) (p k : Nat) (cl : Cluster) : Bool :=
  decide ((s.ctx p k).minFront + 64 < (Ctx.cluster (s.ctx p k) cl).front) || lateBehind s p k cl
    || (s.ctx p k).behindMwait cl

/-- The slots of a bundle that DBGPC names. -/
def debugSlots (c : Ctx) (pc : W64) : List Nat := (List.range 4).filter fun i => c.debugs (pc + BitVec.ofNat 64 (8 * i))

/-- What keeps a fetched bundle from issuing: a slot with its cause, once it can be taken precisely (R148, R162, R398). -/
def bundleTrap (s : State) (p k : Nat) (cl : Cluster) (slots : List Slot) : Option (Option CauseRec) :=
  let c := s.ctx p k
  let pc := (Ctx.cluster c cl).pc
  match c.blamed cl (debugSlots c pc), c.blamed cl (badSlots (s.team p).vregs slots) with
  | some (i, here), _ =>
      some (if here then some ⟨causeDEBUG, pc + BitVec.ofNat 64 (8 * i), clusterOfSlot i, false⟩ else none)
  | none, some (i, here) =>
      some (if here then some ⟨causeILLEGAL, ((slots[i]?).map Slot.word).getD 0, clusterOfSlot i, false⟩ else none)
  | none, none => none

/-- Issue from the bundle at a cluster's counter (R159 to R163, R167). -/
def issueLockstep (run : Run) (s : State) (p k : Nat) (cl : Cluster) : Host.Outcome State Fault Refusal :=
  let pc := (Ctx.cluster (s.ctx p k) cl).pc
  if beyondReach s p k cl then .next s
  else match s.fetchAt p k pc with
  | (.bad cause, s1) =>
      (match (s1.ctx p k).blamed cl [0, 1, 2, 3] with
       | some (i, true) => .next (s1.raise p k ⟨cause, pc, clusterOfSlot i, false⟩)
       | _ => .next s)
  | (.ok pa _, s1) =>
      let slots := fetchSlots (s1.ctx p k) pa
      match bundleTrap s1 p k cl slots with
      | some (some r) => .next (s1.raise p k r)
      | some none => .next s1
      | none => issueBundle run s1 p k cl pc slots

/-- Issue the syllable at a stream's counter (R164, R167). -/
def issueStream (run : Run) (s : State) (p k : Nat) (cl : Cluster) : Host.Outcome State Fault Refusal :=
  let c := s.ctx p k
  let pc := (Ctx.cluster c cl).pc
  match s.fetchAt p k pc with
  | (.bad cause, s) => .next (s.raise p k ⟨cause, pc, cl, false⟩)
  | (.ok pa _, s) =>
      let c := s.ctx p k
      let x := slotOf (codeWord c pa)
      if c.debugs pc then .next (s.raise p k ⟨causeDEBUG, pc, cl, false⟩)
      else match x.syl with
      | none => .next (s.raise p k ⟨causeILLEGAL, x.word, cl, false⟩)
      | some syl =>
          if streamOk (s.team p).vregs cl syl then issueAlone run s p k cl pc x
          else .next (s.raise p k ⟨causeILLEGAL, x.word, cl, false⟩)

/-- A team that stops for a save or a move, or that has issued a YIELD of a persistent field, issues nothing further
(R393, R406, R409, R415, R416). -/
def Core.stopping (c : Core) : Bool :=
  c.team.preemptDue || c.team.swapDue || c.team.yielded || (c.migration.bind MigRequest.target).isSome

/-- A cluster of a context tries to issue, no cause being due. -/
def tryIssue (run : Run) (s : State) (p k : Nat) (cl : Cluster) : Host.Outcome State Fault Refusal :=
  let c := s.ctx p k
  if c.finishing.isSome then finishLate run p k (.next s)
  else if c.csrWaits || !(Ctx.cluster c cl).ready then .next s
  else if c.apart then issueStream run s p k cl else issueLockstep run s p k cl

/-- A cluster of a context tries to issue, or takes a cause that is due. -/
def issueAt (run : Run) (s : State) (p k : Nat) (cl : Cluster) : Host.Outcome State Fault Refusal :=
  let c := s.ctx p k
  if !(s.core p).resident || (s.core p).stopping || c.halted || c.trapDue.isSome then .next s
  else ownTrapFirst s p k (if c.finishing.isSome then c.requestCause else c.dueCause cl) (tryIssue run s p k cl)

end Sys2Proof.Machine
end

