-- ==== Sys2Proof/Machine/Control.lean ====
section
/-! DEFINITION. Control transfer (R203 to R207). -/

namespace Sys2Proof.Machine

/-- The target of a BR-format displacement (R154). -/
def brTarget (pc : W64) (disp : BitVec 32) : W64 := pc + (disp.signExtend 64 <<< 3)

/-- Where a taken transfer must be aligned: 32 in lockstep, 8 in a stream (R167, R203). -/
def State.alignUnit (s : State) : Nat := if s.cur.apart then 8 else 32

/-- Take a transfer; a misaligned target raises ALIGN before anything is written or popped (R203). -/
def jumpTo (target : W64) : Act Unit := do
  let s ← get
  trapIf (target.toNat % s.alignUnit != 0) causeALIGN target
  defer (.jump s.issue.cluster target)

def pcOf : Act W64 := do return (← get).issue.pc

/-- The return address of CALL (R203): the next bundle, or the next syllable of a stream. -/
def State.returnAddress (s : State) : W64 :=
  if s.cur.apart then s.issue.pc + 8 else BitVec.ofNat 64 (s.issue.pc.toNat / 32 * 32) + 32

/-- BR (R203). -/
def execBr (disp : BitVec 32) (s : State) : Out :=
  concludeSyllable (do jumpTo (brTarget (← pcOf) disp)) s

/-- BRI (R203). -/
def execBri (a : Src) (s : State) : Out :=
  concludeSyllable (do jumpTo (← readSrc a)) s

/-- CALL (R203). -/
def execCall (d : Dst) (disp : BitVec 32) (s : State) : Out :=
  concludeSyllable (do
    let s ← get
    jumpTo (brTarget s.issue.pc disp)
    writeDst d s.returnAddress) s

/-- RET (R203). -/
def execRet (a : Src) (s : State) : Out :=
  concludeSyllable (do jumpTo (← readSrc a)) s

/-- The oldest entry of LOOP's counter, which stays in place (R205). -/
def peekCounter (r : Nat) : Act W64 := do
  let q := (← getCtx).squeue r
  if q.cond = .dead then trap causeQDROP (BitVec.ofNat 64 r)
  else match q.entries with
  | [] => stop (.stall false r)
  | .pending _ :: _ => stop .hold
  | .error cause v :: _ => stop (.marked cause v)
  | .ready v p :: _ => if p then trap causePOISON (BitVec.ofNat 64 r) else return v

/-- The stage predicates of a cluster after a LOOP: p57 up take their neighbour, p56 takes `newp` (R205). -/
def stageBits (preds : BitVec 64) (stages : Nat) (newp : Bool) : List (Nat × Bool) :=
  (List.range stages).map fun i => (56 + i, if i = 0 then newp else preds.getLsbD (55 + i))

/-- The clusters a LOOP drives (R205). -/
def State.loopClusters (s : State) : List Cluster := if s.cur.apart then [s.issue.cluster] else Cluster.all

/-- LOOP (R205). -/
def execLoop (counter : BitVec 6) (disp : BitVec 32) (stages : BitVec 4) (s : State) : Out :=
  concludeSyllable (do
    let s ← get
    let c ← peekCounter counter.toNat
    let newp := decide (1 < c.toInt)
    let n := stages.toNat
    let mine := stageBits (Ctx.cluster s.cur s.issue.cluster).preds n newp
    if newp || mine.any Prod.snd then jumpTo (brTarget s.issue.pc disp)
    defer (.counter s.issue.cluster counter.toNat (if newp then c - 1 else 0))
    s.loopClusters.forM fun q =>
      (stageBits (Ctx.cluster s.cur q).preds n newp).forM fun x => defer (.pred q x.1 x.2)) s

/-- SPLIT (R163, R206): its cluster becomes active at the target, which need be aligned to 8 only. -/
def execSplit (disp : BitVec 32) (s : State) : Out :=
  concludeSyllable (do
    let s ← get
    defer (.split s.issue.cluster (brTarget s.issue.pc disp))) s

/-- JOIN (R165, R206). -/
def execJoin (disp : BitVec 32) (s : State) : Out :=
  concludeSyllable (do
    let s ← get
    let target := brTarget s.issue.pc disp
    trapIf (target.toNat % 32 != 0) causeALIGN target
    defer (.join s.issue.cluster target)) s

/-- The number of bq (R152). -/
def bqReg : BitVec 6 := 61

/-- BRQ (R207). -/
def execBrq (sense : Bool) (disp : BitVec 32) (s : State) : Out :=
  concludeSyllable (do
    let pc ← pcOf
    let b ← readSrc ⟨.pop, bqReg⟩
    if (b != 0) != sense then jumpTo (brTarget pc disp)) s

/-- PUSHB (R207). -/
def execPushb (neg : Bool) (p : Pred) (s : State) : Out :=
  concludeSyllable (do
    let b ← getPred p
    writeDst ⟨.push, bqReg⟩ (if b != neg then 1 else 0)) s

end Sys2Proof.Machine
end

