-- ==== Sys2Proof/Machine/Csr.lean ====
section
/-! DEFINITION. The control and status registers (R43, R134, R141, R208 to R210, R219, R250, R251, R268, R322, R367,
R398, R437). -/

namespace Sys2Proof.Machine

/-! ### Access (R208) -/

/-- CSRs that only supervisor code may access. -/
def csrSupervisor (n : Nat) : Bool :=
  (0x90 ≤ n && n ≤ 0x92) || (0x100 ≤ n && n ≤ 0x103) || (0x201 ≤ n && n ≤ 0x20A)

/-- CSRs that user code may read and only supervisor code may write. -/
def csrWriteSupervisor (n : Nat) : Bool := n == 0x200 || (0x1C0 ≤ n && n ≤ 0x1C3)

/-- CSRs with a writable field. -/
def csrWritable (n : Nat) : Bool :=
  n == 0x40 || n == 0x91 || n == 0x100 || n == 0x102 || n == 0x103 || (0x140 ≤ n && n ≤ 0x143)
    || (0x148 ≤ n && n ≤ 0x14B) || n == 0x180 || (0x1C0 ≤ n && n ≤ 0x1C3) || n == 0x200
    || (0x203 ≤ n && n ≤ 0x20A)

/-- PRIV with a value the spec does not state (log entry 15). -/
def privTrap {α : Type} : Act α := do trap causePRIV (Config.freeWord (← get).freeSeed)

def needSupervisor : Act Unit := do
  if (← getCtx).sup then pure () else privTrap

/-- The fence-class CSRs (R385). -/
def csrFence (n : Nat) : Bool := n == 0x90 || n == 0x92

/-- R208: which accesses raise ILLEGAL or PRIV whatever the value.  Any access to a supervisor-only CSR at user level
raises PRIV (R398), also a write of one without a writable field (DEDUCED, log entry 80). -/
def csrCheck (n : Nat) (write : Bool) : Act Unit := do
  let c ← getCtx
  if !c.sup && (csrSupervisor n || (write && csrWriteSupervisor n)) then privTrap
  else if write && !csrWritable n then illegal
  else pure ()

/-! ### Reading -/

/-- The parked accesses RPLCNT and RPLENT show: those of the trapped context while its handler runs. -/
def Ctx.shownEntries (c : Ctx) : List Nat :=
  match c.saved with
  | some x => Ctx.replayEntries { c with replay := x.parkedNow }
  | none => c.replayEntries

/-- QDEAD and VDEAD (R210). -/
def Ctx.deadMask (c : Ctx) : Nat :=
  (List.range 56).foldl (fun a i => if (c.squeue i).cond == .dead then a + 2 ^ i else a) 0
def Ctx.vdeadMask (c : Ctx) : Nat :=
  (List.range 16).foldl (fun a i => if (c.vqueue i).cond == .dead then a + 2 ^ i else a) 0

/-- Whether a granule is live: register-region granules are while the team is resident (R220). -/
def Core.showsLive (c : Core) (g : Nat) : Bool := g < c.team.regTop || c.isLive g

/-- GLIVEi (R219). -/
def Core.glive (c : Core) (i : Nat) : Nat :=
  (List.range 64).foldl (fun a j => if c.showsLive (64 * i + j) then a + 2 ^ j else a) 0

/-- State of a bank: 0 full, 1 retention, 2 off (R230).  A bank in the L1's region is never off, whether or not the L1
holds lines there (DESIGN CHOICE, log entry 100). -/
def Core.bankState (c : Core) (b : Nat) : Nat :=
  if b * 16 < c.team.regTop then 0
  else if c.team.l1Top ≤ b * 16 then 2
  else if (List.range 16).all (fun i => !c.isLive (b * 16 + i)) &&
      !(c.team.spadTop < b * 16 + 16 && c.team.spadTop < c.team.l1Top) then 2
  else if (tfind c.banks b).isSome then 1
  else 0

/-- BANKST; it reads 0 where no team is resident (R219). -/
def Core.bankWord (c : Core) : Nat :=
  if !c.resident then 0 else (List.range 32).foldl (fun a b => a + c.bankState b * 4 ^ b) 0

/-- REMAPRD (R133, R134). -/
def State.remapWord (s : State) (l : Nat) : Nat :=
  let r := s.remap l
  (if r.valid then 2 ^ 31 else 0) + (if r.hold then 2 ^ 30 else 0) + r.phys

/-- R334: the finalised CRC. -/
def Ctx.finalCrc (c : Ctx) : BitVec 32 := ~~~c.segCrc

/-- CSRs of issue, pool, replay and traffic: numbers below 0x100. -/
def State.csrLow (s : State) (p k n : Nat) : Nat :=
  let c := s.ctx p k
  let q := s.core p
  let t := q.team
  match n with
  | 0x00 => c.cycleValue s.cycles % 2 ^ 64
  | 0x01 => c.issued.toNat
  | 0x02 => c.deadMask
  | 0x03 => c.vdeadMask
  | 0x04 => c.mark.toNat
  | 0x40 => c.fpstat.toNat
  | 0x80 => t.regTop
  | 0x81 => t.spadTop
  | 0x82 => t.l1Top
  | 0x83 => t.yTop * 2 ^ 10 + t.wTop
  | 0x84 => q.bankWord
  | 0x90 => c.shownEntries.length
  | 0x91 => c.rplix.toNat
  | 0x92 => c.shownEntries.getD c.rplix.toNat 0
  | n =>
      if 0x88 ≤ n && n ≤ 0x8F then q.glive (n - 0x88)
      else if 0xA0 ≤ n && n ≤ 0xA5 then (tget 0 c.counters (n - 0xA0)).toNat
      else 0

/-- CSRs of placement, engines, matrix and locks: 0x100 to 0x1FF. -/
def State.csrMid (s : State) (p k n : Nat) : Nat :=
  let c := s.ctx p k
  let t := s.team p
  match n with
  | 0x100 => c.remapix.toNat
  | 0x101 => s.remapWord c.remapix.toNat
  | 0x102 => c.codeix.toNat
  | 0x103 => (tget 0 s.hub.codesets c.codeix.toNat).toNat
  | 0x180 => c.mctl.toNat
  | 0x181 => t.mclaim k
  | 0x182 => t.mseq k
  | 0x183 => c.mfltrec.toNat
  | 0x184 => c.mflttile.toNat
  | 0x185 => c.segCyc.toNat
  | 0x186 => c.finalCrc.toNat
  | 0x1C4 => t.age
  | 0x1C5 => t.lkwage.toNat
  | 0x1C6 => t.lkwname.toNat
  | 0x1C7 => sat16 (s.waitingCount t.age) * 2 ^ 16 + sat16 (s.heldCount t.age)
  | n =>
      if 0x140 ≤ n && n ≤ 0x143 then (t.queue (n - 0x140)).pace.toNat
      else if 0x144 ≤ n && n ≤ 0x147 then (t.queue (n - 0x144)).fault.toNat
      else if 0x148 ≤ n && n ≤ 0x14B then (t.queue (n - 0x148)).flag.toNat
      else if 0x1C0 ≤ n && n ≤ 0x1C3 then (s.lkmtx (n - 0x1C0)).toNat
      else 0

/-- CSRs of traps and reliability: 0x200 up. -/
def State.csrHigh (s : State) (p k n : Nat) : Nat :=
  let c := s.ctx p k
  let t := s.team p
  match n with
  | 0x200 => s.hub.tvec.toNat
  | 0x201 => c.tcause.toNat
  | 0x202 => c.tval.toNat
  | 0x207 => c.timgix.toNat
  | 0x208 => (match c.saved with | some x => x.dword c.timgix.toNat | none => 0)
  | 0x20A => c.dbgpc.toNat
  | 0x300 => t.pairSig.toNat
  | 0x301 => t.pairRun.toNat
  | n => if 0x203 ≤ n && n ≤ 0x206 then (tget 0 c.epc (n - 0x203)).toNat else 0

/-- The value of a CSR for a context. -/
def State.csrValue (s : State) (p k n : Nat) : W64 :=
  BitVec.ofNat 64 (if n < 0x100 then s.csrLow p k n else if n < 0x200 then s.csrMid p k n else s.csrHigh p k n)

/-! ### Writing -/

/-- Bits that must be zero in a write (R9, R208). -/
def csrMbz (n : Nat) (v : Nat) : Bool :=
  if n = 0x40 then v < 2 ^ 5
  else if n = 0x91 then v < 2 ^ 6
  else if n = 0x100 then v < 2 ^ 12
  else if n = 0x102 then v < 2 ^ 6
  else if n = 0x103 then bits v 17 15 == 0 && bits v 1 3 == 0
  else if 0x140 ≤ n && n ≤ 0x143 then v < 2 ^ 16
  else if 0x148 ≤ n && n ≤ 0x14B then v < 2 ^ 8
  else if n = 0x180 then v < 2 ^ 2
  else if 0x1C0 ≤ n && n ≤ 0x1C3 then v < 2 ^ 36
  else if n = 0x200 then v < 2 ^ 56 && v % 32 == 0
  else if 0x203 ≤ n && n ≤ 0x206 then v < 2 ^ 56
  else if n = 0x207 then v < 2 ^ 17
  else if n = 0x209 then v < 2 ^ 9
  else if n = 0x20A then v < 2 ^ 56 && bits v 1 2 == 0
  else true

/-- R140, R141: a code parameter set that may be written. -/
def codesetOk (v : Nat) : Bool :=
  !bit v 0
    || (bits v 48 16 != 0 && bits v 14 2 != 3 && bits v 12 2 == 0 && bits v 4 4 != 0
      && bits v 4 4 + bits v 8 4 ≤ 16
      && (!bit v 35 || (bits v 40 8 != 0 && bits v 40 8 + bits v 36 4 ≤ 256)))

/-- A symmetric lock matrix (R365). -/
def matrixSymmetric (v : Nat) : Bool :=
  (List.range 6).all fun r => (List.range 6).all fun c => bit v (6 * r + c) == bit v (6 * c + r)

/-- Whether a manager has an entry in a domain (R367). -/
def State.domainUsed (s : State) (d : Nat) : Bool := s.locks.any (fun e => e.name.domain == d)

/-- Whether a plot may be requeued by its handler (R398). -/
def Team.mayRequeue (t : Team) : Bool := !t.save && t.commit == .none

/-- Writes that are refused for their value (R141, R367, R398). -/
def State.csrRefused (s : State) (p k n v : Nat) : Bool :=
  let c := s.ctx p k
  if n = 0x103 then !codesetOk v
  else if 0x1C0 ≤ n && n ≤ 0x1C3 then !matrixSymmetric v || s.domainUsed (n - 0x1C0)
  else if n = 0x208 then
    match c.saved with | some x => x.length ≤ c.timgix.toNat | none => true
  else if n = 0x209 then v % 256 == 0 && bit v 8 && !(s.team p).mayRequeue
  else false

/-- CSR writes that the hub or a step of its own applies. -/
def csrRemote (n v : Nat) : Bool := n == 0x103 || (0x1C0 ≤ n && n ≤ 0x1C3) || (n == 0x209 && v != 0)

/-- A write of a CSR of the context, team or package that takes effect at once. -/
def State.csrWrite (s : State) (p k n : Nat) (v : W64) : State :=
  let x := v.toNat
  if n = 0x200 then { s with hub := { s.hub with tvec := BitVec.ofNat 56 x } }
  else if n = 0x208 then
    let c := s.ctx p k
    let s := if c.timgix = 0 then { s with freeSeed := s.freeSeed + 2 ^ 17 } else s
    s.setCtx p k { c with saved := c.saved.map fun y => y.edit c.timgix.toNat v s.freeSeed }
  else if 0x140 ≤ n && n ≤ 0x14B then
    s.modTeam p fun t =>
      let i := (n - 0x140) % 4
      let q := t.queue i
      if n < 0x144 then t.setQueue i { q with pace := BitVec.ofNat 16 x }
      else if 0x148 ≤ n then t.setQueue i { q with flag := BitVec.ofNat 8 x }
      else t
  else
    s.modCtx p k fun c =>
      if n = 0x40 then { c with fpstat := BitVec.ofNat 5 x }
      else if n = 0x91 then { c with rplix := BitVec.ofNat 6 x }
      else if n = 0x100 then { c with remapix := BitVec.ofNat 12 x }
      else if n = 0x102 then { c with codeix := BitVec.ofNat 6 x }
      else if n = 0x180 then { c with mctl := BitVec.ofNat 2 x }
      else if 0x203 ≤ n && n ≤ 0x206 then { c with epc := tput c.epc (n - 0x203) (BitVec.ofNat 56 x) }
      else if n = 0x207 then { c with timgix := BitVec.ofNat 17 x }
      else if n = 0x20A then { c with dbgpc := BitVec.ofNat 56 x }
      else c

/-! ### The CSR syllables (R208) -/

/-- Where a record of a stream lies. -/
def State.recordSpot (s : State) (p : Nat) (x : Stream) (va : Nat) : Option Spot :=
  let t := s.team p
  if isWindow va then (match s.findWindow t va 64 with | .ok y => some y | _ => none)
  else (x.pins.find? fun e => e.covers t.asid.toNat va).map fun e => .mem (e.paOf va) e.cached

/-- Whether a record that a stream has still to fetch is an MCONV, as memory stands. -/
def State.convertsAt (s : State) (p : Nat) (x : Stream) (i : Nat) : Bool :=
  match s.recordSpot p x (x.base.toNat + 64 * i) with
  | some y => ((s.readAt (s.client p x.ctx) y 1 .clean).1.headD 0).toNat % 16 == 2
  | none => false

/-- A stream has flags for FPSTAT, or MCONVs that may raise some (R43). -/
def State.streamFlags (s : State) (p : Nat) (x : Stream) : Bool :=
  let first := x.index + if x.record.isSome then 1 else 0
  x.flags != 0 || (x.record.map fun r => (r.headD 0).toNat % 16 == 2) == some true
    || (List.range (x.count - first)).any fun i => s.convertsAt p x (first + i)

/-- Flags of a context's MCONVs that FPSTAT has still to receive: in a handler its own, after ERET those of its streams
too (R43). -/
def State.flagsDue (s : State) (p k : Nat) : Bool :=
  (s.team p).streams.any fun x => x.ctx == k && (x.handler || (s.ctx p k).saved.isNone) && s.streamFlags p x

/-- A queue holds a command of a kind that may set a bit of ENGFLAG (R268); a halted queue keeps no access waiting (DESIGN
CHOICE, log entry 79). -/
def EngineQueue.flagsDue (q : EngineQueue) : Bool :=
  !q.halt && q.cmds.any fun c => (c.bytes.headD 0).toNat % 16 != 0

/-- The flags a CSR shows are complete (R43, R268). -/
def State.flagsSettled (s : State) (p k n : Nat) : Bool :=
  if n = 0x40 then !s.flagsDue p k
  else if 0x148 ≤ n && n ≤ 0x14B then !((s.team p).queue (n - 0x148)).flagsDue
  else true

/-- A CSR syllable waits for all earlier work of its context, and a fence-class one for its accesses, but not for the
entries parked in the section that a handler reads (R385, R404); then the checks of R208, and last a pending store fault,
which a fence-class one raises (R395). -/
def csrBegin (n : Nat) (write : Bool) : Act Unit := do
  let s ← get
  holdUnless (s.cur.quiet && s.flagsSettled s.issue.core s.issue.ctx n && (!csrFence n || s.cur.performedAll))
  csrCheck n write
  if csrFence n then raisePending

def readCsr (n : Nat) : Act W64 := do
  let s ← get
  return s.csrValue s.issue.core s.issue.ctx n

/-- Wait for a step of the hub to apply a write, at which a CSRX reads the old value (R208); its destination must take
a write. -/
def waitRemote (n : Nat) (v : W64) (dst : Option Dst) : Act Unit := fun s =>
  let room := match dst with | some d => settleScalar s s.issue.cluster d (.ready 0 false) | none => .ok s
  match room with
  | .error (_, x) => .error x
  | .ok _ => .ok ((), { s with issue := { s.issue with
      waits := s.issue.waits ++ [(s.issue.cluster, .csr n v dst, s.issue.popped)] } })

/-- Write a CSR; a CSRX names the destination of the old value. -/
def writeCsr (n : Nat) (v : W64) (dst : Option Dst) : Act Unit := do
  let s ← get
  if !csrMbz n v.toNat || s.csrRefused s.issue.core s.issue.ctx n v.toNat then illegal
  else if csrRemote n v.toNat then waitRemote n v dst
  else
    set (s.csrWrite s.issue.core s.issue.ctx n v)
    match dst with
    | some d => writeDst d (s.csrValue s.issue.core s.issue.ctx n)
    | none => pure ()

/-- CSRR (R208). -/
def execCsrr (d : Dst) (csr : BitVec 16) (s : State) : Out :=
  concludeSyllable (do
    csrBegin csr.toNat false
    writeDst d (← readCsr csr.toNat)) s

/-- CSRW (R208). -/
def execCsrw (csr : BitVec 16) (a : Src) (s : State) : Out :=
  concludeSyllable (do
    csrBegin csr.toNat true
    writeCsr csr.toNat (← readSrc a) none) s

/-- CSRX (R208). -/
def execCsrx (d : Dst) (csr : BitVec 16) (a : Src) (s : State) : Out :=
  concludeSyllable (do
    csrBegin csr.toNat true
    writeCsr csr.toNat (← readSrc a) (some d)) s

/-! ### The hub applies a write -/

/-- The CSR write a context's C cluster waits for, with the destination of a CSRX. -/
def State.csrWaiting (s : State) (r : CtxRef) (n : Nat) (v : W64) : Option (Option Dst) :=
  match (s.ctx r.core r.ctx).waitOf .c with
  | some (.csr m w dst) => if (s.core r.core).resident && m == n && w == v then some dst else none
  | _ => none

/-- A CSR write that waited is applied by the hub in the step in which a CSRX reads the old value (R208). -/
def State.applyCsr (s : State) (r : CtxRef) (n : Nat) (v : W64) (write : State → State) : State :=
  match s.csrWaiting r n v with
  | none => s
  | some dst =>
      let old := s.csrValue r.core r.ctx n
      let t := (write s).modCtx r.core r.ctx fun c => c.endWait .c
      match dst with
      | none => t
      | some d => t.modCtx r.core r.ctx fun c => c.writeNow .c d (.ready old false)

/-- CODESET_WRITE (R141). -/
def execCodesetWrite (r : CtxRef) (value : W64) (s : State) : Out :=
  concludeEvent (fun s =>
    s.applyCsr r 0x103 value fun s =>
      { s with hub := { s.hub with codesets := tput s.hub.codesets (s.ctx r.core r.ctx).codeix.toNat value } }) s

/-- LKMTX_WRITE (R367). -/
def execLkmtxWrite (r : CtxRef) (domain : BitVec 2) (value : W64) (s : State) : Out :=
  concludeEvent (fun s =>
    s.applyCsr r (0x1C0 + domain.toNat) value fun s =>
      { s with hub := { s.hub with lkmtx := tput s.hub.lkmtx domain.toNat (BitVec.ofNat 36 value.toNat) } }) s

end Sys2Proof.Machine
end

