-- ==== Sys2Proof/Machine/Ring.lean ====
section
/-! DEFINITION. Rings (R337 to R345): the slot transitions and the ring syllables. -/

namespace Sys2Proof.Machine

/-! ### The configuration word (R338) -/

def Ring.nslot (r : Ring) : Nat := bits r.config.toNat 48 15
def Ring.slotBytes (r : Ring) : Nat := 16 * bits r.config.toNat 32 16
def Ring.base (r : Ring) : Nat := bits r.config.toNat 0 22
def Ring.isSet (r : Ring) : Bool := r.nslot != 0

/-- Y offset of a slot. -/
def Ring.offset (r : Ring) (i : Nat) : Nat := r.base + r.slotBytes * i

def Ring.slotState (r : Ring) (i : Nat) : RingSlot := tget .free r.slots i
def Ring.setSlot (r : Ring) (i : Nat) (x : RingSlot) : Ring := { r with slots := tput r.slots i x }

/-- A pointer advances modulo NSLOT. -/
def Ring.next (r : Ring) (i : Nat) : Nat := if i + 1 < r.nslot then i + 1 else 0

/-! ### Transitions (R339) -/

/-- Claim slot TAIL. -/
def Ring.claim (r : Ring) : Ring :=
  let q := r.setSlot r.tail .claimed
  { q with tail := r.next r.tail, free := r.free - 1, claimed := r.claimed + 1 }

/-- PUB passes published slots. -/
def Ring.passPublished : Nat → Ring → Ring
  | 0, r => r
  | n + 1, r =>
      if r.slotState r.pub == .published && 0 < r.claimed then
        Ring.passPublished n { r with pub := r.next r.pub, claimed := r.claimed - 1, filled := r.filled + 1 }
      else r

/-- Publish slot i. -/
def Ring.publish (r : Ring) (i : Nat) : Ring := Ring.passPublished r.claimed (r.setSlot i .published)

/-- Take slot HEAD. -/
def Ring.take (r : Ring) : Ring :=
  let q := r.setSlot r.head .taken
  { q with head := r.next r.head, filled := r.filled - 1, taken := r.taken + 1 }

/-- FREEP passes freed slots, which become free. -/
def Ring.passFreed : Nat → Ring → Ring
  | 0, r => r
  | n + 1, r =>
      if r.slotState r.freep == .freed then
        let q := r.setSlot r.freep .free
        Ring.passFreed n { q with freep := r.next r.freep, taken := r.taken - 1, free := r.free + 1 }
      else r

/-- Free slot i. -/
def Ring.release (r : Ring) (i : Nat) : Ring := Ring.passFreed r.taken (r.setSlot i .freed)

/-- The descriptor RSET leaves (R338). -/
def Ring.fresh (config : W64) : Ring :=
  { Ring.unset with config := config, free := bits config.toNat 48 15 }

/-- The words RSET refuses (R338). -/
def ringRefuses (t : Team) (r : Ring) (w : W64) : Bool :=
  let n := bits w.toNat 48 15
  let sz := bits w.toNat 32 16
  let base := bits w.toNat 0 22
  bit w.toNat 63 || bits w.toNat 22 10 != 0 || (n != 0 && sz == 0) || base % 16 != 0
    || t.bufSize .y < base + 16 * n * sz || r.claimed != 0 || r.taken != 0

/-- A slot word (R342). -/
def Ring.slotWord (r : Ring) (i : Nat) : W64 := BitVec.ofNat 64 (i * 2 ^ 32 + r.offset i % 2 ^ 22)

def slotIndex (w : W64) : Nat := bits w.toNat 32 15

def allOnes64 : W64 := 0xFFFFFFFFFFFFFFFF

/-- RSTAT's words (R344); an unset ring shows zeros but for its configuration, since nothing moves its counts. -/
def Ring.statWord (r : Ring) : Nat → Option W64
  | 0 => some (BitVec.ofNat 64 (r.taken * 2 ^ 48 + r.claimed * 2 ^ 32 + r.filled * 2 ^ 16 + r.free))
  | 1 => some (BitVec.ofNat 64 (r.freep * 2 ^ 48 + r.head * 2 ^ 32 + r.pub * 2 ^ 16 + r.tail))
  | 2 => some r.config
  | 3 => some (BitVec.ofNat 64 (if r.isSet then r.drops else 0))
  | _ => none

/-! ### The ring syllables (R343, R344) -/

def ringOf (ring : BitVec 4) : Act Ring := do return (← getTeam).ring ring.toNat
def putRing (ring : BitVec 4) (r : Ring) : Act Unit := modTeamA fun t => t.setRing ring.toNat r

/-- The ring check: an unset ring raises RINGERR. -/
def setRingOf (ring : BitVec 4) : Act Ring := do
  let r ← ringOf ring
  trapIf (!r.isSet) causeRINGERR (BitVec.ofNat 64 (0x100 + ring.toNat))
  return r

/-- A release at .team that takes effect at once: every earlier access has performed (R361). -/
def releaseNow : Act Unit := do
  let c ← getCtx
  holdUnless c.drained

/-- RSET (R338). -/
def execRset (ring : BitVec 4) (a : Src) (s : State) : Out :=
  concludeSyllable (do
    let w ← readSrc a
    releaseNow
    let r ← ringOf ring
    trapIf (ringRefuses (← getTeam) r w) causeRINGERR w
    raisePending
    putRing ring (Ring.fresh w)) s

/-- RCLAIM (R343). -/
def execRclaim (ring : BitVec 4) (d : Dst) (s : State) : Out :=
  concludeSyllable (do
    let r ← setRingOf ring
    if r.free = 0 then writeDst d allOnes64
    else do
      putRing ring r.claim
      writeDst d (r.slotWord r.tail)) s

/-- RTAKE (R343). -/
def execRtake (ring : BitVec 4) (d : Dst) (s : State) : Out :=
  concludeSyllable (do
    let r ← setRingOf ring
    if r.filled = 0 then writeDst d allOnes64
    else do
      putRing ring r.take
      writeDst d (r.slotWord r.head)) s

/-- RPUB (R343). -/
def execRpub (ring : BitVec 4) (a : Src) (s : State) : Out :=
  concludeSyllable (do
    let r ← setRingOf ring
    let w ← readSrc a
    releaseNow
    let i := slotIndex w
    trapIf (r.nslot ≤ i || r.slotState i != .claimed) causeRINGERR w
    raisePending
    putRing ring (r.publish i)) s

/-- RFREE (R343). -/
def execRfree (ring : BitVec 4) (a : Src) (s : State) : Out :=
  concludeSyllable (do
    let r ← setRingOf ring
    let w ← readSrc a
    releaseNow
    let i := slotIndex w
    trapIf (r.nslot ≤ i || r.slotState i != .taken) causeRINGERR w
    raisePending
    putRing ring (r.release i)) s

/-- RWAITF and RWAITE: a wait that a count has met ends at once (R343). -/
def ringWait (ring : BitVec 4) (a : Src) (count : Ring → Nat) (w : Nat → WaitFor) : Act Unit := do
  let r ← setRingOf ring
  let n ← readSrc a
  trapIf (r.nslot < n.toNat) causeRINGERR n
  if n.toNat ≤ count r then migrationPoint else beginWait (w n.toNat)

/-- RWAITF (R343). -/
def execRwaitf (ring : BitVec 4) (a : Src) (s : State) : Out :=
  concludeSyllable (ringWait ring a Ring.filled (fun n => .ringFilled ring.toNat n)) s

/-- RWAITE (R343). -/
def execRwaite (ring : BitVec 4) (a : Src) (s : State) : Out :=
  concludeSyllable (ringWait ring a Ring.free (fun n => .ringFree ring.toNat n)) s

/-- RSTAT (R344). -/
def execRstat (ring : BitVec 4) (d : Dst) (a : Src) (s : State) : Out :=
  concludeSyllable (do
    let r ← ringOf ring
    let x ← readSrc a
    match r.statWord x.toNat with
    | some w => writeDst d w
    | none => trap causeRINGERR x) s

/-- RWAIT_END (R343). -/
def execRwaitEnd (r : CtxRef) (s : State) : Out :=
  concludeEvent (fun s =>
    let t := s.team r.core
    let c := t.ctx r.ctx
    match c.waitOf .a with
    | some (.ringFilled g n) => if n ≤ (t.ring g).filled then s.setCtx r.core r.ctx (c.endWait .a) else s
    | some (.ringFree g n) => if n ≤ (t.ring g).free then s.setCtx r.core r.ctx (c.endWait .a) else s
    | _ => s) s

end Sys2Proof.Machine
end

