-- ==== Sys2Proof/Machine/Points.lean ====
section
/-! DEFINITION. The operating-point table and what a key requests of the four rails (R108, R217, R461, R462). -/

namespace Sys2Proof.Machine

/-! ### The operating-point table (R461, R462) -/

def optValid (e : Nat) : Bool := bit e 63
def optPin (e : Nat) : Bool := bit e 62
def optTrials (e : Nat) : Nat := bits e 58 4
def optKernel (e : Nat) : Nat := bits e 36 16
def optPhase (e : Nat) : Nat := bits e 28 8
/-- The point of rail 0 VMAT, 1 VVEC, 2 VSRAM, 3 VFAB. -/
def optPoint (e rail : Nat) : Nat := bits e (25 - 3 * rail) 3
def optEdp (e : Nat) : Nat := bits e 0 16

def optWord (pin : Bool) (trials kernel phase : Nat) (points : List Nat) (edp : Nat) : W64 :=
  BitVec.ofNat 64 (2 ^ 63 + (if pin then 2 ^ 62 else 0) + min trials 8 * 2 ^ 58 + kernel % 2 ^ 16 * 2 ^ 36
    + phase % 2 ^ 8 * 2 ^ 28 + points.getD 0 0 * 2 ^ 25 + points.getD 1 0 * 2 ^ 22 + points.getD 2 0 * 2 ^ 19
    + points.getD 3 0 * 2 ^ 16 + edp % 2 ^ 16)

def Hub.opt (h : Hub) (i : Nat) : Nat := (tget 0 h.optable i).toNat

/-- The entry of a key: the lowest VALID one that matches. -/
def Hub.lookup (h : Hub) (kernel phase : Nat) : Option Nat :=
  ((h.optable.filter fun e => e.1 < 1024 && optValid e.2.toNat && optKernel e.2.toNat == kernel
    && optPhase e.2.toNat == phase).map Prod.fst).min?

/-- The point an entry asks for on a rail: a trial run has one rail one point lower, in the order of the rails. -/
def trialPoint (e rail : Nat) : Nat :=
  if optTrials e < 8 && !optPin e && (optTrials e - 1) % 4 == rail then optPoint e rail - 1 else optPoint e rail

/-- The point a key asks for on a rail: the top one on a miss or for KERNELID 0 (R108, R217). -/
def Hub.request (h : Hub) (kernel phase rail : Nat) : Nat :=
  if kernel = 0 then 7
  else match h.lookup kernel phase with
  | some i => trialPoint (h.opt i) rail
  | none => 7

/-- The points a key requests on the four rails. -/
def Hub.requests (h : Hub) (kernel phase : Nat) : List Nat := (List.range 4).map (h.request kernel phase)

end Sys2Proof.Machine
end

