-- ==== Sys2Proof/Machine/System.lean ====
section
/-! DEFINITION. System syllables (R212 to R217, R400 to R406), the ends of WAITI and of a wedge (R188, R215). -/

namespace Sys2Proof.Machine

/-- Raise PRIV at user level; the spec states no value for it (log entry 15). -/
def supervisorOnly : Act Unit := do
  if (← getCtx).sup then pure () else trap causePRIV (Config.freeWord (← get).freeSeed)

/-- Conclude a syllable whose effect replaces the settling of its context; a stop is that of any syllable. -/
def concludeWith {α : Type} (body : Act α) (f : α → State → State) (s : State) : Out :=
  match body s with
  | .error x => concludeSyllable (stop x) s
  | .ok (a, s1) => .next (f a s1)

/-! ### HALT (R214, R271, R421) -/

/-- Every context of a team has halted. -/
def Team.allHalted (t : Team) : Bool := (List.range t.width).all (fun k => (t.ctx k).halted)

/-- The lowest halted queue of a team. -/
def Team.haltedQueue (t : Team) : Option Nat := (List.range 4).find? (fun q => (t.queue q).halt)

/-- What follows when a team's last context has halted: a halted queue ends the launch or task (R271); chains
stop (R421); locks are released (R373). -/
def State.afterHalt (s : State) (p : Nat) : State :=
  let t := s.team p
  if !t.allHalted then s
  else match t.haltedQueue with
  | some q => s.endByTrap p (bits (t.queue q).fault.toNat 56 8)
  | none =>
      let t := { t with queues := t.queues.map fun e => (e.1, { e.2 with act := false, link := 0 }) }
      (s.setTeam p t).releaseLocks p

/-- A context that has halted: its queue entries are discarded. -/
def Ctx.halt (c : Ctx) : Ctx := { c with halted := true, scalars := [], vectors := [] }

/-- A HALT or an ERET of a bundle issues with the bundle's other slots and completes later (R160, R214, R402). -/
def issueLater (w : WaitFor) : Act Unit :=
  modify fun s => { s with issue := { s.issue with waits := s.issue.waits ++ [(s.issue.cluster, w, [])] } }

/-- HALT (R214): in a bundle it issues with the other slots; it takes effect once all work of the context has
completed, and no cause is left that a cluster of it is still to take (R332). -/
def execHalt (s : State) : Out :=
  if !s.issue.alone then concludeSyllable (issueLater .halt) s
  else concludeWith (do
    let s ← get
    let c := s.cur
    holdUnless (c.accesses.isEmpty && !c.reserved && c.faultReports.isEmpty
      && s.curTeam.outstanding s.issue.ctx == 0 && c.requestCause.isNone)
    raisePending)
    (fun _ s => (s.modCtx s.issue.core s.issue.ctx Ctx.halt).afterHalt s.issue.core) s

/-! ### WAITI (R215, R407) -/

/-- An asynchronous request is pending for a context. -/
def State.requestPending (s : State) (p k : Nat) : Bool :=
  let t := s.team p
  !(s.ctx p k).pending.isEmpty || t.preemptDue || t.swapDue || !t.woundsDue.isEmpty || (s.core p).migration.isSome

/-- Take a pending request once the syllable has completed. -/
def takeRequest : Act Unit := do
  match (← getCtx).requestCause with
  | some r => do
      modCtxA fun c => c.dropCause r
      defer (.trapAfter r)
  | none => pure ()

/-- WAITI (R215). -/
def execWaiti (s : State) : Out :=
  concludeSyllable (do
    supervisorOnly
    let s ← get
    if s.requestPending s.issue.core s.issue.ctx then do
      migrationPoint
      takeRequest
    else beginWait .interrupt) s

/-- WAITI_END (R215): the request is taken at the WAITI. -/
def execWaitiEnd (r : CtxRef) (s : State) : Out :=
  concludeEvent (fun s =>
    let c := s.ctx r.core r.ctx
    if c.waitOf .c == some .interrupt && s.requestPending r.core r.ctx then
      let c := c.endWait .c
      match c.requestCause with
      | some x => (s.setCtx r.core r.ctx (c.dropCause x)).raise r.core r.ctx x
      | none => s.setCtx r.core r.ctx c
    else s) s

/-! ### FENCEI, TRAP, COMMIT, YIELD, PHASE -/

/-- An access that FENCEI waits for: a store, a reduction or an AMO. -/
def Access.changesMemory (a : Access) : Bool :=
  match a.kind with
  | .store _ | .amo .. | .red .. => true
  | .loadScalar .. | .loadVector .. | .bsig _ | .evsig .. | .lock .. | .unlock .. => false

/-- A FENCEI at a bundle before which A has still to issue a slot: what it waits for has not all been issued (R160,
R216). -/
def Ctx.aBehind (c : Ctx) : Bool := !c.apart && decide (c.a.front < c.c.front)

/-- FENCEI (R216): the clusters forget what they have fetched and see memory as it is now. -/
def execFencei (s : State) : Out :=
  concludeSyllable (do
    let c ← getCtx
    holdUnless (!c.aBehind && (c.storeQ ++ c.replay).all fun a => !a.changesMemory)
    modify fun s => s.modCtx s.issue.core s.issue.ctx fun c => { c with code := s.codeView }) s

/-- TRAP (R401). -/
def execTrap (code : BitVec 8) (s : State) : Out :=
  concludeSyllable (defer (.trapAfter ⟨causeTRAPI, code.zeroExtend 64, .c, false⟩)) s

/-- An election is under way for a team's launch, so the plot log records no commit (R120, R405). -/
def State.logBusy (s : State) (t : Team) : Bool :=
  match t.work with
  | .launch slot _ _ => (match s.launch slot with | some l => l.electing && !t.save | none => false)
  | _ => false

/-- A context's write of TCTL is on its way to the hub (R398). -/
def Team.tctlWaits (t : Team) : Bool :=
  (List.range t.width).any fun k => Cluster.all.any fun cl =>
    match (Ctx.cluster (t.ctx k) cl).status with
    | .waiting (.csr n _ _) _ => n == 0x209
    | _ => false

/-- COMMIT (R405); a wound that has reached the core comes first. -/
def execCommit (s : State) : Out :=
  concludeSyllable (do
    let s ← get
    let t := s.curTeam
    holdUnless (t.commit != .none || (!s.logBusy t && t.woundsDue.isEmpty && !t.tctlWaits))
    defer .commit) s

/-- YIELD (R131, R406). -/
def execYield (s : State) : Out :=
  concludeSyllable (do
    migrationPoint
    if (← getTeam).persist then modTeamA fun t => { t with yielded := true }
    else takeRequest) s

/-- When a context's phase began: at its latest PHASE, else at its launch's dispatch (R419). -/
def State.phaseSince (s : State) (t : Team) (c : Ctx) : Nat :=
  match c.asked, t.work with
  | some r, _ => r.since
  | none, .launch slot _ _ => ((s.launch slot).map Launch.time).getD s.now
  | none, .sheaf .. => s.now

/-- PHASE (R217, R419). -/
def execPhase (marker : BitVec 8) (s : State) : Out :=
  concludeSyllable (do
    let s ← get
    let t := s.curTeam
    modCtxA fun c => { c with
      mark := marker
      phase := marker
      asked := some ⟨s.now, s.hub.requests t.kernel marker.toNat⟩
      phaseDone := if s.phaseSince t c + 100 * microsecond ≤ s.now then some c.phase else c.phaseDone }) s

/-! ### ERET (R402, R403) -/

/-- The effect of ERET. -/
def eretBody (s : State) : Out :=
  concludeWith (do
    supervisorOnly
    let c ← getCtx
    match c.saved with
    | none => illegal
    | some x => do
        holdUnless (c.loadQ.isEmpty && c.storeQ.isEmpty)
        return x)
    (fun x s => s.returnTrap s.issue.core s.issue.ctx x) s

/-- ERET in a bundle (R160): its checks are made with the other slots, its effect comes later. -/
def eretIssue : Act Unit := do
  supervisorOnly
  if (← getCtx).saved.isNone then illegal else issueLater .eret

/-- ERET. -/
def execEret (s : State) : Out := if s.issue.alone then eretBody s else concludeSyllable eretIssue s

/-! ### RPLREL (R404) -/

/-- Put a byte into an array of dwords. -/
def putByte (ds : List W64) (start off : Nat) (b : Byte) : List W64 :=
  let i := start + off / 8
  let sh := 8 * (off % 8)
  ds.set i ((ds.getD i 0 &&& ~~~(0xFF#64 <<< sh)) ||| (b.zeroExtend 64 <<< sh))

/-- Translate pages of the trapped context, at user level. -/
def State.translateUser (s : State) (p k : Nat) (kind : AccessKind) :
    List Nat → List (Nat × Xlated) → List (Nat × Xlated) × State
  | [], acc => (acc, s)
  | page :: rest, acc =>
      let (r, s) := s.translate p k false (s.team p).asid.toNat (page * 65536) kind true
      State.translateUser s p k kind rest (acc ++ [(page, r)])

/-- A parked piece with what its page translates to now. -/
def Piece.again (pages : List (Nat × Xlated)) (y : Piece) : Piece :=
  match pages.find? (fun q => q.1 == y.va / 65536) with
  | some (_, .ok pa c) => { y with place := some (.phys (pa + y.va % 65536) c) }
  | some (_, .bad cause) => { y with cause := cause }
  | none => y

def Piece.memSpot (y : Piece) : Option (Piece × Spot) :=
  match y.place with
  | some (.phys pa c) => some (y, .mem pa c)
  | _ => none

/-- Put loaded bytes and their poison marks into a section at the dword its entry starts at. -/
def Section.fillEntry (x : Section) (start : Nat) (f : Fmt) (columns : Bool) (m : Mem) (marks : List Nat)
    (ps : List Piece) : Section :=
  let ds := ps.foldl (fun ds y => (List.range y.len).foldl (fun ds i =>
    let ix := imageIndex f columns (y.off + i)
    putByte ds start ix (Mem.byte m ix)) ds) x.dwords
  let b := (markBits marks).toNat
  let ds := (ds.set (start + 512) (BitVec.ofNat 64 b)).set (start + 513) (BitVec.ofNat 64 (b / 2 ^ 64))
  { x with dwords := ds }

/-- One parked access performs on the pages that translate now; what is left of it, if anything, parks again. -/
def State.releaseParked (s : State) (p k : Nat) (x : Section) (a : Access) : State × Section × Option Access :=
  let kind := if a.kind.isWrite then accWrite else accRead
  let (pages, s) := s.translateUser p k kind (pagesOf a.pieces) []
  let ps := a.pieces.map (Piece.again pages)
  let good := ps.filter (fun y => y.place.isSome)
  let bad := ps.filter (fun y => y.place.isNone)
  let spots := good.filterMap Piece.memSpot
  match a.kind with
  | .loadVector _ tag f columns =>
      let (m, marks, s) := s.readPieces p k f columns .clean spots a.buffer a.poison
      let x := match x.tags.find? (fun t => t.1 == tag && decide (t.2.2 < x.count (64 + t.2.1))) with
        | some t => x.fillEntry (x.vectorStart t.2.1 + 514 * t.2.2) f columns m marks good
        | none => x
      if bad.isEmpty then
        ((s.acquireAt p a.acquire), { x with tags := x.tags.filter (fun t => t.1 != tag) }, none)
      else (s, x, some { a with pieces := bad, buffer := m, poison := marks })
  | .store data =>
      let s := if good.isEmpty then s else s.releaseAt p k a.release
      let s := spots.foldl (fun s y => s.writeOwn p k y.2 (pieceData data y.1) (piecePoison a.poison y.1)) s
      if bad.isEmpty then (s, x, none) else (s, x, some { a with pieces := bad })
  | _ => (s, x, some a)

/-- Whether an earlier access holds a parked one back: it stands before it in its queue (R378), or what orders the two
holds it (R379 to R381). -/
def State.holdsParked (s : State) (p : Nat) (a e : Access) : Bool := a.sameQueue e || s.holdsBack p a e

/-- All parked accesses in order, with those that stay parked so far. -/
def State.releaseAllParked (s : State) (p k : Nat) (x : Section) (stay : List Access) :
    List Access → State × Section × List Access
  | [] => (s, x, stay)
  | a :: rest =>
      if stay.any (s.holdsParked p a) then State.releaseAllParked s p k x (stay ++ [a]) rest
      else
        let (s, x, left) := s.releaseParked p k x a
        State.releaseAllParked s p k x (stay ++ left.toList) rest

/-- The section's replay part rewritten for the accesses left (R412). -/
def Section.reparked (x : Section) (left : List Access) : Section :=
  let (rep, tail) := replayPart left
  let ds := x.dwords.take (x.vectorStart 16) ++ tail.map (BitVec.ofNat 64)
  let ds := ds.set 0 (BitVec.ofNat 64 (ds.length * 2 ^ 32 + x.dword 0 % 2 ^ 32))
  let ds := ds.set 91 (BitVec.ofNat 64 rep.length)
  let ds := (List.range 64).foldl (fun ds i => ds.set (92 + i) (BitVec.ofNat 64 (rep.getD i 0))) ds
  { x with dwords := ds, parked := left }

/-- RPLREL (R404): it waits for the accesses of the context that a parked one must not pass (R378 to R381). -/
def execRplrel (s : State) : Out :=
  concludeSyllable (do
    supervisorOnly
    let s ← get
    let c := s.cur
    let p := s.issue.core
    let k := s.issue.ctx
    match c.saved with
    | none => pure ()
    | some x => do
        holdUnless (x.parkedNow.all fun a => (c.loadQ ++ c.storeQ).all fun e =>
          !(e.seq < a.seq && s.holdsParked p a e))
        let (s, x', left) := s.releaseAllParked p k x [] x.parkedNow
        set (s.modCtx p k fun c => { c with saved := some (x'.reparked left) })) s

/-! ### A wedge (R188) -/

/-- Whether the stall a cluster has marked still holds: no entry has come since, or none has left (R186, R188). -/
def Ctx.stallHolds (c : Ctx) (room : Bool) (r held : Nat) : Bool :=
  if room then held ≤ c.entriesOf r else c.entriesOf r ≤ held

def Ctx.isStalled (c : Ctx) (cl : Cluster) : Bool :=
  match (Ctx.cluster c cl).status with
  | .stalled room r held => c.stallHolds room r held
  | _ => false

/-- Whether a bundle issues as a sync bundle (R160). -/
def State.syncAt (s : State) (p k : Nat) (pc : W64) : Bool :=
  match (s.fetchAt p k pc).1 with
  | .ok pa _ =>
      (match (slotOf (codeWord (s.ctx p k) pa)).syl with
       | some syl => syl.y || makesSync syl.op
       | none => false)
  | .bad _ => false

/-- The bundle at which a cluster stands would trap, or might, and cannot do so precisely yet (R162, R167, R190). -/
def State.trapAhead (s : State) (p k : Nat) (cl : Cluster) : Bool :=
  match s.fetchAt p k (Ctx.cluster (s.ctx p k) cl).pc with
  | (.bad _, _) => true
  | (.ok pa _, s1) =>
      let slots := fetchSlots (s1.ctx p k) pa
      bundleTrap s1 p k cl slots == some none
        || (match s1.pushClash p k cl slots with | some (_, none) => true | _ => false)

/-- The slot of a cluster of the bundle at which it stands. -/
def State.slotAt (s : State) (p k : Nat) (cl : Cluster) : Option Slot :=
  match s.fetchAt p k (Ctx.cluster (s.ctx p k) cl).pc with
  | (.ok pa _, s1) => (fetchSlots (s1.ctx p k) pa)[Cluster.index cl]?
  | (.bad _, _) => none

/-- C waits at a TRAP until its bundle has issued in full (R394). -/
def State.trapWaits (s : State) (p k : Nat) (cl : Cluster) : Bool := s.trapHeld p k cl (s.slotAt p k cl)

/-- C waits at a FENCEI until A has come to its bundle (R216). -/
def State.fenceiWaits (s : State) (p k : Nat) (cl : Cluster) : Bool :=
  cl == .c && (s.ctx p k).aBehind && ((s.slotAt p k cl).bind Slot.syl).any fun y => y.op == .fencei

/-- A running cluster that the bundle discipline of R160 holds behind a stalled one. -/
def State.heldBehind (s : State) (p k : Nat) (cl : Cluster) : Bool :=
  let c := s.ctx p k
  let x := Ctx.cluster c cl
  !c.apart && x.ready && (beyondReach s p k cl || s.trapWaits p k cl || s.fenceiWaits p k cl || (decide (c.minFront < x.front) && s.trapAhead p k cl)
    || (s.syncAt p k x.pc && (decide (c.minFront < x.front)
      || Cluster.all.any (fun y => c.atBundle cl y && c.isStalled y))))

/-- The lowest stalled cluster of a wedged context. -/
def State.wedged (s : State) (p k : Nat) : Option Cluster :=
  let c := s.ctx p k
  if (s.core p).resident && !c.halted && c.trapDue.isNone && !c.reserved && Cluster.all.all (fun cl =>
      (Ctx.cluster c cl).isResting || (Ctx.cluster c cl).isJoined || c.isStalled cl || s.heldBehind p k cl) then
    Cluster.all.find? c.isStalled
  else none

/-- WEDGE (R188). -/
def execWedge (r : CtxRef) (s : State) : Out :=
  concludeEvent (fun s =>
    match s.wedged r.core r.ctx with
    | none => s
    | some cl =>
        match (Ctx.cluster (s.ctx r.core r.ctx) cl).status with
        | .stalled room reg _ =>
            s.raise r.core r.ctx ⟨if room then causeQOVF else causeQUNF, BitVec.ofNat 64 (reg % 64), cl, false⟩
        | _ => s) s

/-- TRAP_ENTRY (R396): a raised trap enters its handler once every reserved entry has its value. -/
def execTrapEntry (r : CtxRef) (s : State) : Out :=
  concludeEvent (fun s => if (s.core r.core).resident then s.finishTrap r.core r.ctx else s) s

end Sys2Proof.Machine
end

