-- ==== Sys2Proof/Machine/Engine.lean ====
section
/-! DEFINITION. Engine commands as records (R75 to R79, R264, R286), what makes one acceptable (R61, R82, R222, R246,
R267), and the state of the engine queues (R265 to R271). -/

namespace Sys2Proof.Machine

/-! ### Fields (R75) -/

/-- A record: its bytes. -/
abbrev Rec := List Byte

/-- Bits `lo` to `lo + len - 1` of the dword at an offset of a record. -/
def recBits (r : Rec) (off lo len : Nat) : Nat := bits (fieldOf r off 8) lo len

def recInt (r : Rec) (off lo len : Nat) : Int := signedOf len (recBits r off lo len)

def cmdKind (r : Rec) : Nat := recBits r 0x00 0 4
def cmdRnd (r : Rec) : Rnd := Rnd.ofCode (recBits r 0x00 4 2)
def cmdChain (r : Rec) : Bool := recBits r 0x00 6 1 == 1
def cmdRact (r : Rec) : Nat := recBits r 0x00 8 4
def cmdRing (r : Rec) : Nat := recBits r 0x00 12 4
def cmdSrcSlot (r : Rec) : Bool := recBits r 0x00 16 1 == 1
def cmdDstSlot (r : Rec) : Bool := recBits r 0x00 17 1 == 1
def cmdWaitMask (r : Rec) : Nat := recBits r 0x00 32 32
def cmdSigMask (r : Rec) : Nat := recBits r 0x08 0 32
def cmdSrc (r : Rec) : Nat := recBits r 0x10 0 56
def cmdDst (r : Rec) : Nat := recBits r 0x18 0 56
def cmdExt (r : Rec) : Nat → Nat
  | 0 => recBits r 0x20 0 32 | 1 => recBits r 0x20 32 32 | 2 => recBits r 0x28 0 32 | _ => recBits r 0x28 32 32
def cmdSStride (r : Rec) : Nat → Int
  | 0 => 0 | 1 => recInt r 0x30 0 32 | 2 => recInt r 0x30 32 32 | _ => recInt r 0x38 0 32
def cmdDStride (r : Rec) : Nat → Int
  | 0 => 0 | 1 => recInt r 0x40 0 32 | 2 => recInt r 0x40 32 32 | _ => recInt r 0x48 0 32
def cmdSfmt (r : Rec) : Fmt := Fmt.ofCode (recBits r 0x38 32 4)
def cmdDfmt (r : Rec) : Fmt := Fmt.ofCode (recBits r 0x38 36 4)
def cmdSscl (r : Rec) : Nat := recBits r 0x38 40 2
def cmdDscl (r : Rec) : Nat := recBits r 0x38 42 2
def cmdAxis (r : Rec) : Nat := recBits r 0x38 44 2
def cmdStid (r : Rec) : Nat := recBits r 0x48 32 12
def cmdDtid (r : Rec) : Nat := recBits r 0x48 48 12
def cmdSscale (r : Rec) : Nat := recBits r 0x50 0 56
def cmdDscale (r : Rec) : Nat := recBits r 0x58 0 56
def cmdKarg0 (r : Rec) : Nat := fieldOf r 0x60 8
def cmdKarg1 (r : Rec) : Nat := fieldOf r 0x68 8
def cmdCplw (r : Rec) : Nat := recBits r 0x70 0 56
def cmdNext (r : Rec) : Nat := recBits r 0x78 7 49 * 128

/-- The row count of GATHER and SCATTER (R76, R81). -/
def cmdCount (r : Rec) : Nat := recBits r 0x68 0 32

/-- Extents of the source and the destination region: the side that an index selects rows of has the row count along
dimension 1 (R81; log entry 75). -/
def cmdSrcExt (r : Rec) (d : Nat) : Nat := if d = 1 && cmdKind r == 3 then cmdCount r else cmdExt r d
def cmdDstExt (r : Rec) (d : Nat) : Nat := if d = 1 && cmdKind r == 4 then cmdCount r else cmdExt r d

/-- A command one of whose extents is zero moves no data (R77). -/
def cmdEmpty (r : Rec) : Bool := (List.range 4).any fun d => cmdExt r d == 0

/-- Kinds that read SRC, and kinds that write DST (R76). -/
def readsSrc (k : Nat) : Bool := k == 0 || k == 2 || k == 3 || k == 4 || k == 5 || k == 6
def writesDst (k : Nat) : Bool := k ≤ 5

/-! ### Validity (R61, R75 to R79, R264, R278, R286) -/

/-- What R61 finds wrong: a cause at an offset, where it applies. -/
abbrev Finding := Bool × Nat × Nat

/-- The finding at the lowest offset, the first among equals. -/
def worst : List Finding → Option (Nat × Nat)
  | [] => none
  | (b, cause, off) :: rest =>
      match worst rest with
      | some (c, o) => if b && off ≤ o then some (cause, off) else some (c, o)
      | none => if b then some (cause, off) else none

/-- The kinds a queue accepts (R264). -/
def queueTakes (q k : Nat) : Bool :=
  if q ≤ 1 then k == 0 || k == 1 || k == 2 || k == 5 else if q = 2 then k == 3 || k == 4 else k == 6

/-- A placement that R77 refuses for a format. -/
def placementBad (scl : Nat) (f : Fmt) (axis : Nat) : Bool :=
  let c := Fmt.code f
  scl == 3 || (scl == 0 && f.isBlock) || (scl != 0 && (c ≤ 2 || 12 ≤ c)) || (scl == 2 && axis != 0)

/-- The formats a kind refuses (R76). -/
def formatsBad (k : Nat) (s d : Fmt) : Bool :=
  if k = 0 || k = 3 || k = 4 then s != d
  else if k = 2 then s == .ra || d == .ra
  else if k = 5 then !(s == .bi4 || s == .bi8 || s == .bi16) || d != .bi16
  else false

/-- Facts of the issuing team's launch that the checks use. -/
structure LaunchFacts where
  ttcount : Nat
  persistent : Bool
  plots : Nat
  pkg : Nat
  deriving DecidableEq, Repr

/-- Ring actions and slot fields that R78 and R79 refuse.  DESIGN CHOICE (log entry 101): on a side that the kind does not
use as well, where R76 ignores fields and R79 makes no exception. -/
def cmdSlotFindings (r : Rec) : List Finding :=
  [(cmdRact r ≥ 7, causeILLEGAL, 0x01),
    (cmdSrcSlot r && !(cmdRact r == 3 || cmdRact r == 6), causeILLEGAL, 0x01),
    (cmdSrcSlot r && 2 ^ 22 ≤ cmdSrc r, causeILLEGAL, 0x10),
    (cmdDstSlot r && !(cmdRact r == 4 || cmdRact r == 5), causeILLEGAL, 0x01),
    (cmdDstSlot r && 2 ^ 22 ≤ cmdDst r, causeILLEGAL, 0x18)]

def cmdArgFindings (r : Rec) (x : LaunchFacts) : List Finding :=
  let k := cmdKind r
  let a := cmdKarg0 r
  let e0 := cmdExt r 0
  [((k == 3 || k == 4) && a % 4 != 0, causeALIGN, 0x60),
    (k == 5 && (bits a 0 4 == 0 || bits a 4 4 == 15 || bits a 8 2 == 3), causeILLEGAL, 0x60),
    (k == 5 && (cmdSscl r != 1 || cmdDscl r != 1), causeILLEGAL, 0x3D),
    (k == 5 && cmdExt r 3 != 1, causeILLEGAL, 0x2C),
    (k == 6 && (e0 % 16 != 0 || 4096 < e0), causeILLEGAL, 0x20),
    (k == 6 && bit a 25 && (!x.persistent || (!bit a 24 && (bits a 0 8 != x.pkg || x.plots ≤ bits a 26 14))),
      causeILLEGAL, 0x60)]

/-- Fabric-window addresses where R286 does not allow them. -/
def cmdFabricFindings (r : Rec) : List Finding :=
  let k := cmdKind r
  let ok := k == 0 || k == 1 || k == 2
  [(!ok && readsSrc k && !cmdSrcSlot r && isFabric (cmdSrc r), causeILLEGAL, 0x10),
    (!ok && writesDst k && !cmdDstSlot r && isFabric (cmdDst r), causeILLEGAL, 0x18),
    (!ok && readsSrc k && k != 6 && cmdSscl r == 1 && isFabric (cmdSscale r), causeILLEGAL, 0x50),
    (!ok && writesDst k && cmdDscl r == 1 && isFabric (cmdDscale r), causeILLEGAL, 0x58),
    ((k == 3 || k == 4) && isFabric (cmdKarg0 r), causeILLEGAL, 0x60),
    (k == 6 && bit (cmdKarg0 r) 24 && isFabric (cmdKarg1 r), causeILLEGAL, 0x68),
    (!ok && isFabric (cmdCplw r), causeILLEGAL, 0x70),
    (cmdChain r && isFabric (cmdNext r), causeILLEGAL, 0x78)]

/-- The byte of the lowest field that makes a placement bad (R61, R77): the format's, where it does not take the
placement, else the placement's own. -/
def placementAt (scl : Nat) (f : Fmt) : Nat := if placementBad (if scl = 3 then 1 else scl) f 0 then 0x3C else 0x3D

/-- What R61 finds in a command for a queue: cause and offset (CheckRecord of R267); padding is ignored (R9). -/
def checkCommand (r : Rec) (q : Nat) (x : LaunchFacts) : Option (Nat × Nat) :=
  let k := cmdKind r
  worst ([(!queueTakes q k, causeILLEGAL, 0x00)] ++ cmdSlotFindings r ++
    [(k ≤ 5 && formatsBad k (cmdSfmt r) (cmdDfmt r), causeFMTCOMBO, 0x3C),
      (k ≤ 5 && readsSrc k && placementBad (cmdSscl r) (cmdSfmt r) (cmdAxis r), causeILLEGAL,
        placementAt (cmdSscl r) (cmdSfmt r)),
      (writesDst k && placementBad (cmdDscl r) (cmdDfmt r) (cmdAxis r), causeILLEGAL,
        placementAt (cmdDscl r) (cmdDfmt r)),
      (readsSrc k && cmdStid r != 0 && x.ttcount ≤ cmdStid r, causeILLEGAL, 0x4C),
      (writesDst k && cmdDtid r != 0 && x.ttcount ≤ cmdDtid r, causeILLEGAL, 0x4E),
      (cmdCplw r % 8 != 0, causeALIGN, 0x70)]
    ++ cmdArgFindings r x ++ cmdFabricFindings r)

/-- The facts of a team's launch. -/
def State.factsOf (s : State) (t : Team) : LaunchFacts :=
  match t.work with
  | .launch slot _ _ =>
      (match s.launch slot with
       | some l => ⟨recBits l.record 0x18 16 13, t.persist, l.plots, s.hub.pkgid.toNat⟩
       | none => ⟨0, t.persist, 0, s.hub.pkgid.toNat⟩)
  | _ => ⟨0, false, 0, s.hub.pkgid.toNat⟩

/-! ### Regions (R64, R65, R77) -/

/-- One side of a command: a region with its scales. -/
structure Side where
  base : Nat
  scales : Nat
  fmt : Fmt
  scl : Nat
  axis : Nat
  ext : Nat → Nat
  stride : Nat → Int

/-- Bits of an element in memory. -/
def elemBits (f : Fmt) : Nat := if f = .ra then 128 else f.valueWidth

/-- Formats with a scale: block formats, and narrow floating formats with a placement (R77). -/
def sideScl (f : Fmt) (scl : Nat) : Nat :=
  if f.isBlock || (3 ≤ Fmt.code f && Fmt.code f ≤ 7) then scl else 0

def srcSide (r : Rec) (base : Nat) : Side :=
  ⟨base, cmdSscale r, cmdSfmt r, sideScl (cmdSfmt r) (cmdSscl r), cmdAxis r, cmdSrcExt r, cmdSStride r⟩
def dstSide (r : Rec) (base : Nat) : Side :=
  ⟨base, cmdDscale r, cmdDfmt r, sideScl (cmdDfmt r) (cmdDscl r), cmdAxis r, cmdDstExt r, cmdDStride r⟩

/-- An address moved by a signed distance. -/
def moveAddr (a : Nat) (d : Int) : Nat := (((a : Int) + d) % (2 ^ 64 : Int)).toNat

/-- A row: its indices i1, i2, i3. -/
abbrev Row := Nat × Nat × Nat

def Side.rowAddr (x : Side) (w : Row) : Nat :=
  moveAddr x.base (w.1 * x.stride 1 + w.2.1 * x.stride 2 + w.2.2 * x.stride 3)

def blocksOf (n : Nat) : Nat := (n + 31) / 32

/-- Bytes of a row (R64, R65). -/
def Side.rowBytes (x : Side) : Nat :=
  let w := elemBits x.fmt
  if x.scl = 2 then blocksOf (x.ext 0) * (1 + 4 * w)
  else if x.scl = 1 && x.axis = 0 then blocksOf (x.ext 0) * (4 * w)
  else (x.ext 0 * w + 7) / 8

/-- All rows of extents, i1 fastest. -/
def allRows (n1 n2 n3 : Nat) : List Row :=
  (List.range n3).flatMap fun i3 => (List.range n2).flatMap fun i2 => (List.range n1).map fun i1 => (i1, i2, i3)

def Side.rows (x : Side) : List Row := allRows (x.ext 1) (x.ext 2) (x.ext 3)

/-- An index: i0 and its row. -/
abbrev Index := Nat × Row

def Index.at_ (i : Index) : Nat → Nat
  | 0 => i.1 | 1 => i.2.1 | 2 => i.2.2.1 | _ => i.2.2.2

def Index.put (i : Index) (axis n : Nat) : Index :=
  match axis with
  | 0 => (n, i.2)
  | 1 => (i.1, n, i.2.2)
  | 2 => (i.1, i.2.1, n, i.2.2.2)
  | _ => (i.1, i.2.1, i.2.2.1, n)

/-- Extents of the scale array (R65). -/
def Side.scaleExt (x : Side) (d : Nat) : Nat := if d = x.axis then blocksOf (x.ext d) else x.ext d

def Side.scaleCount (x : Side) : Nat := x.scaleExt 0 * x.scaleExt 1 * x.scaleExt 2 * x.scaleExt 3

/-- Position of an element's scale code in the scale array. -/
def Side.scaleIndex (x : Side) (i : Index) : Nat :=
  let k := i.put x.axis (i.at_ x.axis / 32)
  k.at_ 0 + x.scaleExt 0 * (k.at_ 1 + x.scaleExt 1 * (k.at_ 2 + x.scaleExt 2 * k.at_ 3))

/-- Address of an element's scale code. -/
def Side.scaleAddr (x : Side) (i : Index) : Nat :=
  if x.scl = 2 then x.rowAddr i.2 + i.1 / 32 * (1 + 4 * elemBits x.fmt) else moveAddr x.scales (x.scaleIndex i)

/-- Bit address of an element. -/
def Side.elemAddr (x : Side) (i : Index) : Nat :=
  let w := elemBits x.fmt
  if x.scl = 2 then 8 * (x.rowAddr i.2 + i.1 / 32 * (1 + 4 * w) + 1) + i.1 % 32 * w
  else 8 * x.rowAddr i.2 + i.1 * w

/-! ### The footprint (R246) -/

/-- A run of bytes that a command touches, with the access it makes and the field it comes from. -/
structure Extent where
  va : Nat
  len : Nat
  kind : AccessKind
  write : Bool
  cplw : Bool

def sideRuns (x : Side) (rows : List Row) (kind : AccessKind) (write : Bool) : List Extent :=
  (rows.map fun w => ⟨x.rowAddr w, x.rowBytes, kind, write, false⟩)
    ++ (if x.scl = 1 then [⟨x.scales, x.scaleCount, kind, write, false⟩] else [])

/-- ENCODE's source block i, and the high plane of WIDE (R278, R281). -/
def encodeSource (r : Rec) (base i : Nat) : Side :=
  { srcSide r (base + i * bits (cmdKarg1 r) 0 32) with scales := cmdSscale r + i * bits (cmdKarg1 r) 32 32 }
def encodeHigh (r : Rec) (base : Nat) : Side :=
  let d := dstSide r base
  { d with base := moveAddr base (cmdDStride r 3), scales := cmdDscale r + d.scaleCount }

/-- Messages of an A2A (R283): m's row indices. -/
def a2aRows (r : Rec) : List Row :=
  if cmdExt r 0 = 0 then [] else allRows (cmdExt r 1) (cmdExt r 2) (cmdExt r 3)

/-- Runs of a command that are not ring slots; the rows of a slot have none, their scale array has its own.  Rows of
GATHER's source and SCATTER's destination are those that an index may name. -/
def cmdRuns (r : Rec) : List Extent :=
  let k := cmdKind r
  let s := srcSide r (cmdSrc r)
  let d := dstSide r (cmdDst r)
  let srcRows := if cmdSrcSlot r then [] else s.rows
  let dstRows := if cmdDstSlot r then [] else d.rows
  let nMsg := (a2aRows r).length
  let runs :=
    (if cmdEmpty r then [] else
      (if k == 0 || k == 2 || k == 3 || k == 4 then sideRuns s srcRows accRead false else [])
      ++ (if k = 5 then (List.range (bits (cmdKarg0 r) 0 4)).flatMap (fun i =>
          sideRuns (encodeSource r (cmdSrc r) i) srcRows accRead false) else [])
      ++ (if writesDst k then sideRuns d dstRows accWrite true else [])
      ++ (if k = 5 && bits (cmdKarg0 r) 8 2 = 2 then
          sideRuns (encodeHigh r (cmdDst r)) dstRows accWrite true else [])
      ++ (if k = 3 || k = 4 then [⟨cmdKarg0 r, 4 * (cmdExt r 1 * cmdExt r 2 * cmdExt r 3), accRead, false, false⟩]
          else []))
    ++ (if k = 6 && !cmdSrcSlot r then (a2aRows r).map (fun w =>
        ⟨s.rowAddr w, cmdExt r 0, accRead, false, false⟩) else [])
    ++ (if k = 6 && bit (cmdKarg0 r) 24 then [⟨cmdKarg1 r, 4 * nMsg, accRead, false, false⟩] else [])
    ++ (if cmdCplw r = 0 then [] else [⟨cmdCplw r, 8, accAtomic, true, true⟩])
  runs.filter (fun x => x.len != 0)

/-! ### Agents (R82, R222, R239) -/

/-- Whether R222 and R82 admit a command's access to a buffer code of the window; `own` says the target is the
core's own. -/
def engineAdmits (r : Rec) (x : Extent) (buf : Nat) (own : Bool) : Bool :=
  let k := cmdKind r
  if x.cplw then buf == 1
  else match buf with
  | 0 => k != 6
  | 1 => if k = 5 then !x.write else if k = 6 then !x.write else true
  | 2 => k == 0 && cmdSfmt r == .ra && cmdDfmt r == .ra
  | _ => x.write && own && (k == 0 || k == 2)

/-- Whether a window address names the issuing core itself. -/
def State.namesSelf (s : State) (p : Nat) (va : Nat) : Bool := s.ownPlace p (.window va)

/-- The size of operand memory with its scale codes (R82). -/
def opmemSize : Nat := 0x20000 + 2048

/-- CheckAgents of R267 for one run: XLATE or PROT at an address. -/
def State.checkRun (s : State) (p : Nat) (r : Rec) (x : Extent) : Option (Nat × Nat) :=
  if !isWindow x.va then none
  else match s.winCheck (s.team p) x.va with
  | some c => some (c, x.va)
  | none =>
      let w := winAddr x.va
      let last := winAddr (x.va + x.len - 1)
      if !engineAdmits r x w.buf (s.namesSelf p x.va) then some (causePROT, x.va)
      else if last.buf != w.buf || (w.buf == 3 && opmemSize < w.off + x.len) then some (causePROT, x.va)
      else none

/-- Address fields that a kind uses, whatever its extents: value, whether it is written, whether it is CPLW. -/
def cmdFields (r : Rec) : List Extent :=
  let k := cmdKind r
  let field (b : Bool) (va : Nat) (write cplw : Bool) : List Extent :=
    if b then [⟨va, 1, if write then accWrite else accRead, write, cplw⟩] else []
  field (readsSrc k && !cmdSrcSlot r) (cmdSrc r) false false
    ++ field (writesDst k && !cmdDstSlot r) (cmdDst r) true false
    ++ field (readsSrc k && k != 6 && cmdSscl r == 1) (cmdSscale r) false false
    ++ field (writesDst k && cmdDscl r == 1) (cmdDscale r) true false
    ++ field (k == 3 || k == 4) (cmdKarg0 r) false false
    ++ field (k == 6 && bit (cmdKarg0 r) 24) (cmdKarg1 r) false false
    ++ field (cmdCplw r != 0) (cmdCplw r) true true
    ++ field (cmdChain r) (cmdNext r) false false

/-- R82: a field that names operand memory where no destination of the kind and the core may. -/
def State.namesOpmem (s : State) (p : Nat) (r : Rec) (x : Extent) : Option (Nat × Nat) :=
  if isWindow x.va && (winAddr x.va).buf == 3 && !engineAdmits r x 3 (s.namesSelf p x.va) then some (causePROT, x.va)
  else none

def State.checkAgents (s : State) (p : Nat) (r : Rec) : Option (Nat × Nat) :=
  match ((cmdRuns r).findSome? (s.checkRun p r)).or ((cmdFields r).findSome? (s.namesOpmem p r)) with
  | some e => some e
  | none => if cmdKind r = 5 && cmdDstSlot r then some (causePROT, cmdDst r) else none

/-- Slots of operand memory that bytes of it lie in: slot data or its scale codes (R82). -/
def opSlotsOf (off len : Nat) : List Nat :=
  if off < 0x20000 then unitsOf 2048 off len else unitsOf 32 (off - 0x20000) len

/-- Slots a command fills (R313). -/
def cmdFills (r : Rec) : List Nat :=
  ((cmdRuns r).filter (fun x => x.write && isWindow x.va && (winAddr x.va).buf == 3)).flatMap
    fun x => opSlotsOf (winAddr x.va).off x.len

/-- PEND of a slot (R313). -/
def Team.pend (t : Team) (slot : Nat) : Nat :=
  (t.queues.map fun e => (e.2.cmds.filter fun c => c.fail.isNone && (cmdFills c.bytes).contains slot).length).sum

/-! ### Pins (R246) -/

/-- Runs in ascending order of address. -/
def insertExtent (x : Extent) : List Extent → List Extent
  | [] => [x]
  | y :: ys => if x.va ≤ y.va then x :: y :: ys else y :: insertExtent x ys
def sortExtents (xs : List Extent) : List Extent := xs.foldr insertExtent []

/-- Translate a run page by page: the pins with those found before, or a cause and address. -/
def State.pinRun (s : State) (p k : Nat) (kind : AccessKind) (user : Bool) :
    Nat → Nat → Nat → List TlbEntry → Except (Nat × Nat) (List TlbEntry) × State
  | 0, _, _, acc => (.ok acc, s)
  | fuel + 1, va, last, acc =>
      if last < va then (.ok acc, s)
      else if 2 ^ 56 ≤ va then (.error (causeXLATE, va), s)
      else match s.findPage p k false (s.team p).asid.toNat va with
      | (none, s) => (.error (causeXLATE, va), s)
      | (some e, s) =>
          if e.forbids kind user then (.error (causePROT, va), s)
          else State.pinRun s p k kind user fuel (e.va + 2 ^ e.log2) last (if acc.contains e then acc else acc ++ [e])

/-- The fault at the lower address. -/
def lowerFault (old : Option (Nat × Nat)) (e : Nat × Nat) : Option (Nat × Nat) :=
  match old with
  | some o => if o.2 ≤ e.2 then some o else some e
  | none => some e

/-- Translate every run: the pins, or the fault at the lowest address (R246). -/
def State.pinRuns (s : State) (p k : Nat) (user : Bool) (bad : Option (Nat × Nat)) :
    List Extent → List TlbEntry → Except (Nat × Nat) (List TlbEntry) × State
  | [], acc => (match bad with | some e => .error e | none => .ok acc, s)
  | x :: xs, acc =>
      if isWindow x.va || isFabric x.va then State.pinRuns s p k user bad xs acc
      else match s.pinRun p k x.kind user (x.len / 65536 + 2) x.va (x.va + x.len - 1) acc with
      | (.ok acc, s) => State.pinRuns s p k user bad xs acc
      | (.error e, s) => State.pinRuns s p k user (lowerFault bad e) xs acc

/-- PinFootprint of R267: the pins, or a cause with its value. -/
def State.pinFootprint (s : State) (p k : Nat) (user : Bool) (r : Rec) : Except (Nat × Nat) (List TlbEntry) × State :=
  match s.pinRuns p k user none (sortExtents (cmdRuns r)) [] with
  | (.ok pins, s) => (if 64 < pins.length then .error (causeILLEGAL, 0x20) else .ok pins, s)
  | e => e

/-- Pins a waiting submission of a cluster holds. -/
def WaitFor.pins : WaitFor → List TlbEntry
  | .enqRoom _ c => c.pins
  | .streamRoom x => x.pins
  | _ => []

def ClusterState.pins (x : ClusterState) : List TlbEntry :=
  match x.status with
  | .waiting w _ => w.pins
  | _ => []

/-- Every page a team pins. -/
def Team.pins (t : Team) : List TlbEntry :=
  (t.queues.flatMap fun e => e.2.cmds.flatMap Command.pins) ++ t.streams.flatMap Stream.pins
    ++ t.ctxs.flatMap fun e => Cluster.all.flatMap fun cl => (Ctx.cluster e.2 cl).pins

/-- The pages pinned in a chiplet's pin cache. -/
def State.chipPins (s : State) (chip : Nat) : List TlbEntry :=
  ((s.residents.filter fun e => chipOf e.1 == chip).flatMap fun e => e.2.team.pins).eraseDups

/-- New pins fit the pin cache of 8,192 entries. -/
def State.pinsFit (s : State) (p : Nat) (pins : List TlbEntry) : Bool :=
  let held := s.chipPins (chipOf p)
  held.length + (pins.filter fun e => !held.contains e).length ≤ 8192

/-! ### Reading a record (R62, R267) -/

/-- Where a record of 128 bytes lies: memory, or the team's own Y through the window. -/
def recordPlace (a : W64) (len : Nat) : Act Spot := do
  let va := a.toNat
  if isWindow va then do
    let s ← get
    let p := s.issue.core
    match s.winCheck s.curTeam va with
    | some c => trap c a
    | none =>
        if (winAddr va).buf != 1 || !s.namesSelf p va then trap causePROT a
        else match s.findWindow s.curTeam va len with
        | .ok y => return y
        | .bad c => trap c a
        | .wait => stop .hold
  else if isFabric va then trap causePROT a
  else if 2 ^ 56 ≤ va then trap causeXLATE a
  else match ← translateA va accRead with
    | .ok pa c => return .mem pa c
    | .bad c => trap c a

/-- The place an access's pieces are compared by. -/
def Spot.piece (y : Spot) (va len : Nat) : Piece :=
  match y with
  | .mem pa c => ⟨va, some (.phys pa c), 0, 0, len⟩
  | .pool _ a => ⟨va, some (.pool a), 0, 0, len⟩

/-- The bytes of a record, after the context's earlier stores to them have performed. -/
def readRecord (a : W64) (len : Nat) : Act Rec := do
  let y ← recordPlace a len
  let s ← get
  let p := s.issue.core
  holdUnless (s.cur.accesses.all fun e => !e.kind.isWrite || !s.sameWord p [y.piece a.toNat len] e.pieces)
  trapIf (s.spotDead y len) causeBANKDROP a
  let (bs, _, s) := s.readSpot p s.issue.ctx y len false false .clean
  set s
  return bs

/-! ### ENQ (R267) -/

def Command.fresh (r : Rec) (ctx : Nat) (pins : List TlbEntry) (fork : Nat) (user : Bool) :
    Command where
  bytes := r
  ctx := ctx
  pins := pins
  chained := false
  addr := 0
  fail := none
  started := false
  dataDone := false
  ringDone := false
  slot := none
  doneSectors := []
  waitSince := 0
  forkSeq := fork
  user := user
  flags := 0

/-- A completion word that lies outside the team's own scratchpad, or an A2A: PRECOMMIT's cases (R267). -/
def State.needsCommit (s : State) (p : Nat) (r : Rec) : Bool :=
  cmdKind r == 6 || (cmdCplw r != 0 && !(isWindow (cmdCplw r) && s.namesSelf p (cmdCplw r)))

/-- Whether a chained command's fetch failed and is to be made again (R271). -/
def Command.refetches (c : Command) : Bool := c.refetch && !c.started

/-- Commands a queue holds (R264, R269): one whose fetch failed is not held. -/
def EngineQueue.occ (q : EngineQueue) : Nat := (q.cmds.filter fun c => c.fail.isNone && !c.refetches).length

/-- The command that starts next and its position: the first not started, those before it past their data. -/
def EngineQueue.nextStart : List Command → Nat → Option (Nat × Command)
  | [], _ => none
  | c :: cs, i =>
      if !c.started then some (i, c) else if c.dataDone then EngineQueue.nextStart cs (i + 1) else none

/-- Replace the command at a position. -/
def EngineQueue.setCmd (e : EngineQueue) (i : Nat) (c : Command) : EngineQueue := { e with cmds := e.cmds.set i c }

/-- A command begins to wait when it has become the next of its queue to start (R349). -/
def Team.stamp (t : Team) (q : Nat) : Team :=
  let e := t.queue q
  match EngineQueue.nextStart e.cmds 0 with
  | some (i, c) =>
      if c.waitSince = 0 then
        { t.setQueue q (e.setCmd i { c with waitSince := t.waits + 1 }) with waits := t.waits + 1 }
      else t
  | Option.none => t

/-- Append a command. -/
def Team.appendCmd (t : Team) (q : Nat) (c : Command) : Team :=
  let e := t.queue q
  Team.stamp (t.setQueue q { e with
    cmds := e.cmds ++ [{ c with serial := e.nextSerial }]
    nextSerial := e.nextSerial + 1 }) q

/-- Wait with a submission until there is room; no wait instruction, so no migration point. -/
def waitRoom (w : WaitFor) : Act Unit :=
  modify fun s => { s with issue := { s.issue with
    waits := s.issue.waits ++ [(s.issue.cluster, w, s.issue.popped)] } }

/-- ENQ. -/
def execEnq (q : BitVec 2) (a : Src) (s : State) : Out :=
  concludeSyllable (do
    let a ← readSrc a
    trapIf (a.toNat % 128 != 0) causeALIGN a
    let r ← readRecord a 128
    let s ← get
    let p := s.issue.core
    match checkCommand r q.toNat (s.factsOf s.curTeam) with
    | some (c, off) => trap c (BitVec.ofNat 64 off)
    | none => pure ()
    match s.checkAgents p r with
    | some (c, va) => trap c (BitVec.ofNat 64 va)
    | none => pure ()
    if s.needsCommit p r then checkCommitted a
    let (pins, s) := s.pinFootprint p s.issue.ctx s.cur.user r
    match pins with
    | .error (c, v) => trap c (BitVec.ofNat 64 v)
    | .ok pins => do
        set s
        holdUnless (s.pinsFit p pins)
        let c := Command.fresh r s.issue.ctx pins s.cur.nextSeq s.cur.user
        modCtxA fun c => { c with nextSeq := c.nextSeq + 1 }
        if (s.curTeam.queue q.toNat).occ < 16 then modTeamA fun t => t.appendCmd q.toNat c
        else waitRoom (.enqRoom q.toNat c)) s

/-- ENQ_APPEND: a waiting ENQ finds a free entry. -/
def execEnqAppend (r : CtxRef) (s : State) : Out :=
  concludeEvent (fun s =>
    let t := s.team r.core
    match (t.ctx r.ctx).waitOf .a with
    | some (.enqRoom q c) =>
        if (t.queue q).occ < 16 && (s.core r.core).resident then
          let t := t.appendCmd q c
          s.setTeam r.core (t.setCtx r.ctx ((t.ctx r.ctx).endWait .a))
        else s
    | _ => s) s

/-! ### CHLINK, CHKICK, ENGSTAT (R269 to R271) -/

/-- CHLINK (R270). -/
def execChlink (q : BitVec 2) (a : Src) (s : State) : Out :=
  concludeSyllable (do
    let a ← readSrc a
    trapIf (a.toNat % 128 != 0) causeALIGN a
    modTeamA fun t =>
      let e := t.queue q.toNat
      t.setQueue q.toNat { e with link := a, act := e.act && a != 0 }) s

/-- The command that halted a queue. -/
def EngineQueue.halted (e : EngineQueue) : Option Command :=
  if e.halt then e.cmds.find? fun c => c.serial == e.haltAt else none

/-- A halted command as Resume(q, 0) leaves it (R271): a failed fetch is made again; a data step runs again from its
first byte; a command halted at step 4 makes it again.  What it does then follows what precedes the CHKICK in its context's
order (R253). -/
def Command.again (c : Command) (kick : Nat × Nat) : Command :=
  let c := { c with kick := some kick }
  if c.fail.isSome then { c with refetch := true, fail := none }
  else if c.started && !c.ringDone then
    { c with dataDone := false, doneSectors := [], flags := 0, early := none, away := [] }
  else { c with cplSent := false }

/-- Resume(q, s) of R271, called by a CHKICK at a place in its context's order. -/
def EngineQueue.resume (e : EngineQueue) (remove : Bool) (kick : Nat × Nat) : EngineQueue :=
  let e' := { e with halt := false, fault := 0 }
  match e.halted with
  | none => e'
  | some c =>
      if remove then
        let goesOn := c.chained && c.fail.isNone && cmdChain c.bytes
        { e' with cmds := e.cmds.filter (fun x => x.serial != c.serial), act := e.act && goesOn }
      else { e' with cmds := e.cmds.map fun x => if x.serial == c.serial then x.again kick else x }

/-- CHKICK (R270). -/
def execChkick (q : BitVec 2) (a : Src) (s : State) : Out :=
  concludeSyllable (do
    let a ← readSrc a
    let s ← get
    let k := s.issue.ctx
    let fork := s.cur.nextSeq
    modTeamA fun t =>
      let e := { t.queue q.toNat with lastKick := some k }
      if e.halt then
        let e := e.resume (a.getLsbD 0) (k, fork)
        Team.stamp (t.setQueue q.toNat { e with kicker := k, kickSeq := fork }) q.toNat
      else if !e.act && e.link != 0 then
        t.setQueue q.toNat { e with act := true, next := e.link.toNat, kicker := k, kickSeq := fork }
      else t.setQueue q.toNat e) s

/-- The status word of R269. -/
def EngineQueue.status (e : EngineQueue) : W64 :=
  let addr := if e.halt then (match e.halted with | some c => if c.chained then c.addr else 0 | none => 0)
    else if e.act then e.next else 0
  BitVec.ofNat 64 (bits e.fault.toNat 56 8 * 2 ^ 56 + bits addr 7 49 * 128 + (if e.halt then 2 ^ 6 else 0)
    + (if e.act then 2 ^ 5 else 0) + min e.occ 31)

/-- ENGSTAT (R269). -/
def execEngstat (q : BitVec 2) (d : Dst) (s : State) : Out :=
  concludeSyllable (do writeDst d ((← getTeam).queue q.toNat).status) s

/-! ### The queue's steps -/

/-- A queue halts at the command of a number (R271); if every context has already halted, the launch or task ends.
DESIGN CHOICE (log entry 104): a fault of an earlier command at step 4 takes the place of a later command's halt. -/
def State.haltQueue (s : State) (p q serial cause value : Nat) : State :=
  let s := s.modTeam p fun t => t.setQueue q { t.queue q with
    halt := true
    haltAt := serial
    fault := BitVec.ofNat 64 (cause * 2 ^ 56 + value % 2 ^ 56) }
  if (s.team p).allHalted then s.endByTrap p cause else s

/-- The counters of a mask, in order. -/
def maskBits (m : Nat) : List Nat := (List.range 32).filter fun i => bit m i

/-- The pre-start ring condition of a command (R78). -/
def ringReady (t : Team) (r : Rec) : Bool :=
  let g := t.ring (cmdRing r)
  match cmdRact r with
  | 3 | 6 => 1 ≤ g.filled
  | 4 | 5 => 1 ≤ g.free
  | _ => true

/-- Whether the start conditions of a command hold (R80). -/
def cmdReady (t : Team) (r : Rec) : Bool :=
  (maskBits (cmdWaitMask r)).all (fun i => 1 ≤ t.event i) && ringReady t r

/-- The pre-start action: the ring after it and the slot obtained. -/
def preStart (t : Team) (r : Rec) : Team × Option Nat :=
  let g := t.ring (cmdRing r)
  match cmdRact r with
  | 3 | 6 => (t.setRing (cmdRing r) g.take, some g.head)
  | 4 | 5 => (t.setRing (cmdRing r) g.claim, some g.tail)
  | _ => (t, none)

/-- The commands of a team that wait for counters, with when they began and what they want. -/
def Team.waitingCmds (t : Team) : List (Nat × Rec) :=
  t.queues.filterMap fun e =>
    if e.2.halt then Option.none
    else match EngineQueue.nextStart e.2.cmds 0 with
    | some (_, c) => if c.fail.isSome || c.refetches then Option.none else some (c.waitSince, c.bytes)
    | Option.none => Option.none

/-- The EVWAITs of a team that wait: when each began, its counter and amount. -/
def Team.waitingEvents (t : Team) : List (Nat × Nat × Nat) :=
  t.ctxs.filterMap fun e =>
    match e.2.waitOf .a with
    | some (.event ev n since) => some (since, ev, n)
    | _ => Option.none

/-- Whether an earlier waiter on one of these counters, whose condition holds, goes first (R349). -/
def Team.earlierWaiter (t : Team) (since : Nat) (evs : List Nat) : Bool :=
  t.waitingCmds.any (fun w => w.1 < since && cmdReady t w.2 && (maskBits (cmdWaitMask w.2)).any evs.contains)
    || t.waitingEvents.any (fun w => w.1 < since && evs.contains w.2.1 && w.2.2 ≤ t.event w.2.1)

/-- A fault the destination or source package reports when a command starts (R286). -/
def State.fabricStart (s : State) (r : Rec) : Option (Nat × Nat) :=
  let k := cmdKind r
  let vas := (if (k == 0 || k == 2) && !cmdSrcSlot r then [cmdSrc r] else [])
    ++ (if k ≤ 2 && !cmdDstSlot r then [cmdDst r] else [])
    ++ (if (k == 0 || k == 2) && cmdSscl r == 1 then [cmdSscale r] else [])
    ++ (if k ≤ 2 && cmdDscl r == 1 then [cmdDscale r] else []) ++ [cmdCplw r]
  (vas.filter isFabric).findSome? fun va =>
    let pkg := bits va 40 8
    if pkg = s.hub.pkgid.toNat || !Config.fabricRoute pkg then some (causeXLATE, va)
    else match Config.fabricFault (s.freeSeed + va) with
    | 1 => some (causeXLATE, va)
    | 2 => some (causePROT, va)
    | _ => none

/-- An ENCODE of the hub stands before a command of a team in its queue (R265, R282). -/
def Core.encodesAhead (c : Core) (q serial : Nat) : Bool := c.encodes.any fun e => e.queue == q &&
  match e.behind with
  | some (age, n) => age != c.team.age || n ≤ serial
  | none => true

/-- COMMAND_START (R80 step 1, R265, R345, R349).  DESIGN CHOICE (log entry 103): a command whose fabric-window address
faults in translation here has taken neither its waits nor its ring action, and has not started. -/
def execCommandStart (core q : Nat) (s : State) : Out :=
  concludeEvent (fun s =>
    let t := s.team core
    let e := t.queue q
    if !(s.core core).resident || e.halt then s
    else match EngineQueue.nextStart e.cmds 0 with
    | none => s
    | some (i, c) =>
        match c.fail with
        | some (cause, v) => s.haltQueue core q c.serial cause v.toNat
        | none =>
            let r := c.bytes
            if c.refetches || (s.core core).encodesAhead q c.serial then s
            else if cmdRact r != 0 && !(t.ring (cmdRing r)).isSet then
              s.haltQueue core q c.serial causeRINGERR (0x100 + cmdRing r)
            else if s.now < e.lastStart + 3 * e.pace.toNat || !cmdReady t r
                || t.earlierWaiter c.waitSince (maskBits (cmdWaitMask r)) then s
            else match s.fabricStart r with
            | some (cause, v) => s.draw.haltQueue core q c.serial cause v
            | none =>
                let t := (maskBits (cmdWaitMask r)).foldl (fun t n => t.setEvent n (t.event n - 1)) t
                let (t, slot) := preStart t r
                let keep := match cmdRact r, slot with
                  | 3, some x => e.obtained ++ [⟨cmdRing r, true, x, c.serial⟩]
                  | 4, some x => e.obtained ++ [⟨cmdRing r, false, x, c.serial⟩]
                  | _, _ => e.obtained
                let e := { e.setCmd i { c with started := true, slot := slot } with
                  lastStart := s.now
                  obtained := keep }
                s.setTeam core (t.setQueue q e)) s

/-! ### Retirement (R80 steps 3 to 5, R345, R350) -/

/-- Take the oldest slot that a claim-only or take-only action of an earlier command of the queue left for this ring
(R78, R345). -/
def takeObtained (ring : Nat) (take : Bool) (before : Nat) : List Obtained → Option (Nat × List Obtained)
  | [] => none
  | x :: xs =>
      if x.ring = ring && x.taken == take && x.serial < before then some (x.slot, xs)
      else (takeObtained ring take before xs).map fun y => (y.1, x :: y.2)

/-- The post-retire action: the team after it, or none where it must halt the queue. -/
def postRetire (t : Team) (q : Nat) (c : Command) : Option Team :=
  let r := c.bytes
  let n := cmdRing r
  let g := t.ring n
  let e := t.queue q
  let publish (i : Nat) (t : Team) : Option Team :=
    if g.slotState i == .claimed then some (t.setRing n (g.publish i)) else none
  let free (i : Nat) (t : Team) : Option Team :=
    if g.slotState i == .taken then some (t.setRing n (g.release i)) else none
  match cmdRact r, c.slot with
  | 1, _ =>
      (match takeObtained n false c.serial e.obtained with
       | some (i, rest) => publish i (t.setQueue q { e with obtained := rest })
       | none => none)
  | 2, _ =>
      (match takeObtained n true c.serial e.obtained with
       | some (i, rest) => free i (t.setQueue q { e with obtained := rest })
       | none => none)
  | 5, some i => publish i t
  | 6, some i => free i t
  | _, _ => some t

/-- Step 5: one signal; a counter at its top stays and raises TOKOVF in the command's context (R350). -/
def signalOne (ctx : Nat) (t : Team) (n : Nat) : Team :=
  if t.event n < 0xFFFF then t.setEvent n (t.event n + 1)
  else
    let x : CauseRec := ⟨causeTOKOVF, BitVec.ofNat 64 (2 ^ 22 + n * 2 ^ 16 + 0xFFFF), .c, true⟩
    t.setCtx ctx { t.ctx ctx with pending := (t.ctx ctx).pending ++ [x] }

/-- Whether the addition at a completion word performs: not now, never, sent to another package (R287), or now. -/
inductive Added where
  | wait
  | sent (s : State)
  | bad (cause : Nat)
  | done (s : State)

/-- RED.add.n64 of 1 at a spot, by an agent that is not a core (R80, R110, R468): at a poisoned word it is dropped
and logged. -/
def State.addOne (s : State) (cl : Client) (y : Spot) (n : Nat) : State :=
  let s := s.flushSpot y 8
  match y with
  | .pool q a =>
      let c := s.core q
      let dead := c.isDead a 8
      if !dead && c.poolPoison a 8 then s.post evREDDROP 0 (srcChip (chipOf q)) a 0
      else
        let old := if dead then 0 else leNat (c.poolRead a 8)
        s.setCore q (c.poolWrite s.cycles a (leBytes 8 ((old + n) % 2 ^ 64)) false)
  | .mem pa cached =>
      let (bs, bad, s) := s.homeRead cl pa 8 cached .clean
      if bad then s.post evREDDROP 0 srcHub pa 0
      else
        let s := s.physWrite cl none pa cached (leBytes 8 ((leNat bs + n) % 2 ^ 64)) false
        if cached && isHost pa then
          let r := s.writebackSector pa
          r.1.countTo cl wbackIx (if r.2 then 1 else 0)
        else s

/-- The package in which its completion word lies. -/
def State.cplPackage (s : State) (r : Rec) : Nat :=
  if isFabric (cmdCplw r) then bits (cmdCplw r) 40 8 else s.hub.pkgid.toNat

/-- Step 4: the addition at CPLW (R80, R271, R287); every package
written to other than the word's own has acknowledged its writes by then. -/
def State.completeWord (s : State) (p : Nat) (c : Command) : Added :=
  let va := cmdCplw c.bytes
  let t := s.team p
  if !c.away.isEmpty then .wait
  else if va = 0 then .done s
  else
    let own := isWindow va && s.namesSelf p va
    let s := if own then s else s.pairTerm p 0x10 va 1
    if t.suppressed && !own then .done s
    else if c.cplSent then .wait
    else if isFabric va then .sent (s.emit (.fabricAdd (bits va 40 8) (va % 2 ^ 40)))
    else if isWindow va then
      match s.findWindow t va 8 with
      | .wait => .wait
      | .bad cause => .bad cause
      | .ok y => .done (s.addOne (s.engineClient p c.ctx) y 1)
    else match c.pins.find? (fun e => e.covers t.asid.toNat va) with
    | none => .bad causeXLATE
    | some e =>
        let pa := e.paOf va
        if e.cached || !isHost pa then .done (s.addOne (s.engineClient p c.ctx) (.mem pa e.cached) 1)
        else if s.rootAdds pa then .done (s.draw.addOne (s.engineClient p c.ctx) (.mem pa false) 1)
        else .bad causeAMOTGT

/-- A command given by ENQ with CHAIN = 1 has been dequeued: the engine fetches from its NEXT (R83), unless a chain is
being fetched already (log entry 76). -/
def EngineQueue.dequeued (e : EngineQueue) (c : Command) : EngineQueue :=
  if !c.chained && cmdChain c.bytes && !e.act then
    { e with act := true, next := cmdNext c.bytes, kicker := c.ctx, kickSeq := c.forkSeq }
  else e

/-- Step 5 and the command's departure: flags to ENGFLAG, pins released (R246, R268). -/
def State.retireHead (s : State) (p q : Nat) (c : Command) : State :=
  let k := if c.chained then ((s.team p).queue q).lastKick.getD c.ctx else c.ctx
  let t := (maskBits (cmdSigMask c.bytes)).foldl (signalOne k) (s.team p)
  let e := t.queue q
  s.setTeam p (t.setQueue q (EngineQueue.dequeued { e with cmds := e.cmds.tail, flag := e.flag ||| c.flags } c))

/-- Host sectors reach host memory before step 3 (R468), counted to the command's context (R251). -/
def State.engineFlush (s : State) (p k : Nat) : State :=
  let r := s.writebackHost
  r.1.countEngine p k wbackIx r.2

/-- The accesses of a context that come before a place in its order have performed (R253). -/
def Ctx.forkClear (c : Ctx) (seq : Nat) : Bool := c.accesses.all fun a => seq ≤ a.seq

/-- What precedes the CHKICK that resumed a command has performed (R253, R271). -/
def Command.kickClear (c : Command) (t : Team) : Bool :=
  match c.kick with
  | some (k, seq) => (t.ctx k).forkClear seq
  | none => true

/-- COMMAND_RETIRE (R80 steps 3 to 5): a command before the one at which its queue halted still retires. -/
def execCommandRetire (core q : Nat) (s : State) : Out :=
  concludeEvent (fun s =>
    let t := s.team core
    let e := t.queue q
    match e.cmds with
    | [] => s
    | c :: _ =>
        if !(s.core core).resident || (e.halt && c.serial == e.haltAt) || !c.started || !c.dataDone || !c.kickClear t then s
        else
          let ring := if c.ringDone then some t else postRetire t q c
          match ring with
          | none => s.haltQueue core q c.serial causeRINGERR (0x100 + cmdRing c.bytes)
          | some t =>
              let t := t.setQueue q ((t.queue q).setCmd 0 { c with ringDone := true })
              let s := (s.setTeam core t).engineFlush core c.ctx
              match s.completeWord core c with
              | .wait => s
              | .sent s => s.modTeam core fun t =>
                  t.setQueue q ((t.queue q).setCmd 0 { c with ringDone := true, cplSent := true })
              | .bad cause => s.draw.haltQueue core q c.serial cause (cmdCplw c.bytes)
              | .done s => s.retireHead core q c) s

/-! ### Chains (R83, R270) -/

/-- The stores of a context that come before a place in its order have performed. -/
def Ctx.storesBefore (c : Ctx) (seq : Nat) : Bool := c.accesses.all fun a => !a.kind.isWrite || seq ≤ a.seq

/-- The bytes of a chained command, or a cause. -/
def State.fetchCommand (s : State) (p k va : Nat) : Found (Rec × State) :=
  let t := s.team p
  if isWindow va then
    match s.winCheck t va with
    | some c => .bad c
    | none =>
        if (winAddr va).buf != 1 || !s.namesSelf p va then .bad causePROT
        else match s.findWindow t va 128 with
        | .wait => .wait
        | .bad c => .bad c
        | .ok y =>
            if s.spotDead y 128 then .bad causeBANKDROP
            else let (bs, _, s) := s.readAt (s.engineClient p k) y 128 .clean; .ok (bs, s)
  else if isFabric va then .bad causePROT
  else if 2 ^ 56 ≤ va then .bad causeXLATE
  else match s.translate p k false t.asid.toNat va accRead (!t.supLaunch) with
  | (.bad c, _) => .bad c
  | (.ok pa cached, s) =>
      let (bs, _, s) := s.readAt (s.engineClient p k) (.mem pa cached) 128 .clean
      .ok (bs, s)

/-- What a fetched command is refused for: cause and value, or its pins (R270). -/
def State.checkFetched (s : State) (p k q : Nat) (va : Nat) (r : Rec) : Except (Nat × Nat) (List TlbEntry) × State :=
  match checkCommand r q (s.factsOf (s.team p)) with
  | some e => (.error e, s)
  | none =>
      match s.checkAgents p r with
      | some e => (.error e, s)
      | none =>
          if s.needsCommit p r && (s.team p).uncommitted then (.error (causePRECOMMIT, va), s)
          else s.pinFootprint p k (!(s.team p).supLaunch) r

/-- A context of the team waits with an ENQ for room in a queue; its command enters first (R267). -/
def Team.enqWaits (t : Team) (q : Nat) : Bool :=
  t.ctxs.any fun e => match e.2.waitOf .a with
    | some (.enqRoom n _) => n == q
    | _ => false

/-- Put a fetched command into its queue: at its end, or in the place of the one that is fetched again (R271). -/
def Team.putFetched (t : Team) (q : Nat) (c : Command) (again : Option Command) : Team :=
  match again with
  | Option.none => t.appendCmd q c
  | some old =>
      let e := t.queue q
      Team.stamp (t.setQueue q { e with
        cmds := e.cmds.map fun x => if x.serial == old.serial then { c with serial := old.serial } else x }) q

/-- CHAIN_FETCH (R270); a fetch that R271 repeats comes before the next one. -/
def execChainFetch (core q : Nat) (s : State) : Out :=
  concludeEvent (fun s =>
    let t := s.team core
    let e := t.queue q
    let k := e.kicker
    let again := e.cmds.find? Command.refetches
    let va := match again with | some c => c.addr | none => e.next
    if !(s.core core).resident || (!e.act && again.isNone) || 16 ≤ e.occ || e.cmds.any (fun c => c.fail.isSome)
        || t.enqWaits q || !(t.ctx k).storesBefore e.kickSeq then s
    else
      let put (s : State) (r : Rec) (pins : List TlbEntry) (fail : Option (Nat × W64)) : State :=
        let c := { Command.fresh r k pins e.kickSeq (!t.supLaunch) with chained := true, addr := va, fail := fail }
        s.modTeam core fun t =>
          let t := t.putFetched q c again
          let e := t.queue q
          if fail.isSome then t
          else if cmdChain r then t.setQueue q { e with next := cmdNext r }
          else t.setQueue q { e with act := false }
      match s.fetchCommand core k va with
      | .wait => s
      | .bad cause => put s (List.replicate 128 0) [] (some (cause, BitVec.ofNat 64 va))
      | .ok (r, s) =>
          match s.checkFetched core k q va r with
          | (.error (cause, v), s) => put s r [] (some (cause, BitVec.ofNat 64 v))
          | (.ok pins, s') => if s'.pinsFit core pins then put s' r pins none else s) s

end Sys2Proof.Machine
end

