-- ==== Sys2Proof/Machine/Tensor.lean ====
section
/-! DEFINITION. Tensor descriptors (R63 to R66), and the lines of tensors other than tensor 0 in the L2 slices (R68, R69,
R77, R233, R237): where a byte stands in a tile, how a line fills, is read and is written. -/

namespace Sys2Proof.Machine

/-! ### Tensor descriptors (R63, R66) -/

def tensorFmt (r : Rec) : Fmt := Fmt.ofCode (recBits r 0x38 0 4)
def tensorDims (r : Rec) : Nat := recBits r 0x38 4 2 + 1
def tensorAxis (r : Rec) : Nat := recBits r 0x38 6 2
def tensorRows (r : Rec) : Nat := 2 ^ recBits r 0x38 8 2
def tensorScl (r : Rec) : Nat := recBits r 0x38 10 2

/-- The size of an element in bytes, as far as alignment goes (R66). -/
def tensorUnit (r : Rec) : Nat := max 1 (elemBits (tensorFmt r) / 8)

/-- What R66 finds wrong in a tensor descriptor. -/
def tensorFindings (r : Rec) : List Finding :=
  let n := tensorDims r
  let c := Fmt.code (tensorFmt r)
  let w := tensorUnit r
  let h := tensorRows r
  [(recBits r 0x10 0 32 == 0, causeILLEGAL, 0x10),
    (2 ≤ n && recBits r 0x10 32 32 == 0, causeILLEGAL, 0x14),
    (3 ≤ n && recBits r 0x18 0 32 == 0, causeILLEGAL, 0x18),
    (n == 4 && recBits r 0x18 32 32 == 0, causeILLEGAL, 0x1C),
    (tensorScl r == 3, causeILLEGAL, 0x39),
    (tensorScl r == 0 && (tensorFmt r).isBlock, causeILLEGAL, 0x38),
    (tensorScl r != 0 && (c ≤ 2 || 12 ≤ c), causeILLEGAL, 0x38),
    (tensorScl r == 2 && tensorAxis r != 0, causeILLEGAL, 0x38),
    (tensorScl r != 0 && n ≤ tensorAxis r, causeILLEGAL, 0x38),
    (recBits r 0x00 0 56 % w != 0, causeALIGN, 0x00),
    (2 ≤ n && recBits r 0x20 0 40 % w != 0, causeALIGN, 0x20),
    (3 ≤ n && recBits r 0x28 0 40 % w != 0, causeALIGN, 0x28),
    (n == 4 && recBits r 0x30 0 40 % w != 0, causeALIGN, 0x30),
    (1 < h && recBits r 0x00 0 56 % (256 / h) != 0, causeALIGN, 0x00),
    (1 < h && 2 ≤ n && recBits r 0x20 0 40 % (256 / h) != 0, causeALIGN, 0x20)]

/-- The offset at which a table of descriptors fails, entry 0 aside (R61, R70). -/
def checkTensors (table : List Byte) (count : Nat) : Option Nat :=
  (List.range count).findSome? fun t =>
    if t = 0 then none
    else (worst (tensorFindings ((table.drop (64 * t)).take 64))).map fun e => 64 * t + e.2

/-! ### Where a byte stands (R64, R68) -/

/-- The extent of a dimension: 1 for those at or above NDIM + 1 (R64). -/
def tensorExt (r : Rec) (d : Nat) : Nat :=
  if tensorDims r ≤ d then 1
  else match d with
  | 0 => recBits r 0x10 0 32 | 1 => recBits r 0x10 32 32 | 2 => recBits r 0x18 0 32 | _ => recBits r 0x18 32 32

/-- The stride of a dimension: that of an unused one never counts (R64). -/
def tensorStride (r : Rec) (d : Nat) : Int :=
  if d = 0 || tensorDims r ≤ d then 0 else recInt r (0x18 + 8 * d) 0 40

/-- A tensor as a region. -/
def tensorSide (r : Rec) : Side :=
  ⟨recBits r 0x00 0 56, recBits r 0x08 0 56, tensorFmt r, sideScl (tensorFmt r) (tensorScl r), tensorAxis r, tensorExt r,
    tensorStride r⟩

/-- The descriptor of a tensor of the launch a team belongs to, from the copy of its table (R70). -/
def State.tensorDesc (s : State) (t : Team) (id : Nat) : Option Rec :=
  match t.work with
  | .launch slot _ _ =>
      (match s.launch slot with
       | some l => if id != 0 && 64 * id + 64 ≤ l.tensors.length then some ((l.tensors.drop (64 * id)).take 64) else none
       | none => none)
  | .sheaf .. => none

/-- A byte of a tensor: its row and its place in the row. -/
abbrev TensorPlace := Row × Nat

/-- The byte of a tensor that an address names: the first row that holds it, dimension 1 fastest (R64). -/
def tensorPlace (r : Rec) (va : Nat) : Option TensorPlace :=
  let x := tensorSide r
  (x.rows.find? fun w => x.rowAddr w ≤ va && va < x.rowAddr w + x.rowBytes).map fun w => (w, va - x.rowAddr w)

/-- The tag of the line that covers a byte (R68). -/
def tensorTag (r : Rec) (asid id : Nat) (w : TensorPlace) : TensorTag :=
  let h := tensorRows r
  ⟨asid, id, w.2 / (256 / h), w.1.1 / h, w.1.2.1, w.1.2.2⟩

/-- Its place in the tile, row by row. -/
def tileOffset (r : Rec) (w : TensorPlace) : Nat :=
  let h := tensorRows r
  w.1.1 % h * (256 / h) + w.2 % (256 / h)

/-- The address of a place of a tile, if a byte of the tensor lies there: none beyond the end of a row, or in a row at or
beyond EXT1 (R69). -/
def tileAddr (r : Rec) (tag : TensorTag) (off : Nat) : Option Nat :=
  let x := tensorSide r
  let h := tensorRows r
  let i1 := h * tag.ty + off / (256 / h)
  let b := 256 / h * tag.tx + off % (256 / h)
  if i1 < x.ext 1 && b < x.rowBytes then some (x.rowAddr (i1, tag.i2, tag.i3) + b) else none

/-! ### Lines (R68, R69, R233) -/

/-- The line of a tag, if a slice holds it. -/
def State.tensorLine (s : State) (tag : TensorTag) : Option TensorLine := s.tensorLines.find? fun l => l.tag == tag

/-- Replace the line of a tag. -/
def State.setTensorLine (s : State) (l : TensorLine) : State :=
  { s with tensorLines := s.tensorLines.map fun x => if x.tag == l.tag then l else x }

/-- How a team's command translates an address: by its pins, else by a walk. -/
def State.tensorPa (s : State) (asid : Nat) (pins : List TlbEntry) (va : Nat) : Option Nat :=
  ((pins.find? fun e => e.covers asid va).or (s.walk asid va)).map fun e => e.paOf va

/-- A line of the tag, entered in the slice that the page of its first in-tensor byte chooses (R69, R233). -/
def State.needLine (s : State) (cl : Client) (pins : List TlbEntry) (r : Rec) (tag : TensorTag) (pa : Nat) : State :=
  match s.tensorLine tag with
  | some _ => s
  | none =>
      let first := ((List.range 256).findSome? (tileAddr r tag)).bind (s.tensorPa cl.asid pins)
      let home := s.homeSlice (first.getD pa)
      let s := s.makeRoom cl home
      { s with tensorLines := s.tensorLines ++ [⟨tag, home.1, home.2, []⟩] }

/-- Fill what is missing of a 32-byte sector of a line from its words' flat homes: places that no byte of the tensor
fills stay empty (R69). -/
def State.fillTile (s : State) (cl : Client) (pins : List TlbEntry) (r : Rec) (l : TensorLine) (sector : Nat) : State :=
  let bytes := (List.range 32).foldl (fun (b : Table TensorByte) i =>
    let off := 32 * sector + i
    if (tfind b off).isSome then b
    else match (tileAddr r l.tag off).bind (s.tensorPa cl.asid pins) with
    | some pa => tput b off ⟨pa, s.phys pa, false, s.memPoison pa⟩
    | none => b) l.bytes
  s.setTensorLine { l with bytes := bytes }

/-- Read a run of bytes of one sector of a tile at a slice, with their mark: a hit, or a fill (R251).  A place that holds
no byte of the tensor reads as zero (R69). -/
def State.readTile (s : State) (cl : Client) (pins : List TlbEntry) (r : Rec) (tag : TensorTag) (off n pa : Nat) :
    List Byte × Bool × State :=
  let s := s.needLine cl pins r tag pa
  let need := (List.range n).map fun i => off + i
  let s := match s.tensorLine tag with
    | some l =>
        if need.all fun o => (tfind l.bytes o).isSome then s.countTo cl l2HitIx 1
        else (s.fillTile cl pins r l (off / 32)).countTo cl l2FillIx 1
    | none => s
  let got := match s.tensorLine tag with
    | some l => need.map (tfind l.bytes)
    | none => []
  (got.map fun b => (b.map TensorByte.value).getD 0, got.any fun b => (b.map TensorByte.mark).getD false, s)

/-- What was written through a line stands in it as modified (R237). -/
def State.writeTile (s : State) (cl : Client) (pins : List TlbEntry) (r : Rec) (tag : TensorTag) (off pa : Nat)
    (bs : List Byte) (bad : Bool) : State :=
  let s := s.needLine cl pins r tag pa
  match s.tensorLine tag with
  | some l =>
      s.setTensorLine { l with
        bytes := bs.zipIdx.foldl (fun t b => tput t (off + b.2) ⟨pa + b.2, b.1, true, bad⟩) l.bytes }
  | none => s

/-! ### Accesses through a tensor id (R77) -/

/-- A run of bytes of one access: within one sector of one line of the tensor, or outside the tensor. -/
structure TileRun where
  place : Option (TensorTag × Nat)
  off : Nat
  len : Nat

/-- Cut bytes at the borders of the tensor and of its lines' sectors. -/
def tileRuns (r : Rec) (asid id va : Nat) : Nat → Nat → List TileRun
  | _, 0 => []
  | i, n + 1 =>
      let at_ (j : Nat) : Option (TensorTag × Nat) :=
        (tensorPlace r (va + j)).map fun w => (tensorTag r asid id w, tileOffset r w)
      let joins (x y : Option (TensorTag × Nat)) : Bool :=
        match x, y with
        | none, none => true
        | some a, some b => a.1 == b.1 && a.2 + 1 == b.2 && a.2 / 32 == b.2 / 32
        | _, _ => false
      match tileRuns r asid id va (i + 1) n with
      | x :: xs => if joins (at_ i) x.place then ⟨at_ i, i, x.len + 1⟩ :: xs else ⟨at_ i, i, 1⟩ :: x :: xs
      | [] => [⟨at_ i, i, 1⟩]

/-- Read bytes of a C = 1 page through the lines of a tensor; those outside it through flat lines (R77). -/
def State.tensorRead (s : State) (cl : Client) (pins : List TlbEntry) (r : Rec) (id va pa n : Nat) (ecc : Ecc) :
    List Byte × Bool × State :=
  (tileRuns r cl.asid id va 0 n).foldl (fun (acc : List Byte × Bool × State) x =>
    let got := match x.place with
      | some (tag, off) => acc.2.2.readTile cl pins r tag off x.len (pa + x.off)
      | none => acc.2.2.homeRead cl (pa + x.off) x.len true ecc
    (acc.1 ++ got.1, acc.2.1 || got.2.1, got.2.2)) ([], false, s)

/-- Note in the lines of a tensor what a store through it wrote, after it has performed at the flat home (R237). -/
def State.tensorNote (s : State) (cl : Client) (pins : List TlbEntry) (r : Rec) (id va pa : Nat) (bs : List Byte)
    (bad : Bool) : State :=
  (tileRuns r cl.asid id va 0 bs.length).foldl (fun s x =>
    match x.place with
    | some (tag, off) => s.writeTile cl pins r tag off (pa + x.off) ((bs.drop x.off).take x.len) bad
    | none => s) s

end Sys2Proof.Machine
end

