-- ==== Sys2Proof/Machine/EngineData.lean ====
section
/-! DEFINITION. The data steps of engine commands (R80 step 2, R81, R273 to R281, R283 to R287). -/

namespace Sys2Proof.Machine

/-! ### Reading the sources -/

/-- What an engine finds: it must wait, its queue halts with a cause and value, or a result. -/
inductive Got (α : Type) where
  | wait
  | halt (cause value : Nat)
  | ok (x : α)

/-- Bytes read by virtual address, and the sectors (by virtual address) that carried poison. -/
structure Snap where
  bytes : Mem
  marks : List Nat

/-- A run cut at sector boundaries. -/
def sectorParts (va n : Nat) : List (Nat × Nat) :=
  (unitsOf 32 va n).map fun x =>
    let lo := max va (32 * x)
    (lo, min (va + n) (32 * x + 32) - lo)

/-- The spot of bytes of a command in this package: through the window, or by a pinned translation. -/
def State.engineSpot (s : State) (p : Nat) (c : Command) (va n : Nat) : Got Spot :=
  let t := s.team p
  if isWindow va then
    match s.findWindow t va n with
    | .wait => .wait
    | .bad cause => .halt cause va
    | .ok y => .ok y
  else match c.pins.find? (fun e => e.covers t.asid.toNat va) with
  | some e => .ok (.mem (e.paOf va) e.cached)
  | none => .halt causeXLATE va

/-- Read one sector part, through lines of a tensor of the launch (R77, R228, R286, R388). -/
def State.engineReadPart (s : State) (p : Nat) (c : Command) (tid : Nat) (x : Snap) (va n : Nat) : Got (Snap × State) :=
  if isFabric va then .ok (⟨Mem.write x.bytes va (freeBytes s.freeSeed n), x.marks⟩, s.drawBytes n)
  else match s.engineSpot p c va n with
  | .wait => .wait
  | .halt cause v => .halt cause v
  | .ok y =>
      match y with
      | .pool q a =>
          (match (s.core q).deadByte a n with
           | some b => .halt causeBANKDROP (va + (b - a))
           | none =>
               let (bs, bad, s) := s.readAt (s.engineClient p c.ctx) y n .clean
               .ok (⟨Mem.write x.bytes va bs, if bad then x.marks ++ [va / 32] else x.marks⟩, s))
      | .mem pa cached =>
          let cl := s.engineClient p c.ctx
          let (bs, bad, s) := match s.tensorDesc (s.team p) tid, cached with
            | some r, true => (s.flushSpot y n).tensorRead cl c.pins r tid va pa n .clean
            | _, _ => s.readAt cl y n .clean
          .ok (⟨Mem.write x.bytes va bs, if bad then x.marks ++ [va / 32] else x.marks⟩, s)

def State.engineReadParts (s : State) (p : Nat) (c : Command) (tid : Nat) : List (Nat × Nat) → Snap → Got (Snap × State)
  | [], x => .ok (x, s)
  | (va, n) :: rest, x =>
      match s.engineReadPart p c tid x va n with
      | .wait => .wait
      | .halt cause v => .halt cause v
      | .ok (x, s) => State.engineReadParts s p c tid rest x

/-- Read runs in order; a tensor id tags the lines. -/
def State.engineRead (s : State) (p : Nat) (c : Command) (tid : Nat) (runs : List (Nat × Nat)) : Got (Snap × State) :=
  s.engineReadParts p c tid (runs.flatMap fun r => sectorParts r.1 r.2) ⟨[], []⟩

/-! ### Elements of a region -/

/-- The bits of an element as read; past the extent it is zero (R65). -/
def Side.elem (x : Side) (m : Mem) (i : Index) : Nat :=
  if x.ext 0 ≤ i.1 then 0
  else
    let b := x.elemAddr i
    let w := elemBits x.fmt
    leNat (Mem.read m (b / 8) ((b % 8 + w + 7) / 8)) / 2 ^ (b % 8) % 2 ^ w

def Side.scale (x : Side) (m : Mem) (i : Index) : Nat := (Mem.byte m (x.scaleAddr i)).toNat

/-- Whether an index lies in the region. -/
def Side.holds (x : Side) (i : Index) : Bool :=
  i.1 < x.ext 0 && i.2.1 < x.ext 1 && i.2.2.1 < x.ext 2 && i.2.2.2 < x.ext 3

/-- Whether an element or its scale code came from a marked sector. -/
def Side.marked (x : Side) (marks : List Nat) (i : Index) : Bool :=
  let b := x.elemAddr i
  (unitsOf 32 (b / 8) ((b % 8 + elemBits x.fmt + 7) / 8)).any marks.contains
    || (x.scl != 0 && marks.contains (x.scaleAddr i / 32))

/-- The 32 indices of an element's block along an axis. -/
def groupOf (axis : Nat) (i : Index) : List Index :=
  let g := i.at_ axis / 32
  (List.range 32).map fun t => i.put axis (32 * g + t)

/-- Whether a scaled narrow block holds no value (R46). -/
def Side.narrowBad (x : Side) (m : Mem) (i : Index) : Bool :=
  x.scl != 0 && !x.fmt.isBlock && (x.scale m i == 0xFF || (groupOf x.axis i).any fun j =>
    x.holds j && (Num.finite? (x.fmt.num (x.elem m j))).isNone)

/-- The exact value of a source element; none where its block carries no value (R33, R34, R46, R275). -/
def Side.value (x : Side) (m : Mem) (i : Index) : Option Num :=
  let b := x.elem m i
  if x.fmt.isBlock then
    let e := x.scale m i
    if e = 0xFF then none else some (blockValue (elemBits x.fmt) e (signedOf (elemBits x.fmt) b))
  else if x.scl != 0 then
    if x.narrowBad m i then none else scaledNum (x.scale m i) (x.fmt.num b)
  else some (x.fmt.num b)

/-! ### What CONVERT writes (R273, R275) -/

/-- The destination block of an element: scale, mantissas and flags (R37, R46). -/
def convertBlock (x d : Side) (r : Rnd) (m : Mem) (i : Index) : Nat × List Int × Flags :=
  let vs := (groupOf d.axis i).map fun j => if d.holds j then x.value m j else some (.fin ⟨false, 0, 0⟩)
  if vs.all Option.isSome then toBlock (vs.map fun v => v.getD (.fin ⟨false, 0, 0⟩)) (elemBits d.fmt) r
  else (0xFF, vs.map (fun _ => 0), if x.fmt.isBlock then 0 else flagNV)

/-- A destination element: bits, scale code where the destination has one, and flags.  DESIGN CHOICE (log entry 102): where
a narrow source has no scale code and the destination takes one, it is 127, the code of scale 1. -/
def convertAt (x d : Side) (r : Rnd) (m : Mem) (i : Index) : Nat × Nat × Flags :=
  let w := elemBits d.fmt
  if x.fmt = d.fmt then (x.elem m i, if x.scl = 0 then 127 else x.scale m i, 0)
  else if d.fmt.isBlock then
    let (e, ms, f) := convertBlock x d r m i
    (wrapInt w (ms.getD (i.at_ d.axis % 32) 0), e, f)
  else match x.value m i with
  | none => let (b, f) := invalidElem d.fmt; (b % 2 ^ w, 127, f)
  | some v =>
      let (b, f) := if x.fmt.isBlock || x.scl != 0 then convertNum d.fmt r v else convertElem d.fmt x.fmt r (x.elem m i)
      (b % 2 ^ w, 127, f)

/-- Whether a destination element derives from marked input (R440). -/
def convertMarked (x d : Side) (marks : List Nat) (i : Index) : Bool :=
  if marks.isEmpty then false
  else if x.fmt != d.fmt && d.fmt.isBlock then (groupOf d.axis i).any fun j => d.holds j && x.marked marks j
  else if x.fmt != d.fmt && x.scl != 0 && !x.fmt.isBlock then
    (groupOf x.axis i).any fun j => x.holds j && x.marked marks j
  else x.marked marks i

/-! ### Packing rows -/

/-- A byte that a command writes, and whether it derives from poisoned input. -/
structure OutByte where
  va : Nat
  byte : Byte
  mark : Bool

/-- What a command writes at an index: bits, scale code, mark. -/
structure Cell where
  bits : Nat
  scale : Nat
  mark : Bool

/-- Pack elements of `w` bits into bytes; a byte is marked if a marked element has a bit in it. -/
def packCells (w : Nat) (va : Nat) (n : Nat) (cells : List Cell) : List OutByte :=
  let total := cells.zipIdx.foldl (fun a c => a + c.1.bits % 2 ^ w * 2 ^ (w * c.2)) 0
  (leBytes n total).zipIdx.map fun b =>
    ⟨va + b.2, b.1, (List.range ((8 * b.2 + 7) / w + 1 - 8 * b.2 / w)).any fun j =>
      ((cells[8 * b.2 / w + j]?).map Cell.mark).getD false⟩

/-- A row's bytes with its scale codes (R64, R65): elements past the extent of a packed last block are zero bits. -/
def rowOut (d : Side) (cell : Index → Cell) (w : Row) : List OutByte :=
  let b := elemBits d.fmt
  let e0 := d.ext 0
  let at_ (i0 : Nat) : Cell := if i0 < e0 then cell (i0, w) else ⟨0, 0, false⟩
  let va := d.rowAddr w
  if e0 = 0 then []
  else if d.scl = 2 then
    (List.range (blocksOf e0)).flatMap fun j =>
      let c := at_ (32 * j)
      let a := va + j * (1 + 4 * b)
      ⟨a, BitVec.ofNat 8 c.scale, c.mark⟩ :: packCells b (a + 1) (4 * b) ((List.range 32).map fun t => at_ (32 * j + t))
  else
    let row := packCells b va d.rowBytes ((List.range e0).map at_)
    if d.scl = 1 then
      row ++ (((List.range e0).filter fun i0 => d.axis != 0 || i0 % 32 == 0).map fun i0 =>
        let c := at_ i0
        ⟨d.scaleAddr (i0, w), BitVec.ofNat 8 c.scale, c.mark⟩)
    else row

/-- Sectors a row of the destination writes, its scale codes among them. -/
def rowSectors (d : Side) (w : Row) : List Nat :=
  unitsOf 32 (d.rowAddr w) d.rowBytes
    ++ (if d.scl = 1 then ((List.range (d.ext 0)).map fun i0 => d.scaleAddr (i0, w) / 32).eraseDups else [])

/-! ### Writing the destination (R277) -/

/-- Bytes of a sector, the later of two writes to one byte standing. -/
def sectorBytes (outs : List OutByte) (x : Nat) : List (Option Byte) :=
  (List.range 32).map fun i => ((outs.filter fun o => o.va == 32 * x + i).getLast?).map OutByte.byte

/-- The runs of bytes present in a sector, by offset. -/
def presentRuns : Nat → List (Option Byte) → List (Nat × List Byte)
  | _, [] => []
  | i, none :: rest => presentRuns (i + 1) rest
  | i, some b :: rest =>
      match presentRuns (i + 1) rest with
      | (j, bs) :: more => if j = i + 1 then (i, b :: bs) :: more else (i, [b]) :: (j, bs) :: more
      | [] => [(i, [b])]

/-- The aligned dwords that bytes at an address lie in, bytes not written taken as zero. -/
def State.engineTerms (s : State) (p va : Nat) (bs : List Byte) : State :=
  s.pairDwords p (va / 8 * 8) (List.replicate (va % 8) 0 ++ bs)

/-- The key of a poison mark on operand memory. -/
def opmemSector (off : Nat) : Nat := 16384 + off / 32

/-- Write bytes into operand memory. -/
def Core.opmemWrite (c : Core) (off : Nat) (bs : List Byte) (bad : Bool) : Core :=
  let x := opmemSector off
  let kept := if bad || (off % 32 == 0 && bs.length == 32) then c.poison.filter (fun y => y != x) else c.poison
  { c with
    opmem := Mem.write c.opmem off bs
    poison := if bad then kept ++ [x] else kept }

/-- Write one run inside a sector; what leaves the own scratchpad makes terms and may be suppressed (R434, R435). -/
def State.engineWriteRun (s : State) (p : Nat) (c : Command) (va : Nat) (bs : List Byte) (bad : Bool) : Got State :=
  let t := s.team p
  let outside (s : State) (f : State → State) : State :=
    let s := s.engineTerms p va bs
    if t.suppressed then s else f s
  if isFabric va then .ok (outside s fun s => s.emit (.fabric (bits va 40 8) (va % 2 ^ 40) bs))
  else if isWindow va && (winAddr va).buf == 3 then
    .ok (s.modCore p fun k => k.opmemWrite (winAddr va).off bs bad)
  else match s.engineSpot p c va bs.length with
  | .wait => .wait
  | .halt cause v => .halt cause v
  | .ok y =>
      match y with
      | .pool q _ =>
          let write (s : State) : State := s.writeSpot (s.engineClient p c.ctx) none y bs bad
          if q = p then .ok (write s) else .ok (outside s write)
      | .mem pa cached =>
          let cl := s.engineClient p c.ctx
          let tid := cmdDtid c.bytes
          .ok (outside s fun s =>
            let s' := s.writeSpot cl none y bs bad
            let s' := match s.tensorDesc t tid with
              | some r => if cached && !s.writeDropped pa then s'.tensorNote cl c.pins r tid va pa bs bad else s'
              | none => s'
            s'.modCore p fun k => { k with l1 := (wordsOf pa bs.length).foldl tdel k.l1 })

def State.engineWriteRuns (s : State) (p : Nat) (c : Command) (x : Nat) (bad : Bool) :
    List (Nat × List Byte) → Got State
  | [] => .ok s
  | (i, bs) :: rest =>
      match s.engineWriteRun p c (32 * x + i) bs bad with
      | .ok s => State.engineWriteRuns s p c x bad rest
      | g => g

/-- Write the sectors of some outputs, each as one unit. -/
def State.engineWrite (s : State) (p : Nat) (c : Command) (outs : List OutByte) : List Nat → Got State
  | [] => .ok s
  | x :: xs =>
      let mine := outs.filter fun o => o.va / 32 == x
      match s.engineWriteRuns p c x (mine.any OutByte.mark) (presentRuns 0 (sectorBytes mine x)) with
      | .ok s => State.engineWrite s p c outs xs
      | g => g

/-! ### The addresses of a started command (R79) -/

/-- The window address of a byte of the team's own Y. -/
def State.ownYAddr (s : State) (p off : Nat) : Nat :=
  0xFE * 2 ^ 48 + s.logicalOf p * 2 ^ 32 + 2 ^ 22 + off

/-- SRC and DST, in the ring slot the command obtained where they are slot offsets. -/
def State.slotAddr (s : State) (p : Nat) (c : Command) (slot : Bool) (field : Nat) : Nat :=
  if slot then
    let g := (s.team p).ring (cmdRing c.bytes)
    s.ownYAddr p (g.offset (c.slot.getD 0) + field)
  else field

def State.srcAddr (s : State) (p : Nat) (c : Command) : Nat := s.slotAddr p c (cmdSrcSlot c.bytes) (cmdSrc c.bytes)
def State.dstAddr (s : State) (p : Nat) (c : Command) : Nat := s.slotAddr p c (cmdDstSlot c.bytes) (cmdDst c.bytes)

/-! ### The data step of a command -/

/-- The command whose data step runs, with its position (R265). -/
def EngineQueue.atData : List Command → Nat → Option (Nat × Command)
  | [], _ => none
  | c :: cs, i => if c.started && !c.dataDone then some (i, c) else if c.started then EngineQueue.atData cs (i + 1) else none

/-- The command of a queue that may do a part of its data step now; one that runs it again follows the CHKICK that
resumed it too (R253, R271). -/
def State.dataCommand (s : State) (p q kind : Nat) : Option (Nat × Command) :=
  let e := (s.team p).queue q
  if !(s.core p).resident || e.halt then none
  else match EngineQueue.atData e.cmds 0 with
  | some (i, c) =>
      if cmdKind c.bytes == kind && ((s.team p).ctx c.ctx).forkClear c.forkSeq
          && c.kickClear (s.team p) then some (i, c) else none
  | none => none

/-- Packages other than that of the completion word that sectors of a command lie in (R286, R287). -/
def State.awayOf (s : State) (r : Rec) (sectors : List Nat) : List Nat :=
  (((sectors.map (32 * ·)).filter isFabric).map fun va => bits va 40 8).eraseDups.filter fun k => k != s.cplPackage r

/-- A command has done sectors: with all of them its data step ends, and the next command may begin to wait. -/
def State.dataDone (s : State) (p q i : Nat) (c : Command) (sectors all : List Nat) (flags : BitVec 8) : State :=
  let doneNow := c.doneSectors ++ sectors.filter (fun x => !c.doneSectors.contains x)
  let c := { c with
    doneSectors := doneNow
    away := if (s.team p).suppressed then c.away
      else c.away ++ (s.awayOf c.bytes sectors).filter fun k => !c.away.contains k
    dataDone := all.all doneNow.contains
    flags := c.flags ||| flags }
  s.modTeam p fun t => Team.stamp (t.setQueue q ((t.queue q).setCmd i c)) q

/-- A step of a command's data: the sectors chosen now (all that are left where none are chosen), the runs to read
for the rows that hold them, and what is then written. -/
def State.dataStep (s : State) (p q i : Nat) (c : Command) (sel : Option (List Nat)) (d : Side) (rows : List Row)
    (reads : List Row → List (Nat × Nat)) (cell : Snap → Index → Cell) (flags : Snap → List Row → BitVec 8) : State :=
  let all := (rows.flatMap fun w => rowSectors d w).eraseDups
  let left := all.filter fun x => !c.doneSectors.contains x
  let now := match sel with
    | some xs => left.filter xs.contains
    | none => left
  let mine := rows.filter fun w => (rowSectors d w).any now.contains
  match s.engineRead p c (cmdStid c.bytes) (reads mine) with
  | .wait => s
  | .halt cause v => s.haltQueue p q c.serial cause v
  | .ok (m, s1) =>
      let outs := (mine.flatMap fun w => rowOut d (cell m) w).filter fun o => now.contains (o.va / 32)
      match s1.engineWrite p c outs now with
      | .wait => s
      | .halt cause v => s1.haltQueue p q c.serial cause v
      | .ok s2 => s2.dataDone p q i c now all (flags m mine)

/-- Rows of a region that share a block with some rows along an axis of 1 to 3. -/
def rowsWithBlocks (x : Side) (axis : Nat) (rows : List Row) : List Row :=
  if axis = 0 then rows
  else (rows.flatMap fun w => ((groupOf axis (0, w)).map Prod.snd).filter fun v => x.holds (0, v)).eraseDups

/-- Runs of the elements of rows and of their scale codes. -/
def sideReads (x : Side) (rows : List Row) : List (Nat × Nat) :=
  (rows.flatMap fun w =>
    (if x.scl = 1 then ((List.range (x.ext 0)).map fun i0 => x.scaleAddr (i0, w)).eraseDups.map (fun a => (a, 1)) else [])
      ++ [(x.rowAddr w, x.rowBytes)])

def flagByte (f : Flags) : BitVec 8 := f.zeroExtend 8

/-- COPY and CONVERT (R273, R275). -/
def State.moveStep (s : State) (p q i : Nat) (c : Command) (sel : Option (List Nat)) : State :=
  let r := c.bytes
  let x := srcSide r (s.srcAddr p c)
  let d := dstSide r (s.dstAddr p c)
  let axis := if d.fmt.isBlock && x.fmt != d.fmt then d.axis else if x.scl != 0 && x.fmt != d.fmt then x.axis else 0
  s.dataStep p q i c sel d d.rows (fun rows => sideReads x (rowsWithBlocks x axis rows))
    (fun m j =>
      let v := convertAt x d (cmdRnd r) m.bytes j
      ⟨v.1, v.2.1, convertMarked x d m.marks j⟩)
    (fun m rows => flagByte (orFlags (rows.flatMap fun w =>
      (List.range (d.ext 0)).map fun i0 => (convertAt x d (cmdRnd r) m.bytes (i0, w)).2.2)))

/-- COPY (R273). -/
def execCopy (core q : Nat) (sel : Option (List Nat)) (s : State) : Out :=
  concludeEvent (fun s =>
    match s.dataCommand core q 0 with
    | some (i, c) => s.moveStep core q i c sel
    | none => s) s

/-- CONVERT (R275). -/
def execConvert (core q : Nat) (sel : Option (List Nat)) (s : State) : Out :=
  concludeEvent (fun s =>
    match s.dataCommand core q 2 with
    | some (i, c) => s.moveStep core q i c sel
    | none => s) s

/-- FILL (R274). -/
def execFill (core q : Nat) (sel : Option (List Nat)) (s : State) : Out :=
  concludeEvent (fun s =>
    match s.dataCommand core q 1 with
    | some (i, c) =>
        let r := c.bytes
        let d := dstSide r (s.dstAddr core c)
        let v := if d.fmt = .ra then 0 else cmdKarg0 r
        s.dataStep core q i c sel d d.rows (fun _ => []) (fun _ _ => ⟨v, cmdKarg1 r, false⟩) (fun _ _ => 0)
    | none => s) s

/-! ### GATHER and SCATTER (R81, R276) -/

/-- Position of a row's index in the index array. -/
def indexPos (r : Rec) (w : Row) : Nat := w.1 + cmdExt r 1 * (w.2.1 + cmdExt r 2 * w.2.2)

/-- The index of row j of its plane, from the array as read. -/
def indexAt (r : Rec) (m : Mem) (w : Row) : Nat := leNat (Mem.read m (cmdKarg0 r + 4 * indexPos r w) 4)

def oobFlag : BitVec 8 := 2 ^ 5

/-- Rows moved: destination row, source row (none for a zero row). -/
def gatherMoves (r : Rec) (m : Mem) : List (Row × Option Row) :=
  let count := cmdCount r
  (allRows (cmdExt r 1) (cmdExt r 2) (cmdExt r 3)).filterMap fun w =>
    let ix := indexAt r m w
    let other : Row := (ix, w.2)
    if cmdKind r = 3 then some (w, if ix < count then some other else none)
    else if ix < count then some (other, some w) else none

/-- One move's bytes: the row as it stands, elements past the extent of a packed block as zero bits (R65). -/
def moveOut (x d : Side) (m : Snap) (mv : Row × Option Row) : List OutByte :=
  rowOut d (fun i =>
    match mv.2 with
    | none => ⟨0, 0, false⟩
    | some w => ⟨x.elem m.bytes (i.1, w), if x.scl = 0 then 127 else x.scale m.bytes (i.1, w), x.marked m.marks (i.1, w)⟩) mv.1

/-- Each sector that moves write, with the number of the last move that covers it, in the order of those. -/
def moveSectors (d : Side) (moves : List (Row × Option Row)) : List (Nat × Nat) :=
  (moves.zipIdx.flatMap fun mv => (rowSectors d mv.1.1).map fun x => (mv.2, x)).foldl
    (fun acc e => acc.filter (fun y => y.2 != e.2) ++ [e]) []

/-- The sectors a step writes: every one that is left, or the chosen ones of the first row that has some left, so that
rows perform in ascending j (R276); a sector that rows share is written once, with the last of them (R389, log entry
109). -/
def movesNow (left : List (Nat × Nat)) (sel : Option (List Nat)) : List Nat :=
  match sel, left with
  | none, _ => left.map Prod.snd
  | some _, [] => []
  | some ys, e :: _ => ((left.filter fun x => x.1 == e.1).map Prod.snd).filter ys.contains

/-- The moves that write some of these sectors. -/
def movesOver (d : Side) (moves : List (Row × Option Row)) (now : List Nat) : List (Row × Option Row) :=
  moves.filter fun mv => (rowSectors d mv.1).any now.contains

/-- What moves write to these sectors; of two bytes for one address the later row's stands. -/
def movesOut (x d : Side) (m : Snap) (moves : List (Row × Option Row)) (now : List Nat) : List OutByte :=
  (moves.flatMap (moveOut x d m)).filter fun o => now.contains (o.va / 32)

/-- The index array as the engine read it before the first row moved, or as it reads it now (R276). -/
def State.indexArray (s : State) (p : Nat) (c : Command) : Got (Snap × State) :=
  match c.early with
  | some (m, marks) => .ok (⟨m, marks⟩, s)
  | none => s.engineRead p c 0 [(cmdKarg0 c.bytes, 4 * (cmdExt c.bytes 1 * cmdExt c.bytes 2 * cmdExt c.bytes 3))]

/-- The flag that an index out of range sets (R268, R276). -/
def oobOf (r : Rec) (ix : Mem) : BitVec 8 :=
  if (allRows (cmdExt r 1) (cmdExt r 2) (cmdExt r 3)).any (fun w => cmdCount r ≤ indexAt r ix w) then oobFlag else 0

/-- The data step of GATHER and SCATTER; a command with a zero extent reads no index (R77). -/
def State.gatherStep (s : State) (p q i : Nat) (c : Command) (sel : Option (List Nat)) : State :=
  let r := c.bytes
  let x := srcSide r (s.srcAddr p c)
  let d := dstSide r (s.dstAddr p c)
  if cmdEmpty r then s.dataDone p q i c [] [] 0
  else match s.indexArray p c with
  | .wait => s
  | .halt cause v => s.haltQueue p q c.serial cause v
  | .ok (ix, s1) =>
      let c := { c with early := some (ix.bytes, ix.marks) }
      let moves := gatherMoves r ix.bytes
      let all := moveSectors d moves
      let now := movesNow (all.filter fun e => !c.doneSectors.contains e.2) sel
      let mine := movesOver d moves now
      (match s1.engineRead p c (cmdStid r) (mine.flatMap fun mv => sideReads x mv.2.toList) with
       | .wait => s
       | .halt cause v => s1.haltQueue p q c.serial cause v
       | .ok (m, s2) =>
           (match s2.engineWrite p c (movesOut x d m mine now) now with
            | .wait => s
            | .halt cause v => s2.haltQueue p q c.serial cause v
            | .ok s3 => s3.dataDone p q i c now (all.map Prod.snd) (oobOf r ix.bytes)))

/-- GATHER (R81, R276). -/
def execGather (core q : Nat) (sel : Option (List Nat)) (s : State) : Out :=
  concludeEvent (fun s =>
    match s.dataCommand core q 3 with
    | some (i, c) => s.gatherStep core q i c sel
    | none => s) s

/-- SCATTER (R81, R276). -/
def execScatter (core q : Nat) (sel : Option (List Nat)) (s : State) : Out :=
  concludeEvent (fun s =>
    match s.dataCommand core q 4 with
    | some (i, c) => s.gatherStep core q i c sel
    | none => s) s

/-! ### ENCODE (R278 to R281) -/

/-- What the Deckle stage makes of a block: none where a source scale is 0xFF; else Eout, the bound and the
mantissas (R279). -/
structure Coded where
  eout : Nat
  bound : Nat
  mants : List Int

/-- One block position from the sources' scales and mantissas. -/
def deckle (ws power : Nat) (src : List (Nat × List Int)) : Option Coded :=
  if src.any (fun x => x.1 == 0xFF) then none
  else
    let es := src.map Prod.fst
    let emin := es.foldl min (es.headD 0)
    let emax := es.foldl max 0
    let coef (i : Nat) : Nat := (i + 1) ^ power
    let csum := ((List.range src.length).map coef).sum
    let ms := (List.range 32).map fun t => (src.zipIdx.map fun x =>
      (coef x.2 : Int) * x.1.2.getD t 0 * 2 ^ (x.1.1 - emin)).sum
    some ⟨emin + 16 - ws, 2 ^ (ws - 1) * csum * 2 ^ (emax - emin), ms⟩

/-- R280 and R281's tests. -/
def fitsPlain : Option Coded → Bool
  | none => true
  | some c => c.bound ≤ 32767 && c.eout ≤ 254
def fitsWide : Option Coded → Bool
  | none => true
  | some c => c.bound ≤ 2 ^ 30 - 2 ^ 15 && c.eout + 15 ≤ 254

/-- A block's sources at an index: scales from what was read before the first byte was written (R280). -/
def encodeBlock (r : Rec) (src : Nat) (sc m : Mem) (i : Index) : Option Coded :=
  let n := bits (cmdKarg0 r) 0 4
  let sides := (List.range n).map fun j => encodeSource r src j
  let ws := elemBits (cmdSfmt r)
  deckle ws (bits (cmdKarg0 r) 4 4) (sides.map fun x =>
    (x.scale sc i, (groupOf x.axis i).map fun j => if x.holds j then signedOf ws (x.elem m j) else 0))

/-- The first index of each block, in the order of the scale codes. -/
def blockStarts (d : Side) : List Index :=
  (allRows (d.scaleExt 1) (d.scaleExt 2) (d.scaleExt 3)).flatMap fun w =>
    (List.range (d.scaleExt 0)).map fun i0 =>
      let k : Index := (i0, w)
      k.put d.axis (32 * k.at_ d.axis)

/-- One element of a plane: the whole mantissa, its low 15 bits, or the rest (R281). -/
inductive Plane where
  | single | low | high
  deriving DecidableEq

def planeCell (pl : Plane) (b : Option Coded) (t : Nat) : Cell :=
  match b with
  | none => ⟨0, 0xFF, false⟩
  | some c =>
      let m := c.mants.getD t 0
      match pl with
      | .single => ⟨wrapInt 16 m, c.eout, false⟩
      | .low => ⟨wrapInt 16 (m % 2 ^ 15), c.eout, false⟩
      | .high => ⟨wrapInt 16 ((m - m % 2 ^ 15) / 2 ^ 15), c.eout + 15, false⟩

def encodeMarked (r : Rec) (src : Nat) (marks : List Nat) (i : Index) : Bool :=
  !marks.isEmpty && (List.range (bits (cmdKarg0 r) 0 4)).any fun j =>
    let x := encodeSource r src j
    (groupOf x.axis i).any fun k => x.holds k && x.marked marks k

def encodeCell (r : Rec) (src : Nat) (d : Side) (pl : Plane) (sc m : Snap) (i : Index) : Cell :=
  let c := planeCell pl (encodeBlock r src sc.bytes m.bytes i) (i.at_ d.axis % 32)
  { c with mark := encodeMarked r src (sc.marks ++ m.marks) i }

/-- Flag UNC (R268). -/
def uncFlag : BitVec 8 := 2 ^ 7

/-- Every source scale of an ENCODE: read before it writes a byte (R280), or kept from then. -/
def State.encodeScales (s : State) (p : Nat) (c : Command) : Got (Snap × State) :=
  match c.early with
  | some (m, marks) => .ok (⟨m, marks⟩, s)
  | none =>
      let r := c.bytes
      let sides := (List.range (bits (cmdKarg0 r) 0 4)).map fun j => encodeSource r (s.srcAddr p c) j
      s.engineRead p c (cmdStid r) ((sides.map fun x => (x.scales, x.scaleCount)).filter fun x => x.2 != 0)

/-- What an ENCODE does with its blocks (R280): the planes to write, UNCODED, or the failing block. -/
inductive EncodeChoice where
  | write (planes : List (Side × Plane))
  | uncoded
  | fail (block : Option Index)

/-- R280 from the source scales. -/
def encodeChoice (r : Rec) (src : Nat) (d h : Side) (sc : Mem) : EncodeChoice :=
  let starts := blockStarts d
  let fails (test : Option Coded → Bool) (b : Index) : Bool := !test (encodeBlock r src sc [] b)
  let policy := bits (cmdKarg0 r) 8 2
  if !starts.any (fails fitsPlain) then .write [(d, .single)]
  else if policy = 1 then .uncoded
  else if policy = 0 then .fail (starts.find? (fails fitsPlain))
  else if starts.any (fails fitsWide) then .fail (starts.find? (fails fitsWide))
  else .write [(d, .low), (h, .high)]

/-- Write sectors of the planes of an ENCODE from its elements as they stand. -/
def State.encodeWrite (s : State) (p q i : Nat) (c : Command) (sel : Option (List Nat)) (sc : Snap)
    (planes : List (Side × Plane)) : State :=
  let r := c.bytes
  let src := s.srcAddr p c
  let d := dstSide r (s.dstAddr p c)
  let rows (j : Nat) : List (Nat × Nat) :=
    let x := encodeSource r src j
    d.rows.map fun w => (x.rowAddr w, x.rowBytes)
  match s.engineRead p c (cmdStid r) ((List.range (bits (cmdKarg0 r) 0 4)).flatMap rows) with
  | .wait => s
  | .halt cause v => s.haltQueue p q c.serial cause v
  | .ok (m, s1) =>
      let all := (planes.flatMap fun x => d.rows.flatMap fun w => rowSectors x.1 w).eraseDups
      let left := all.filter fun y => !c.doneSectors.contains y
      let now := match sel with
        | some ys => left.filter ys.contains
        | none => left
      let outs := (planes.flatMap fun x => d.rows.flatMap fun w =>
        rowOut x.1 (encodeCell r src d x.2 sc m) w).filter fun o => now.contains (o.va / 32)
      match s1.engineWrite p c outs now with
      | .wait => s
      | .halt cause v => s1.haltQueue p q c.serial cause v
      | .ok s2 => s2.dataDone p q i c now all 0

/-- The data step of ENCODE. -/
def State.encodeStep (s : State) (p q i : Nat) (c : Command) (sel : Option (List Nat)) : State :=
  let r := c.bytes
  let src := s.srcAddr p c
  match s.encodeScales p c with
  | .wait => s
  | .halt cause v => s.haltQueue p q c.serial cause v
  | .ok (sc, s1) =>
      match encodeChoice r src (dstSide r (s.dstAddr p c)) (encodeHigh r (s.dstAddr p c)) sc.bytes with
      | .uncoded => s1.dataDone p q i c [] [] uncFlag
      | .fail (some b) => s1.haltQueue p q c.serial causeACCRANGE ((encodeSource r src 0).scaleAddr b)
      | .fail none => s1
      | .write planes => s1.encodeWrite p q i { c with early := some (sc.bytes, sc.marks) } sel sc planes

/-! ### A2A (R283 to R285) -/

/-- Where a message goes: its form, package, core or team, and ring; none for a list entry that R285 drops. -/
structure Dest where
  tf : Bool
  pkg : Nat
  target : Nat
  ring : Nat

/-- The destination as a term of a signature names it (R434). -/
def destWord (d : Dest) : Nat := d.pkg * 2 ^ 20 + (if d.tf then 2 ^ 19 else 0) + d.target * 2 ^ 4 + d.ring

/-- The destination in list-entry form with TF in bit 32 (R76, R445). -/
def Dest.entry (d : Dest) : Nat :=
  d.pkg + d.target * 2 ^ 8 + (if d.tf then 2 ^ 32 + d.ring * 2 ^ 22 else d.ring * 2 ^ 20)

/-- A destination from its list entry (R76). -/
def destOf (tf : Bool) (e : Nat) : Dest :=
  if tf then ⟨true, bits e 0 8, bits e 8 14, bits e 22 4⟩ else ⟨false, bits e 0 8, bits e 8 12, bits e 20 4⟩

/-- The destination of message m. -/
def a2aDest (r : Rec) (list : Mem) (m : Nat) : Dest :=
  let a := cmdKarg0 r
  let tf := bit a 25
  if bit a 24 then
    destOf tf (leNat (Mem.read list (cmdKarg1 r + 4 * m) 4))
  else if tf then ⟨true, bits a 0 8, bits a 26 14, bits a 20 4⟩
  else ⟨false, bits a 0 8, bits a 8 12, bits a 20 4⟩

/-- A message of a packet as a segment of its header (R284): core, ring, length in 16-byte units. -/
def a2aSegment (d : Dest) (len : Nat) : Nat :=
  (if d.tf then 0 else d.target) + d.ring * 2 ^ 12 + len / 16 % 256 * 2 ^ 16

/-- The header of a packet of messages of one length for one package (R284). -/
def a2aHeader (s : State) (p : Nat) (ds : List Dest) (len : Nat) : Nat :=
  let d := ds.headD ⟨false, 0, 0, 0⟩
  (ds.zipIdx.map fun x => a2aSegment x.1 len * 2 ^ (48 + 24 * x.2)).sum
    + (if d.tf then d.target * 2 ^ 72 + 2 ^ 47 else 0) + s.logicalOf p * 2 ^ 34
    + s.hub.pkgid.toNat * 2 ^ 26 + ds.length * 2 ^ 24 + d.pkg * 2 ^ 16 + (s.team p).asid.toNat

/-- Continuation flits: 64 bytes each without a header (R284). -/
def flitsOf : Nat → List Byte → List (List Byte)
  | 0, _ => []
  | n + 1, bs => if bs.isEmpty then [] else bs.take 64 :: flitsOf n (bs.drop 64)

/-- Send a packet to another package: its head flit with 48 bytes, and what follows. -/
def State.sendPacket (s : State) (p : Nat) (ds : List Dest) (len : Nat) (bs : List Byte) : State :=
  let s := s.emit (.a2a (BitVec.ofNat 128 (a2aHeader s p ds len)) (bs.take 48))
  (flitsOf 64 (bs.drop 48)).foldl (fun s x => s.emit (.a2aMore x)) s

/-- How many messages of a length ride in one packet at most (R284). -/
def packetRoom (len : Nat) : Nat := max 1 (48 / max len 16)

/-- The flag DROP (R268). -/
def dropFlag : BitVec 8 := 2 ^ 6

/-- What happens to a message at its target now: it waits, it is dropped for a reason of R285 (with the core whose
ring refused it), or it takes a slot. -/
inductive Arrival where
  | wait
  | drop (reason : Nat) (core : Option Nat)
  | slot (core : Nat) (slot : Nat)

/-- R285 and R283: where a message for a target lands; `launch` is the sending team's persistent launch. -/
def State.arrival (s : State) (launch : Option Nat) (asid : BitVec 16) (d : Dest) (len : Nat) : Arrival :=
  let known := match launch with
    | some l => d.target < s.plotCount l
    | none => false
  if d.tf && !known then .drop 0 none
  else match s.targetOf launch d.tf d.target with
  | .held => .wait
  | .gone _ => .drop 0 none
  | .core q =>
      if !s.sameAsid q asid then .drop 1 none
      else
        let g := (s.team q).ring d.ring
        if !g.isSet then .drop 2 (some q)
        else if g.slotBytes < len then .drop 3 (some q)
        else if g.free = 0 then .wait
        else .slot q g.tail

/-- The terms of a message's payload (R434). -/
def State.a2aTerms (s : State) (p : Nat) (d : Dest) (bs : List Byte) : State :=
  if (s.team p).pairRun = 0 then s
  else (List.range (bs.length / 8)).foldl (fun s i =>
    s.pairTerm p 0x30 (destWord d) (leNat ((bs.drop (8 * i)).take 8))) s

/-- A dropped message is logged (R445) and counted at a ring that refused it (R344). -/
def State.dropMessage (s : State) (q : Option Nat) (d : Dest) (reason : Nat) : State :=
  let s := match q with
    | some q => s.modTeam q fun t =>
        let g := t.ring d.ring
        if g.isSet then t.setRing d.ring { g with drops := min (g.drops + 1) 0xFFFF } else t
    | none => s
  s.post evA2ADROP 0 srcHub d.entry reason

/-- Deliver a message into a slot: claim, write, publish; its poisoned runs mark the sectors they come to lie in (R440). -/
def State.deliver (s : State) (q slot : Nat) (d : Dest) (bs : List Byte) (marks : List (Nat × Nat)) : State :=
  let g := ((s.team q).ring d.ring).claim
  let a := (s.team q).bufStart .y + g.offset slot
  let write (bad : Bool) (s : State) (run : Nat × Nat) : State :=
    s.writeSpot ⟨noAsid, none, false⟩ none (.pool q (a + run.1)) ((bs.drop run.1).take run.2) bad
  let s := marks.foldl (write true) (write false s (0, bs.length))
  s.modTeam q fun t => t.setRing d.ring (g.publish slot)

/-- The row of the message that an A2A command sends next. -/
def nextMessage (r : Rec) (done : Nat) : Option Row := (a2aRows r)[done]?

/-- Whether a message is bound for another package. -/
def Message.leaves (s : State) (m : Message) : Bool := bits m.target 0 8 != s.hub.pkgid.toNat

/-- One more message of a command has been delivered or dropped. -/
def State.sentMessage (s : State) (p q i : Nat) (c : Command) (flags : BitVec 8) : State :=
  s.dataDone p q i c [c.doneSectors.length] (List.range (a2aRows c.bytes).length) flags

/-- A message of an A2A: its destination, its bytes and the runs of them that are poisoned. -/
structure Parcel where
  dest : Dest
  bytes : List Byte
  marks : List (Nat × Nat)

/-- The runs of a message that lie in marked sectors, by offset. -/
def markedRuns (marks : List Nat) (a n : Nat) : List (Nat × Nat) :=
  ((sectorParts a n).filter fun x => marks.contains (x.1 / 32)).map fun x => (x.1 - a, x.2)

/-- Read the destinations and bytes of messages `m` on of an A2A. -/
def State.readParcels (s : State) (p : Nat) (c : Command) (m n : Nat) : Got (List Parcel × State) :=
  let r := c.bytes
  let x := srcSide r (s.srcAddr p c)
  let rows := ((a2aRows r).drop m).take n
  let lst := if bit (cmdKarg0 r) 24 then [(cmdKarg1 r + 4 * m, 4 * rows.length)] else []
  match s.engineRead p c 0 lst with
  | .wait => .wait
  | .halt cause v => .halt cause v
  | .ok (l, s) =>
      match s.engineRead p c (cmdStid r) (rows.map fun w => (x.rowAddr w, cmdExt r 0)) with
      | .wait => .wait
      | .halt cause v => .halt cause v
      | .ok (snap, s) =>
          .ok (rows.zipIdx.map fun w =>
            let a := x.rowAddr w.1
            ⟨a2aDest r l.bytes (m + w.2), Mem.read snap.bytes a (cmdExt r 0), markedRuns snap.marks a (cmdExt r 0)⟩, s)

/-- The messages from the first on that ride with it in one packet to another package (R284): those that go on to the
same package, none of team form. -/
def samePacket (d : Dest) (xs : List Parcel) : List Parcel :=
  if d.tf then xs.take 1 else xs.takeWhile fun x => x.dest.pkg == d.pkg && !x.dest.tf

/-- A parcel under way from a team. -/
def Parcel.message (x : Parcel) (t : Team) (core : Nat) : Message where
  target := x.dest.entry
  age := t.age
  asid := t.asid
  launch := t.persistentSlot
  bytes := x.bytes
  source := core
  marks := x.marks

/-- Whether a message for another package leaves: a team-form one and one without a route are dropped (R285, R286). -/
def Dest.mayLeave (d : Dest) : Bool := !d.tf && Config.fabricRoute d.pkg

/-- A2A sends its next message: within the package it joins the messages under way; to another package it leaves in a
packet, with those that follow and fit (R283, R284, R286); a command without messages left ends its data step. -/
def execA2a (core q : Nat) (s : State) : Out :=
  concludeEvent (fun s =>
    match s.dataCommand core q 6 with
    | none => s
    | some (i, c) =>
        let r := c.bytes
        let m := c.doneSectors.length
        let t := s.team core
        if s.messages.any (fun x => x.source == core && x.origin.isNone) then s
        else match nextMessage r m with
        | none => s.dataDone core q i c [] [] 0
        | some _ =>
            match s.readParcels core c m (packetRoom (cmdExt r 0)) with
            | .wait => s
            | .halt cause v => s.haltQueue core q c.serial cause v
            | .ok ([], s1) => s1
            | .ok (x :: rest, s1) =>
                let d := x.dest
                let termed := s1.a2aTerms core d x.bytes
                if t.suppressed then termed.sentMessage core q i c 0
                else if d.pkg = s.hub.pkgid.toNat then
                  { termed with messages := termed.messages ++ [x.message t core] }
                else if !d.mayLeave then
                  (termed.dropMessage none d (if d.tf then 0 else 1)).sentMessage core q i c dropFlag
                else
                  let xs := samePacket d (x :: rest)
                  let s1 := xs.foldl (fun s y => s.a2aTerms core y.dest y.bytes) s1
                  let s1 := s1.sendPacket core (xs.map Parcel.dest) x.bytes.length (xs.flatMap Parcel.bytes)
                  { s1 with messages := s1.messages ++ xs.map fun y => y.message t core }) s

/-- The command in whose data step a core's team sends messages. -/
def State.sendingCommand (s : State) (p age : Nat) : Option (Nat × Command) :=
  if !(s.core p).resident || (s.team p).age != age then none
  else match EngineQueue.atData ((s.team p).queue 3).cmds 0 with
  | some (i, c) => if cmdKind c.bytes == 6 then some (i, c) else none
  | none => none

/-- A message has ended: its command notes it, or the package it came from hears of it (R285). -/
def State.endMessage (s : State) (index : Nat) (m : Message) (flags : BitVec 8) : State :=
  let s := { s with messages := s.messages.eraseIdx index }
  match m.origin with
  | some (pkg, core) => s.emit (.a2aEnd pkg core (flags != 0))
  | none =>
      match s.sendingCommand m.source m.age with
      | some (i, c) => s.sentMessage m.source 3 i c flags
      | none => s

/-- A2A_DELIVERY (R283, R285): a message claims a slot, is written and published, or is dropped. -/
def execA2aDelivery (index : Nat) (s : State) : Out :=
  concludeEvent (fun s =>
    match s.messages[index]? with
    | none => s
    | some m =>
        let d := destOf (bit m.target 32) m.target
        if m.leaves s then s
        else match s.arrival m.launch m.asid d m.bytes.length with
        | .wait => s
        | .drop reason q => (s.dropMessage q d reason).endMessage index m dropFlag
        | .slot q slot => (s.deliver q slot d m.bytes m.marks).endMessage index m 0) s

end Sys2Proof.Machine
end

