-- ==== Sys2Proof/Machine/EventCtr.lean ====
section
/-! DEFINITION. Event counters (R346 to R350): EVSIG, EVWAIT, EVSTAT, the end of an EVWAIT and the arrival of a
remote EVSIG. -/

namespace Sys2Proof.Machine

/-- The top of a counter. -/
def eventTop : Nat := 0xFFFF

/-- The fields of EVSIG's target word (R347). -/
def evTeam (t : W64) : Nat := bits t.toNat 14 14
def evTf (t : W64) : Bool := t.getLsbD 13
def evRemote (t : W64) : Bool := t.getLsbD 12
def evCore (t : W64) : Nat := bits t.toNat 0 12

/-- The number that names the target in the word's form. -/
def evTarget (t : W64) : Nat := if evTf t then evTeam t else evCore t

/-- A TOKOVF value (R348). -/
def tokValue (source n count : Nat) : W64 := BitVec.ofNat 64 (source * 2 ^ 22 + n * 2 ^ 16 + count)

/-- The checks of an EVSIG before its release. -/
def checkSignal (t : W64) : Act Unit := do
  trapIf (2 ^ 28 ≤ t.toNat || (evTf t && !evRemote t)) causePROT t
  let s ← get
  if evTf t then
    trapIf (match s.curTeam.persistentSlot with
      | some slot => s.plotCount slot ≤ evTeam t
      | none => true) causeXLATE t
  else trapIf (evRemote t && !(s.remap (evCore t)).valid) causeXLATE t
  if evRemote t then checkCommitted t

/-- An EVSIG to the issuing team: it waits for every earlier access, then adds, or raises TOKOVF. -/
def signalLocal (n : Nat) (b : W64) : Act Unit := do
  releaseNow
  raisePending
  let e := (← getTeam).event n
  trapIf (eventTop < e + b.toNat) causeTOKOVF (tokValue 0 n e)
  modTeamA fun t => t.setEvent n (e + b.toNat)

/-- An EVSIG to another team: it goes out behind the accesses before it (R434, R435). -/
def signalRemote (n : Nat) (t b : W64) : Act Unit := do
  raisePending
  let s ← get
  set (s.pairTerm s.issue.core 0x21 t.toNat (b.toNat * 32 + n))
  if s.curTeam.suppressed then pure ()
  else pushAccess .store (.evsig n t b) none (some .pkg) [] [] false []

/-- EVSIG (R348). -/
def execEvsig (ev : BitVec 5) (a b : Src) (s : State) : Out :=
  concludeSyllable (do
    let t ← readSrc a
    let b ← readSrc b
    checkSignal t
    if evRemote t then signalRemote ev.toNat t b else signalLocal ev.toNat b) s

/-- What an EVWAIT takes when it ends: its counts and an acquire at .pkg. -/
def State.takeEvent (s : State) (p ev n : Nat) : State :=
  (s.modTeam p fun t => t.setEvent ev (t.event ev - n)).acquireAt p (some .pkg)

/-- EVWAIT (R348, R349): one whose condition holds, with no earlier waiter to go first, ends at once. -/
def execEvwait (ev : BitVec 5) (a : Src) (s : State) : Out :=
  concludeSyllable (do
    let n ← readSrc a
    let t ← getTeam
    let e := t.event ev.toNat
    trapIf (eventTop < n.toNat) causeTOKOVF (tokValue 2 ev.toNat e)
    let since := t.waits + 1
    if n.toNat = 0 || (n.toNat ≤ e && !t.earlierWaiter since [ev.toNat]) then do
      migrationPoint
      modify fun s => s.takeEvent s.issue.core ev.toNat n.toNat
    else do
      modTeamA fun t => { t with waits := since }
      beginWait (.event ev.toNat n.toNat since)) s

/-- EVSTAT (R348). -/
def execEvstat (ev : BitVec 5) (d : Dst) (s : State) : Out :=
  concludeSyllable (do writeDst d (BitVec.ofNat 64 ((← getTeam).event ev.toNat))) s

/-- EVWAIT_END (R348, R349). -/
def execEvwaitEnd (r : CtxRef) (s : State) : Out :=
  concludeEvent (fun s =>
    let t := s.team r.core
    let c := t.ctx r.ctx
    match c.waitOf .a with
    | some (.event ev n since) =>
        if n ≤ t.event ev && !t.earlierWaiter since [ev] then
          (s.setCtx r.core r.ctx (c.endWait .a)).takeEvent r.core ev n
        else s
    | _ => s) s

/-- A remote EVSIG at its target: it waits, fails with a cause, or adds (R348). -/
def State.signalAt (s : State) (p n : Nat) (t b : W64) : Found State :=
  match s.targetOf (s.team p).persistentSlot (evTf t) (evTarget t) with
  | .held => .wait
  | .gone c => .bad c
  | .core q =>
      if !s.sameAsid q (s.team p).asid then .bad causePROT
      else
        let e := (s.team q).event n
        if eventTop < e + b.toNat then .bad causeTOKOVF
        else .ok (s.modTeam q fun x => x.setEvent n (e + b.toNat))

/-- EVSIG_ARRIVAL (R348): the EVSIG at the head of a store queue arrives; a failure comes back as a store fault. -/
def execEvsigArrival (r : CtxRef) (s : State) : Out :=
  concludeEvent (fun s =>
    let c := s.ctx r.core r.ctx
    match c.storeQ with
    | a :: _ =>
        (match a.kind with
         | .evsig n t b =>
             if !(s.core r.core).resident || !s.mayPerform r.core c a then s
             else
               let s := s.releaseAt r.core r.ctx a.release
               (match s.signalAt r.core n t b with
                | .wait => s
                | .bad cause => (s.popStore r.core r.ctx a.seq).storeFault r.core r.ctx cause t
                | .ok s => s.popStore r.core r.ctx a.seq)
         | _ => s)
    | [] => s) s

end Sys2Proof.Machine
end

