-- ==== Sys2Proof/Machine/Hub.lean ====
section
/-! DEFINITION. Launch records (R71 to R73): their fields and what makes one invalid, and the teams and cores of a
launch. -/

namespace Sys2Proof.Machine

/-! ### Fields of a launch record (R71) -/

def launchEntry (r : Rec) : Nat := recBits r 0x00 0 56
def launchArg (r : Rec) : Nat := fieldOf r 0x08 8
def launchTtbase (r : Rec) : Nat := recBits r 0x10 0 56
def launchTag (r : Rec) : Nat := recBits r 0x18 48 16
def launchKernel (r : Rec) : Nat := recBits r 0x18 32 16
def launchTtcount (r : Rec) : Nat := recBits r 0x18 16 13
def launchAsid (r : Rec) : BitVec 16 := BitVec.ofNat 16 (recBits r 0x18 0 16)
def launchExt (r : Rec) : Nat → Nat
  | 0 => recBits r 0x20 0 32 | 1 => recBits r 0x20 32 32 | 2 => recBits r 0x28 0 32 | _ => recBits r 0x28 32 32
def launchCommitWin (r : Rec) : Nat := recBits r 0x30 32 16
def launchSup (r : Rec) : Bool := recBits r 0x30 17 1 == 1
def launchVregs (r : Rec) : Nat := recBits r 0x30 12 5
def launchPersist (r : Rec) : Bool := recBits r 0x30 11 1 == 1
def launchPrio (r : Rec) : Nat := recBits r 0x30 8 3
def launchPaired (r : Rec) : Bool := recBits r 0x30 7 1 == 1
def launchSave (r : Rec) : Bool := recBits r 0x30 6 1 == 1
def launchTeamw (r : Rec) : Nat := recBits r 0x30 4 2
def launchWalk (r : Rec) : Nat := recBits r 0x30 2 2
def launchDims (r : Rec) : Nat := recBits r 0x30 0 2 + 1
def launchRegTop (r : Rec) : Nat := recBits r 0x38 0 10
def launchWTop (r : Rec) : Nat := recBits r 0x38 10 10
def launchYTop (r : Rec) : Nat := recBits r 0x38 20 10
def launchSpadTop (r : Rec) : Nat := recBits r 0x38 30 10
def launchL1Top (r : Rec) : Nat := recBits r 0x38 40 10
def launchCosttab (r : Rec) : Nat := recBits r 0x40 0 56
def launchWait (r : Rec) (second : Bool) : Nat := recBits r (if second then 0x58 else 0x48) 0 56
def launchTarget (r : Rec) (second : Bool) : Nat := fieldOf r (if second then 0x60 else 0x50) 8
def launchDone (r : Rec) : Nat := recBits r 0x68 0 56
def launchDoneAdd (r : Rec) : Nat := fieldOf r 0x70 8
def launchCpl (r : Rec) : Nat := recBits r 0x78 0 56
def launchChips (r : Rec) : BitVec 16 := BitVec.ofNat 16 (recBits r 0x80 0 16)

/-- The extent of a used dimension, 1 for the others (R72). -/
def launchUsed (r : Rec) (d : Nat) : Nat := if d < launchDims r then launchExt r d else 1

/-- P of R115. -/
def launchPlots (r : Rec) : Nat := launchUsed r 0 * launchUsed r 1 * launchUsed r 2 * launchUsed r 3

/-- Contexts per team (R71). -/
def launchWidth (r : Rec) : Nat := 2 ^ launchTeamw r

/-- What R71 to R73 find wrong in a launch record.  DESIGN CHOICE (log entry 107): the limit on a persistent field's plots
names every extent that the product has, EXT0 among them. -/
def launchFindings (r : Rec) : List Finding :=
  let n := launchDims r
  [(launchEntry r % 32 != 0, causeALIGN, 0x00),
    (launchTtbase r % 64 != 0, causeALIGN, 0x10),
    (4096 < launchTtcount r, causeILLEGAL, 0x1A),
    (launchExt r 0 == 0, causeILLEGAL, 0x20),
    (2 ≤ n && launchExt r 1 == 0, causeILLEGAL, 0x24),
    (3 ≤ n && launchExt r 2 == 0, causeILLEGAL, 0x28),
    (n == 4 && launchExt r 3 == 0, causeILLEGAL, 0x2C),
    (2 ^ 40 < launchPlots r, causeILLEGAL, 0x20),
    (launchWalk r == 3 && launchCosttab r == 0, causeILLEGAL, 0x30),
    (launchWalk r == 3 && launchCosttab r % 2 != 0, causeALIGN, 0x40),
    (launchPersist r && launchPaired r, causeILLEGAL, 0x30),
    (launchPersist r && 16384 < launchPlots r, causeILLEGAL, 0x20),
    (16 < launchVregs r, causeILLEGAL, 0x31),
    (launchTeamw r == 3, causeILLEGAL, 0x30),
    (!(launchRegTop r ≤ launchWTop r && launchWTop r ≤ launchYTop r && launchYTop r ≤ launchSpadTop r
      && launchSpadTop r ≤ launchL1Top r && launchL1Top r ≤ 512), causeILLEGAL, 0x38),
    (launchTeamw r != 3 && launchRegTop r < launchWidth r * (4 + 8 * launchVregs r), causeILLEGAL, 0x30),
    (launchWait r false % 8 != 0, causeALIGN, 0x48),
    (launchWait r true % 8 != 0, causeALIGN, 0x58),
    (launchDone r != 0 && launchDoneAdd r == 0, causeILLEGAL, 0x68),
    (launchDone r % 8 != 0, causeALIGN, 0x68),
    (launchCpl r % 32 != 0, causeALIGN, 0x78)]

/-- CheckRecord of a launch record: the offset it is rejected with (R61); padding is ignored (R9). -/
def checkLaunch (r : Rec) : Option Nat := (worst (launchFindings r)).map Prod.snd

/-! ### The work of cores and images -/

/-- A plot of a launch. -/
def Work.ofPlot (w : Work) (slot plot : Nat) : Bool :=
  match w with
  | .launch l q _ => l == slot && q == plot
  | .sheaf .. => false

/-- The cores that run a plot: all its runs where it is paired. -/
def State.plotCores (s : State) (slot plot : Nat) : List Nat :=
  (s.residents.filter fun e => e.2.team.work.ofPlot slot plot).map Prod.fst

/-- Record a plot's state in the plot log (R119). -/
def State.logPlot (s : State) (slot plot : Nat) (x : PlotState) : State :=
  match s.launch slot with
  | some l => s.setLaunch slot (some { l with log := tput l.log plot x })
  | none => s

/-- The age a plot took when it was first logged started (R364). -/
def PlotState.age : PlotState → Option Nat
  | .started a _ | .committed a _ | .returned a => some a
  | .retired => none

/-- Add a position to the front of a chiplet's oldest range (R125). -/
def returnTo (chip pos : Nat) : List Range → List Range
  | [] => [⟨chip, 0, 1, 0, [pos]⟩]
  | r :: rs => if r.chip = chip then { r with returned := pos :: r.returned } :: rs else r :: returnTo chip pos rs

/-- A plot's position returns to its launch; its team keeps its age (R364, R408). -/
def State.returnPosition (s : State) (slot plot pos chip : Nat) : State :=
  match s.launch slot with
  | none => s
  | some l =>
      let log := match (tfind l.log plot).bind PlotState.age with
        | some a => tput l.log plot (.returned a)
        | none => l.log
      s.setLaunch slot (some { l with log := log, ranges := returnTo chip pos l.ranges })

end Sys2Proof.Machine
end

