-- ==== Sys2Proof/Machine/Matrix.lean ====
section
/-! DEFINITION. The M-cluster syllables: operand slots, record streams, MWAIT, MCTL and segments (R313 to R322, R333
to R335). -/

namespace Sys2Proof.Machine

/-! ### Operand slots (R314) -/

/-- The slots of a run. -/
def slotRun (first count : Nat) : List Nat := (List.range count).map fun i => (first + i) % 64

/-- The slot claimed by the context, no release of it pending. -/
def Team.claim (t : Team) (k : Nat) (i : Nat) : Team := t.setSlot i ⟨some k, Option.none⟩

/-- OCLAIM (R314). -/
def execOclaim (first : BitVec 6) (count : BitVec 7) (s : State) : Out :=
  concludeSyllable (do
    let s ← get
    let t := s.curTeam
    let k := s.issue.ctx
    let run := slotRun first.toNat count.toNat
    match run.find? (fun i => (t.slot i).owner.isSome && (t.slot i).owner != some k) with
    | some i => trap causePROT (BitVec.ofNat 64 (2048 * i))
    | none => modTeamA fun t => run.foldl (fun t i => t.claim k i) t) s

/-- Release a slot once `n` streams of its owner have completed; a release that is pending stays as it is. -/
def Team.release (t : Team) (k n i : Nat) : Team :=
  if (t.slot i).owner != some k || (t.slot i).release.isSome then t
  else t.setSlot i (if n = 0 then OpSlot.empty else ⟨some k, some n⟩)

/-- ORELEASE (R314). -/
def execOrelease (first : BitVec 6) (count : BitVec 7) (s : State) : Out :=
  concludeSyllable (do
    let s ← get
    let k := s.issue.ctx
    modTeamA fun t =>
      (slotRun first.toNat count.toNat).foldl (fun t i => t.release k (t.outstanding k) i) t) s

/-- A pending release counts down; at 0 the slot is free. -/
def OpSlot.countDown (o : OpSlot) : OpSlot :=
  match o.release with
  | some n => if n ≤ 1 then OpSlot.empty else { o with release := some (n - 1) }
  | none => o

/-- One stream of a context has completed: its pending releases come nearer. -/
def Team.countReleases (t : Team) (k : Nat) : Team :=
  { t with opslots := t.opslots.map fun e =>
      (e.1, if e.2.owner == some k then e.2.countDown else e.2) }

/-- Pending releases of a context take effect (R332). -/
def Team.flushReleases (t : Team) (k : Nat) : Team :=
  { t with opslots := t.opslots.map fun e =>
      (e.1, if e.2.owner == some k && e.2.release.isSome then OpSlot.empty else e.2) }

/-! ### Streams (R317, R318) -/

/-- The first byte of a run at a window address that lies past its buffer's end. -/
def Team.pastBuffer (t : Team) (va n : Nat) : Option Nat :=
  let w := winAddr va
  match winBuf w.buf with
  | some b => if w.off < t.bufSize b && t.bufSize b < w.off + n then some (va + (t.bufSize b - w.off)) else .none
  | .none => .none

/-- The records' place in the own W or Y buffer: the checks of a window address (R317); the value is that of the first
byte that fails them. -/
def checkRecordWindow (a : W64) (len : Nat) : Act Unit := do
  let s ← get
  match s.winCheck s.curTeam a.toNat with
  | some c => trap c a
  | none => pure ()
  let b := (winAddr a.toNat).buf
  trapIf (2 ≤ b || !s.namesSelf s.issue.core a.toNat) causePROT a
  match s.findWindow s.curTeam a.toNat len with
  | .ok _ => pure ()
  | .bad c => trap c (BitVec.ofNat 64 ((s.curTeam.pastBuffer a.toNat len).getD a.toNat))
  | .wait => stop .hold

/-- PinRange of R317. -/
def pinRecords (a : W64) (len : Nat) : Act (List TlbEntry) := do
  if isWindow a.toNat then do
    checkRecordWindow a len
    return []
  else if isFabric a.toNat then trap causePROT a
  else do
    let s ← get
    let p := s.issue.core
    let (r, s) := s.pinRuns p s.issue.ctx s.cur.user none [⟨a.toNat, len, accRead, false, false⟩] []
    match r with
    | .error (c, v) => trap c (BitVec.ofNat 64 v)
    | .ok pins => do
        set s
        holdUnless (s.pinsFit p pins)
        return pins

/-- A stream as MSTR appends it. -/
def Stream.fresh (c : Ctx) (k : Nat) (base : W64) (count : Nat) (pins : List TlbEntry) : Stream where
  since := 0
  ctx := k
  base := base
  count := count
  pins := pins
  noFuse := c.mctl.getLsbD 0
  forkSeq := c.nextSeq
  started := false
  index := 0
  record := none
  tile := 0
  segment := c.segOpen
  handler := c.saved.isSome
  flags := 0

/-- Entries of the stream queue (R318). -/
def streamDepth : Nat := 8

/-- A stream at its place among those of the queue: behind them, but before those that contexts of higher numbers have
appended in the same cycle (R318). -/
def appendStream (x : Stream) (xs : List Stream) : List Stream :=
  let later (y : Stream) : Bool := y.since == x.since && x.ctx < y.ctx && !y.started
  let tail := (xs.reverse.takeWhile later).reverse
  xs.take (xs.length - tail.length) ++ x :: tail

/-- A team whose stream queue has taken a stream in a cycle. -/
def Team.append (t : Team) (cycle : Nat) (x : Stream) : Team :=
  { t with streams := appendStream { x with since := cycle } t.streams }

/-- MSTR (R317). -/
def execMstr (a b : Src) (s : State) : Out :=
  concludeSyllable (do
    let a ← readSrc a
    let b ← readSrc b
    if b = 0 then pure ()
    else do
      if 4096 < b.toNat then illegal
      trapIf (a.toNat % 64 != 0) causeALIGN a
      let c ← getCtx
      trapIf (c.mctl.getLsbD 1 && !c.segOpen) causeSEGMISMATCH 0
      let pins ← pinRecords a (64 * b.toNat)
      let s ← get
      let x := Stream.fresh s.cur s.issue.ctx a b.toNat pins
      modCtxA fun c => { c with nextSeq := c.nextSeq + 1 }
      if s.curTeam.streams.length < streamDepth then modTeamA fun t => t.append s.cycles x
      else waitRoom (.streamRoom x)) s

/-- STREAM_APPEND (R317). -/
def execStreamAppend (r : CtxRef) (s : State) : Out :=
  concludeEvent (fun s =>
    let t := s.team r.core
    match (t.ctx r.ctx).waitOf .m with
    | some (.streamRoom x) =>
        if t.streams.length < streamDepth && (s.core r.core).resident then
          let t := t.append s.cycles x
          s.setTeam r.core (t.setCtx r.ctx ((t.ctx r.ctx).endWait .m))
        else s
    | _ => s) s

/-- MWAIT (R320). -/
def execMwait (n : BitVec 4) (s : State) : Out :=
  concludeSyllable (do
    let s ← get
    if s.curTeam.outstanding s.issue.ctx ≤ n.toNat then migrationPoint else beginWait (.streams n.toNat)) s

/-- MWAIT_END (R320). -/
def execMwaitEnd (r : CtxRef) (s : State) : Out :=
  concludeEvent (fun s =>
    let t := s.team r.core
    let c := t.ctx r.ctx
    match c.waitOf .m with
    | some (.streams n) => if t.outstanding r.ctx ≤ n then s.setCtx r.core r.ctx (c.endWait .m) else s
    | _ => s) s

/-- MCFG (R321). -/
def execMcfg (d : Dst) (a : Src) (s : State) : Out :=
  concludeSyllable (do
    let v ← readSrc a
    if 4 ≤ v.toNat then illegal
    let c ← getCtx
    modCtxA fun c => { c with mctl := BitVec.ofNat 2 v.toNat }
    writeDst d (c.mctl.zeroExtend 64)) s

/-- MSTAT (R321). -/
def execMstat (d : Dst) (s : State) : Out :=
  concludeSyllable (do
    let s ← get
    writeDst d (BitVec.ofNat 64 (s.curTeam.mseq s.issue.ctx))) s

/-! ### Segments (R333 to R335) -/

/-- SEGB (R334). -/
def execSegb (id : BitVec 16) (s : State) : Out :=
  concludeSyllable (do
    trapIf (← getCtx).segOpen causeSEGMISMATCH 0
    modCtxA fun c => { c with segOpen := true, segId := id, segCyc := 0, segCrc := 0xFFFFFFFF }) s

/-- Whether every tile of the open segment's streams has issued. -/
def Team.segmentIssued (t : Team) (k : Nat) : Bool :=
  t.streams.all fun x => x.ctx != k || x.handler != (t.ctx k).saved.isSome || !x.segment || x.count ≤ x.index

/-- SEGE's comparison: none where all agree, else the value of its trap. -/
def Ctx.segmentDiff (c : Ctx) (id : BitVec 16) (a : W64) : Option W64 :=
  let found := BitVec.ofNat 64 (c.finalCrc.toNat * 2 ^ 32 + c.segCyc.toNat)
  if c.segId = id && a = found then none else some found

/-- The state with the issuing context's segment closed. -/
def State.closeSegment (s : State) : State := s.setCur { s.cur with segOpen := false }

/-- SEGE (R335): the segment closes whether or not its check fails. -/
def execSege (id : BitVec 16) (a : Src) (s : State) : Out :=
  let body : Act (Option W64) := do
    let a ← readSrc a
    let s ← get
    let c := s.cur
    trapIf (!c.segOpen) causeSEGMISMATCH 0
    holdUnless (s.curTeam.segmentIssued s.issue.ctx)
    return c.segmentDiff id a
  match body s with
  | .error x => concludeSyllable (stop x) s
  | .ok (none, s1) => concludeSyllable (pure ()) s1.closeSegment
  | .ok (some v, _) =>
      let s1 := s.closeSegment
      concludeSyllable (trap causeSEGMISMATCH v) { s1 with issue := { s1.issue with segClosed := true } }

end Sys2Proof.Machine
end

