-- ==== Sys2Proof/Machine/Sequencer.lean ====
section
/-! DEFINITION. The matrix sequencer (R84 to R86, R318, R319, R323 to R332): the fetch and the checks of loop-nest
records, tile issues, and what a fault leaves. -/

namespace Sys2Proof.Machine

/-! ### Records (R84, R85) -/

def recOp (r : Rec) : Nat := recBits r 0x00 0 4
def recAfmt (r : Rec) : Nat := recBits r 0x00 4 4
def recBfmt (r : Rec) : Nat := recBits r 0x00 8 4
def recFuse (r : Rec) : Nat := recBits r 0x00 12 2
def recNloop (r : Rec) : Nat := recBits r 0x00 14 2
def recKloop (r : Rec) : Nat := recBits r 0x00 16 2
def recNok (r : Rec) : Bool := recBits r 0x00 18 1 == 1
def recCfmt (r : Rec) : Fmt := Fmt.ofCode (recBits r 0x00 20 4)
def recRnd (r : Rec) : Rnd := Rnd.ofCode (recBits r 0x00 24 2)
def recImm (r : Rec) : Int := recInt r 0x00 32 32

/-- The trip count of a loop; 1 above NLOOP. -/
def recTrip (r : Rec) (l : Nat) : Nat := if l ≤ recNloop r then recBits r 0x08 (16 * l) 16 else 1

def recAbase (r : Rec) : Nat := recBits r 0x10 0 6
def recBbase (r : Rec) : Nat := recBits r 0x10 8 6
def recZbase (r : Rec) : Nat := recBits r 0x10 16 22
def recAstep (r : Rec) (l : Nat) : Int := recInt r 0x18 (8 * l) 8
def recBstep (r : Rec) (l : Nat) : Int := recInt r 0x18 (32 + 8 * l) 8
def recZstep (r : Rec) (l : Nat) : Int := if l < 2 then recInt r 0x20 (32 * l) 32 else recInt r 0x28 (32 * (l - 2)) 32
def recXbase (r : Rec) : Nat := recBits r 0x30 0 22
def recXstep (r : Rec) (l : Nat) : Int := recInt r 0x38 (16 * l) 16

/-- Tile issues of a record. -/
def recTiles (r : Rec) : Nat := recTrip r 0 * recTrip r 1 * recTrip r 2 * recTrip r 3

/-- Offset of a ZSTEP field. -/
def zstepOff (l : Nat) : Nat := 0x20 + 4 * l

/-- What makes a record invalid (R84, R85); padding is ignored (R9).  A limit that ties several fields together
reports the lowest of them (R61). -/
def recFindings (r : Rec) : List Finding :=
  let k := recKloop r
  let x := recOp r == 2 || recOp r == 3
  ([(5 ≤ recOp r, causeILLEGAL, 0x00),
    (recFuse r == 3, causeILLEGAL, 0x01),
    (!recNok r && recNloop r < k, causeILLEGAL, 0x01),
    (recZbase r % 16 != 0, causeILLEGAL, 0x12),
    (x && recXbase r % 16 != 0, causeILLEGAL, 0x00),
    (!recNok r && recZstep r k != 0, causeILLEGAL, 0x02)] : List Finding)
  ++ (List.range 4).map fun l =>
    (recZstep r l % 16 != 0, causeILLEGAL, zstepOff l)

/-- Whether a format code is that of a block format. -/
def blockCode (c : Nat) : Bool := 8 ≤ c && c ≤ 11

/-- Formats outside R324's columns. -/
def recFormats (r : Rec) : List Finding :=
  let p := recOp r ≤ 1
  let c := Fmt.code (recCfmt r)
  [(p && !blockCode (recAfmt r), causeFMTCOMBO, 0x00),
    (p && !blockCode (recBfmt r), causeFMTCOMBO, 0x01),
    (recOp r == 2 && ((3 ≤ c && c ≤ 9) || c == 15), causeFMTCOMBO, 0x02)]

/-- Checks 2 and 3 of R331. -/
def checkNest (r : Rec) : Option (Nat × Nat) :=
  match worst (recFindings r) with
  | some e => some e
  | none => worst (recFormats r)

/-! ### Tile issues (R86) -/

/-- A loop's index in the tile issue with a linear number. -/
def tileIndex (r : Rec) (n l : Nat) : Nat :=
  let below := ((List.range l).map (recTrip r)).foldl (fun a b => a * b) 1
  n / below % recTrip r l

/-- Four loops' indices with a step each. -/
def tileSum (r : Rec) (n : Nat) (step : Nat → Int) : Int :=
  ((List.range 4).map fun l => (tileIndex r n l : Int) * step l).sum

def tileA (r : Rec) (n : Nat) : Nat := ((recAbase r + tileSum r n (recAstep r)) % 64).toNat
def tileB (r : Rec) (n : Nat) : Nat := ((recBbase r + tileSum r n (recBstep r)) % 64).toNat
def tileZ (r : Rec) (n : Nat) : Int := recZbase r + tileSum r n (recZstep r)
def tileX (r : Rec) (n : Nat) : Int := recXbase r + 16 * tileSum r n (recXstep r)
def tileFirst (r : Rec) (n : Nat) : Bool := recNok r || tileIndex r n (recKloop r) == 0

/-- L of R52. -/
def recLog (r : Rec) : Nat := if recNok r then 0 else ceilLog2 (recTrip r (recKloop r))

/-- Nominal cycles (R323). -/
def recCycles (r : Rec) : Nat :=
  match recOp r with
  | 0 | 1 => if recAfmt r = 8 && recBfmt r = 8 then 32 else if recBfmt r = 11 then 128 else 64
  | 3 => 128
  | _ => 64

/-- The control word of a tile issue (R334). -/
def controlWord (r : Rec) (n : Nat) : Nat :=
  recOp r * 2 ^ 60 + recAfmt r * 2 ^ 56 + recBfmt r * 2 ^ 52 + tileA r n * 2 ^ 46 + tileB r n * 2 ^ 40
    + (if tileFirst r n then 2 ^ 39 else 0) + (tileZ r n % 2 ^ 22 / 16).toNat * 2 ^ 21
    + (tileX r n % 2 ^ 22 / 16).toNat * 2 ^ 3

/-- One bit of CRC-32C, reflected. -/
def crc32cBit (c : BitVec 32) : BitVec 32 := if c.getLsbD 0 then (c >>> 1) ^^^ 0x82F63B78 else c >>> 1

def crc32cByte (c : BitVec 32) (b : Byte) : BitVec 32 :=
  (List.range 8).foldl (fun c _ => crc32cBit c) (c ^^^ b.zeroExtend 32)

/-! ### What a context gets of its streams -/

/-- Change a dword of a section. -/
def Section.setDword (x : Section) (i n : Nat) : Section := { x with dwords := x.dwords.set i (BitVec.ofNat 64 n) }

/-- A stream's flags reach FPSTAT: the trapped context's lies in its section while a handler runs (R396). -/
def Ctx.takeFlags (c : Ctx) (x : Stream) : Ctx :=
  match c.saved with
  | some y =>
      if x.handler then { c with fpstat := c.fpstat ||| x.flags }
      else { c with saved := some (y.setDword 74 (Nat.lor (y.dword 74) x.flags.toNat)) }
  | none => { c with fpstat := c.fpstat ||| x.flags }

/-- A tile issue counts in the open segment (R334). -/
def Ctx.countTile (c : Ctx) (x : Stream) (r : Rec) (n : Nat) : Ctx :=
  let feed (crc : BitVec 32) : BitVec 32 := (leBytes 8 (controlWord r n)).foldl crc32cByte crc
  let own : Ctx :=
    if c.segOpen then { c with segCyc := c.segCyc + BitVec.ofNat 32 (recCycles r), segCrc := feed c.segCrc } else c
  if !x.segment then c
  else match c.saved with
  | some y =>
      if x.handler then own
      else if !bit (y.dword 90) 48 then c
      else
        let d := y.dword 90
        let y := y.setDword 88 ((y.dword 88 + recCycles r) % 2 ^ 32)
        { c with saved := some (y.setDword 90 (d / 2 ^ 32 * 2 ^ 32 + (feed (BitVec.ofNat 32 d)).toNat)) }
  | none => own

/-- MFLTREC and MFLTTILE (R322, R332). -/
def Ctx.setFault (c : Ctx) (x : Stream) (cause va tile : Nat) : Ctx :=
  let w := cause * 2 ^ 56 + va % 2 ^ 56
  match c.saved with
  | some y =>
      if x.handler then { c with mfltrec := BitVec.ofNat 64 w, mflttile := BitVec.ofNat 64 tile }
      else { c with saved := some ((y.setDword 86 w).setDword 87 tile) }
  | none => { c with mfltrec := BitVec.ofNat 64 w, mflttile := BitVec.ofNat 64 tile }

/-! ### The stream in work (R318) -/

/-- The first stream of the queue with records left, and its place. -/
def currentStream : List Stream → Nat → Option (Nat × Stream)
  | [], _ => none
  | x :: xs, i => if x.index < x.count then some (i, x) else currentStream xs (i + 1)

def Team.current (t : Team) : Option (Nat × Stream) := currentStream t.streams 0

def Team.setStream (t : Team) (i : Nat) (x : Stream) : Team := { t with streams := t.streams.set i x }

/-- Virtual address of a stream's next record. -/
def Stream.va (x : Stream) : Nat := x.base.toNat + 64 * x.index

/-- An ENQ that comes before a stream and still waits to append (R318). -/
def Ctx.enqBefore (c : Ctx) (seq : Nat) : Bool :=
  match c.waitOf .a with
  | some (.enqRoom _ cmd) => cmd.forkSeq < seq
  | _ => false

/-- A sequencer fault (R332): the stream and its context's later ones leave the queue.  DESIGN CHOICE (log entry 78):
the flags that the stream's earlier MCONV issues have raised leave with it, since R330 ORs them at the stream's
completion. -/
def State.sequencerFault (s : State) (p i : Nat) (x : Stream) (cause value : Nat) : State :=
  s.modTeam p fun t =>
    let gone := t.streams.zipIdx.filter fun e => i ≤ e.2 && e.1.ctx == x.ctx
    let t := { t with streams := (t.streams.zipIdx.filter fun e => !gone.contains e).map Prod.fst }
    let t := t.flushReleases x.ctx
    let c := (t.ctx x.ctx).setFault x cause x.va x.tile
    let e : CauseRec := ⟨cause, BitVec.ofNat 64 value, .m, true⟩
    t.setCtx x.ctx { c with pending := c.pending ++ [e] }

/-- STREAM_START (R318). -/
def execStreamStart (core : Nat) (s : State) : Out :=
  concludeEvent (fun s =>
    let t := s.team core
    match t.current with
    | some (i, x) =>
        let c := t.ctx x.ctx
        if x.started || !(s.core core).resident || !c.forkClear x.forkSeq || c.enqBefore x.forkSeq then s
        else s.setTeam core (t.setStream i { x with started := true })
    | none => s) s

/-- What the fetch of a record gives: bytes, or a cause and its value. -/
def State.fetchRecord (s : State) (p : Nat) (x : Stream) : Got (Rec × State) :=
  let t := s.team p
  let va := x.va
  if isWindow va then
    match s.findWindow t va 64 with
    | .ok (.pool q a) =>
        (match (s.core q).deadByte a 64 with
         | some b => .halt causeBANKDROP (va + (b - a))
         | none => let (bs, _, s) := s.readAt (s.client p x.ctx) (.pool q a) 64 .clean; .ok (bs, s))
    | .ok (.mem _ _) => .wait
    | .bad c => .halt c va
    | .wait => .wait
  else match x.pins.find? (fun e => e.covers t.asid.toNat va) with
  | some e =>
      let (bs, _, s) := s.readAt (s.client p x.ctx) (.mem (e.paOf va) e.cached) 64 .clean
      .ok (bs, s)
  | none => .halt causeXLATE va

/-- RECORD_FETCH (R331 checks 1 to 3; R85). -/
def execRecordFetch (core : Nat) (s : State) : Out :=
  concludeEvent (fun s =>
    match (s.team core).current with
    | none => s
    | some (i, x) =>
        if !(s.core core).resident || !x.started || x.record.isSome then s
        else
          let x := { x with tile := 0 }
          match s.fetchRecord core x with
          | .wait => s
          | .halt cause v => s.sequencerFault core i x cause v
          | .ok (r, s) =>
              match checkNest r with
              | some (cause, off) => s.sequencerFault core i x cause (x.va + off)
              | none =>
                  let x := if recTiles r = 0 then { x with index := x.index + 1 } else { x with record := some r }
                  s.modTeam core fun t => t.setStream i x) s

/-! ### Slots, tiles and their checks (R225, R324, R331) -/

/-- The format of a slot read. -/
def slotWidth (code : Nat) : Nat := (Fmt.ofCode code).blockWidth

/-- The 32 mantissas of a row of a slot (R225). -/
def slotRow (m : Mem) (slot row w : Nat) : List Int :=
  let n := leNat (Mem.read m (2048 * slot + 64 * row) (4 * w))
  (List.range 32).map fun t => signedOf w (n / 2 ^ (w * t) % 2 ^ w)

def slotScale (m : Mem) (slot row : Nat) : Nat := (Mem.byte m (0x20000 + 32 * slot + row)).toNat

/-- The sectors of a slot that a format reads, then those of its scale codes. -/
def slotSectors (slot w : Nat) : List Nat :=
  ((List.range 32).flatMap fun row => unitsOf 32 (2048 * slot + 64 * row) (4 * w)).eraseDups

/-- A poisoned sector of operand memory among some, as its byte offset. -/
def Core.markedSlot (c : Core) (sectors : List Nat) : Option Nat :=
  (sectors.find? fun x => c.poison.contains (opmemSector (32 * x))).map fun x => 32 * x

/-- Bytes of a tile of records. -/
def tileBytes : Nat := 16384

/-- The first byte of a range that lies outside a buffer of a size, as a 64-bit offset (R331 check 5). -/
def outside (off : Int) (n size : Nat) : Option Nat :=
  if off < 0 then some ((off % 2 ^ 64).toNat)
  else if size < off.toNat + n then some (max off.toNat size)
  else none

/-- A pool with every granule of a range live (R227). -/
def Core.reviveRange (c : Core) (cyc a n : Nat) : Core := (unitsOf 1024 a n).foldl Core.revive (c.wake cyc a n)

/-- The records of a tile at a pool address. -/
def Core.tileAt (c : Core) (a : Nat) : List RaRec :=
  let n := leNat (c.poolRead a tileBytes)
  (List.range 1024).map fun i => RaRec.ofBits (n / 2 ^ (128 * i) % 2 ^ 128)

/-- The bytes of a tile. -/
def tileData (rs : List RaRec) : List Byte :=
  leBytes tileBytes (rs.foldr (fun r acc => r.bits + 2 ^ 128 * acc) 0)

/-- A poisoned sector of a tile, as a buffer offset. -/
def Core.markedTile (c : Core) (start off : Nat) : Option Nat :=
  ((unitsOf 32 (start + off) tileBytes).find? c.poison.contains).map fun x => 32 * x - start

/-- The first record of a tile that has no result. -/
def firstNone {α : Type} (xs : List (Option α)) : Option Nat :=
  (xs.zipIdx.find? fun x => x.1.isNone).map Prod.snd

/-- What tile issues that make one write do: they wait, fault, or, a number of them, change the state and raise
flags. -/
inductive Tile where
  | wait
  | fault (cause value : Nat)
  | done (s : State) (flags : Flags) (issues : Nat)

/-- Write the Z tile of a number of issues, or report the first record without a result. -/
def State.writeZ (s : State) (p : Nat) (c : Core) (start off issues : Nat) (rs : List (Option RaRec)) : Tile :=
  match firstNone rs with
  | some i => .fault causeACCRANGE (off + 16 * i)
  | none => .done (s.setCore p (c.poolWrite s.cycles (start + off) (tileData (rs.filterMap id)) false)) 0 issues

/-! ### MMA and MMAZ (R325) -/

/-- The exact sum of a row of A with a row of B. -/
def chunkSum (a b : List Int) : Int := ((a.zip b).map fun x => x.1 * x.2).sum

/-- The chunk sums of an issue with their exponent codes, record by record. -/
def productChunks (r : Rec) (n : Nat) (m : Mem) : List (Int × Nat) :=
  let wa := slotWidth (recAfmt r)
  let wb := slotWidth (recBfmt r)
  let arows := (List.range 32).map fun i => (slotRow m (tileA r n) i wa, slotScale m (tileA r n) i)
  let brows := (List.range 32).map fun i => (slotRow m (tileB r n) i wb, slotScale m (tileB r n) i)
  arows.flatMap fun a => brows.map fun b => (chunkSum a.1 b.1, a.2 + b.2 + 512 - 254 - (wa - 2) - (wb - 2))

/-- The records once the chunks of an issue, or of a fused group that it begins, have been added. -/
def productRecords (r : Rec) (n : Nat) (chunks : List (Int × Nat)) (zs : List RaRec) : List (Option RaRec) :=
  let mmaz := recOp r == 1
  (chunks.zip zs).map fun e =>
    let z := if mmaz && tileFirst r n then { e.2 with head := 0 } else e.2
    z.addChunk e.1.1 e.1.2 (slotWidth (recAfmt r) + slotWidth (recBfmt r) + 4) (recLog r) (!mmaz) (tileFirst r n)

/-- A scale code 0xFF of a slot, as an offset of operand memory. -/
def badScale (m : Mem) (slot : Nat) : Option Nat :=
  ((List.range 32).find? fun i => slotScale m slot i == 0xFF).map fun i => 0x20000 + 32 * slot + i

/-- A poisoned sector that a product reads: slots, their scale codes, then Z (R331 check 7). -/
def Core.markedProduct (c : Core) (r : Rec) (n start off : Nat) : Option Nat :=
  let a := tileA r n
  let b := tileB r n
  match c.markedSlot (slotSectors a (slotWidth (recAfmt r)) ++ slotSectors b (slotWidth (recBfmt r))
      ++ [0x1000 + a, 0x1000 + b]) with
  | some v => some v
  | none => if recOp r == 1 && tileFirst r n then none else c.markedTile start off

/-- A slot of an issue that its stream's context does not hold (R331 check 4). -/
def Team.foreignSlot (t : Team) (k : Nat) (r : Rec) (n : Nat) : Option Nat :=
  [tileA r n, tileB r n].find? fun i => (t.slot i).owner != some k

/-- A slot of an issue is still being filled (R315). -/
def Team.filling (t : Team) (r : Rec) (n : Nat) : Bool := t.pend (tileA r n) != 0 || t.pend (tileB r n) != 0

/-- A scale code 0xFF of an issue's slots (R331 check 8). -/
def badScales (m : Mem) (r : Rec) (n : Nat) : Option Nat := [tileA r n, tileB r n].findSome? (badScale m)

/-- An issue and the next one belong to one record run (R52, R326). -/
def sameRun (r : Rec) (n : Nat) : Bool :=
  !recNok r && n + 1 < recTiles r
    && (List.range 4).all fun l => l == recKloop r || tileIndex r n l == tileIndex r (n + 1) l

/-- Issues that one write may take (R326). -/
def fuseLimit (x : Stream) (r : Rec) : Nat := if x.noFuse then 1 else 2 ^ recFuse r

/-- The group that an issue and those after it make, `fuel` more at most: how many are fused to the issue, and their
chunks added to its own (R326).  An issue that must wait or would fault ends the group before it. -/
def fuseMore (t : Team) (c : Core) (k : Nat) (r : Rec) (start off : Nat) :
    Nat → Nat → List (Int × Nat) → Nat × List (Int × Nat)
  | 0, _, sum => (0, sum)
  | fuel + 1, n, sum =>
      if !sameRun r n || (t.foreignSlot k r (n + 1)).isSome || t.filling r (n + 1)
          || (c.markedProduct r (n + 1) start off).isSome || (badScales c.opmem r (n + 1)).isSome then (0, sum)
      else
        let next := productChunks r (n + 1) c.opmem
        if sum.map Prod.snd != next.map Prod.snd then (0, sum)
        else
          let g := fuseMore t c k r start off fuel (n + 1) ((sum.zip next).map fun e => (e.1.1 + e.2.1, e.1.2))
          (g.1 + 1, g.2)

/-- The tile issues of MMA or MMAZ that the array fuses into one write: checked, then added and written (R325, R326). -/
def State.issueProduct (s : State) (p : Nat) (x : Stream) (r : Rec) : Tile :=
  let t := s.team p
  let n := x.tile
  let z := tileZ r n
  let start := t.bufStart .z
  match t.foreignSlot x.ctx r n with
  | some i => .fault causePROT (2048 * i)
  | none =>
      match outside z tileBytes (t.bufSize .z) with
      | some v => .fault causePROT v
      | none =>
          if t.filling r n then .wait
          else
            let off := z.toNat
            let s := s.flushReds (some p) (start + off) tileBytes
            let c := (s.core p).reviveRange s.cycles (start + off) tileBytes
            match c.markedProduct r n start off with
            | some v => .fault causePOISON v
            | none =>
                match badScales c.opmem r n with
                | some v => .fault causeBADSCALE v
                | none =>
                    let g := fuseMore t c x.ctx r start off (fuseLimit x r - 1) n (productChunks r n c.opmem)
                    s.writeZ p c start off (g.1 + 1) (productRecords r n g.2 (c.tileAt (start + off)))

/-! ### MADDZ, MSCL and MCONV (R328 to R330) -/

/-- A tile issue of MADDZ. -/
def State.issueAdd (s : State) (p : Nat) (x : Stream) (r : Rec) : Tile :=
  let t := s.team p
  let start := t.bufStart .z
  let z := tileZ r x.tile
  let y := tileX r x.tile
  match outside z tileBytes (t.bufSize .z), outside y tileBytes (t.bufSize .z) with
  | some v, _ => .fault causePROT v
  | none, some v => .fault causePROT v
  | none, none =>
      let s := (s.flushReds (some p) (start + z.toNat) tileBytes).flushReds (some p) (start + y.toNat) tileBytes
      match (s.core p).deadByte (start + y.toNat) tileBytes with
      | some b => .fault causeBANKDROP (b - start)
      | none =>
          let c := ((s.core p).reviveRange s.cycles (start + z.toNat) tileBytes).wake s.cycles (start + y.toNat) tileBytes
          match c.markedTile start z.toNat, c.markedTile start y.toNat with
          | some v, _ => .fault causePOISON v
          | none, some v => .fault causePOISON v
          | none, none =>
              s.writeZ p c start z.toNat 1 (((c.tileAt (start + z.toNat)).zip (c.tileAt (start + y.toNat))).map fun e =>
                if 96 ≤ e.1.head || 96 ≤ e.2.head then none else e.1.add e.2)

/-- A record scaled by 2^IMM (R329). -/
def shiftRec (r : RaRec) (imm : Int) : Option RaRec :=
  if r.head = 0 then some r
  else
    let e := (r.bexp : Int) + imm
    if 96 ≤ r.head || e < 0 || 1023 < e then none else some { r with bexp := e.toNat }

/-- A tile issue of MSCL. -/
def State.issueScale (s : State) (p : Nat) (x : Stream) (r : Rec) : Tile :=
  let t := s.team p
  let start := t.bufStart .z
  let z := tileZ r x.tile
  match outside z tileBytes (t.bufSize .z) with
  | some v => .fault causePROT v
  | none =>
      let s := s.flushReds (some p) (start + z.toNat) tileBytes
      let c := (s.core p).reviveRange s.cycles (start + z.toNat) tileBytes
      match c.markedTile start z.toNat with
      | some v => .fault causePOISON v
      | none => s.writeZ p c start z.toNat 1 ((c.tileAt (start + z.toNat)).map fun e => shiftRec e (recImm r))

/-- Bytes of a tile that MCONV writes. -/
def convBytes (f : Fmt) : Nat := 1024 * (elemBits f / 8) + (if f.isBlock then 32 else 0)

/-- An exact value as an integer of a width (R330). -/
def convInt (w : Nat) (r : Rnd) (d : Dyadic) : Nat × Flags :=
  let (i, inexact) := d.toInt r
  if i > 2 ^ (w - 1) - 1 then (2 ^ (w - 1) - 1, flagOF ||| flagNX)
  else if i < -(2 ^ (w - 1)) then (2 ^ (w - 1), flagOF ||| flagNX)
  else (wrapInt w i, if inexact then flagNX else 0)

/-- The exact value of a record under MCONV's IMM. -/
def scaledRec (r : RaRec) (imm : Int) : Dyadic :=
  match r.num with
  | .fin d => if d.m = 0 then ⟨false, 0, 0⟩ else { d with e := d.e + imm }
  | _ => ⟨false, 0, 0⟩

/-- Converted elements and, for a block format, scale codes, with all flags (R330). -/
def convTile (f : Fmt) (r : Rnd) (vs : List Dyadic) : List Nat × List Nat × Flags :=
  if f.isBlock then
    let blocks := (List.range 32).map fun i => toBlock (((vs.drop (32 * i)).take 32).map Num.fin) f.blockWidth r
    (blocks.flatMap fun b => b.2.1.map (wrapInt f.blockWidth), blocks.map Prod.fst, orFlags (blocks.map fun b => b.2.2))
  else
    let es := vs.map fun d => if f.isInt then convInt f.intWidth r d else f.params.round r d
    (es.map Prod.fst, [], orFlags (es.map Prod.snd))

/-- The bytes of elements of `n` bytes. -/
def elemBytes (n : Nat) (es : List Nat) : List Byte := es.flatMap (leBytes n)

/-- A tile issue of MCONV. -/
def State.issueConvert (s : State) (p : Nat) (x : Stream) (r : Rec) : Tile :=
  let t := s.team p
  let start := t.bufStart .z
  let z := tileZ r x.tile
  let y := tileX r x.tile
  let f := recCfmt r
  match outside z tileBytes (t.bufSize .z), outside y (convBytes f) (t.bufSize .y) with
  | some v, _ => .fault causePROT v
  | none, some v => .fault causePROT v
  | none, none =>
      let s := s.flushReds (some p) (start + z.toNat) tileBytes
      let c := (s.core p).wake s.cycles (start + z.toNat) tileBytes
      match c.deadByte (start + z.toNat) tileBytes, c.markedTile start z.toNat with
      | some b, _ => .fault causeBANKDROP (b - start)
      | none, some v => .fault causePOISON v
      | none, none =>
          let rs := c.tileAt (start + z.toNat)
          match (rs.zipIdx.find? fun e => 96 ≤ e.1.head) with
          | some (_, i) => .fault causeACCRANGE (z.toNat + 16 * i)
          | none =>
              let (es, scales, fl) := convTile f (recRnd r) (rs.map fun e => scaledRec e (recImm r))
              let data := elemBytes (elemBits f / 8) es ++ elemBytes 1 scales
              .done ((s.setCore p c).writeSpot (s.client p x.ctx) none (.pool p (t.bufStart .y + y.toNat)) data false) fl 1

/-! ### Issuing -/

/-- The next tile issue of an operation, with those fused to it, takes effect, or faults (R319, R332, R334). -/
def State.issueTile (s : State) (p op : Nat) (run : State → Nat → Stream → Rec → Tile) : State :=
  match (s.team p).current with
  | none => s
  | some (i, x) =>
      match x.record with
      | none => s
      | some r =>
          if !(s.core p).resident || recOp r != op then s
          else match run s p x r with
          | .wait => s
          | .fault cause v => s.sequencerFault p i x cause v
          | .done s fl issues =>
              let x' : Stream := { x with flags := x.flags ||| fl }
              let x' : Stream := if x.tile + issues < recTiles r then { x' with tile := x.tile + issues }
                else { x' with record := none, index := x.index + 1 }
              s.modTeam p fun t =>
                (t.setStream i x').setCtx x.ctx
                  ((List.range issues).foldl (fun c j => c.countTile x r (x.tile + j)) (t.ctx x.ctx))

/-- MMA (R325). -/
def execMma (core : Nat) (s : State) : Out := concludeEvent (fun s => s.issueTile core 0 State.issueProduct) s

/-- MMAZ (R325). -/
def execMmaz (core : Nat) (s : State) : Out := concludeEvent (fun s => s.issueTile core 1 State.issueProduct) s

/-- MADDZ (R328). -/
def execMaddz (core : Nat) (s : State) : Out := concludeEvent (fun s => s.issueTile core 3 State.issueAdd) s

/-- MSCL (R329). -/
def execMscl (core : Nat) (s : State) : Out := concludeEvent (fun s => s.issueTile core 4 State.issueScale) s

/-- MCONV (R330). -/
def execMconv (core : Nat) (s : State) : Out := concludeEvent (fun s => s.issueTile core 2 State.issueConvert) s

/-- STREAM_COMPLETE (R318): streams complete in order; flags reach FPSTAT and releases come nearer. -/
def execStreamComplete (core : Nat) (s : State) : Out :=
  concludeEvent (fun s =>
    match (s.team core).streams with
    | [] => s
    | x :: rest =>
        if x.index < x.count || !(s.core core).resident then s
        else s.modTeam core fun t =>
          let t := { t with streams := rest }
          let t := t.countReleases x.ctx
          t.setCtx x.ctx ((t.ctx x.ctx).takeFlags x)) s

/-- SEQUENCER_TRAP (R332): a pending sequencer fault is taken at the M cluster's boundary. -/
def execSequencerTrap (r : CtxRef) (s : State) : Out :=
  concludeEvent (fun s =>
    let c := s.ctx r.core r.ctx
    if !(s.core r.core).resident || c.halted || c.trapDue.isSome then s
    else match c.dueCause .m with
    | some e => (s.modCtx r.core r.ctx fun c => c.dropCause e).raise r.core r.ctx e
    | none => s) s

end Sys2Proof.Machine
end

