-- ==== Sys2Proof/Machine/Discard.lean ====
section
/-! DEFINITION. Work that stops before its end: discarded plots (R408), wounds (R372, R414), a handler's TCTL writes
(R398), the commit window (R405), and the saving of a team (R409). -/

namespace Sys2Proof.Machine

/-! ### Which launches wait for a core (R124, R125) -/

/-- Whether a range has a position to hand out. -/
def Range.more (r : Range) : Bool := 0 < r.count || !r.returned.isEmpty

/-- The next position of a range. -/
def Range.head (r : Range) : Nat :=
  match r.returned with
  | p :: _ => p
  | [] => r.first

/-- The oldest range of a launch on a chiplet. -/
def Launch.rangeOn (l : Launch) (chip : Nat) : Option Range :=
  l.ranges.find? fun r => r.chip == chip && r.more

/-- Plots of a cost segment (R117). -/
def segmentSize : Nat := 2 ^ 24

/-- A cost-descending field waits for the sort of the segment its next position lies in (R117). -/
def Launch.sorted (l : Launch) (pos : Nat) : Bool :=
  launchWalk l.record != 3 || launchPersist l.record || (tfind l.segments (pos / segmentSize)).isSome

/-- A core is to resume a saved team already. -/
def State.owed (s : State) (i : Image) : Bool :=
  s.cores.any fun e => e.2.assign == some ⟨i.team.work, i.team.pairRun.toNat, true⟩

/-- Saved teams of a launch that a chiplet keeps and no core is to resume. -/
def State.savedOn (s : State) (slot chip : Nat) : List Image :=
  s.images.filter fun i => i.chip == chip && i.team.ofLaunch slot && !s.owed i

/-- Saved plots of a task that no core is to resume. -/
def State.savedTask (s : State) (id task : Nat) : List Image :=
  s.images.filter fun i => i.team.work.ofTask id task && !s.owed i

/-- A chiplet is a member of S that no fence has taken from the launch (R118, R464). -/
def Launch.inS (l : Launch) (chip : Nat) : Bool := l.chips.getLsbD chip && !l.lost.getLsbD chip

/-- Whether a launch has work for a core of a chiplet; what a fenced member held waits for the Gleaner (R138). -/
def State.wants (s : State) (slot : Nat) (l : Launch) (chip : Nat) : Bool :=
  l.ended.isNone && !l.electing && l.inS chip
    && (!(s.savedOn slot chip).isEmpty
      || match l.rangeOn chip with
         | some r => l.sorted r.head
         | none => false)

/-- Rows of one of `n` blocks of 32-row tiles that hold `m` rows (R89, R146). -/
def superRows (m n : Nat) : Nat := 32 * ((m + 32 * n - 1) / (32 * n))

/-- Rows of the A that a sheaf's tasks split: M, or a super-block's. -/
def Sheaf.rows (x : Sheaf) : Nat :=
  let m := recBits x.desc 0x08 0 32
  match x.outer with
  | some (_, kout) => superRows m kout
  | none => m

/-- Rows of a block, tiles across C, and tile positions (R144). -/
def Sheaf.blockRows (x : Sheaf) : Nat := superRows x.rows x.k
def Sheaf.cols (x : Sheaf) : Nat := recBits x.desc 0x08 32 32 / 32
def Sheaf.positions (x : Sheaf) : Nat := x.blockRows / 32 * x.cols

/-- Whether a task of a sheaf has work for a core of a chiplet; parity tasks start once their operands are
encoded. -/
def State.taskWants (s : State) (x : Sheaf) (t : Task) (chip : Nat) : Bool :=
  (x.phase == .running || x.phase == .complete) && !t.remote && t.chip == chip && t.ended.isNone
    && (t.next < x.positions || !(s.savedTask x.id t.id).isEmpty)

/-! ### Core priority, and who steals (R121, R124) -/

/-- A priority aged by the time since it began to count (R105, R124). -/
def State.aged (s : State) (prio since : Nat) : Nat :=
  min 7 (prio + (s.now - since) / (s.hub.agep.toNat * microsecond))

/-- A launch or a task that wants a core of a chiplet: its core priority, and when it was dispatched or split. -/
structure Claimant where
  task : Option Nat
  id : Nat
  prio : Nat
  since : Nat
  deriving DecidableEq, Repr

/-- A launch's core priority on a chiplet. -/
def State.corePrio (s : State) (l : Launch) (chip : Nat) : Nat :=
  s.aged (launchPrio l.record) ((tfind l.lastGot chip).getD l.time)

/-- A task's core priority. -/
def State.taskPrio (s : State) (x : Sheaf) (t : Task) : Nat := s.aged x.prio t.lastGot

/-- Every launch and task that has work for a core of a chiplet, launches first. -/
def State.claimants (s : State) (chip : Nat) : List Claimant :=
  (s.launches.filterMap fun e =>
    match e.2 with
    | some l => if s.wants e.1 l chip then some ⟨none, e.1, s.corePrio l chip, l.time⟩ else none
    | none => none)
  ++ s.sheaves.flatMap fun x => x.tasks.filterMap fun t =>
      if s.taskWants x t chip then some ⟨some t.id, x.id, s.taskPrio x t, x.splitAt⟩ else none

/-- A thief may ask: its walker holds no range of the launch, its FIFO holds an idle core, and R124 would give that
core to the launch. -/
def State.mayStealFor (s : State) (slot : Nat) (l : Launch) (thief : Nat) : Bool :=
  l.inS thief && (s.chip thief).live && l.ended.isNone && !l.electing && !launchPersist l.record
    && (l.rangeOn thief).isNone && !(s.chip thief).fifo.isEmpty
    && (s.claimants thief).all fun c => (c.task.isNone && c.id == slot) || c.prio ≤ s.corePrio l thief

/-- Note since when each launch and task has waited on each chiplet for a core (R125), and each thief for positions
(R121). -/
def State.noteWaits (s : State) : State :=
  let waits (chip : Nat) : Bool := (s.chip chip).live && (s.chip chip).fifo.isEmpty
  let upd (slot : Nat) (l : Launch) : Launch :=
    { l with
      waitSince := (List.range 16).foldl (fun t chip =>
        if waits chip && s.wants slot l chip then (if (tfind t chip).isSome then t else tput t chip s.now)
        else tdel t chip) l.waitSince
      asked := (List.range 16).foldl (fun t chip =>
        if s.mayStealFor slot l chip then (if (tfind t chip).isSome then t else tput t chip s.now) else tdel t chip) l.asked }
  let task (x : Sheaf) (t : Task) : Task :=
    { t with waitSince := if waits t.chip && s.taskWants x t t.chip then some (t.waitSince.getD s.now) else none }
  { s with
    launches := s.launches.map fun e => (e.1, e.2.map (upd e.1))
    sheaves := s.sheaves.map fun x => { x with tasks := x.tasks.map (task x) } }

/-- A step after which waits for cores may have begun or ended. -/
def concludePlacing (f : State → State) (s : State) : Out := .next (f s).noteWaits

/-! ### Discarding (R408) -/

/-- The chosen unperformed stores of a context perform; which others are dropped is the caller's. -/
def State.performChosen (s : State) (p k : Nat) (ixs : List Nat) : State :=
  (ixs.filterMap fun i => (s.ctx p k).storeQ[i]?).foldl (fun s a =>
    if a.sent then s
    else match a.kind with
    | .store data => s.performStore p k a data
    | .amo op ty b c tag sup => s.performAmo p k a op ty b c tag sup .clean
    | .red op ty b =>
        (match s.findAll p a.pieces with
         | .ok ((x, y) :: _) =>
             let (old, _, s) := s.oldWord p k y x.len .clean
             s.writeOwn p k y (leBytes x.len (redNew op ty old b.toNat)) false
         | _ => s)
    | _ => s) s

/-- All runs of the plot a core runs stop at once, the chosen stores of that core's team performed, and the position
returns (R408, R434). -/
def State.discardPlot (s : State) (p : Nat) (choice : DiscardChoice) : State :=
  match (s.team p).work with
  | .sheaf .. => s
  | .launch slot plot pos =>
      let s := choice.stores.foldl (fun s e => s.performChosen p e.1 e.2) s
      let s := (s.plotCores slot plot).foldl State.dropTeam s
      let owed := s.cores.filter fun e => (e.2.assign.map fun a => a.work.ofPlot slot plot).getD false
      let s := owed.foldl (fun s e => (s.modCore e.1 fun c => { c with assign := none }).idleCore e.1) s
      let s := { s with images := s.images.filter fun i => !i.team.work.ofPlot slot plot }
      s.returnPosition slot plot pos (chipOf p)

/-- Whether a team's plot may be discarded: a DISCARD launch, no run of the plot committed (R125, R408). -/
def State.discards (s : State) (t : Team) : Bool :=
  !t.save && !t.persist && t.commit == .none &&
    match t.work with
    | .launch slot plot _ =>
        s.cores.all (fun e => !(e.2.resident && e.2.team.work.ofPlot slot plot) || e.2.team.commit == .none)
    | .sheaf .. => false

/-! ### Wounds (R372, R408, R414) -/

/-- WOUND reaches every context of a team as a pending cause. -/
def Team.deliverWound (t : Team) (word : W64) : Team :=
  (List.range t.width).foldl (fun t k =>
    let c := t.ctx k
    if c.halted then t
    else t.setCtx k { c with pending := c.pending ++ [⟨causeWOUND, word, .c, true⟩] }) t

/-- A wounded plot's launch keeps what LKWAGE and LKWNAME record for the plot's next run: the team keeps its age, and with
it its CSRs (R367, R408). -/
def State.noteWound (s : State) (p by_ : Nat) (word : W64) : State :=
  match (s.team p).work with
  | .launch slot plot _ =>
      (match s.launch slot with
       | some l => s.setLaunch slot (some { l with wounds := tput l.wounds plot (by_, word) })
       | none => s)
  | .sheaf .. => s

/-- WOUND (R372): it does nothing to a team that has committed. -/
def execWound (core : Nat) (choice : DiscardChoice) (s : State) : Out :=
  concludePlacing (fun s =>
    let t := s.team core
    match t.woundsDue with
    | [] => s
    | (by_, word) :: more =>
        let s := s.modTeam core fun t => { t with woundsDue := more }
        if !(s.core core).resident || t.commit != .none then s
        else
          let s := (s.modTeam core fun t => { t with lkwage := BitVec.ofNat 48 by_, lkwname := word }).noteWound core by_ word
          let s := s.withdraw t.age (fun _ => true)
          if t.save then s.modTeam core fun t => t.deliverWound word
          else s.discardPlot core choice) s

/-! ### TCTL (R398) -/

/-- The value of a TCTL write that a context waits to see applied. -/
def State.tctlValue (s : State) (r : CtxRef) : Option Nat :=
  match (s.ctx r.core r.ctx).waitOf .c with
  | some (.csr n v _) => if n = 0x209 && (s.core r.core).resident then some v.toNat else none
  | _ => none

/-- TCTL_FATAL (R398): the launch ends with the cause written. -/
def execTctlFatal (r : CtxRef) (cause : BitVec 8) (s : State) : Out :=
  concludePlacing (fun s =>
    match s.tctlValue r with
    | some v => if v % 256 = cause.toNat && cause != 0 then s.endByTrap r.core cause.toNat else s
    | none => s) s

/-- TCTL_REQUEUE (R398, R408): the plot is discarded and its position returned. -/
def execTctlRequeue (r : CtxRef) (choice : DiscardChoice) (s : State) : Out :=
  concludePlacing (fun s =>
    match s.tctlValue r with
    | some v => if v % 256 = 0 && bit v 8 then s.discardPlot r.core choice else s
    | none => s) s

/-! ### The commit window (R405) -/

/-- Cycles of a launch's commit window (R71). -/
def commitWindow (r : Rec) : Nat :=
  (if launchCommitWin r = 0 then 256 else launchCommitWin r) * 4096

/-- COMMIT_WINDOW_EXPIRY (R405). -/
def execCommitWindowExpiry (core : Nat) (s : State) : Out :=
  concludePlacing (fun s =>
    let t := s.team core
    match t.work, t.commit with
    | .launch slot plot _, .done at_ =>
        (match s.launch slot with
         | some l =>
             if (s.core core).resident && at_ + commitWindow l.record ≤ s.cycles then s.faultLaunch slot 0 plot
             else s
         | none => s)
    | _, _ => s) s

/-! ### Saving a team (R336, R409, R413) -/

/-- Every context of a team stops at precise boundaries: a WAITI has ended (R407), other waits are abandoned (R393). -/
def Team.stopAll (t : Team) : Team :=
  (List.range t.width).foldl (fun t k =>
    let c := t.ctx k
    if c.halted || c.trapDue.isSome then t else t.setCtx k c.endWaiti.stopClusters) t

/-- A remote EVSIG waits at a held core or for a team that is out. -/
def State.evsigHeld (s : State) (p : Nat) (a : Access) : Bool :=
  match a.kind with
  | .evsig _ t _ => s.targetOf (s.team p).persistentSlot (evTf t) (evTarget t) == .held
  | _ => false

/-- An access waits at a held core or for a team that is out (R241), or it is a LOCK that waits at its manager. -/
def State.aimedHeld (s : State) (p : Nat) (a : Access) : Bool :=
  (match a.kind with
   | .lock .. => a.sent
   | _ => s.evsigHeld p a) || a.pieces.any fun y => match s.findPiece p y with
    | .wait => y.place.isSome
    | _ => false

/-- An access held back by a list of others before it: by one of its own queue (R378), or by the order of R379 to R381. -/
def State.heldBy (s : State) (p : Nat) (st : List Access) (a : Access) : Bool :=
  st.any fun e => e.seq < a.seq && (a.sameQueue e || s.holdsBack p a e)

/-- The queued accesses of a context that cannot perform now: those that wait elsewhere, and those that parked elements or
others of these hold back. -/
def State.stuck (s : State) (p : Nat) (c : Ctx) : List Access :=
  let all := c.loadQ ++ c.storeQ
  (List.range all.length).foldl
    (fun st _ => all.filter fun a => s.aimedHeld p a || s.heldBy p (c.replay ++ c.savedParked ++ st) a) []

/-- A context has stopped: no trap entry is under way, and every queued access that can perform has done so, with its
memory effects and its value (R393). -/
def State.quieted (s : State) (p : Nat) (c : Ctx) : Bool :=
  c.halted || (c.trapDue.isNone && (s.stuck p c).length == (c.loadQ ++ c.storeQ).length)

/-- Every context of a core's team has stopped. -/
def State.settled (s : State) (p : Nat) : Bool := (List.range (s.team p).width).all fun k => s.quieted p ((s.team p).ctx k)

/-- REDs of a core's team that wait in merge entries perform. -/
def State.finishReds (s : State) (p : Nat) : State :=
  (s.redEntries.filter fun e => e.members.any fun m => m.1 == p).foldl State.performRed s

/-- A command as the image records it: its data step begins anew, its pins released unless `keep` (R409, R416). -/
def Command.recorded (c : Command) (keep : Bool) : Command :=
  { c with
    pins := if keep then c.pins else []
    dataDone := c.ringDone && c.dataDone
    early := none
    away := if c.ringDone then c.away else []
    doneSectors := if c.ringDone then c.doneSectors else [] }

def Team.recordCommands (t : Team) (keep : Bool) : Team :=
  { t with queues := t.queues.map fun e => (e.1, { e.2 with cmds := e.2.cmds.map fun c => c.recorded keep }) }

/-- Cycle counts of a team that leaves its core: CYCLE of each context, and the cycles since COMMIT. -/
def Team.leave (t : Team) (cycles : Nat) : Team :=
  { t with
    commit := match t.commit with
      | .done at_ => .done (cycles - at_)
      | .none => .none
    ctxs := t.ctxs.map fun e => (e.1, { e.2 with cycleCarry := e.2.cycleValue cycles, cycleBase := cycles }) }

/-- Cycle counts of a team that comes back to a core. -/
def Team.comeBack (t : Team) (cycles : Nat) : Team :=
  { t with
    commit := match t.commit with
      | .done n => .done (cycles - n)
      | .none => .none
    ctxs := t.ctxs.map fun e => (e.1, { e.2 with cycleBase := cycles }) }

/-- The LOCK requests of a core's team that wait are withdrawn (R409). -/
def State.withdrawOwn (s : State) (p : Nat) : State :=
  if (s.team p).suppressed then s else s.withdraw (s.team p).age (fun _ => true)

/-- A team stops for a save: its waiting locks are withdrawn and its waits abandoned (R409). -/
def State.stopTeam (s : State) (p : Nat) : State := ((s.withdrawOwn p).modTeam p Team.stopAll).finishReds p

/-- Live granules of the pool. -/
def liveGranules (live : BitVec 512) : Nat := ((List.range 512).filter fun g => live.getLsbD g).length

/-- The pool part of an image, in bytes (R413): 64 bytes of header, the rings that are set, the events, the engines, the
streams, the sections, and the live granules.  The sizes that R413 does not give are the model's (log entry 83). -/
def State.poolPart (s : State) (p : Nat) : Nat :=
  let c := s.core p
  let t := c.team
  let sections := ((List.range t.width).map fun k => 8 * (makeSection t k s.cycles).dwords.length).sum
  let commands := (t.queues.map fun e => 32 + 136 * e.2.cmds.length).sum
  64 + 64 * t.rings.length + 64 + commands + 64 * t.streams.length + sections + 1024 * liveGranules c.live

/-- The bay whose loft takes the image of a core's team with its size, where the loft has room (R22). -/
def State.loftFor (s : State) (p : Nat) : Option (Nat × Nat) := s.loftPlace p (s.poolPart p)

/-- Operand memory of the claimed slots alone: their 2,048 bytes and their scale codes (R413). -/
def Team.claimedBytes (t : Team) (m : Mem) : Mem :=
  let claimed (n : Nat) : Bool := (tget OpSlot.empty t.opslots n).owner.isSome
  m.filter fun e => claimed (if e.1 < 0x20000 then e.1 / 2048 else (e.1 - 0x20000) / 32)

/-- The image of a core's team (R413). -/
def State.imageOf (s : State) (p : Nat) : Image :=
  let c := s.core p
  { chip := chipOf p
    loft := s.loftFor p
    team := { (c.team.recordCommands false).leave s.cycles with
      swapDue := false
      preemptDue := false
      yielded := false }
    pool := c.pool
    live := c.live
    opmem := c.team.claimedBytes c.opmem
    poison := c.poison
    since := s.now }

/-- The core has no team; its locks stay with the team. -/
def State.vacate (s : State) (p : Nat) : State :=
  let s := s.modCore p fun c => { c with
    resident := false
    migration := none
    team := { Team.none with
      regTop := c.team.regTop
      spadTop := c.team.spadTop
      l1Top := c.team.l1Top
      yTop := c.team.yTop
      wTop := c.team.wTop } }
  s

/-- Messages of a team that have not been delivered are sent anew by the command that restarts (R409). -/
def State.recallMessages (s : State) (age : Nat) : State :=
  { s with messages := s.messages.filter fun m => m.age != age || m.origin.isSome }

/-- A team that has stopped and settled leaves its core for its chiplet's keeping; a move asked for ends with it. -/
def State.saveTeam (s : State) (p : Nat) : State :=
  let s := (s.recallMessages (s.team p).age).endMove p
  { s with images := s.images ++ [s.imageOf p] }.vacate p

end Sys2Proof.Machine
end

