-- ==== Sys2Proof/Machine/Retire.lean ====
section
/-! DEFINITION. Plots retire (R420, R421), and the runs of a paired plot are compared (R434 to R436). -/

namespace Sys2Proof.Machine

/-- R420, the comparison of a pair aside: every context has halted, every stream has completed, every command has
retired with no queue halted, and every access has performed. -/
def State.drained (s : State) (p : Nat) : Bool :=
  let t := s.team p
  (s.core p).resident && t.allHalted && t.streams.isEmpty && t.haltedQueue.isNone
    && (List.range 4).all (fun q => (t.queue q).cmds.isEmpty && !(t.queue q).act)
    && (List.range t.width).all (fun k => (t.ctx k).accesses.isEmpty && (t.ctx k).faultReports.isEmpty)

/-- The plot log takes no change during an election (R120). -/
def State.logOpen (s : State) (slot : Nat) : Bool :=
  match s.launch slot with
  | some l => !l.electing
  | none => false

/-- A plot is logged retired; what its stores left in slices for host memory is written back (R136, R420). -/
def State.retirePlot (s : State) (slot plot : Nat) : State :=
  let s := s.writebackHost.1
  match s.launch slot with
  | none => s
  | some l => s.setLaunch slot (some { l with
      log := tput l.log plot .retired
      retiredCount := l.retiredCount + 1 })

/-- PLOT_RETIRE (R420, R421). -/
def execPlotRetire (core : Nat) (s : State) : Out :=
  concludePlacing (fun s =>
    let t := s.team core
    match t.work with
    | .launch slot plot _ =>
        if t.pairRun = 0 && s.drained core && s.logOpen slot then (s.retirePlot slot plot).dropTeam core else s
    | .sheaf .. => s) s

/-! ### Paired plots (R126, R436) -/

/-- The core that runs a run of a paired plot. -/
def State.runCore (s : State) (slot plot run : Nat) : Option Nat :=
  (s.residents.find? fun e => e.2.team.work.ofPlot slot plot && e.2.team.pairRun.toNat == run).map Prod.fst

/-- Cores assigned to or running a plot. -/
def State.pairCores (s : State) (slot plot : Nat) : List Nat :=
  s.plotCores slot plot
    ++ (s.cores.filter fun e => (e.2.assign.map fun a => a.work.ofPlot slot plot).getD false).map Prod.fst

/-- The first idle core of a chiplet in a bay that none of some cores lies in (R126). -/
def State.otherBay (s : State) (chip : Nat) (cores : List Nat) : Option Nat :=
  (s.chip chip).fifo.find? fun q => cores.all fun p => bayOf p != bayOf q

/-- A core leaves its chiplet's FIFO for some work. -/
def State.assignCore (s : State) (q : Nat) (a : Assign) : State :=
  let ch := s.chip (chipOf q)
  (s.setChip (chipOf q) { ch with fifo := ch.fifo.filter fun x => x != q }).modCore q fun c =>
    { c with assign := some a }

/-- The launch whose work a core gets has received one on the chiplet (R124). -/
def State.receivedCore (s : State) (chip : Nat) (w : Work) : State :=
  match w with
  | .launch slot _ _ =>
      (match s.launch slot with
       | some l => s.setLaunch slot (some { l with lastGot := tput l.lastGot chip s.now })
       | none => s)
  | .sheaf .. => s

/-- A paired plot retires: all its cores are free. -/
def State.retirePair (s : State) (slot plot : Nat) : State :=
  (s.plotCores slot plot).foldl State.dropTeam (s.retirePlot slot plot)

/-- PAIR_COMPARE (R436): the runs that have ended are compared; where two differ, a third run is assigned a core as
soon as one is idle in a third bay (R126). -/
def execPairCompare (slot plot : Nat) (s : State) : Out :=
  concludePlacing (fun s =>
    match s.runCore slot plot 1, s.runCore slot plot 2 with
    | some p1, some p2 =>
        if !s.drained p1 || !s.drained p2 || !s.logOpen slot then s
        else
          let s1 := (s.team p1).pairSig
          let s2 := (s.team p2).pairSig
          if s1 = s2 then s.retirePair slot plot
          else match s.runCore slot plot 3 with
          | none =>
              if (s.pairCores slot plot).length = 2 then
                match s.otherBay (chipOf p1) [p1, p2] with
                | some q => (s.receivedCore (chipOf p1) (s.team p1).work).assignCore q ⟨(s.team p1).work, 3, false⟩
                | none => s
              else s
          | some p3 =>
              if !s.drained p3 then s
              else
                let s3 := (s.team p3).pairSig
                if s3 = s1 then
                  let s := s.bankEvent (32 + chipOf p2) false evPAIRDIFF 0 0
                  (s.post evPAIRDIFF 0 (srcChip (chipOf p2)) 0 plot).retirePair slot plot
                else if s3 = s2 then
                  (s.bankEvent (32 + chipOf p1) true evUE 0 0).faultLaunch slot 0 plot
                else s.faultLaunch slot 0 plot
    | _, _ => s) s

end Sys2Proof.Machine
end

