-- ==== Sys2Proof/Machine/Queue.lean ====
section
/-! DEFINITION. The launch queues (R92 to R107): ownership, the queues' registers, the front of a queue, its waits, and
the end of a launch (R110 to R113). -/

namespace Sys2Proof.Machine

/-! ### Writes from a port (R9, R92) -/

/-- A write that is dropped, or whose effect is refused, is logged: its target, and the port (R92, R445). -/
def State.dropWrite (s : State) (port target : Nat) : State := s.post evDROPWR 0 (srcPort port) target port

/-- A port whose link is up and whose BARs decode: no write reaches the hub through another (R453, R456). -/
def State.portUp (s : State) (port : Nat) : Bool := s.hub.hostLinks.getLsbD port

/-- A write takes effect only from the owner (R92). -/
def State.byOwner (s : State) (port target : Nat) (f : State → State) : State :=
  if !s.portUp port then s else if s.ownerNow = port + 1 then f s else s.dropWrite port target

/-- A write to a launch-queue or sheaf-queue register also needs a ready device (R443, R454). -/
def State.byReady (s : State) (port target : Nat) (f : State → State) : State :=
  s.byOwner port target fun s => if s.hub.ready && !s.hub.fatal then f s else s.dropWrite port target

/-- Must-be-zero bits of a host write are dropped and logged (R9).  DESIGN CHOICE (log entry 106): a write that is refused
besides is logged for that too. -/
def State.checkMbz (s : State) (port target value mask : Nat) : State :=
  if value &&& mask = 0 then s else s.dropWrite port target

/-! ### Ownership (R93 to R95) -/

/-- Send the vectors that waited for an owner. -/
def State.sendHeld (s : State) (port : Nat) : State :=
  let mine := s.hub.msixPending.filter fun e => e.1 == 0
  let s := { s with hub := { s.hub with msixPending := s.hub.msixPending.filter fun e => e.1 != 0 } }
  if s.hub.hostLinks.getLsbD port then mine.foldl (fun s e => s.emit (.msix port e.2)) s
  else mine.foldl (fun s e => s.holdVector (port + 1) e.2) s

/-- Vectors that wait for an owner (R110). -/
def State.unsent (s : State) : List Nat := (s.hub.msixPending.filter fun e => e.1 == 0).map Prod.snd

/-- A port becomes owner; the lease period starts (R94). -/
def State.becomeOwner (s : State) (port : Nat) : State :=
  { s with hub := { s.hub with owner := port + 1, claimAt := none, leaseStart := s.now } }.sendHeld port

/-- The present owner is port 1 by a claim of this fabric cycle, and port 0 claims too: port 0 is the owner (R93). -/
def State.claimTie (s : State) (port : Nat) : Bool :=
  port == 0 && s.ownerNow == 2 && (s.hub.claimAt.map fun t => t / fabricCycle) == some (s.now / fabricCycle)

/-- A claim takes effect. -/
def State.claimBy (s : State) (port : Nat) : State :=
  let vs := s.unsent
  let s := s.becomeOwner port
  { s with hub := { s.hub with claimAt := some s.now, claimSent := vs } }

/-- The last message of a kind is not sent after all. -/
def State.unsend (s : State) (o : Outgoing) : State := { s with outbox := (s.outbox.reverse.erase o).reverse }

/-- Vectors that a claim of port 1 in this fabric cycle has sent wait for an owner again: port 0 is the claimer (R93,
R110). -/
def State.takeBack (s : State) : State :=
  s.hub.claimSent.foldl (fun s v =>
    let s := (s.unsend (.msix 1 v))
    { s with hub := { s.hub with msixPending := (s.hub.msixPending.filter fun e => e != (2, v)) } }.holdVector 0 v) s

/-- CLAIM (R93): a write to OWNCLAIM with CLAIM set. -/
def execClaim (w : PortWrite) (s : State) : Out :=
  concludeEvent (fun s =>
    if !bit w.value.toNat 0 || !s.portUp w.port.toNat then s
    else
      let s := s.checkMbz w.port.toNat 0x0000 w.value.toNat (2 ^ 64 - 2)
      if s.ownerNow = 0 then s.claimBy w.port.toNat
      else if s.claimTie w.port.toNat then (s.takeBack.claimBy 0).dropWrite 1 0x0000
      else s.dropWrite w.port.toNat 0x0000) s

/-- LEASE_RENEW (R94). -/
def execLeaseRenew (port : BitVec 1) (value : W64) (s : State) : Out :=
  concludeEvent (fun s => s.byOwner port.toNat 0x0010 fun s =>
    { s.checkMbz port.toNat 0x0010 value.toNat (0xFFFF * 2 ^ 48) with
      hub := { (s.checkMbz port.toNat 0x0010 value.toNat (0xFFFF * 2 ^ 48)).hub with
        leaseMs := value.toNat % 2 ^ 16
        leaseStart := s.now } }) s

/-- OWNERSHIP_LAPSE (R94). -/
def execOwnershipLapse (s : State) : Out :=
  concludeEvent (fun s => if s.leaseOver then { s with hub := { s.hub with owner := 0 } } else s) s

/-- HANDOVER (R95): a write to HANDOVER with GO set. -/
def execHandover (w : PortWrite) (s : State) : Out :=
  concludeEvent (fun s =>
    if !bit w.value.toNat 0 then s
    else s.byOwner w.port.toNat 0x0018 fun s =>
      (s.checkMbz w.port.toNat 0x0018 w.value.toNat (2 ^ 64 - 2)).becomeOwner (1 - w.port.toNat)) s

/-! ### Queue registers (R97 to R99) -/

/-- The BAR0 offset of a queue's register. -/
def queueOff (q off : Nat) : Nat := 0x1000 + 0x40 * q + off

def ctlLog2 (v : Nat) : Nat := bits v 0 4
def ctlIrqv (v : Nat) : Nat := bits v 16 8
def ctlEn (v : Nat) : Bool := bit v 15
def ctlIrq (v : Nat) : Bool := bit v 14
def ctlLog2Ok (n : Nat) : Bool := 4 ≤ n && n ≤ 12
def ctlIrqvOk (n : Nat) : Bool := n < 64

/-- QCTL and SQCTL from their fields. -/
def ctlWord (irqv : Nat) (en irq : Bool) (log2 : Nat) : W64 :=
  BitVec.ofNat 64 (irqv * 2 ^ 16 + (if en then 2 ^ 15 else 0) + (if irq then 2 ^ 14 else 0) + log2)

/-- A ring of slots lies wholly in HBM or in reported second-tier memory (R98). -/
def State.ringInMemory (s : State) (base slots size : Nat) : Bool :=
  let ok (f : Nat → Bool) : Bool := f base && f (base + slots * size - 1)
  ok isHbm || ok s.isTier

/-- A write to an enabled queue's control, field by field: LOG2N stays, a reserved IRQV leaves IRQV, and EN clears only
where the ring is empty; with what is logged (R98). -/
def ctlWrite (old new : Nat) (empty : Bool) : W64 × Nat :=
  let irqv := if ctlIrqvOk (ctlIrqv new) then ctlIrqv new else ctlIrqv old
  let en := ctlEn new || !empty
  (ctlWord irqv en (ctlIrq new) (ctlLog2 old),
    (if ctlLog2 new != ctlLog2 old then 1 else 0) + (if ctlIrqvOk (ctlIrqv new) then 0 else 1)
      + (if !ctlEn new && !empty then 1 else 0))

/-- Log a number of refused fields of one write.  DESIGN CHOICE (log entry 87): one event for each refused field; R98 says
only that the write is logged. -/
def State.dropTimes (s : State) (port target : Nat) : Nat → State
  | 0 => s
  | n + 1 => (s.dropWrite port target).dropTimes port target n

/-- The slot of a launch's record (R99). -/
def LaunchQueue.slotAddr (q : LaunchQueue) (n : Nat) : Nat :=
  bits q.base.toNat 12 40 * 4096 + 256 * (n % 2 ^ ctlLog2 q.control.toNat)

/-- The front moves to the next launch (R101). -/
def LaunchQueue.nextFront (q : LaunchQueue) : LaunchQueue :=
  let f := q.fseq + 1
  { q with fseq := f, record := [], front := if f = q.tail then .empty else .check }

/-- A count completes; QHEAD advances past those that have all completed (R104). -/
def LaunchQueue.advance (q : LaunchQueue) : Nat → LaunchQueue
  | 0 => q
  | fuel + 1 =>
      if q.finished.contains q.head.toNat then
        LaunchQueue.advance { q with
          head := q.head + 1
          finished := q.finished.filter fun n => n != q.head.toNat } fuel
      else q

def LaunchQueue.complete (q : LaunchQueue) (n : Nat) : LaunchQueue :=
  LaunchQueue.advance { q with finished := q.finished ++ [n] } 4097

/-! ### Ends of launches (R110 to R113) -/

/-- The completion record (R111). -/
def completionRecord (tag status cause queue seq detail plots tdisp tdone : Nat) : List Byte :=
  leBytes 8 (tag * 2 ^ 48 + status * 2 ^ 40 + cause % 256 * 2 ^ 32 + queue % 16 * 2 ^ 28 + seq % 2 ^ 28)
    ++ leBytes 8 (detail % 2 ^ 24 * 2 ^ 40 + plots % 2 ^ 40) ++ leBytes 8 tdisp ++ leBytes 8 tdone

/-- DETAIL of a launch's CPLFAULT (R445). -/
def cplDetail (q n : Nat) : Nat := q * 2 ^ 32 + n

/-- Step 1 of R110: the record at CPL, or a CPLFAULT (R113).  DESIGN CHOICE (log entry 88): the record of a launch that is
rejected or cancelled with a CPL that is no multiple of 32 is written at that address. -/
def State.writeCompletion (s : State) (r : Rec) (q n : Nat) (bs : List Byte) : State :=
  let asid := (launchAsid r).toNat
  let va := launchCpl r
  if va = 0 then s
  else match s.hubFault true asid va 32 accWrite with
  | some _ => s.post evCPLFAULT 0 srcHub va (cplDetail q n)
  | none => s.hubWrite asid va bs

/-- Whether step 2 of R110 can make its addition: the page allows it and, in a C = 0 host page, the AtomicOp works
(R113). -/
def State.doneWorks (s : State) (asid va : Nat) : Bool :=
  match s.hubAt true asid va accAtomic with
  | .bad _ => false
  | .ok pa cached => cached || !isHost pa || s.rootAdds pa

/-- Step 2 of R110: the addition at DONE, as an AtomicOp in a C = 0 host page, or a CPLFAULT (R113). -/
def State.addDone (s : State) (asid va amount detail : Nat) : State :=
  if va = 0 then s
  else if s.doneWorks asid va then
    match s.hubAt true asid va accAtomic with
    | .ok pa cached => (if cached || !isHost pa then s else s.draw).addOne ⟨asid, none, false⟩ (.mem pa cached) amount
    | .bad _ => s
  else s.draw.post evCPLFAULT 0 srcHub va detail

/-- Steps 3 and 4 of R110. -/
def State.finishCount (s : State) (q n : Nat) : State :=
  let x := s.queueReg q
  let s := s.setQueueReg q (x.complete n)
  if ctlIrq x.control.toNat then s.sendVector (ctlIrqv x.control.toNat) else s

/-- A launch ends without dispatch: its record, QHEAD and the interrupt (R110). -/
def State.endUndispatched (s : State) (q n : Nat) (r : Rec) (status detail : Nat) : State :=
  let bs := completionRecord (launchTag r) status 0 q n detail 0 0 s.timens
  (s.writeCompletion r q n bs).finishCount q n

/-- The record of a queued launch as it stands in its slot. -/
def State.slotRecord (s : State) (q n : Nat) : Rec :=
  let x := s.queueReg q
  if n = x.fseq.toNat && !x.record.isEmpty then x.record else s.physRead (x.slotAddr n) 256

/-- The front leaves its queue. -/
def State.popFront (s : State) (q : Nat) : State := s.setQueueReg q (s.queueReg q).nextFront

/-- The front ends without dispatch. -/
def State.endFront (s : State) (q status detail : Nat) : State :=
  let n := (s.queueReg q).fseq.toNat
  let r := s.slotRecord q n
  (s.popFront q).endUndispatched q n r status detail

/-! ### The front (R101, R102) -/

/-- Launches of an ASID that use a copy of a tensor table (R70). -/
def State.usersOf (s : State) (asid : BitVec 16) : List Launch :=
  (s.launches.filterMap Prod.snd).filter fun l => launchAsid l.record == asid && launchTtcount l.record != 0

/-- R70 holds a launch, one that names no entries too, while its ASID's copy in use is another table. -/
def State.tableHeld (s : State) (r : Rec) : Bool :=
  (s.usersOf (launchAsid r)).any fun l =>
    launchTtbase l.record != launchTtbase r || launchTtcount l.record != launchTtcount r

/-- A front whose waits are met enters TTHOLD or READY (R101). -/
def State.frontMet (s : State) (q : Nat) : State :=
  let x := s.queueReg q
  if s.tableHeld x.record then s.setQueueReg q { x with front := .tthold }
  else s.setQueueReg q { x with front := .ready, t0 := s.now }

/-- One wait: met, not met, or a fault (R74, R113).  DESIGN CHOICE (log entry 85): a counter in a poisoned sector is
compared as its bytes stand. -/
def State.waitMet (s : State) (r : Rec) (second : Bool) : Option Bool × State :=
  let va := launchWait r second
  if va = 0 then (some true, s)
  else match s.hubRead true (launchAsid r).toNat va 8 with
  | .error _ => (none, s)
  | .ok (bs, _, s) => (some (launchTarget r second ≤ leNat bs), s)

/-- A recheck of one queue's front (R102, R113). -/
def State.recheck (s : State) (q : Nat) : State :=
  let x := s.queueReg q
  if x.front != .waitdep then s
  else
    let (a, s) := s.waitMet x.record false
    let (b, s) := s.waitMet x.record true
    match a, b with
    | none, _ => s.endFront q 1 0x48
    | some _, none => s.endFront q 1 0x58
    | some a, some b => if a && b then s.frontMet q else s

/-- A recheck of every queue, in queue-number order. -/
def State.recheckAll (s : State) : State := (List.range 16).foldl State.recheck s

/-- LAUNCH_CHECK (R61, R101): the front's record is read and checked.  DESIGN CHOICE (log entry 86): all of it is read at
this instant, so that of a record changed during its read interval (R62) the dwords used are those that stand then. -/
def execLaunchCheck (q : Nat) (s : State) : Out :=
  concludeEvent (fun s =>
    let x := s.queueReg q
    if x.front != .check || s.hub.fatal then s
    else
      let r := s.physRead (x.slotAddr x.fseq.toNat) 256
      let s := s.setQueueReg q { x with record := r }
      match checkLaunch r with
      | some off => s.endFront q 1 off
      | none =>
          if launchWait r false = 0 && launchWait r true = 0 then s.frontMet q
          else s.setQueueReg q { x with record := r, front := .waitdep, t0 := s.now }) s

/-- How many multiples of 10,000 TIMENS had passed at a moment of device time. -/
def gridOf (now : Nat) : Nat := now * 5 / 36 / 10000

/-- WAITDEP_RECHECK (R102): TIMENS has passed a multiple of 10,000 since the last one; what entered WAITDEP after that
moment waits for the next. -/
def execWaitdepRecheck (s : State) : Out :=
  concludeEvent (fun s =>
    let n := gridOf s.now
    if s.hub.fatal || n ≤ s.hub.rechecked then s
    else (List.range 16).foldl (fun s q => if gridOf (s.queueReg q).t0 < n then s.recheck q else s)
      { s with hub := { s.hub with rechecked := n } }) s

/-- A completion lets held fronts go once the last launch that used the other copy has ended (R101). -/
def State.releaseHeld (s : State) : State :=
  (List.range 16).foldl (fun s q =>
    if (s.queueReg q).front == .tthold then s.frontMet q else s) s

/-! ### Writes to queue registers (R98, R99, R103) -/

/-- Padding of QCTL, with the bits of ABORT and POKE left to their own steps. -/
def qctlMbz : Nat := 0xFFFFFFFFFF000FF0

/-- QUEUE_ENABLE (R98): a QCTL write with EN set. -/
def execQueueEnable (port : BitVec 1) (q : Nat) (value : W64) (s : State) : Out :=
  concludeEvent (fun s =>
    let at_ := queueOff q 0x08
    let v := value.toNat
    if 16 ≤ q || !ctlEn v then s
    else s.byReady port.toNat at_ fun s =>
      let s := s.checkMbz port.toNat at_ v qctlMbz
      let x := s.queueReg q
      let old := x.control.toNat
      if ctlEn old then
        let (w, n) := ctlWrite old v (x.head == x.tail)
        (s.setQueueReg q { x with control := w }).dropTimes port.toNat at_ n
      else if ctlLog2Ok (ctlLog2 v) && ctlIrqvOk (ctlIrqv v)
          && s.ringInMemory (bits x.base.toNat 12 40 * 4096) (2 ^ ctlLog2 v) 256 then
        s.setQueueReg q { LaunchQueue.reset with
          base := x.base
          control := ctlWord (ctlIrqv v) true (ctlIrq v) (ctlLog2 v) }
      else s.dropWrite port.toNat at_) s

/-- QUEUE_DISABLE (R98): a QCTL write with EN clear. -/
def execQueueDisable (port : BitVec 1) (q : Nat) (value : W64) (s : State) : Out :=
  concludeEvent (fun s =>
    let at_ := queueOff q 0x08
    let v := value.toNat
    if 16 ≤ q || ctlEn v then s
    else s.byReady port.toNat at_ fun s =>
      let s := s.checkMbz port.toNat at_ v qctlMbz
      let x := s.queueReg q
      let old := x.control.toNat
      if ctlEn old then
        let (w, n) := ctlWrite old v (x.head == x.tail)
        (s.setQueueReg q { x with control := w }).dropTimes port.toNat at_ n
      else s.setQueueReg q { x with control := ctlWord (ctlIrqv v) false (ctlIrq v) (ctlLog2 v) }) s

/-- Cancel the counts from the front up to the tail, in order (R103). -/
def State.cancelFrom (s : State) (q : Nat) : Nat → State
  | 0 => s
  | fuel + 1 =>
      let x := s.queueReg q
      if x.front = .empty then s else (s.endFront q 4 0).cancelFrom q fuel

/-- ABORT (R103). -/
def execAbort (port : BitVec 1) (q : Nat) (s : State) : Out :=
  concludeEvent (fun s =>
    if 16 ≤ q then s
    else s.byReady port.toNat (queueOff q 0x08) fun s =>
      if ctlEn (s.queueReg q).control.toNat then s.cancelFrom q 4097 else s) s

/-- POKE (R102). -/
def execPoke (port : BitVec 1) (q : Nat) (s : State) : Out :=
  concludeEvent (fun s =>
    if 16 ≤ q then s
    else s.byReady port.toNat (queueOff q 0x08) fun s =>
      if ctlEn (s.queueReg q).control.toNat then s.recheck q else s) s

/-- Whether a new tail is accepted (R99). -/
def tailOk (log2 : Nat) (old head new : BitVec 32) : Bool :=
  (new - old).toNat ≤ 2 ^ log2 && (new - head).toNat ≤ 2 ^ log2

/-- QTAIL (R99). -/
def execQtail (port : BitVec 1) (q : Nat) (value : W64) (s : State) : Out :=
  concludeEvent (fun s =>
    let at_ := queueOff q 0x10
    if 16 ≤ q then s
    else s.byReady port.toNat at_ fun s =>
      let s := s.checkMbz port.toNat at_ value.toNat (0xFFFFFFFF * 2 ^ 32)
      let x := s.queueReg q
      let t := BitVec.ofNat 32 value.toNat
      if !ctlEn x.control.toNat || !tailOk (ctlLog2 x.control.toNat) x.tail x.head t then s.dropWrite port.toNat at_
      else s.setQueueReg q { x with
        tail := t
        front := if x.front = .empty && t != x.fseq then .check else x.front }) s

end Sys2Proof.Machine
end

