-- ==== Sys2Proof/Machine/Place.lean ====
section
/-! DEFINITION. Dispatch and the end of a launch (R105 to R112), walk orders (R115 to R118), stealing (R121) and the
handing out of cores (R123 to R126). -/

namespace Sys2Proof.Machine

/-! ### Dispatch (R105, R106, R118, R119) -/

/-- The effective priority of a READY front (R105). -/
def State.frontPrio (s : State) (q : Nat) : Nat :=
  s.aged (launchPrio (s.queueReg q).record) (s.queueReg q).t0

/-- The front the hub chooses: the highest effective priority, then the earliest in READY, then the lowest queue
(R106); never one that R70 holds. -/
def State.chosenFront (s : State) : Option Nat :=
  (List.range 16).foldl (fun best q =>
    if (s.queueReg q).front != .ready || s.tableHeld (s.queueReg q).record then best
    else match best with
    | none => some q
    | some b =>
        if s.frontPrio b < s.frontPrio q
            || (s.frontPrio b == s.frontPrio q && decide ((s.queueReg q).t0 < (s.queueReg b).t0)) then some q
        else some b) none

/-- A free entry of the dispatch table. -/
def State.freeEntry (s : State) : Option Nat := (List.range 64).find? fun n => (s.launch n).isNone

/-- S: the live chiplets that CHIPMASK names, or all of them for 0 (R118). -/
def State.members (s : State) (r : Rec) : List Nat :=
  (List.range 16).filter fun c => (s.chip c).live && (launchChips r == 0 || (launchChips r).getLsbD c)

def maskOf (cs : List Nat) : BitVec 16 := cs.foldl (fun m c => m ||| (1#16 <<< c)) 0

/-- The ranges dealt to the members of S (R118); a persistent field's team l goes to member l mod c (R130). -/
def dealRanges (r : Rec) (plots : Nat) (cs : List Nat) : List Range :=
  let c := cs.length
  ((cs.zipIdx).map fun (chip, j) =>
    if launchPersist r || launchWalk r == 3 then Range.mk chip j c ((plots + c - 1 - j) / c) []
    else Range.mk chip (j * plots / c) 1 ((j + 1) * plots / c - j * plots / c) []).filter Range.more

/-- The table of tensors a launch uses: the copy its ASID has in use, else what TTBASE names (R70). -/
def State.tensorTable (s : State) (r : Rec) : Except Nat (List Byte × State) :=
  if launchTtcount r = 0 then .ok ([], s)
  else match s.usersOf (launchAsid r) with
  | l :: _ => .ok (l.tensors, s)
  | [] =>
      match s.hubRead true (launchAsid r).toNat (launchTtbase r) (64 * launchTtcount r) with
      | .error _ => .error 0x10
      | .ok (bs, _, s) =>
          match checkTensors bs (launchTtcount r) with
          | some off => .error off
          | none => .ok (bs, s)

/-- A launch that enters the table. -/
def State.newLaunch (s : State) (q : Nat) (r : Rec) (cs : List Nat) (table : List Byte) : Launch where
  record := r
  queue := q
  count := (s.queueReg q).fseq.toNat
  time := s.now
  master := cs.headD 0
  deputy := cs[1]?
  chips := maskOf cs
  plots := launchPlots r
  log := []
  ranges := dealRanges r (launchPlots r) cs
  costs := []
  segments := []
  retiredCount := 0
  tensors := table
  lastGot := []
  waitSince := []
  asked := []
  ended := none
  lost := 0
  toGlean := 0
  electing := false
  code := s.codeView
  points := s.hub.requests (launchKernel r) 0

/-- No core counts as having run a plot of a table entry's new launch. -/
def State.forgetEntry (s : State) (slot : Nat) : State :=
  { s with cores := s.cores.map fun e =>
      (e.1, if e.2.lastLaunch == some slot then { e.2 with lastLaunch := none } else e.2) }

/-- Fronts in READY that the table a dispatch has taken into use holds (R70).  DESIGN CHOICE (log entry 84): they go back
to TTHOLD, which is the status R70 wants recorded; R101's table has no such transition. -/
def State.holdFronts (s : State) : State :=
  (List.range 16).foldl (fun s q =>
    let x := s.queueReg q
    if x.front == .ready && s.tableHeld x.record then s.setQueueReg q { x with front := .tthold } else s) s

/-- DISPATCH (R101, R106): the chosen front takes a table entry, or ends NOCHIP or REJECT. -/
def execDispatch (s : State) : Out :=
  concludePlacing (fun s =>
    if s.hub.fatal || !s.hub.ready then s
    else match s.freeEntry, s.chosenFront with
    | some slot, some q =>
        let r := (s.queueReg q).record
        let cs := s.members r
        if cs.isEmpty then s.endFront q 2 0
        else (match s.tensorTable r with
          | .error off => s.endFront q 1 off
          | .ok (table, s) =>
              let l := s.newLaunch q r cs table
              (((s.forgetEntry slot).popFront q).setLaunch slot (some l)).holdFronts)
    | _, _ => s) s

/-! ### The end of a launch (R110 to R112) -/

/-- Every store and reduction of a launch that ends performs at .sys: the REDs of its teams that ports still hold, and
what slices hold for host memory (R74, R110). -/
def State.finishLaunchStores (s : State) (slot : Nat) : State :=
  ((s.settleOrphans slot).redEntries.filter fun e => e.slots.contains slot).foldl State.performRed (s.settleOrphans slot)
    |>.writebackHost.1

/-- LAUNCH_COMPLETE (R110). -/
def execLaunchComplete (slot : Nat) (s : State) : Out :=
  concludePlacing (fun s =>
    match s.launch slot with
    | none => s
    | some l =>
        if s.hub.fatal || (l.ended.isNone && l.retiredCount < l.plots) then s
        else
          let e := l.ended.getD (0, 0, 0)
          let r := l.record
          let s := s.finishLaunchStores slot
          let bs := completionRecord (launchTag r) e.1 e.2.1 l.queue l.count e.2.2 l.retiredCount (l.time * 5 / 36) s.timens
          let s := if l.ended.isSome then
              s.post evLAUNCHFAULT e.2.1 srcHub (launchCpl r) (leNat (bs.take 8))
            else s
          let s := s.writeCompletion r l.queue l.count bs
          let asid := (launchAsid r).toNat
          let added := launchDone r != 0 && s.doneWorks asid (launchDone r)
          let s := s.addDone asid (launchDone r) (launchDoneAdd r) (cplDetail l.queue l.count)
          let s := (s.finishCount l.queue l.count).setLaunch slot none
          let s := s.releaseHeld
          if added then s.recheckAll else s) s

/-! ### Walk orders (R115 to R117) -/

/-- The linear index of a point (R115). -/
def linearIndex (r : Rec) (i0 i1 i2 i3 : Nat) : Nat :=
  i0 + launchUsed r 0 * (i1 + launchUsed r 1 * (i2 + launchUsed r 2 * i3))

/-- The indices of a plot. -/
def plotIndex (r : Rec) (l : Nat) : Nat → Nat
  | 0 => l % launchUsed r 0
  | 1 => l / launchUsed r 0 % launchUsed r 1
  | 2 => l / (launchUsed r 0 * launchUsed r 1) % launchUsed r 2
  | _ => l / (launchUsed r 0 * launchUsed r 1 * launchUsed r 2)

/-- Points inside an extent among `size` indices from `lo`. -/
def inExtent (ext lo size : Nat) : Nat := min (lo + size) ext - min lo ext

/-- Points of a box inside the extents. -/
def boxPoints : List Nat → List Nat → List Nat → Nat
  | e :: es, x :: xs, z :: zs => inExtent e x z * boxPoints es xs zs
  | _, _, _ => 1

/-- The point at a place of the Morton order, its code found from the top bit down: each step halves a dimension of
the box that still holds the point. -/
def mortonPoint (ext : List Nat) : List Nat → List Nat → List Nat → Nat → List Nat
  | [], lo, _, _ => lo
  | d :: ds, lo, size, p =>
      let half := size.set d (size.getD d 0 / 2)
      let n := boxPoints ext lo half
      if p < n then mortonPoint ext ds lo half p
      else mortonPoint ext ds (lo.set d (lo.getD d 0 + half.getD d 0)) half (p - n)

/-- The dimensions in the order of a Morton code's bits, highest first. -/
def mortonBits (dims : Nat) : List Nat := (List.range 32).flatMap fun _ => (List.range dims).reverse

def mortonPlot (r : Rec) (p : Nat) : Nat :=
  let n := launchDims r
  let ext := (List.range n).map (launchUsed r)
  let x := mortonPoint ext (mortonBits n) (List.replicate n 0) (List.replicate n (2 ^ 32)) p
  linearIndex r (x.getD 0 0) (x.getD 1 0) (x.getD 2 0) (x.getD 3 0)

/-- The plot at a place of column order. -/
def columnPlot (r : Rec) (p : Nat) : Nat :=
  let a := launchUsed r 1
  let b := launchUsed r 0
  let c := launchUsed r 2
  linearIndex r (p / a % b) (p % a) (p / (a * b) % c) (p / (a * b * c))

/-- The plot a walk position holds (R116); a persistent field is not walked (R130). -/
def Launch.plotAt (l : Launch) (p : Nat) : Nat :=
  if launchPersist l.record then p
  else match launchWalk l.record with
  | 0 => p
  | 1 => columnPlot l.record p
  | 2 => mortonPlot l.record p
  | _ => (tget [] l.segments (p / segmentSize)).getD (p % segmentSize) 0

def insertNat (x : Nat) : List Nat → List Nat
  | [] => [x]
  | y :: ys => if x ≤ y then x :: y :: ys else y :: insertNat x ys

/-- Positions in ascending order. -/
def sortNats (xs : List Nat) : List Nat := xs.foldr insertNat []

/-- Put a plot among plots in order of cost, highest first, equals in order of index (R117). -/
def insertCost (x : Nat × Nat) : List (Nat × Nat) → List (Nat × Nat)
  | [] => [x]
  | y :: ys => if y.1 ≤ x.1 then x :: y :: ys else y :: insertCost x ys

/-- The plots of a segment in order of cost, from their costs. -/
def sortCosts (first : Nat) (bs : List Byte) (n : Nat) : List Nat :=
  (((List.range n).map fun i => (fieldOf bs (2 * i) 2, first + i)).foldr insertCost []).map Prod.snd

/-- The master reads all the costs of a field before it sorts the first segment; a fault on any of them ends the launch
(R117). -/
def State.readCosts (s : State) (l : Launch) : Except Nat (List Byte × State) :=
  let asid := (launchAsid l.record).toNat
  match s.hubFault true asid (launchCosttab l.record) (2 * l.plots) accRead with
  | some c => .error c
  | none =>
      match s.hubRead true asid (launchCosttab l.record) (2 * l.plots) with
      | .error c => .error c
      | .ok (bs, _, s) => .ok (bs, s)

/-- COST_SORT (R117). -/
def execCostSort (slot segment : Nat) (s : State) : Out :=
  concludePlacing (fun s =>
    match s.launch slot with
    | none => s
    | some l =>
        let r := l.record
        let first := segment * segmentSize
        if launchWalk r != 3 || launchPersist r || l.ended.isSome || l.plots ≤ first
            || l.segments.length != segment then s
        else
          let n := min segmentSize (l.plots - first)
          match (if segment = 0 then s.readCosts l else .ok (l.costs, s)) with
          | .error c => s.faultLaunch slot c 0
          | .ok (bs, s) =>
              s.setLaunch slot (some { l with
                costs := bs
                segments := tput l.segments segment (sortCosts first (bs.drop (2 * first)) n) })) s

/-! ### Core priority (R124) -/

/-- The claimant that gets the next core: the highest core priority, then the earlier dispatch. -/
def bestClaimant : List Claimant → Option Claimant
  | [] => none
  | x :: xs =>
      match bestClaimant xs with
      | none => some x
      | some y => if y.prio < x.prio || (y.prio == x.prio && x.since ≤ y.since) then some x else some y

/-! ### Stealing (R121, R122) -/

/-- Positions a range still holds. -/
def Range.left (r : Range) : Nat := r.returned.length + r.count

/-- The range with the most positions, the lower chiplet and then the earlier dealt among equals. -/
def largestRange : List Range → Option Range
  | [] => none
  | r :: rs =>
      match largestRange rs with
      | none => some r
      | some x => if x.left < r.left || (x.left == r.left && r.chip ≤ x.chip) then some r else some x

/-- What the victim keeps of a range and what a thief receives. -/
def Range.split (r : Range) (thief : Nat) : Range × Range :=
  let keep := (r.left + 1) / 2
  let kept := keep - r.returned.length
  ({ r with returned := r.returned.take keep, count := kept },
    ⟨thief, r.first + r.stride * kept, r.stride, r.count - kept, r.returned.drop keep⟩)

/-- Replace the first range equal to one. -/
def replaceRange (old new : Range) : List Range → List Range
  | [] => []
  | r :: rs => if r = old then new :: rs else r :: replaceRange old new rs

/-- A chiplet's request is one that the master serves before another's: it came earlier, or in the same fabric cycle from
a lower-numbered chiplet (R121). -/
def asksBefore (a b : Nat × Nat) : Bool :=
  let s := a.2 / fabricCycle
  let t := b.2 / fabricCycle
  s < t || (s == t && a.1 < b.1)

/-- Another chiplet's request for positions of a launch comes first. -/
def State.outAsked (s : State) (slot : Nat) (l : Launch) (thief : Nat) : Bool :=
  l.asked.any fun e => s.mayStealFor slot l e.1 && asksBefore e (thief, (tfind l.asked thief).getD s.now)

/-- STEAL (R121). -/
def execSteal (thief slot : Nat) (s : State) : Out :=
  concludePlacing (fun s =>
    let s := s.noteWaits
    match s.launch slot with
    | none => s
    | some l =>
        if !s.mayStealFor slot l thief || s.outAsked slot l thief then s
        else match largestRange (l.ranges.filter fun r => l.inS r.chip && (s.chip r.chip).live) with
        | none => s
        | some r =>
            if r.left < 2 then s
            else
              let (kept, got) := r.split thief
              s.setLaunch slot (some { l with ranges := replaceRange r kept l.ranges ++ [got] })) s

/-! ### Handing out cores (R123, R125, R126) -/

/-- A range after its next position has gone out. -/
def Range.pop (r : Range) : Range :=
  match r.returned with
  | _ :: ps => { r with returned := ps }
  | [] => { r with first := r.first + r.stride, count := r.count - 1 }

/-- The oldest range of a chiplet gives its next position; an empty one is dropped. -/
def popRange (chip : Nat) : List Range → List Range
  | [] => []
  | r :: rs =>
      if r.chip == chip && r.more then (if r.pop.more then r.pop :: rs else rs)
      else r :: popRange chip rs

/-- The image kept longest. -/
def oldestImage : List Image → Option Image
  | [] => none
  | i :: is =>
      match oldestImage is with
      | none => some i
      | some j => if i.since ≤ j.since then some i else some j

def Image.assign (i : Image) : Assign := ⟨i.team.work, i.team.pairRun.toNat, true⟩

/-- The launch's next position on a chiplet, as work for a core. -/
def Launch.nextWork (l : Launch) (slot chip : Nat) : Option Assign :=
  (l.rangeOn chip).map fun r =>
    ⟨.launch slot (l.plotAt r.head) r.head, if launchPaired l.record then 1 else 0, false⟩

/-- What a launch gives a core of a chiplet: under SAVE, saved teams before new positions (R125); in a persistent
field, teams that have not yet been resident, in ascending number, then the team out longest (R130, R131). -/
def State.launchGives (s : State) (slot : Nat) (l : Launch) (chip : Nat) : Option Assign :=
  let saved := (oldestImage (s.savedOn slot chip)).map Image.assign
  let fresh := match l.rangeOn chip with
    | some r => if l.sorted r.head then l.nextWork slot chip else none
    | none => none
  if launchPersist l.record then fresh.orElse fun _ => saved else saved.orElse fun _ => fresh

/-- A launch has given out some work on a chiplet. -/
def State.tookFrom (s : State) (slot chip : Nat) (l : Launch) (a : Assign) : State :=
  s.setLaunch slot (some { l with
    ranges := if a.resume then l.ranges else popRange chip l.ranges
    lastGot := tput l.lastGot chip s.now })

/-- What a task gives a core: a saved plot before a new one. -/
def State.taskGives (s : State) (x : Sheaf) (t : Task) : Assign :=
  match (s.savedTask x.id t.id).head? with
  | some i => i.assign
  | none => ⟨.sheaf x.id t.id t.next, 0, false⟩

/-- Change one task of a sheaf. -/
def Sheaf.modTask (x : Sheaf) (task : Nat) (f : Task → Task) : Sheaf :=
  { x with tasks := x.tasks.map fun t => if t.id == task then f t else t }

def State.modSheaf (s : State) (id : Nat) (f : Sheaf → Sheaf) : State :=
  { s with sheaves := s.sheaves.map fun x => if x.id == id then f x else x }

def State.sheafOf (s : State) (id : Nat) : Option Sheaf := s.sheaves.find? fun x => x.id == id

/-- A paired position of a chiplet whose second core is still to come, with its first core (R126).  DESIGN CHOICE (log
entry 81): of several, the one whose first core has the lowest number. -/
def State.halfPair (s : State) (chip : Nat) : Option (Nat × Nat × Nat × Nat) :=
  (s.cores.filterMap fun e =>
    match e.2.assign with
    | some ⟨.launch slot plot pos, 1, false⟩ =>
        if chipOf e.1 == chip && (s.pairCores slot plot).length == 1 then some (slot, plot, pos, e.1) else none
    | _ => none).head?

/-- The second core of a waiting pair, if one is idle in another bay. -/
def State.secondCore (s : State) (chip : Nat) : Option (Nat × Assign) :=
  match s.halfPair chip with
  | some (slot, plot, pos, p) =>
      (s.otherBay chip [p]).map fun q => (q, ⟨.launch slot plot pos, 2, false⟩)
  | none => none

/-- CORE_HANDOUT (R123, R124): a pair that waits gets its second core; else the head core goes to the launch or task
that R124 selects.  DESIGN CHOICE (log entry 81): R126 does not say whether a waiting pair's second core goes before that
selection; it does, whatever the core priorities. -/
def execCoreHandout (chip : Nat) (s : State) : Out :=
  concludePlacing (fun s =>
    if s.hub.fatal || !(s.chip chip).live then s
    else match s.secondCore chip with
    | some (q, a) => (s.receivedCore chip a.work).assignCore q a
    | none =>
        match (s.chip chip).fifo, bestClaimant (s.claimants chip) with
        | p :: _, some c =>
            (match c.task with
             | none =>
                 (match s.launch c.id with
                  | some l =>
                      (match s.launchGives c.id l chip with
                       | some a => (s.tookFrom c.id chip l a).assignCore p a
                       | none => s)
                  | none => s)
             | some task =>
                 (match s.sheafOf c.id with
                  | some x =>
                      (match x.tasks.find? fun t => t.id == task with
                       | some t =>
                           let a := s.taskGives x t
                           let s := s.modSheaf x.id fun x => x.modTask task fun t => { t with
                             lastGot := s.now
                             next := if a.resume then t.next else t.next + 1 }
                           s.assignCore p a
                       | none => s)
                  | none => s))
        | _, _ => s) s

end Sys2Proof.Machine
end

