-- ==== Sys2Proof/Machine/Start.lean ====
section
/-! DEFINITION. Plots start (R128, R129, R145), teams resume (R410), and teams leave their cores for a walker's
pre-emption (R125) or a persistent swap (R131). -/

namespace Sys2Proof.Machine

/-! ### What a plot starts with (R128) -/

/-- A register holding one entry pushed at plot start. -/
def oneEntry (v : Nat) : SQueue := { SQueue.empty with entries := [.ready (BitVec.ofNat 64 v) false], cond := .live }

/-- A context at plot start. -/
def startCtx (r : Rec) (plot : Nat) (cycles : Nat) (code : Mem) : Ctx :=
  { Ctx.start.lockstepAt (BitVec.ofNat 64 (launchEntry r)) with
    halted := false
    sup := launchSup r
    cycleBase := cycles
    code := code
    scalars := [(0, oneEntry (plotIndex r plot 0)), (1, oneEntry (plotIndex r plot 1)),
      (2, oneEntry (plotIndex r plot 2)), (3, oneEntry (plotIndex r plot 3)), (4, oneEntry (launchArg r))] }

/-- The team of a plot of a launch. -/
def State.startTeam (s : State) (l : Launch) (slot plot pos run age : Nat) : Team :=
  let r := l.record
  { Team.none with
    work := .launch slot plot pos
    age := age
    asid := launchAsid r
    lslot := slot
    width := launchWidth r
    vregs := launchVregs r
    persist := launchPersist r
    save := launchSave r
    supLaunch := launchSup r
    regTop := launchRegTop r
    spadTop := launchSpadTop r
    l1Top := launchL1Top r
    yTop := launchYTop r
    wTop := launchWTop r
    ctxs := (List.range (launchWidth r)).map fun k => (k, startCtx r plot s.cycles l.code)
    pairRun := BitVec.ofNat 2 run
    kernel := launchKernel r
    lkwage := BitVec.ofNat 48 ((tfind l.wounds plot).map Prod.fst |>.getD 0)
    lkwname := ((tfind l.wounds plot).map Prod.snd).getD 0
    startTime := s.now
    sliceStart := s.now }

/-- The team of a tile of a sheaf's task: one supervisor context, every operand slot claimed (R145). -/
def State.taskTeam (s : State) (x : Sheaf) (task tile age : Nat) : Team :=
  { Team.none with
    work := .sheaf x.id task tile
    age := age
    asid := x.asid
    lslot := x.lslot
    save := true
    supLaunch := true
    regTop := 4
    spadTop := 36
    l1Top := 36
    yTop := 4
    wTop := 4
    ctxs := [(0, { Ctx.start with sup := true, cycleBase := s.cycles })]
    opslots := (List.range 64).map fun i => (i, { OpSlot.empty with owner := some 0 })
    startTime := s.now
    sliceStart := s.now }

/-- A core that another launch ran on: granules dead, L1 empty (R129), slots and scale codes zero (R226). -/
def State.clearCore (s : State) (p : Nat) : State :=
  let s := { s with owners := s.owners.filter fun e => e.2 != p }
  s.modCore p fun c => { c with live := 0, poison := [], l1 := [], l1Slots := [], opmem := [] }

/-- A team takes its core. -/
def State.seat (s : State) (p : Nat) (t : Team) (last : Option Nat) : State :=
  s.modCore p fun c => { c with resident := true, assign := none, team := t, lastLaunch := last }

/-- The age of a plot: the one it took when first logged started, else the counter's (R364). -/
def State.plotAge (s : State) (l : Launch) (plot : Nat) : Nat × State :=
  match (tfind l.log plot).bind PlotState.age with
  | some a => (a, s)
  | none => (s.hub.ageCounter, { s with hub := { s.hub with ageCounter := s.hub.ageCounter + 1 } })

/-- A plot is logged started, once for all the runs of a pair (R136). -/
def Launch.logStart (l : Launch) (plot age core : Nat) : Launch :=
  match tfind l.log plot with
  | some (.started ..) => l
  | _ => { l with log := tput l.log plot (.started age core) }

/-- A paired position has both its cores (R126). -/
def State.pairReady (s : State) (slot plot run : Nat) : Bool :=
  run == 0 || 2 ≤ (s.pairCores slot plot).length

/-- PLOT_START (R127 to R129, R145). -/
def execPlotStart (core : Nat) (s : State) : Out :=
  concludePlacing (fun s =>
    match (s.core core).assign with
    | some ⟨.launch slot plot pos, run, false⟩ =>
        (match s.launch slot with
         | some l =>
             if l.electing || !s.pairReady slot plot run then s
             else
               let (age, s) := s.plotAge l plot
               let s := if (s.core core).lastLaunch == some slot then s else s.clearCore core
               let s := s.seat core (s.startTeam l slot plot pos run age) (some slot)
               s.setLaunch slot (some (l.logStart plot age core))
         | none => s)
    | some ⟨.sheaf id task tile, _, false⟩ =>
        (match s.sheafOf id with
         | some x =>
             let age := s.hub.ageCounter
             let s := { s.clearCore core with hub := { s.hub with ageCounter := age + 1 } }
             s.seat core (s.taskTeam x task tile age) none
         | none => s)
    | _ => s) s

/-! ### Resuming (R410, R411) -/

/-- Translate every recorded command of a queue again: the commands with their pins, and the first fault with the number
of its command. -/
def State.repinCmds (s : State) (p : Nat) : List Command → List Command × Option (Nat × Nat × Nat) × State
  | [] => ([], none, s)
  | c :: cs =>
      if c.fail.isSome then
        let (ds, e, s) := State.repinCmds s p cs
        (c :: ds, e, s)
      else match s.pinFootprint p c.ctx c.user c.bytes with
      | (.ok pins, s) =>
          let (ds, e, s) := State.repinCmds s p cs
          ({ c with pins := pins } :: ds, e, s)
      | (.error e, s) =>
          let (ds, _, s) := State.repinCmds s p cs
          (c :: ds, some (c.serial, e), s)

/-- Pin again the commands of a queue; a fault halts it (R410). -/
def State.repinQueue (s : State) (p q : Nat) : State :=
  let (ds, e, s) := s.repinCmds p ((s.team p).queue q).cmds
  let s := s.modTeam p fun t => t.setQueue q { t.queue q with cmds := ds }
  match e with
  | some (serial, cause, v) => if ((s.team p).queue q).halt then s else s.haltQueue p q serial cause v
  | none => s

/-- Pin again the commands of all four queues. -/
def State.repinAll (s : State) (p : Nat) : State :=
  (List.range 4).foldl (fun s q =>
    if (s.core p).resident then s.repinQueue p q else s) s

/-- Wounds that reached a saved team while it was out are recorded and pending when it returns, so that its first C
syllable takes them (R372, R410); a team that has committed has none. -/
def Team.takeWounds (t : Team) : Team :=
  if !t.save then t
  else if t.commit != .none then { t with woundsDue := [] }
  else t.woundsDue.foldl (fun t w => { t with lkwage := BitVec.ofNat 48 w.1, lkwname := w.2 }.deliverWound w.2)
    { t with woundsDue := [] }

/-- Put an image on a core. -/
def State.restore (s : State) (p : Nat) (i : Image) : State :=
  let t := { (i.team.comeBack s.cycles).takeWounds with sliceStart := s.now }
  let last := match t.work with
    | .launch slot _ _ => some slot
    | .sheaf .. => none
  let s := s.clearCore p
  let s := { s with images := s.images.filter fun j => !(j.team.work == i.team.work && j.team.pairRun == i.team.pairRun) }
  (s.seat p t last).modCore p fun c => { c with pool := i.pool, live := i.live, opmem := i.opmem, poison := i.poison }

/-- The image a core is to resume. -/
def State.owedImage (s : State) (p : Nat) : Option Image :=
  match (s.core p).assign with
  | some ⟨w, run, true⟩ => s.images.find? fun i => i.chip == chipOf p && i.team.work == w && i.team.pairRun.toNat == run
  | _ => none

/-- TEAM_RESUME (R410). -/
def execTeamResume (core : Nat) (s : State) : Out :=
  concludePlacing (fun s =>
    match s.owedImage core with
    | some i => (s.restore core i).repinAll core
    | none => s) s

/-! ### Walker pre-emption (R125) -/

/-- The core priority of what a core's team runs, and when that was dispatched. -/
def State.teamPrio (s : State) (p : Nat) : Option (Nat × Nat) :=
  match (s.team p).work with
  | .launch slot _ _ => (s.launch slot).map fun l => (s.corePrio l (chipOf p), l.time)
  | .sheaf id task _ =>
      (s.sheafOf id).bind fun x => (x.tasks.find? fun t => t.id == task).map fun t => (s.taskPrio x t, x.splitAt)

/-- Whether the walker may choose a team: it has not committed, or belongs to a persistent field. -/
def State.preemptable (s : State) (p : Nat) : Bool :=
  let t := s.team p
  t.persist || (t.commit == .none && (t.save || s.discards t))

/-- Whether the first victim is to be taken before the second: lower core priority, then later dispatch, then later
start. -/
def victimBefore (a b : Nat × Nat × Nat) : Bool :=
  a.1 < b.1 || (a.1 == b.1 && (b.2.1 < a.2.1 || (a.2.1 == b.2.1 && decide (b.2.2 < a.2.2))))

/-- The team to pre-empt for a core priority. -/
def State.victim (s : State) (chip prio : Nat) : Option Nat :=
  let teams := s.residents.filterMap fun e =>
    if chipOf e.1 == chip && s.preemptable e.1 && !e.2.stopping then
      (s.teamPrio e.1).map fun k => (e.1, k.1, k.2, e.2.team.startTime)
    else none
  let below := teams.filter fun t => t.2.1 < prio
  (below.foldl (fun (best : Option (Nat × Nat × Nat × Nat)) t =>
    match best with
    | none => some t
    | some b => if victimBefore t.2 b.2 then some t else some b) none).map Prod.fst

/-- Since when a claimant has waited on a chiplet. -/
def State.waitedSince (s : State) (chip : Nat) (c : Claimant) : Option Nat :=
  match c.task with
  | none => (s.launch c.id).bind fun l => tfind l.waitSince chip
  | some task => (s.sheafOf c.id).bind fun x => (x.tasks.find? fun t => t.id == task).bind Task.waitSince

/-- The claimant for which the walker pre-empts: it has waited 20 µs. -/
def State.pressing (s : State) (chip : Nat) : Option Claimant :=
  bestClaimant ((s.claimants chip).filter fun c =>
    match s.waitedSince chip c with
    | some t => t + 20 * microsecond ≤ s.now
    | none => false)

/-- A stopped team that has settled is saved and its core becomes idle. -/
def State.saveIdle (s : State) (p : Nat) : State :=
  let s := s.withdrawOwn p
  if s.settled p then (s.saveTeam p).idleCore p else s

/-- WALKER_PREEMPT (R125, R408, R409): at most one per chiplet at a time. -/
def execWalkerPreempt (chip : Nat) (choice : DiscardChoice) (s : State) : Out :=
  concludePlacing (fun s =>
    let s := s.noteWaits
    match s.residents.find? fun e => chipOf e.1 == chip && e.2.team.preemptDue with
    | some e => s.saveIdle e.1
    | none =>
        match (s.pressing chip).bind fun c => s.victim chip c.prio with
        | none => s
        | some p =>
            if s.discards (s.team p) then s.discardPlot p choice
            else ((s.stopTeam p).modTeam p fun t => { t with preemptDue := true }).saveIdle p) s

/-! ### Persistent swaps (R131) -/

/-- The team of a persistent field that a freed core goes to: one never resident, in ascending number, then the one
out longest. -/
def State.rotates (s : State) (slot : Nat) (chip : Nat) : Option Assign :=
  match s.launch slot with
  | some l => if l.ended.isNone && !l.electing then s.launchGives slot l chip else none
  | none => none

/-- The wait instructions (R188). -/
def WaitFor.isInstruction : WaitFor → Bool
  | .ringFilled .. | .ringFree .. | .event .. | .barrier .. | .streams .. | .interrupt => true
  | .csr .. | .enqRoom .. | .sheafRoom .. | .streamRoom .. | .halt | .eret => false

/-- Every context that runs has waited in a wait instruction for 10 µs. -/
def State.allWaiting (s : State) (p : Nat) : Bool :=
  let t := s.team p
  let live := (List.range t.width).filter fun k => !(t.ctx k).halted
  !live.isEmpty && live.all fun k =>
    let c := t.ctx k
    c.lastIssue + 10 * microsecond ≤ s.now && Cluster.all.any fun cl =>
      ((c.waitOf cl).map WaitFor.isInstruction).getD false

/-- A swap is due: YIELD; or another team waits, and the slice is over or every context waits. -/
def State.swapWanted (s : State) (p slot : Nat) : Bool :=
  let t := s.team p
  t.yielded || ((s.rotates slot (chipOf p)).isSome
    && (t.sliceStart + 100 * microsecond ≤ s.now || s.allWaiting p))

/-- The launch's placement waits for an election to end (R120). -/
def State.electing (s : State) (slot : Nat) : Bool := ((s.launch slot).map Launch.electing).getD false

/-- The swapped team's core goes to the field's next team; the swap waits for an election to end. -/
def State.finishSwap (s : State) (p slot : Nat) : State :=
  let s := s.withdrawOwn p
  if !s.settled p || s.electing slot then s
  else
    let chip := chipOf p
    let s := s.saveTeam p
    match s.launch slot, s.rotates slot chip with
    | some l, some a =>
        (s.setLaunch slot (some { l with ranges := if a.resume then l.ranges else popRange chip l.ranges })).assignCore p a
    | _, _ => s.idleCore p

/-- PERSISTENT_SWAP (R131). -/
def execPersistentSwap (core : Nat) (s : State) : Out :=
  concludePlacing (fun s =>
    let t := s.team core
    match t.work with
    | .sheaf .. => s
    | .launch slot _ _ =>
        if !(s.core core).resident || !t.persist || t.preemptDue then s
        else if t.swapDue then s.finishSwap core slot
        else if ((s.core core).migration.bind MigRequest.target).isSome then s
        else if s.swapWanted core slot then
          ((s.stopTeam core).modTeam core fun t => { t with swapDue := true }).finishSwap core slot
        else s) s

end Sys2Proof.Machine
end

