-- ==== Sys2Proof/Machine/Coded.lean ====
section
/-! DEFINITION. Coded products: the sheaf descriptor (R87 to R89), code parameter sets (R140), the rows of A and B with
the Deckle stage's coded rows (R279 to R282), and the tile a task computes (R145). -/

namespace Sys2Proof.Machine

/-! ### Code parameter sets (R140) -/

def setValid (w : W64) : Bool := bit w.toNat 0
def setK (w : W64) : Nat := bits w.toNat 4 4
def setR (w : W64) : Nat := bits w.toNat 8 4
def setSpread (w : W64) : Nat := bits w.toNat 14 2
def setSure (w : W64) : Bool := bit w.toNat 16
def setPrio (w : W64) : Nat := bits w.toNat 32 3
def setOuter (w : W64) : Bool := bit w.toNat 35
def setROut (w : W64) : Nat := bits w.toNat 36 4
def setKOut (w : W64) : Nat := bits w.toNat 40 8
def setTdef (w : W64) : Nat := bits w.toNat 48 16

/-! ### The descriptor (R87) -/

def shTag (r : Rec) : Nat := recBits r 0x00 32 32
def shPod (r : Rec) : Bool := recBits r 0x00 22 1 == 1
def shRnd (r : Rec) : Rnd :=
  match recBits r 0x00 20 2 with | 0 => .rne | 1 => .rtz | 2 => .rup | _ => .rdn
def shCfmt (r : Rec) : Nat := recBits r 0x00 16 4
def shBfmt (r : Rec) : Nat := recBits r 0x00 12 4
def shAfmt (r : Rec) : Nat := recBits r 0x00 8 4
def shOpid (r : Rec) : Nat := recBits r 0x00 0 6
def shM (r : Rec) : Nat := recBits r 0x08 0 32
def shN (r : Rec) : Nat := recBits r 0x08 32 32
def shK (r : Rec) : Nat := recBits r 0x10 0 32
def shAsid (r : Rec) : BitVec 16 := BitVec.ofNat 16 (recBits r 0x10 32 16)
def shAbase (r : Rec) : Nat := recBits r 0x18 0 56
def shAscale (r : Rec) : Nat := recBits r 0x20 0 56
def shAstride (r : Rec) : Nat := recBits r 0x28 0 40
def shBbase (r : Rec) : Nat := recBits r 0x30 0 56
def shBscale (r : Rec) : Nat := recBits r 0x38 0 56
def shBstride (r : Rec) : Nat := recBits r 0x40 0 40
def shCbase (r : Rec) : Nat := recBits r 0x48 0 56
def shCscale (r : Rec) : Nat := recBits r 0x50 0 56
def shCstride (r : Rec) : Nat := recBits r 0x58 0 40
def shDone (r : Rec) : Nat := recBits r 0x60 0 56
def shStat (r : Rec) : Nat := recBits r 0x68 0 56
def shTimeout (r : Rec) : Nat := recBits r 0x70 0 32

/-- Element widths by format code. -/
def codeBits (c : Nat) : Nat := elemBits (Fmt.ofCode c)

/-- What R61, R87 to R89 and R142 find wrong in a descriptor under its set.  DESIGN CHOICE (log entry 107): a limit on a
derived quantity names the field that it bounds: the stride, not K or the format; M, not OPID. -/
def sheafFindings (r : Rec) (w : W64) : List Finding :=
  let ok (c : Nat) : Bool := c == 8 || c == 10 || c == 11
  [(!setValid w, causeILLEGAL, 0x00),
    (!ok (shAfmt r), causeFMTCOMBO, 0x01),
    (!ok (shBfmt r), causeFMTCOMBO, 0x01),
    (!(shCfmt r ≤ 2 || shCfmt r == 10 || shCfmt r == 11 || shCfmt r == 15), causeFMTCOMBO, 0x02),
    (shPod r && !setOuter w, causeILLEGAL, 0x02),
    (shM r % 32 != 0 || 2 ^ 24 < shM r || shM r < 32 * setK w, causeILLEGAL, 0x08),
    (shN r % 32 != 0 || 2 ^ 24 < shN r, causeILLEGAL, 0x0C),
    (shK r % 32 != 0 || 1048576 < shK r, causeILLEGAL, 0x10),
    (shAstride r < shK r * codeBits (shAfmt r) / 8, causeILLEGAL, 0x28),
    (shBstride r < shK r * codeBits (shBfmt r) / 8, causeILLEGAL, 0x40),
    (shCstride r < shN r * codeBits (shCfmt r) / 8, causeILLEGAL, 0x58),
    (shDone r % 8 != 0, causeALIGN, 0x60),
    (shStat r % 64 != 0, causeALIGN, 0x68)]

/-- CheckRecord of a sheaf descriptor: cause and offset. -/
def checkSheaf (r : Rec) (w : W64) : Option (Nat × Nat) := worst (sheafFindings r w)

/-! ### Shape (R89, R143 to R146) -/

/-- Blocks of 32 along K. -/
def Sheaf.chunks (x : Sheaf) : Nat := shK x.desc / 32

/-! ### Rows of A and B (R88, R89) -/

/-- A row past M. -/
def absentRow : BlockRow := ⟨false, [], false⟩

/-- Mantissa n of a packed row. -/
def rowMant (w : Nat) (bs : List Byte) (n : Nat) : Int :=
  if w = 4 then signedOf 4 (bits (fieldOf bs (n / 2) 1) (4 * (n % 2)) 4)
  else signedOf w (fieldOf bs (n * w / 8) (w / 8))

/-- Read a row of K elements with its scale codes, as a sheaf's task does. -/
def State.readRow (s : State) (asid base scales stride row k w : Nat) : Except Nat (BlockRow × State) :=
  match s.hubRead false asid (base + row * stride) (k * w / 8) with
  | .error c => .error c
  | .ok (bs, bad, s) =>
      match s.hubRead false asid (scales + row * (k / 32)) (k / 32) with
      | .error c => .error c
      | .ok (es, bad', s) =>
          .ok (⟨true, (List.range (k / 32)).map fun b =>
            (fieldOf es b 1, (List.range 32).map fun t => rowMant w bs (32 * b + t)), bad || bad'⟩, s)

/-- Read rows in turn. -/
def State.readRows {α : Type} (s : State) (f : State → α → Except Nat (BlockRow × State)) :
    List α → Except Nat (List BlockRow × State)
  | [] => .ok ([], s)
  | a :: as =>
      match f s a with
      | .error c => .error c
      | .ok (r, s) =>
          match State.readRows s f as with
          | .error c => .error c
          | .ok (rs, s) => .ok (r :: rs, s)

/-- A row of the descriptor's A. -/
def State.baseRow (s : State) (x : Sheaf) (row : Nat) : Except Nat (BlockRow × State) :=
  let r := x.desc
  if shM r ≤ row then .ok (absentRow, s)
  else s.readRow x.asid.toNat (shAbase r) (shAscale r) (shAstride r) row (shK r) (codeBits (shAfmt r))

/-- A row of B. -/
def State.bRow (s : State) (x : Sheaf) (row : Nat) : Except Nat (BlockRow × State) :=
  let r := x.desc
  s.readRow x.asid.toNat (shBbase r) (shBscale r) (shBstride r) row (shK r) (codeBits (shBfmt r))

/-- The Deckle stage at one block position: rows past M take no part (R89, R279). -/
def deckleAt (w power b : Nat) (rows : List BlockRow) : Option Coded :=
  let es := rows.filterMap fun r => if r.present then some (r.cells.getD b (0, [])).1 else none
  let low := if es.isEmpty then 127 else es.foldl min 255
  deckle w power (rows.map fun r => if r.present then r.cells.getD b (0, []) else (low, []))

/-- A coded row held in one plane. -/
def codedCell (p : Plane) (c : Option Coded) : Nat × List Int :=
  ((planeCell p c 0).scale, (List.range 32).map fun t => signedOf 16 (planeCell p c t).bits)

def codedRow (p : Plane) (w power chunks : Nat) (rows : List BlockRow) : BlockRow :=
  ⟨true, (List.range chunks).map fun b => codedCell p (deckleAt w power b rows), rows.any BlockRow.bad⟩

/-- The width of the A that a sheaf's tasks split: BI16 for a coded super-block (R146). -/
def Sheaf.width (x : Sheaf) : Nat :=
  match x.outer with
  | some (t, kout) => if t < kout then codeBits (shAfmt x.desc) else 16
  | none => codeBits (shAfmt x.desc)

/-- A row of the A that a sheaf's tasks split: of the descriptor's A, of a super-block, or of a coded super-block. -/
def State.aRow (s : State) (x : Sheaf) (row : Nat) : Except Nat (BlockRow × State) :=
  if x.rows ≤ row then .ok (absentRow, s)
  else match x.outer with
  | none => s.baseRow x row
  | some (t, kout) =>
      let n := superRows (shM x.desc) kout
      if t < kout then s.baseRow x (t * n + row)
      else
        match s.readRows (fun s i => s.baseRow x (i * n + row)) (List.range kout) with
        | .error c => .error c
        | .ok (rs, s) => .ok (codedRow .single (codeBits (shAfmt x.desc)) (t - kout) x.chunks rs, s)

/-- The rows of the k blocks that a coded row is formed from. -/
def State.blockRowsAt (s : State) (x : Sheaf) (row : Nat) : Except Nat (List BlockRow × State) :=
  s.readRows (fun s i => s.aRow x (i * x.blockRows + row)) (List.range x.k)

/-! ### The encoding bound (R280 to R282) -/

def Fit.max : Fit → Fit → Fit
  | .never, _ | _, .never => .never
  | .wide, _ | _, .wide => .wide
  | .plain, .plain => .plain

def fitOf (c : Option Coded) : Fit :=
  if fitsPlain c then .plain else if fitsWide c then .wide else .never

/-- The source rows of each coded row in turn, as the ENCODE commands of the parity tasks read them (R282). -/
def State.codeSources (s : State) (x : Sheaf) : List Nat → Except Nat (List (List BlockRow) × State)
  | [] => .ok ([], s)
  | row :: rest =>
      match s.blockRowsAt x row with
      | .error c => .error c
      | .ok (rs, s) =>
          match State.codeSources s x rest with
          | .error c => .error c
          | .ok (more, s) => .ok (rs :: more, s)

/-- How the rows of a parity task fit. -/
def parityFit (x : Sheaf) (power : Nat) (sources : List (List BlockRow)) : Fit :=
  sources.foldl (fun f rs =>
    (List.range x.chunks).foldl (fun f b => f.max (fitOf (deckleAt x.width power b rs))) f) .plain

/-- The planes of each coded row that the ENCODE commands of a parity task write: one, or two under WIDE (R281). -/
def codedRows (x : Sheaf) (power : Nat) (wide : Bool) (sources : List (List BlockRow)) : List (List BlockRow) :=
  sources.map fun rs =>
    let code (p : Plane) : BlockRow := codedRow p x.width power x.chunks rs
    if wide then [code .low, code .high] else [code .single]

/-- Whether a coded super-block fits in one plane (R146).  DESIGN CHOICE (log entry 89): one that does not fit fails the
package task, whatever SPREAD says. -/
def State.outerFits (s : State) (x : Sheaf) : Bool :=
  match x.outer with
  | none => true
  | some (t, kout) =>
      t < kout || (List.range x.rows).all fun row =>
        match s.readRows (fun s i => s.baseRow x (i * superRows (shM x.desc) kout + row)) (List.range kout) with
        | .error _ => true
        | .ok (rs, _) => (List.range x.chunks).all fun b =>
            fitsPlain (deckleAt (codeBits (shAfmt x.desc)) (t - kout) b rs)

/-! ### A task's tile (R52, R145, R281) -/

/-- The planes of a task's row: one, or two for a WIDE parity task, whose coded rows stand as they were encoded. -/
def State.taskRow (s : State) (x : Sheaf) (task row : Nat) : Except Nat (List BlockRow × State) :=
  if task < x.k then
    match s.aRow x (task * x.blockRows + row) with
    | .error c => .error c
    | .ok (r, s) =>
        .ok ([if r.present then r else ⟨true, List.replicate x.chunks (127, []), false⟩], s)
  else .ok ((((x.tasks.find? fun t => t.id == task).map Task.coded).getD []).getD row [], s)

/-- The width of a task's A. -/
def Sheaf.taskWidth (x : Sheaf) (task : Nat) : Nat := if task < x.k then x.width else 16

/-- The chunks of one record, in ascending K: the sum and exponent code of each, none for an invalid block. -/
def recordChunks (wa wb chunks : Nat) (a : List BlockRow) (b : BlockRow) : Option (List (Int × Nat)) :=
  ((List.range chunks).flatMap fun i => a.map fun p => (p.cells.getD i (0, []), b.cells.getD i (0, []))).mapM
    fun (x, y) =>
      if x.1 = 0xFF || y.1 = 0xFF then none
      else some (chunkSum x.2 y.2, x.1 + y.1 + 512 - 254 - (wa - 2) - (wb - 2))

/-- Accumulate a record's chunks from empty as one run. -/
def runChunks (c l : Nat) : List (Int × Nat) → Bool → RaRec → Option RaRec
  | [], _, t => some t
  | (v, e) :: rest, first, t =>
      match t.addChunk v e c l false first with
      | some t => runChunks c l rest false t
      | none => none

/-- One record of a task's tile, or its cause. -/
def taskRecord (wa wb chunks : Nat) (a : List BlockRow) (b : BlockRow) : Except Nat Nat :=
  match recordChunks wa wb chunks a b with
  | none => .error causeBADSCALE
  | some xs =>
      match runChunks (wa + wb + 4) (ceilLog2 (chunks * a.length)) xs true ⟨0, 0, 0, 0, 0⟩ with
      | some t => .ok t.bits
      | none => .error causeACCRANGE

/-- Rows of planes in turn. -/
def State.taskRows (s : State) (x : Sheaf) (task : Nat) : List Nat → Except Nat (List (List BlockRow) × State)
  | [] => .ok ([], s)
  | r :: rs =>
      match s.taskRow x task r with
      | .error c => .error c
      | .ok (a, s) =>
          match State.taskRows s x task rs with
          | .error c => .error c
          | .ok (as, s) => .ok (a :: as, s)

/-- The 1,024 records of a tile of a task, or the cause that ends the task. -/
def State.taskTile (s : State) (x : Sheaf) (task tile : Nat) : Except Nat (List Nat × State) :=
  let wa := x.taskWidth task
  let wb := codeBits (shBfmt x.desc)
  let top := tile / x.cols * 32
  let left := tile % x.cols * 32
  match s.taskRows x task ((List.range 32).map fun i => top + i) with
  | .error c => .error c
  | .ok (as, s) =>
      match s.readRows (fun s j => s.bRow x (left + j)) (List.range 32) with
      | .error c => .error c
      | .ok (bs, s) =>
          if as.any (fun a => a.any BlockRow.bad) || bs.any BlockRow.bad then .error causePOISON
          else match (as.flatMap fun a => bs.map fun b => taskRecord wa wb x.chunks a b).mapM id with
          | .ok recs => .ok (recs, s)
          | .error c => .error c

end Sys2Proof.Machine
end

