-- ==== Sys2Proof/Machine/Winnow.lean ====
section
/-! DEFINITION. The Winnower (R424 to R433): decoding and checking the returns of a tile position, writing C, and a
sheaf's status record, completion and finality. -/

namespace Sys2Proof.Machine

/-! ### Exact linear algebra (R424, R425) -/

/-- The coefficients of a task on the k blocks (R143). -/
def taskCoefs (k task : Nat) : List Int :=
  (List.range k).map fun i => if task < k then (if i = task then 1 else 0) else ((i + 1) ^ (task - k) : Int)

/-- Divide a row by the greatest common divisor of its entries. -/
def reduceRow (r : List Int) : List Int :=
  let g := r.foldl (fun g x => Nat.gcd g x.natAbs) 0
  if g = 0 then r else r.map fun x => x / (g : Int)

/-- Clear a column of a row with a pivot row. -/
def clearColumn (c : Nat) (pivot row : List Int) : List Int :=
  let p := pivot.getD c 0
  let q := row.getD c 0
  if q = 0 then row else reduceRow ((row.zip pivot).map fun (x, y) => x * p - y * q)

/-- Take the first row with a nonzero entry in a column. -/
def takePivot (c : Nat) : List (List Int) → Option (List Int × List (List Int))
  | [] => none
  | r :: rs =>
      if r.getD c 0 != 0 then some (r, rs)
      else (takePivot c rs).map fun (p, rest) => (p, r :: rest)

/-- Reduce rows to one pivot a column; `done` holds the rows of the columns before. -/
def eliminate : List Nat → List (List Int) → List (List Int) → List (List Int)
  | [], done, _ => done
  | c :: cs, done, rest =>
      match takePivot c rest with
      | none => eliminate cs done rest
      | some (p, rest) => eliminate cs (done.map (clearColumn c p) ++ [p]) (rest.map (clearColumn c p))

/-- For each block, the weights of the base's values and the divisor that give it. -/
def solveBase (k : Nat) (base : List Nat) : List (List Int × Int) :=
  let unit (j : Nat) : List Int := (List.range base.length).map fun i => if i = j then 1 else 0
  let rows := (base.zipIdx).map fun (t, j) => taskCoefs k t ++ unit j
  ((eliminate (List.range k) [] rows).zipIdx).map fun (r, i) => (r.drop k, r.getD i 1)

/-- A quotient of integers. -/
structure Frac where
  num : Int
  den : Int
  deriving DecidableEq, Repr

def Frac.add (x y : Frac) : Frac := ⟨x.num * y.den + y.num * x.den, x.den * y.den⟩

/-- The blocks' values at an element, from the base's. -/
def solveAt (solve : List (List Int × Int)) (vs : List Int) : List Frac :=
  solve.map fun (w, d) => ⟨((w.zip vs).map fun (a, b) => a * b).sum, d⟩

/-- Whether a task's value is what the blocks give. -/
def fitsTask (coefs : List Int) (xs : List Frac) (v : Int) : Bool :=
  let t := ((coefs.zip xs).filter fun e => e.1 != 0).foldl (fun (acc : Frac) e => acc.add ⟨e.1 * e.2.num, e.2.den⟩) ⟨0, 1⟩
  t.num == v * t.den

/-! ### One tile position (R424 to R426) -/

/-- A present return: its task, and each record's V and BEXP code, from its channels and BEXP alone (R449; log entry 110);
a zero has the highest code, whatever its own. -/
structure Held where
  task : Nat
  vals : List (Int × Nat)

/-- A record that counts as missing: HEAD of 96 or more (R449). -/
def badHead (r : Nat) : Bool := 96 ≤ (RaRec.ofBits r).head

def heldOf (r : Return) : Held :=
  ⟨r.task, r.records.map fun b =>
    let v := (RaRec.ofBits b).channels
    (v, if v = 0 then 1023 else (RaRec.ofBits b).bexp)⟩

/-- The lowest exponent among the returns at each element, and every return's value in its units. -/
def lowestExp (qs : List Held) (t : Nat) : Nat := qs.foldl (fun e q => min e (q.vals.getD t (0, 1023)).2) 1023

def alignedAt (q : Held) (e t : Nat) : Int :=
  let x := q.vals.getD t (0, 1023)
  x.1 * 2 ^ (x.2 - e)

/-- The elements of a tile. -/
def tileElems : List Nat := List.range 1024

/-- Insert a return by its task: systematic ones, then parities in ascending order. -/
def insertHeld (x : Held) : List Held → List Held
  | [] => [x]
  | y :: ys => if x.task ≤ y.task then x :: y :: ys else y :: insertHeld x ys

/-- The base of R425. -/
def baseOf (k : Nat) (qs : List Held) : List Held := (qs.foldr insertHeld []).take k

/-- Every return equals its value computed from the base. -/
def consistent (k : Nat) (base qs : List Held) : Bool :=
  let solve := solveBase k (base.map Held.task)
  tileElems.all fun t =>
    let e := lowestExp (base ++ qs) t
    let xs := solveAt solve (base.map fun q => alignedAt q e t)
    qs.all fun q => fitsTask (taskCoefs k q.task) xs (alignedAt q e t)

/-- The returns without which the others are consistent. -/
def suspects (k : Nat) (qs : List Held) : List Held :=
  qs.filter fun q =>
    let rest := qs.filter fun x => x.task != q.task
    consistent k (baseOf k rest) rest

/-- What Winnow comes to: its end, the base, and the return named faulty. -/
structure Verdict where
  result : TileEnd
  base : List Nat
  named : Option Nat

def winnow (k : Nat) (qs : List Held) : Verdict :=
  if qs.length < k then ⟨.undecodable, [], none⟩
  else
    let base := baseOf k qs
    if consistent k base qs then ⟨.ok, base.map Held.task, none⟩
    else
      let cands := if k + 2 ≤ qs.length then suspects k qs else []
      match cands with
      | [q] => ⟨.corrected, (baseOf k (qs.filter fun x => x.task != q.task)).map Held.task, some q.task⟩
      | _ => ⟨.mismatch, base.map Held.task, none⟩

/-! ### Writing C (R428) -/

/-- An exact quotient times a power of two as a number for rounding: a dyadic one as it is, any other by enough
leading bits and a sticky bit. -/
def fracNum (x : Frac) (e : Int) : Num :=
  let neg := decide (x.num < 0) != decide (x.den < 0)
  let n := x.num.natAbs
  let d := x.den.natAbs
  if n = 0 then .fin ⟨false, 0, 0⟩
  else
    let g := Nat.gcd n d
    let n := n / g
    let d := d / g
    let s := 128 + bitLength d
    if 2 ^ d.log2 = d then .fin ⟨neg, n, e - d.log2⟩
    else .fin ⟨neg, 2 * (n * 2 ^ s / d) + 1, e - s - 1⟩

/-- Trailing zero bits of a number, at most `fuel`. -/
def trailing : Nat → Nat → Nat
  | 0, _ => 0
  | fuel + 1, n => if n = 0 || n % 2 = 1 then 0 else trailing fuel (n / 2) + 1

/-- The canonical record of an exact value (R428): none where it cannot be held. -/
def exactRecord (x : Frac) (e : Int) : Option Nat :=
  let n := x.num.natAbs
  let d := x.den.natAbs
  if n = 0 then some 0
  else
    let g := Nat.gcd n d
    let n := n / g
    let d := d / g
    if 2 ^ d.log2 != d then none
    else
      let z := trailing (bitLength n) n
      let odd := n / 2 ^ z
      let b : Int := e - d.log2 + z + 512
      let v := if 1023 < b then odd * 2 ^ (b - 1023).toNat else odd
      let b := if 1023 < b then 1023 else b
      if b < 0 || 95 < bitLength v + 1 then none
      else
        let sign : Int := if decide (x.num < 0) != decide (x.den < 0) then -1 else 1
        some ({ (RaRec.mk 0 0 0 0 0).addInt (sign * v) with head := bitLength v + 1, bexp := b.toNat } : RaRec).bits

/-- Rows of a tile as C holds them: each row's bytes, with its scale code in a block format; none where a value
cannot be held. -/
def tileRow (fmt : Nat) (r : Rnd) (xs : List (Frac × Int)) : Option (List Byte × Option Nat) :=
  let f := Fmt.ofCode fmt
  if fmt = 15 then
    (xs.mapM fun x => exactRecord x.1 x.2).map fun rs => (rs.flatMap (leBytes 16), none)
  else if f.isBlock then
    let (sc, ms, _) := toBlock (xs.map fun x => fracNum x.1 x.2) (elemBits f) r
    some (ms.flatMap fun m => leBytes (elemBits f / 8) (wrapInt (elemBits f) m), some sc)
  else
    some ((xs.flatMap fun x => leBytes (elemBits f / 8) (f.params.ofNum r (fracNum x.1 x.2)).1), none)

/-- The returns of a tile position that are present. -/
def Sheaf.heldAt (x : Sheaf) (tile : Nat) : List Held :=
  (x.returns.filter fun r => r.tile == tile && !r.missing).map heldOf

/-- The exact values of a block at every element of a position, decoded from a base. -/
def Sheaf.blockValues (x : Sheaf) (tile : Nat) (base : List Nat) (i : Nat) : List (Frac × Int) :=
  let qs := x.heldAt tile
  let held := base.filterMap fun t => qs.find? fun q => q.task == t
  let solve := solveBase x.k base
  tileElems.map fun t =>
    let e := lowestExp held t
    ((solveAt solve (held.map fun q => alignedAt q e t)).getD i ⟨0, 1⟩, (e : Int) - 512)

/-- Write one C tile at its first row. -/
def State.writeCTile (s : State) (x : Sheaf) (top left : Nat) (rows : List (List Byte × Option Nat)) : State :=
  let r := x.desc
  let w := codeBits (shCfmt r) / 8
  (rows.zipIdx).foldl (fun s (row, j) =>
    let s := s.hubWrite x.asid.toNat (shCbase r + (top + j) * shCstride r + left * w) row.1
    match row.2 with
    | some sc => s.hubWrite x.asid.toNat (shCscale r + (top + j) * x.cols + left / 32) [BitVec.ofNat 8 sc]
    | none => s) s

/-- Write the C tiles of a position, block by block: the blocks written, and the first tile that R428 leaves unwritten.  A sheaf
that computes another's task has no C: only whether its values can be held matters. -/
def State.writePosition (s : State) (x : Sheaf) (tile : Nat) (base : List Nat) : State × List Nat × Option Nat :=
  (List.range x.k).foldl (fun (acc : State × List Nat × Option Nat) i =>
    let top := i * x.blockRows + tile / x.cols * 32
    if x.rows ≤ top then acc
    else
      let vals := x.blockValues tile base i
      let fmt := if x.outer.isSome then 15 else shCfmt x.desc
      match ((List.range 32).map fun j => (vals.drop (32 * j)).take 32).mapM (tileRow fmt (shRnd x.desc)) with
      | some rows =>
          (if x.outer.isSome then acc.1 else acc.1.writeCTile x top (tile % x.cols * 32) rows, acc.2.1 ++ [i], acc.2.2)
      | none => (acc.1, acc.2.1, match acc.2.2 with | some n => some n | none => some (top / 32 * x.cols + tile % x.cols)))
    (s, [], none)

/-! ### Faulty returns (R433) -/

/-- The chiplet field of a task's name. -/
def Task.chipField (t : Task) : Nat := if t.remote then 0 else t.chip

/-- A return is named faulty: its task and chiplet, bank 49 and an event. -/
def State.nameFaulty (s : State) (x : Sheaf) (task : Nat) : State × Sheaf :=
  let chip := ((x.tasks.find? fun t => t.id == task).map Task.chipField).getD 0
  let word := task % 16 * 2 ^ 16 + chip
  let stat := shStat x.desc
  let remote := (x.tasks.find? fun t => t.id == task).any Task.remote
  let s := (s.bankEvent 49 true evFAULTNODE stat word).post evFAULTNODE 0 srcHub stat word
  let mark : BitVec 16 := if remote then 0 else 1#16 <<< chip
  let s := match x.parent with
    | some (id, _) => s.modSheaf id fun y => { y with faultChips := y.faultChips ||| mark }
    | none => s
  (s, { x with
    faulty := if x.faulty.contains task then x.faulty else x.faulty ++ [task]
    faultChips := x.faultChips ||| mark })

/-! ### Decoding (R425 to R427) -/

/-- A position is decoded for the first time. -/
def State.decodeTile (s : State) (x : Sheaf) (tile : Nat) : State × Sheaf :=
  let v := winnow x.k (x.heldAt tile)
  let (s, x) := match v.named with
    | some q => s.nameFaulty x q
    | none => (s, x)
  let (s, wrote, range) := if v.result == .undecodable then (s, [], none) else s.writePosition x tile v.base
  (s, { x with
    tiles := tput x.tiles tile ⟨v.result, v.base, v.named.toList, range, false, wrote⟩
    written := x.written + wrote.length
    corrected := x.corrected + if v.result == .corrected then 1 else 0 })

/-- A late return of a position that has been decoded (R426). -/
def State.checkLate (s : State) (x : Sheaf) (tile : Nat) (t : TileState) : State × Sheaf :=
  let qs := x.heldAt tile
  if t.result == .undecodable then (s, x)
  else if consistent x.k (t.used.filterMap fun u => qs.find? fun q => q.task == u) qs then (s, x)
  else
    match (if x.k + 2 ≤ qs.length then suspects x.k qs else []) with
    | [q] =>
        let (s, x) := if t.named.contains q.task then (s, x) else s.nameFaulty x q.task
        let named := if t.named.contains q.task then t.named else t.named ++ [q.task]
        if t.used.contains q.task then
          let base := (baseOf x.k (qs.filter fun y => y.task != q.task)).map Held.task
          let s := s.post evLATEFIX 0 srcHub (shStat x.desc) tile
          let (s, wrote, range) := s.writePosition x tile base
          let new := wrote.filter fun i => !t.wrote.contains i
          (s, { x with
            late := true
            written := x.written + new.length
            corrected := x.corrected + 1
            tiles := tput x.tiles tile ⟨.corrected, base, named, range, t.lateMismatch, t.wrote ++ new⟩ })
        else (s, { x with tiles := tput x.tiles tile { t with named := named } })
    | _ => (s, { x with late := true, tiles := tput x.tiles tile { t with lateMismatch := true } })

/-! ### The status record (R429, R430) -/

/-- A task has said what it will of a position: it returned it, has ended, or its time is up. -/
def Sheaf.heard (x : Sheaf) (t : Task) (tile : Nat) : Bool :=
  x.timedOut || t.ended.isSome || x.returns.any fun r => r.task == t.id && r.tile == tile

def Sheaf.present (x : Sheaf) (task tile : Nat) : Bool :=
  x.returns.any fun r => r.task == task && r.tile == tile && !r.missing

/-- STATUS of a sheaf that has completed, the highest code that applies. -/
def Sheaf.code (x : Sheaf) : Nat :=
  let any (f : TileState → Bool) : Bool := x.tiles.any fun e => f e.2
  if any fun t => t.result == .undecodable then 5
  else if any fun t => t.range.isSome then 4
  else if any fun t => t.result == .mismatch || t.lateMismatch then 3
  else if any fun t => t.result == .corrected then 2
  else 1

/-- DETAIL for a code: the first tile it holds of. -/
def Sheaf.detail (x : Sheaf) (code : Nat) : Nat :=
  let first (f : Nat × TileState → Option Nat) : Nat := ((sortNats (x.tiles.filterMap f)).head?).getD 0
  match code with
  | 5 => first fun e => if e.2.result == .undecodable then some e.1 else none
  | 4 => first fun e => e.2.range
  | 3 => first fun e => if e.2.result == .mismatch || e.2.lateMismatch then some e.1 else none
  | _ => 0

/-- A mask of task bits, or a count where the sheaf is of pod scope. -/
def Sheaf.maskOrCount (x : Sheaf) (f : Task → Bool) : Nat :=
  let ts := x.tasks.filter f
  if shPod x.desc && x.outer.isNone then ts.length else (ts.map fun t => 2 ^ t.id).sum

/-- FAULTMASK. -/
def Sheaf.faultMask (x : Sheaf) : Nat :=
  if shPod x.desc && x.outer.isNone then
    let first := (x.faulty.head?.bind fun q => x.tasks.find? fun t => t.id == q).map Task.chip
    (first.getD 0) % 256 * 2 ^ 8 + min 255 x.faulty.length
  else (x.faulty.map fun t => 2 ^ t).sum

/-- The status record. -/
def Sheaf.record (x : Sheaf) (code cause detail : Nat) (final : Bool) : List Byte :=
  let tiles := List.range x.positions
  let flag (b : Bool) (n : Nat) : Nat := if b then 2 ^ n else 0
  leBytes 8 (shTag x.desc * 2 ^ 32 + code * 2 ^ 24 + cause % 256 * 2 ^ 16 + flag final 15 + flag x.late 14
      + flag (!x.wide.isEmpty) 13 + flag x.uncoded 12 + x.r % 16 * 2 ^ 8 + x.k % 16 * 2 ^ 4)
    ++ leBytes 8 (x.maskOrCount (fun t => tiles.all fun p => x.present t.id p) % 2 ^ 16 * 2 ^ 48
      + x.maskOrCount (fun t => tiles.any fun p => !x.present t.id p && x.heard t p) % 2 ^ 16 * 2 ^ 32
      + x.faultMask % 2 ^ 16 * 2 ^ 16 + x.faultChips.toNat)
    ++ leBytes 8 x.written ++ leBytes 8 x.corrected ++ leBytes 8 detail
    ++ leBytes 8 (x.splitAt * 5 / 36) ++ leBytes 8 x.doneAt ++ leBytes 8 x.finalAt

/-- Write the status record, where STAT translated at the split (R288). -/
def State.writeStatus (s : State) (x : Sheaf) (code cause detail : Nat) (final : Bool) : State :=
  if x.statOk then s.hubWrite x.asid.toNat (shStat x.desc) (x.record code cause detail final) else s

/-- The status record of a sheaf that has completed. -/
def State.writeEnd (s : State) (x : Sheaf) (final : Bool) : State :=
  let code := x.code
  s.writeStatus x code (if code = 5 then x.cause.getD 0 else 0) (x.detail code) final

/-! ### Completion and finality (R426, R427, R431, R432) -/

/-- The addition at DONE, and the sheaf queue's interrupt (R114, R431). -/
def State.sheafDone (s : State) (x : Sheaf) : State :=
  let s := if x.doneOk then s.addDone x.asid.toNat (shDone x.desc) 1 x.source else s
  let c := s.hub.sheafQ.control.toNat
  if x.hosted && ctlIrq c then s.sendVector (ctlIrqv c) else s

/-- The positions of the sheaf whose task another sheaf computes, with the records of its tile there (R432). -/
def Sheaf.superTile (x : Sheaf) (p : Nat) : List Nat :=
  let top := p / x.cols
  let rows := x.blockRows / 32
  let inner := top % rows * x.cols + p % x.cols
  match tfind x.tiles inner with
  | some t => (x.blockValues inner t.used (top / rows)).map fun v => (exactRecord v.1 v.2).getD 0
  | none => []

/-- A package task's returns: the tiles of its super-block, or missing ones where the inner sheaf failed. -/
def Sheaf.packageReturns (x : Sheaf) (task : Nat) (failed : Bool) : List Return :=
  (List.range (x.rows / 32 * x.cols)).map fun p =>
    if failed then ⟨task, p, true, []⟩ else ⟨task, p, false, x.superTile p⟩

/-- An inner sheaf that has ended is missing unless it ends OK or CORRECTED (R432). -/
def Sheaf.innerFailed (x : Sheaf) : Bool := x.code != 1 && x.code != 2

/-- Every task has been heard on every position. -/
def Sheaf.allHeard (x : Sheaf) : Bool :=
  x.tasks.all fun t => t.ended.isSome || x.timedOut || (List.range x.positions).all fun p => x.heard t p

/-- Store a sheaf back by its number. -/
def State.putSheaf (s : State) (x : Sheaf) : State := s.modSheaf x.id fun _ => x

/-- Decode every position that R426 or R427 lets be decoded now. -/
def State.decodeReady (s : State) (x : Sheaf) : State × Sheaf :=
  (List.range x.positions).foldl (fun (acc : State × Sheaf) p =>
    let (s, x) := acc
    if (tfind x.tiles p).isSome then (s, x)
    else
      let heard := x.tasks.all fun t => x.heard t p
      if heard || (!setSure x.set && x.k ≤ (x.heldAt p).length) then s.decodeTile x p else (s, x)) (s, x)

/-- Completion, then finality. -/
def State.concludeSheaf (s : State) (x : Sheaf) : State × Sheaf :=
  let complete := (List.range x.positions).all fun p => (tfind x.tiles p).isSome
  let new := x.phase == .running && complete
  let x := if new then { x with phase := .complete, doneAt := s.timens } else x
  let final := x.phase == .complete && x.allHeard
  let x := if final then { x with phase := .final, finalAt := s.timens } else x
  let s := if new || final then s.writeEnd x final else s
  (if new && x.outer.isNone then s.sheafDone x else s, x)

/-- A task is over: it has ended, or every tile it handed out has come back. -/
def State.taskOver (s : State) (x : Sheaf) (t : Task) : Bool :=
  if t.remote then t.ended.isSome || (List.range x.positions).all fun p => x.returns.any fun r => r.task == t.id && r.tile == p
  else t.ended.isSome || (x.positions ≤ t.next
    && !(s.cores.any fun e => (e.2.resident && e.2.team.work.ofTask x.id t.id)
      || (e.2.assign.map fun a => a.work.ofTask x.id t.id).getD false)
    && !(s.images.any fun i => i.team.work.ofTask x.id t.id))

/-- A sheaf that is final is dropped once its tasks are over. -/
def State.sweepSheaves (s : State) : State :=
  { s with sheaves := s.sheaves.filter fun x => !(x.phase == .final && x.tasks.all (s.taskOver x)) }

/-- What follows a change of a running sheaf's returns or tasks. -/
def State.progress (s : State) (id : Nat) : State :=
  match s.sheafOf id with
  | none => s
  | some x =>
      if x.phase == .running || x.phase == .complete then
        let (s, x) := s.decodeReady x
        let (s, x) := s.concludeSheaf x
        s.putSheaf x
      else s

/-- A return's fate beside its storing: it is checked against a tile already written (R426). -/
def State.takeReturn (s : State) (id : Nat) (r : Return) : State :=
  match s.sheafOf id with
  | none => s
  | some x =>
      if x.phase == .final then
        (s.post evLATERET 0 srcHub (shStat x.desc) r.task).putSheaf { x with returns := x.returns ++ [r] }
      else if x.returns.any fun y => y.task == r.task && y.tile == r.tile then s
      else
        let x := { x with returns := x.returns ++ [r] }
        let (s, x) := match tfind x.tiles r.tile with
          | some t => if r.missing then (s, x) else s.checkLate x r.tile t
          | none => (s, x)
        (s.putSheaf x).progress id

/-- An inner sheaf that is final hands its super-block to the sheaf it works for, or to the package that submitted
it. -/
def State.passOn (s : State) (id : Nat) : State :=
  match s.sheafOf id with
  | none => s
  | some x =>
      if x.phase != .final || x.outer.isNone then s
      else match x.parent with
      | some (up, task) => (x.packageReturns task x.innerFailed).foldl (fun s r => s.takeReturn up r) s
      | none =>
          if x.remote then
            let task := (x.outer.map Prod.fst).getD 0
            s.emit (.podReturn (leBytes 8 x.source ++ leBytes 8 task ++ leBytes 8 (if x.innerFailed then 1 else 0)
              ++ ((x.packageReturns task x.innerFailed).flatMap fun r => r.records.flatMap (leBytes 16))))
          else s

/-- Progress with all it leads to. -/
def State.advanceSheaf (s : State) (id : Nat) : State :=
  let before := (s.sheafOf id).any fun x => x.phase == .final
  let s := s.progress id
  (if before then s else s.passOn id).sweepSheaves

/-- A return reaches the Winnower, with all it leads to. -/
def State.arriveReturn (s : State) (id : Nat) (r : Return) : State :=
  let before := (s.sheafOf id).any fun x => x.phase == .final
  let s := s.takeReturn id r
  (if before then s else s.passOn id).sweepSheaves

end Sys2Proof.Machine
end

