-- ==== Sys2Proof/Machine/Fence.lean ====
section
/-! DEFINITION. Fenced chiplets (R120, R135 to R139, R443, R444) and device-fatal faults. -/

namespace Sys2Proof.Machine

/-! ### Device-fatal faults (R443) -/

/-- A core left with nothing of its work. -/
def Core.emptied (c : Core) : Core :=
  { Core.reset with
    hot := c.hot
    temp := c.temp
    pool := c.pool
    opmem := c.opmem
    itlb := c.itlb
    dtlb := c.dtlb
    team := { Team.none with
      regTop := c.team.regTop
      spadTop := c.team.spadTop
      l1Top := c.team.l1Top
      yTop := c.team.yTop
      wTop := c.team.wTop } }

/-- All work in flight is gone: teams, images, launches, sheaves, messages, other packages' commands and locks. -/
def State.dropWork (s : State) : State :=
  { s with
    cores := s.cores.map fun e => (e.1, e.2.emptied)
    owners := []
    redEntries := []
    locks := []
    launches := []
    sheaves := []
    images := []
    orphans := []
    messages := []
    farCommands := [] }

/-- A device-fatal fault: FATAL sets, READY clears, and no completion record is written. -/
def State.deviceFatal (s : State) (cause : Nat) : State :=
  if s.hub.fatal then s
  else
    let s := s.dropWork.post evDEVFATAL cause srcHub 0 cause
    { s with hub := { s.hub with fatal := true, ready := false } }

/-- DEVICE_FATAL. -/
def execDeviceFatal (cause : BitVec 8) (s : State) : Out :=
  concludeEvent (fun s => s.deviceFatal cause.toNat) s

/-! ### What a fence takes away (R135, R139, R363, R444) -/

/-- A modified second-tier sector of a lost slice: its bytes are open, and it is poisoned at its new home. -/
def State.loseTier (s : State) (pa : Nat) : State :=
  ({ s with mem := Mem.write s.mem pa (freeBytes s.freeSeed 32) }.markSlice pa).drawBytes 32

/-- A modified host sector of a lost slice. -/
def State.loseHost (s : State) (pa : Nat) (h : HostSector) : State :=
  ({ s with hostSectors := tput s.hostSectors (sectorOf pa) ⟨freeBytes s.freeSeed 32, h.dirty⟩ }.markSlice pa).drawBytes 32

/-- The lines of tensors in a chiplet's slices are lost: the sectors they held modified are poisoned (R444). -/
def State.loseTensors (s : State) (chip : Nat) : State :=
  let mine (l : TensorLine) : Bool := l.chip == chip
  let bytes := (s.tensorLines.filter mine).flatMap fun l => (l.bytes.map Prod.snd).filter TensorByte.dirty
  bytes.foldl (fun s b => s.poisonSector b.pa) { s with tensorLines := s.tensorLines.filter fun l => !mine l }

/-- The slices of a chiplet are lost: what they held modified is poisoned at its new home (R444). -/
def State.loseSlices (s : State) (chip : Nat) : State :=
  let mine (pa : Nat) : Bool := !isHbm pa && s.tierHome pa == chip
  let tier := s.l2.filter fun e => mine (32 * e.1)
  let host := s.hostSectors.filter fun e => mine (32 * e.1)
  let s := { s with
    l2 := s.l2.filter fun e => if isHbm (32 * e.1) then 32 * e.1 / 2 ^ 36 != chip else (!mine (32 * e.1) || e.2)
    hostSectors := s.hostSectors.filter fun e => !mine (32 * e.1) || e.2.dirty != 0 }
  let s := { s with l2Tags := s.l2Tags.filter fun e => s.sliceHas (32 * e.1) }
  let s := (tier.filter fun e => e.2).foldl (fun s e => s.loseTier (32 * e.1)) s
  ((host.filter fun e => e.2.dirty != 0).foldl (fun s e => s.loseHost (32 * e.1) e.2) s).loseTensors chip

/-- A piece of an access that goes in core form to a core of a chiplet. -/
def State.aimsAt (s : State) (chip : Nat) (y : Piece) : Bool :=
  match y.place with
  | some (.window va) =>
      let w := winAddr va
      !w.teamForm && (s.remap w.target).valid && chipOf (s.remap w.target).phys == chip
  | _ => false

/-- An access that writes to a core of a chiplet. -/
def State.writesTo (s : State) (chip : Nat) (a : Access) : Bool :=
  (match a.kind with
   | .store _ | .red .. | .bsig _ => true
   | _ => false) && a.pieces.any (s.aimsAt chip)

/-- What is left of an access without its pieces for a chiplet: nothing, where it has no other (R139). -/
def State.spared (s : State) (chip : Nat) (a : Access) : Option Access :=
  let rest := a.pieces.filter fun y => !s.aimsAt chip y
  if !s.writesTo chip a then some a else if rest.isEmpty then none else some { a with pieces := rest }

/-- Writes in flight to the cores of a chiplet are dropped and logged (R139). -/
def State.dropFlights (s : State) (chip : Nat) : State :=
  let lost := s.residents.flatMap fun e => e.2.team.ctxs.flatMap fun x =>
    (x.2.storeQ.filter (s.writesTo chip)).map fun a => (e.1, x.1, a)
  let spared := s.spared chip
  let s := lost.foldl (fun s y =>
    (s.modCtx y.1 y.2.1 fun c => { c with storeQ := c.storeQ.filterMap spared }).post
      evDROPWR 0 (srcChip chip) y.2.2.va.toNat y.1) s
  let ports := s.redEntries.filter fun e => (e.core.map chipOf) == some chip
  let s := { s with redEntries := s.redEntries.filter fun e => (e.core.map chipOf) != some chip }
  ports.foldl (fun s e => s.post evDROPWR 0 (srcChip chip) e.line 0) s

/-- VALID clears in the remap entries whose PHYS lies on a chiplet (R139). -/
def State.clearRemap (s : State) (chip : Nat) : State :=
  (List.range 4096).foldl (fun s l =>
    let r := s.remap l
    if chipOf r.phys == chip then s.setRemap l { r with valid := false } else s) s

/-- Locks homed on a chiplet are lost; requests waiting there end FENCED (R363). -/
def State.loseLocks (s : State) (chip : Nat) : State :=
  let waits := (s.locks.filter fun e => e.name.home.1 == chip).flatMap LockEntry.waiters
  waits.foldl (fun s w => s.fillLocks w.team w.fills (lockStatus 4 none)) (s.dropLocks chip)

/-- The position a core of a fenced chiplet was to start, or had started uncommitted in a DISCARD launch, is dealt
anew by the Gleaner. -/
def State.giveBack (s : State) (chip : Nat) (w : Work) (fresh : Bool) : State :=
  match w with
  | .sheaf .. => s
  | .launch slot plot pos =>
      match s.launch slot with
      | none => s
      | some l =>
          if (l.ranges.any fun r => r.chip == chip && r.returned.contains pos) then s
          else match tfind l.log plot with
          | some (.started ..) =>
              if fresh || launchSave l.record || launchPersist l.record then s else s.returnPosition slot plot pos chip
          | some (.returned _) => if fresh then s.returnPosition slot plot pos chip else s
          | some _ => s
          | none => s.returnPosition slot plot pos chip

/-- The teams, images and idle cores of a chiplet are gone. -/
def State.loseWork (s : State) (chip : Nat) : State :=
  let mine := s.cores.filter fun e => chipOf e.1 == chip
  let s := (mine.filter fun e => e.2.resident).foldl (fun s e => s.giveBack chip e.2.team.work false) s
  let s := mine.foldl (fun s e =>
    match e.2.assign with
    | some a => if a.resume then s else s.giveBack chip a.work true
    | none => s) s
  let s := (mine.filter fun e => e.2.resident).foldl (fun s e => s.dropTeam e.1) s
  let gone := s.images.filter fun i => i.chip == chip && !i.team.suppressed
  let s := gone.foldl (fun s i => s.releaseAll i.team.age) s
  { s with
    cores := s.cores.map fun (e : Nat × Core) => (e.1, if chipOf e.1 == chip then e.2.emptied else e.2)
    owners := s.owners.filter fun (e : Nat × Nat) => chipOf e.2 != chip
    images := s.images.filter fun i => i.chip != chip }

/-- Tasks on a chiplet become missing returns (R144, R423). -/
def State.loseTasks (s : State) (chip : Nat) : State :=
  let lost : List (Nat × Nat) := s.sheaves.flatMap fun x =>
    (x.tasks.filter fun t => !t.remote && t.chip == chip && t.ended.isNone).map fun t => (x.id, t.id)
  lost.foldl (fun s t => (s.endTask t.1 t.2 0).advanceSheaf t.1) s

/-- A launch whose S contains the chiplet loses that member for good, elects, and its share is to be reissued (R120,
R135, R464). -/
def Launch.fenced (l : Launch) (chip : Nat) : Launch :=
  if !l.inS chip then l
  else
    let l := { l with lost := l.lost ||| (1#16 <<< chip) }
    if l.ended.isNone then { l with electing := true, toGlean := l.toGlean ||| (1#16 <<< chip) } else l

/-- The chiplet is fenced. -/
def State.fence (s : State) (chip cause : Nat) : State :=
  let s := s.loseTasks chip
  let s := s.dropFlights chip
  let s := s.loseWork chip
  let s := s.loseLocks chip
  let s := s.loseSlices chip
  let s := s.clearRemap chip
  let s := s.setChip chip { s.chip chip with live := false, fifo := [], stlb := [], throttled := none }
  let s := { s with
    launches := s.launches.map fun (e : Nat × Option Launch) => (e.1, e.2.map fun (l : Launch) => l.fenced chip)
    hub := { s.hub with
      livemask := s.hub.livemask &&& ~~~(1#16 <<< chip)
      fencemask := s.hub.fencemask ||| (1#16 <<< chip) } }
  s.post evFENCE cause (srcChip chip) 0 chip

/-- A chiplet-fatal fault (R443, R444): device-fatal where the tag scan fails or no other chiplet is live. -/
def State.chipletFatal (s : State) (chip cause : Nat) (scanFails : Bool) : State :=
  let s := s.capFrames chip
  if s.hub.fatal || !(s.chip chip).live then s
  else if scanFails || !((List.range 16).any fun c => c != chip && (s.chip c).live) then s.deviceFatal cause
  else s.fence chip cause

/-- CHIPLET_FATAL. -/
def execChipletFatal (chip : Nat) (cause : BitVec 8) (scanFails : Bool) (s : State) : Out :=
  concludePlacing (fun s => if 16 ≤ chip then s else s.chipletFatal chip cause.toNat scanFails) s

/-! ### Elections (R120) -/

/-- The surviving members of a launch's S: one that was fenced and has come back is none of them (R464). -/
def State.survivors (s : State) (l : Launch) : List Nat :=
  (List.range 16).filter fun c => l.inS c && (s.chip c).live

/-- ELECTION (R120): the lowest surviving members are master and deputy; if both old ones are fenced, the launch
ends FAULT. -/
def execElection (slot : Nat) (s : State) : Out :=
  concludePlacing (fun s =>
    match s.launch slot with
    | none => s
    | some l =>
        if !l.electing then s
        else
          let dead (c : Nat) : Bool := !l.inS c || !(s.chip c).live
          if dead l.master && (match l.deputy with | some d => dead d | none => true) then
            (s.setLaunch slot (some { l with electing := false })).faultLaunch slot 0 0
          else
            let cs := s.survivors l
            let m := cs.headD l.master
            let s := s.setLaunch slot (some { l with electing := false, master := m, deputy := cs[1]? })
            s.post evELECT 0 srcHub 0 (slot * 2 ^ 32 + m)) s

/-! ### The Gleaner (R135 to R138) -/

/-- The chiplet a plot was started on. -/
def PlotState.chip : PlotState → Option Nat
  | .started _ p | .committed _ p => some (chipOf p)
  | .returned _ | .retired => none

/-- The positions a range still holds. -/
def Range.positions (r : Range) : List Nat :=
  r.returned ++ (List.range r.count).map fun i => r.first + r.stride * i

/-- A plot that a fence makes fatal: one committed, or one started in a SAVE launch (R135). -/
def Launch.lostPlot (l : Launch) (chip : Nat) : Option Nat :=
  (l.log.find? fun e => e.2.chip == some chip &&
    match e.2 with
    | .committed .. => true
    | _ => launchSave l.record).map Prod.fst

/-- Deal positions over members, by the rule of R118 (R137). -/
def dealPositions (r : Rec) (ps : List Nat) (cs : List Nat) : List Range :=
  let n := ps.length
  let c := cs.length
  ((cs.zipIdx).map fun (chip, j) =>
    if launchWalk r == 3 then
      Range.mk chip 0 1 0 ((ps.zipIdx.filter fun e => e.2 % c == j).map Prod.fst)
    else Range.mk chip 0 1 0 ((ps.drop (j * n / c)).take ((j + 1) * n / c - j * n / c))).filter Range.more

/-- How many of a persistent field's teams a chiplet has. -/
def State.teamsOn (s : State) (slot : Nat) (l : Launch) (chip : Nat) : Nat :=
  ((l.ranges.filter fun r => r.chip == chip).map Range.left).sum
    + (s.savedOn slot chip).length
    + (s.cores.filter fun e => chipOf e.1 == chip && ((e.2.resident && e.2.team.ofLaunch slot)
        || (e.2.assign.map fun a => a.work.ofLaunch slot).getD false)).length

/-- The member with the fewest teams, the lowest among equals. -/
def fewestTeams (count : Nat → Nat) : List Nat → Option Nat
  | [] => none
  | c :: cs =>
      match fewestTeams count cs with
      | none => some c
      | some d => if count c ≤ count d then some c else some d

/-- Append a position to a chiplet's last range. -/
def appendTeam (chip pos : Nat) (rs : List Range) : List Range := rs ++ [⟨chip, 0, 1, 0, [pos]⟩]

/-- Place a persistent field's reissued teams one by one (R135). -/
def State.placeTeams (s : State) (slot : Nat) : List Nat → Launch → Launch
  | [], l => l
  | p :: ps, l =>
      match fewestTeams (s.teamsOn slot l) (s.survivors l) with
      | some c => State.placeTeams s slot ps { l with ranges := appendTeam c p l.ranges }
      | none => l

/-- The Gleaner's work for one launch. -/
def State.glean (s : State) (chip slot : Nat) (l : Launch) : State :=
  let l := { l with toGlean := l.toGlean &&& ~~~(1#16 <<< chip) }
  let s := s.setLaunch slot (some l)
  match l.lostPlot chip with
  | some plot => s.faultLaunch slot 0 plot
  | none =>
      let again := l.log.filterMap fun e => if e.2.chip == some chip then some e.1 else none
      let log := again.foldl (fun t p =>
        match (tfind t p).bind PlotState.age with
        | some a => tput t p (.returned a)
        | none => t) l.log
      let dealt := (l.ranges.filter fun r => r.chip == chip).flatMap Range.positions
      let ps := sortNats (if launchPersist l.record then dealt ++ again else dealt)
      let l := { l with log := log, ranges := l.ranges.filter fun r => r.chip != chip }
      let cs := s.survivors l
      if cs.isEmpty then s.faultLaunch slot 0 0
      else if launchPersist l.record then s.setLaunch slot (some (s.placeTeams slot ps l))
      else s.setLaunch slot (some { l with ranges := l.ranges ++ dealPositions l.record ps cs })

/-- GLEANER (R135 to R138): for every launch whose S contains the fenced chiplet, once its roles are settled. -/
def execGleaner (chip : Nat) (s : State) : Out :=
  concludePlacing (fun s =>
    s.launches.foldl (fun s e =>
      match e.2 with
      | some l => if l.toGlean.getLsbD chip && !l.electing && l.ended.isNone then s.glean chip e.1 l else s
      | none => s) s) s

end Sys2Proof.Machine
end

