-- ==== Sys2Proof/Machine/Sheaf.lean ====
section
/-! DEFINITION. Sheaves: the sheaf queue (R114), SHEAF (R288), splitting and placement (R143, R146, R282), returns and
timeouts (R423, R427, R447, R448). -/

namespace Sys2Proof.Machine

/-! ### The sheaf queue (R114) -/

def State.setSheafQ (s : State) (x : SheafQueue) : State := { s with hub := { s.hub with sheafQ := x } }

/-- Padding of SQCTL. -/
def sqctlMbz : Nat := 0xFFFFFFFFFF003FF0

/-- SQ_ENABLE (R98, R114). -/
def execSqEnable (port : BitVec 1) (value : W64) (s : State) : Out :=
  concludeEvent (fun s =>
    let v := value.toNat
    if !ctlEn v then s
    else s.byReady port.toNat 0x1408 fun s =>
      let s := s.checkMbz port.toNat 0x1408 v sqctlMbz
      let x := s.hub.sheafQ
      let old := x.control.toNat
      if ctlEn old then
        let (w, n) := ctlWrite old v (x.head == x.tail)
        (s.setSheafQ { x with control := w }).dropTimes port.toNat 0x1408 n
      else if ctlLog2Ok (ctlLog2 v) && ctlIrqvOk (ctlIrqv v)
          && s.ringInMemory (bits x.base.toNat 12 40 * 4096) (2 ^ ctlLog2 v) 128 then
        s.setSheafQ ⟨x.base, ctlWord (ctlIrqv v) true (ctlIrq v) (ctlLog2 v), 0, 0, []⟩
      else
        s.dropWrite port.toNat 0x1408) s

/-- SQ_DISABLE (R98, R114). -/
def execSqDisable (port : BitVec 1) (value : W64) (s : State) : Out :=
  concludeEvent (fun s =>
    let v := value.toNat
    if ctlEn v then s
    else s.byReady port.toNat 0x1408 fun s =>
      let s := s.checkMbz port.toNat 0x1408 v sqctlMbz
      let x := s.hub.sheafQ
      let old := x.control.toNat
      if ctlEn old then
        let (w, n) := ctlWrite old v (x.head == x.tail)
        (s.setSheafQ { x with control := w }).dropTimes port.toNat 0x1408 n
      else s.setSheafQ { x with control := ctlWord (ctlIrqv v) false (ctlIrq v) (ctlLog2 v) }) s

/-- SQTAIL (R99, R114): each sheaf posted begins to wait for the hub. -/
def execSqtail (port : BitVec 1) (value : W64) (s : State) : Out :=
  concludeEvent (fun s =>
    s.byReady port.toNat 0x1410 fun s =>
      let s := s.checkMbz port.toNat 0x1410 value.toNat (0xFFFFFFFF * 2 ^ 32)
      let x := s.hub.sheafQ
      let t := BitVec.ofNat 32 value.toNat
      if !ctlEn x.control.toNat || !tailOk (ctlLog2 x.control.toNat) x.tail x.head t then s.dropWrite port.toNat 0x1410
      else
        let n := (t - x.tail).toNat
        let k := s.hub.sheafTickets
        let s := s.setSheafQ { x with tail := t, posts := x.posts ++ (List.range n).map fun i => k + i }
        { s with hub := { s.hub with sheafTickets := k + n } }) s

/-! ### Room and order (R114, R288) -/

/-- Sheaves that count against the hub's 64: those not yet final, work for another sheaf or package aside. -/
def State.heldSheaves (s : State) : Nat := (s.sheaves.filter fun x => x.phase != .final && x.outer.isNone).length

/-- The places in line of the SHEAFs that wait. -/
def State.sheafWaits (s : State) : List Nat :=
  s.residents.flatMap fun e => e.2.team.ctxs.filterMap fun x =>
    match x.2.waitOf .a with
    | some (.sheafRoom _ t) => some t
    | _ => none

/-- The hub has room and a place in line is the first. -/
def State.mayTake (s : State) (ticket : Nat) : Bool :=
  s.heldSheaves < 64 && (s.sheafWaits ++ s.hub.sheafQ.posts).all fun t => ticket ≤ t

/-- A sheaf as it comes to the hub. -/
def Sheaf.fresh (id : Nat) (desc : Rec) (asid : BitVec 16) (prio lslot source : Nat) : Sheaf where
  id := id
  desc := desc
  asid := asid
  prio := prio
  lslot := lslot
  source := source
  hosted := false
  parent := none
  remote := false
  outer := none
  fork := none
  statOk := false
  doneOk := false
  set := 0
  phase := .waiting
  k := 0
  r := 0
  wide := []
  uncoded := false
  splitAt := 0
  doneAt := 0
  finalAt := 0
  timedOut := false
  tasks := []
  returns := []
  tiles := []
  cause := none
  faulty := []
  faultChips := 0
  written := 0
  corrected := 0
  late := false

/-- The hub takes a sheaf. -/
def State.addSheaf (s : State) (x : Sheaf) : State :=
  { s with
    sheaves := s.sheaves ++ [{ x with id := s.hub.sheafIds }]
    hub := { s.hub with sheafIds := s.hub.sheafIds + 1 } }

/-! ### SHEAF (R288) -/

/-- CPLFAULT's DETAIL for a sheaf of a launch (R445). -/
def sheafSource (l : Launch) : Nat := 0xFFFFFFFE * 2 ^ 32 + l.queue % 16 * 2 ^ 28 + l.count % 2 ^ 28

/-- The sheaf that a team's context submits. -/
def State.submission (s : State) (p k : Nat) (desc : Rec) (seq : Nat) : Sheaf :=
  let t := s.team p
  let l := match t.work with
    | .launch slot _ _ => s.launch slot
    | .sheaf .. => none
  let prio := (l.map fun l => launchPrio l.record).getD 0
  { Sheaf.fresh 0 desc t.asid prio t.lslot ((l.map sheafSource).getD (0xFFFFFFFE * 2 ^ 32)) with
    fork := some (t.age, k, seq) }

/-- Submit, or wait for room behind whatever already waits. -/
def submitOrWait (d : Rec) : Act Unit := do
  let s ← get
  let seq := s.cur.nextSeq
  modCtxA fun c => { c with nextSeq := seq + 1 }
  if s.heldSheaves < 64 && s.sheafWaits.isEmpty && s.hub.sheafQ.posts.isEmpty then
    modify fun s => s.addSheaf (s.submission s.issue.core s.issue.ctx d seq)
  else do
    let n := s.hub.sheafTickets
    modify fun s => { s with hub := { s.hub with sheafTickets := n + 1 } }
    waitRoom (.sheafRoom d n)

/-- SHEAF (R288). -/
def execSheaf (a : Src) (s : State) : Out :=
  concludeSyllable (do
    let a ← readSrc a
    trapIf (a.toNat % 128 != 0) causeALIGN a
    let d ← readRecord a 128
    let s ← get
    match checkSheaf d (tget 0 s.hub.codesets (shOpid d)) with
    | some (c, off) => trap c (BitVec.ofNat 64 off)
    | none => do
        checkCommitted a
        raisePending
        modify fun s => s.pairTerm s.issue.core 0x31 a.toNat (fieldOf d 0 8)
        if s.curTeam.suppressed then pure () else submitOrWait d) s

/-- SHEAF_SUBMIT: a waiting SHEAF finds room. -/
def execSheafSubmit (r : CtxRef) (s : State) : Out :=
  concludeEvent (fun s =>
    let c := s.ctx r.core r.ctx
    match c.waitOf .a with
    | some (.sheafRoom d n) =>
        if (s.core r.core).resident && s.mayTake n then
          (s.addSheaf (s.submission r.core r.ctx d c.nextSeq)).modCtx r.core r.ctx fun c => c.endWait .a
        else s
    | _ => s) s

/-- SHEAF_TAKE (R114): the hub takes the next posted descriptor. -/
def execSheafTake (s : State) : Out :=
  concludeEvent (fun s =>
    let q := s.hub.sheafQ
    match q.posts with
    | [] => s
    | n :: rest =>
        if s.hub.fatal || !s.hub.ready || !s.mayTake n then s
        else
          let count := (q.tail - BitVec.ofNat 32 q.posts.length).toNat
          let at_ := bits q.base.toNat 12 40 * 4096 + 128 * (count % 2 ^ ctlLog2 q.control.toNat)
          let d := s.physRead at_ 128
          let x := { Sheaf.fresh 0 d (shAsid d) 0 0 (0xFFFFFFFF * 2 ^ 32 + count) with hosted := true }
          (s.setSheafQ { q with posts := rest }).addSheaf x) s

/-! ### Splitting (R143, R146, R288) -/

/-- The submitter's earlier loads and stores have performed (R253). -/
def State.forkDone (s : State) (x : Sheaf) : Bool :=
  match x.fork with
  | none => true
  | some (age, k, seq) =>
      let clear (t : Team) : Bool := t.age != age || (t.ctx k).forkClear seq
      (s.residents.all fun e => clear e.2.team) && s.images.all fun i => clear i.team

/-- The first fault of the sheaf's operands: A, B, C and their scale arrays. -/
def State.operandFault (s : State) (x : Sheaf) : Option Nat :=
  let r := x.desc
  let asid := x.asid.toNat
  let rows (user : Bool) (k : AccessKind) (base stride n len : Nat) : Option Nat :=
    (List.range n).findSome? fun i => s.hubFault user asid (base + i * stride) len k
  let blocks := shK r / 32
  let c := shCfmt r
  (rows false accRead (shAbase r) (shAstride r) (shM r) (shK r * codeBits (shAfmt r) / 8)).orElse fun _ =>
  (s.hubFault false asid (shAscale r) (shM r * blocks) accRead).orElse fun _ =>
  (rows false accRead (shBbase r) (shBstride r) (shN r) (shK r * codeBits (shBfmt r) / 8)).orElse fun _ =>
  (s.hubFault false asid (shBscale r) (shN r * blocks) accRead).orElse fun _ =>
  if x.outer.isSome then none
  else (rows true accWrite (shCbase r) (shCstride r) (shM r) (shN r * codeBits c / 8)).orElse fun _ =>
    if c = 10 || c = 11 then s.hubFault true asid (shCscale r) (shM r * (shN r / 32)) accWrite else none

/-- Translate STAT and DONE; a fault on either is a CPLFAULT (R114, R288).  An inner sheaf has no DONE, and a status record
of its own only where another package submitted it (R429; log entry 111). -/
def State.sheafNames (s : State) (x : Sheaf) : State × Sheaf :=
  if x.parent.isSome then (s, x)
  else
    let asid := x.asid.toNat
    let statOk := (s.hubFault true asid (shStat x.desc) 64 accWrite).isNone
    let done := if x.outer.isSome then 0 else shDone x.desc
    let doneOk := done != 0 && s.doneWorks asid done
    let s := if statOk then s else s.post evCPLFAULT 0 srcHub (shStat x.desc) x.source
    let s := if done = 0 || doneOk then s else s.post evCPLFAULT 0 srcHub done x.source
    (s, { x with statOk := statOk, doneOk := doneOk })

/-- SQHEAD advances past a posted sheaf. -/
def State.freeSlot (s : State) (x : Sheaf) : State :=
  if x.hosted then s.setSheafQ { s.hub.sheafQ with head := s.hub.sheafQ.head + 1 } else s

/-- The return of a package task that failed. -/
def State.packageFails (s : State) (x : Sheaf) : State :=
  let task := (x.outer.map Prod.fst).getD 0
  match x.parent with
  | some (up, t) => ((x.packageReturns t true).foldl (fun s r => s.takeReturn up r) s).sweepSheaves
  | none =>
      if x.remote then s.emit (.podReturn (leBytes 8 x.source ++ leBytes 8 task ++ leBytes 8 1)) else s

/-- A sheaf ends at once with a code (R431): REJECT, NOCHIP and XFAULT without splitting, ENCFAIL after it. -/
def State.endSheaf (s : State) (x : Sheaf) (code cause detail : Nat) : State :=
  let x := { x with phase := .final, doneAt := s.timens, finalAt := s.timens, written := 0 }
  let s := { s with sheaves := s.sheaves.filter fun y => y.id != x.id }
  let s := s.writeStatus x code cause detail true
  if x.outer.isSome then s.packageFails x else s.sheafDone x

/-- A sheaf ends without splitting; its slot is free. -/
def State.endUnsplit (s : State) (x : Sheaf) (code cause detail : Nat) : State :=
  let (s, x) := s.sheafNames x
  (s.endSheaf x code cause detail).freeSlot x

/-- Unretired tasks on a chiplet. -/
def State.chipTasks (s : State) (chip : Nat) : Nat :=
  (s.sheaves.flatMap fun x => x.tasks.filter fun t => !t.remote && t.chip == chip && !s.taskOver x t).length

/-- Sort by a count, then by the order given. -/
def insertCount (count : Nat → Nat) (c : Nat) : List Nat → List Nat
  | [] => [c]
  | d :: ds => if count c ≤ count d then c :: d :: ds else d :: insertCount count c ds

def orderBy (count : Nat → Nat) (cs : List Nat) : List Nat := cs.foldr (insertCount count) []

/-- The tasks of a sheaf on the chiplets or packages it takes. -/
def makeTasks (now : Nat) (remote : Bool) (places : List Nat) : List Task :=
  (places.zipIdx).map fun (c, i) => ⟨i, c, remote, 0, none, now, none, []⟩

/-- Package-scope sheaves split while an injection is armed, whose tasks hold its TASK, in their order (R448). -/
def State.bindInjection (s : State) (x : Sheaf) : State :=
  let v := s.hub.injection.toNat
  if bit v 63 && !(shPod x.desc && x.outer.isNone) && bits v 52 4 < x.k + x.r then
    { s with hub := { s.hub with injectOrder := s.hub.injectOrder ++ [x.id] } }
  else s

/-- A package-scope sheaf is placed (R143), or ends NOCHIP or XFAULT. -/
def State.placeSheaf (s : State) (x : Sheaf) : State :=
  let live := orderBy s.chipTasks ((List.range 16).filter fun c => (s.chip c).live)
  let k := setK x.set
  let x := { x with k := k }
  if live.length < k then s.endUnsplit x 8 0 0
  else
    let r := min (setR x.set) (live.length - k)
    let x := { x with r := r }
    match s.operandFault x with
    | some c => s.endUnsplit x 7 c 0
    | none =>
        let (s, x) := s.sheafNames x
        let x := { x with
          phase := .placed
          splitAt := s.now
          tasks := makeTasks s.now false (live.take (k + r)) }
        let s := s.bindInjection x
        ((s.putSheaf x).writeStatus x 0 0 0 false).freeSlot x

/-! ### Pod scope (R146) -/

/-- Packages that the fabric reaches, this one among them, by distance. -/
def State.packages (s : State) : List Nat :=
  let me := s.hub.pkgid.toNat
  ((List.range 256).map fun i => (me + i) % 256).filter fun p => p == me || Config.fabricRoute p

/-- Unretired pod tasks of a package, as far as this one knows: those it has given, and those it runs for others. -/
def State.podTasks (s : State) (pkg : Nat) : Nat :=
  (s.sheaves.flatMap fun x => x.tasks.filter fun t => t.remote && t.chip == pkg && !s.taskOver x t).length
    + if pkg = s.hub.pkgid.toNat then (s.sheaves.filter fun x => x.remote && x.phase != .final).length else 0

/-- The message that carries a package task (the model's form): the descriptor with the sheaf's ASID, the task's number
and KOUT. -/
def podMessage (x : Sheaf) (task kout : Nat) : List Byte :=
  x.desc.take 0x14 ++ leBytes 2 x.asid.toNat ++ x.desc.drop 0x16 ++ leBytes 8 task ++ leBytes 8 kout

/-- A package task to be run here. -/
def innerSheaf (desc : Rec) (asid : BitVec 16) (prio lslot source : Nat) (parent : Option (Nat × Nat))
    (task kout : Nat) : Sheaf :=
  { Sheaf.fresh 0 desc asid prio lslot source with
    parent := parent
    remote := parent.isNone
    outer := some (task, kout) }

/-- Hand out the package tasks of a pod-scope sheaf. -/
def State.sendTasks (s : State) (x : Sheaf) : State :=
  x.tasks.foldl (fun s t =>
    if t.chip = s.hub.pkgid.toNat then
      s.addSheaf (innerSheaf x.desc x.asid x.prio x.lslot x.source (some (x.id, t.id)) t.id x.k)
    else s.emit (.podTask (podMessage x t.id x.k))) s

/-- A pod-scope sheaf is placed over packages, or ends NOCHIP or XFAULT. -/
def State.placePod (s : State) (x : Sheaf) : State :=
  let pkgs := orderBy s.podTasks s.packages
  let k := setKOut x.set
  let x := { x with k := k }
  if pkgs.length < k then s.endUnsplit x 8 0 0
  else
    let r := min (setROut x.set) (pkgs.length - k)
    let x := { x with r := r }
    match s.operandFault x with
    | some c => s.endUnsplit x 7 c 0
    | none =>
        let (s, x) := s.sheafNames x
        let x := { x with
          phase := .placed
          splitAt := s.now
          tasks := makeTasks s.now true (pkgs.take (k + r)) }
        (((s.putSheaf x).writeStatus x 0 0 0 false).freeSlot x).sendTasks x

/-! ### SHEAF_SPLIT (R143, R146, R282) -/

/-- A posted sheaf before this one has still to be split. -/
def State.earlierPost (s : State) (x : Sheaf) : Bool :=
  x.hosted && s.sheaves.any fun y => y.hosted && y.id < x.id && y.phase == .waiting

/-- The first step of a split: the set is copied and the descriptor checked, and the tasks get their places. -/
def State.split (s : State) (x : Sheaf) : State :=
  let w := tget 0 s.hub.codesets (shOpid x.desc)
  let x := { x with set := w, prio := if x.hosted || x.remote then setPrio w else x.prio }
  if x.outer.isSome then
    if setValid w && s.outerFits x then s.placeSheaf x else s.endUnsplit x 9 0 0
  else match checkSheaf x.desc w with
  | some (_, off) => s.endUnsplit x 9 0 off
  | none => if shPod x.desc then s.placePod x else s.placeSheaf x

/-- The tasks of a split sheaf begin. -/
def State.startTasks (s : State) (x : Sheaf) : State :=
  (s.putSheaf { x with phase := .running }).advanceSheaf x.id

/-- A sheaf goes on without its parity tasks (R282); where TASK named one of them, the next sheaf's return is altered
(R448). -/
def State.uncode (s : State) (x : Sheaf) : State :=
  let order := s.hub.injectOrder.filter fun i => i != x.id || bits s.hub.injection.toNat 52 4 < x.k
  let s := { s with hub := { s.hub with injectOrder := order } }
  s.startTasks { x with
    r := 0
    uncoded := true
    tasks := x.tasks.filter fun t => t.id < x.k }

/-- A parity task holds what its ENCODE commands wrote, in two planes where WIDE was taken, and what they came to. -/
def Sheaf.withCoded (x : Sheaf) (j : Nat) (fit : Fit) (rows : List (List BlockRow)) : Sheaf :=
  { x with
    fits := x.fits ++ [(j, fit)]
    tasks := x.tasks.map fun t =>
      if t.id = x.k + j then { t with coded := codedRows x j (setSpread x.set == 2 && fit == .wide) rows } else t }

/-- The core of a chiplet in whose first copy queue the hub issues an ENCODE: the lowest one that has none, and whose queue
has not halted. -/
def State.encodeCore (s : State) (chip : Nat) : Nat :=
  let cs := (List.range 256).map fun i => 256 * chip + i
  (cs.find? fun p => (s.core p).encodes.isEmpty && !((s.core p).resident && ((s.team p).queue 0).halt)).getD (256 * chip)

/-- Issue an ENCODE behind what its queue holds (R265, R282). -/
def State.issueEncode (s : State) (x : Sheaf) (t : Task) : State :=
  let p := s.encodeCore t.chip
  let behind := if (s.core p).resident then some ((s.team p).age, ((s.team p).queue 0).nextSerial) else none
  s.modCore p fun c => { c with encodes := c.encodes ++ [⟨0, x.id, t.id, behind⟩] }

/-- The second step (R282): the hub issues the ENCODE commands of the parity tasks on their own chiplets. -/
def State.issueEncodes (s : State) (x : Sheaf) : State :=
  (x.tasks.filter fun t => x.k ≤ t.id && t.ended.isNone).foldl (fun s t => s.issueEncode x t)
    (s.putSheaf { x with issued := true })

/-- ENCODE commands of a sheaf that have still to run. -/
def State.encoding (s : State) (id : Nat) : Bool := s.cores.any fun e => e.2.encodes.any fun y => y.sheaf == id

/-- What a sheaf does once its ENCODE commands have run (R282). -/
def State.encoded (s : State) (x : Sheaf) : State :=
  let policy := setSpread x.set
  if x.fits.all fun f => f.2 == .plain then s.startTasks x
  else if policy = 1 then s.uncode x
  else if policy = 2 && x.fits.all fun f => f.2 != .never then
    s.startTasks { x with wide := (x.fits.filter fun f => f.2 == .wide).map Prod.fst }
  else s.endSheaf x 6 0 0

/-- A placed sheaf starts, issues its ENCODE commands, or goes on once they have run. -/
def State.encodes (s : State) (x : Sheaf) : State :=
  if (shPod x.desc && x.outer.isNone) || x.r = 0 then s.startTasks x
  else if !x.issued then s.issueEncodes x
  else if s.encoding x.id then s
  else s.encoded x

/-- Earlier loads and stores of a SHEAF of pod scope have performed at .sys scope before the hub reads (R253, R390). -/
def State.forkFlush (s : State) (x : Sheaf) : State :=
  if shPod x.desc && x.fork.isSome then s.writebackHost.1 else s

/-- SHEAF_SPLIT: a sheaf that waits is placed; one that has been placed starts once its encodes are known. -/
def execSheafSplit (id : Nat) (s : State) : Out :=
  concludePlacing (fun s =>
    match s.sheafOf id with
    | none => s
    | some x =>
        if s.hub.fatal then s
        else match x.phase with
        | .waiting => if s.forkDone x && !s.earlierPost x then (s.forkFlush x).split x else s
        | .placed => s.encodes x
        | _ => s) s

/-! ### ENCODE (R278 to R282) -/

/-- An ENCODE of the hub may start: what stands before it in its queue is past its data, and the queue's pace allows it
(R265, R266). -/
def State.encodeReady (s : State) (p q : Nat) (e : HubEncode) : Bool :=
  let t := s.team p
  let x := t.queue q
  !(s.core p).resident || (!x.halt && x.lastStart + 3 * x.pace.toNat ≤ s.now
    && match e.behind with
       | some (age, n) => age != t.age || x.cmds.all fun c => n ≤ c.serial || c.dataDone
       | none => true)

/-- An ENCODE of the hub reads the blocks of A once, and what it writes stands whatever happens to A later.  DESIGN CHOICE
(log entry 92): where the rows cannot be read, its parity task ends with the cause. -/
def State.encodeTask (s : State) (x : Sheaf) (task : Nat) : State :=
  match s.codeSources x (List.range x.blockRows) with
  | .error c => s.endTask x.id task c
  | .ok (rows, s) =>
      let j := task - x.k
      s.modSheaf x.id fun x => x.withCoded j (parityFit x j rows) rows

/-- The next ENCODE of the hub in a queue runs. -/
def State.hubEncode (s : State) (p q : Nat) : State :=
  match (s.core p).encodes.find? fun e => e.queue == q with
  | none => s
  | some e =>
      if !s.encodeReady p q e then s
      else
        let s := s.modCore p fun c => { c with encodes := c.encodes.erase e }
        let s := if (s.core p).resident then
          s.modTeam p fun t => t.setQueue q { t.queue q with lastStart := s.now } else s
        match s.sheafOf e.sheaf with
        | some x => s.encodeTask x e.task
        | none => s

/-- ENCODE (R278 to R282): a command of a team, or one that the hub has issued for a sheaf. -/
def execEncode (core q : Nat) (sel : Option (List Nat)) (s : State) : Out :=
  concludeEvent (fun s =>
    match s.dataCommand core q 5 with
    | some (i, c) => s.encodeStep core q i c sel
    | none => s.hubEncode core q) s

/-! ### Returns (R423, R447 to R449) -/

/-- The core that computes a tile of a task. -/
def State.tileCore (s : State) (id task tile : Nat) : Option Nat :=
  (s.residents.find? fun e => e.2.team.work == .sheaf id task tile).map Prod.fst

/-- The armed alteration of a return (R448). -/
def State.inject (s : State) (x : Sheaf) (task : Nat) (recs : List Nat) : State × List Nat :=
  let v := s.hub.injection.toNat
  if s.hub.injectOrder.head? == some x.id && bit v 63 && bits v 52 4 = task then
    let i := bits v 40 10
    let mask := bits v 0 32 * 2 ^ (32 * bits v 50 2)
    let s := { s with hub := { s.hub with injection := BitVec.ofNat 64 (v % 2 ^ 63), injectOrder := [] } }
    (s, recs.set i (Nat.xor (recs.getD i 0) mask))
  else (s, recs)

/-- Records that another package returns: its memory is not this machine's, so their bits are open (log entry 17). -/
def freeRecords (seed : Nat) : List Nat :=
  (List.range 1024).map fun i => (Config.freeWord (seed + 2 * i)).toNat + 2 ^ 64 * (Config.freeWord (seed + 2 * i + 1)).toNat

/-- A return with its records, missing where a HEAD says so (R449). -/
def returnOf (task tile : Nat) (recs : List Nat) : Return :=
  if recs.any badHead then ⟨task, tile, true, []⟩ else ⟨task, tile, false, recs⟩

/-- A task's tile comes back from its core: its records, missing where the tile holds a poisoned sector (R423), or a trap
that ends the task. -/
def State.tileReturns (s : State) (x : Sheaf) (core task tile : Nat) : State :=
  match s.taskTile x task tile with
  | .error c => (s.endTask x.id task c).advanceSheaf x.id
  | .ok (recs, s) =>
      let marked := ((s.core core).markedTile ((s.team core).bufStart .z) 0).isSome
      let s := s.dropTeam core
      if marked then s.arriveReturn x.id ⟨task, tile, true, []⟩
      else
        let (s, recs) := s.inject x task recs
        s.arriveReturn x.id (returnOf task tile recs)

/-- RETURN_ARRIVAL (R423, R426, R427). -/
def execReturnArrival (id task tile : Nat) (s : State) : Out :=
  concludePlacing (fun s =>
    match s.sheafOf id with
    | none => s
    | some x =>
        match s.tileCore id task tile with
        | some core => s.tileReturns x core task tile
        | none =>
            if (x.tasks.any fun t => t.id == task && t.remote && t.chip != s.hub.pkgid.toNat)
                && tile < x.positions && x.phase != .waiting && x.phase != .placed then
              { s with freeSeed := s.freeSeed + 2048 }.arriveReturn id (returnOf task tile (freeRecords s.freeSeed))
            else s) s

/-- A placed sheaf whose time is up begins without what its ENCODE commands have not written. -/
def Sheaf.unencoded (x : Sheaf) : Sheaf :=
  if x.phase == .placed then
    { x with
      phase := .running
      tasks := x.tasks.map fun t => if x.k ≤ t.id && t.ended.isNone && !t.remote then { t with ended := some 0 } else t }
  else x

/-- SHEAF_TIMEOUT (R427). -/
def execSheafTimeout (id : Nat) (s : State) : Out :=
  concludePlacing (fun s =>
    match s.sheafOf id with
    | none => s
    | some x =>
        let us := if shTimeout x.desc = 0 then setTdef x.set else shTimeout x.desc
        if (x.phase == .placed || x.phase == .running || x.phase == .complete) && x.splitAt + us * microsecond ≤ s.now then
          (s.putSheaf { x.unencoded with timedOut := true }).advanceSheaf id
        else s) s

/-- POD_TASK_ARRIVAL (R146, R432): a package task in the form of `podMessage` is run as a package-scope sheaf. -/
def execPodTaskArrival (descriptor : List Byte) (s : State) : Out :=
  concludeEvent (fun s =>
    if s.hub.fatal || !s.hub.ready || descriptor.length != 144 then s
    else
      let d := descriptor.take 128
      s.addSheaf (innerSheaf d (shAsid d) 0 0 s.hub.sheafIds none (fieldOf descriptor 128 8) (fieldOf descriptor 136 8))) s

end Sys2Proof.Machine
end

