-- ==== Sys2Proof/Machine/Inval.lean ====
section
/-! DEFINITION. Translations are invalidated (R247, R248). -/

namespace Sys2Proof.Machine

/-! ### The registers (R247) -/

/-- Bits of INVCTL that a write sets: IRQV, IRQ, ALL and ASID. -/
def invKept : Nat := 0x3F90FFFF

/-- DONE, which a write of 1 clears. -/
def invDone : Nat := 2 ^ 22

/-- A write of INVCTL, its GO aside. -/
def State.writeInvctl (s : State) (port value : Nat) : State :=
  let s := s.checkMbz port 0x2110 value (0xFFFFFFFFC0000000 + 0xE0000)
  let done := s.hub.invctl.toNat &&& invDone
  let left := if bit value 22 then 0 else done
  { s with hub := { s.hub with invctl := BitVec.ofNat 64 ((value &&& invKept) + left) } }

/-- INVCTL as it reads: BUSY while an invalidation is under way. -/
def Hub.invctlRead (h : Hub) : Nat := h.invctl.toNat + if h.inval.isSome then 2 ^ 21 else 0

/-- The invalidation that the registers describe: INVLEN 0 is the whole ASID. -/
def Hub.newInval (h : Hub) : Inval :=
  let lo := bits h.invva.toNat 16 40 * 65536
  let len := h.invlen.toNat / 65536 * 65536
  { delivered := false
    asid := h.invctl.toNat % 65536
    all := bit h.invctl.toNat 20
    lo := if len = 0 then 0 else lo
    hi := if len = 0 then 2 ^ 56 else lo + len }

/-- INVALIDATION_START (R247): a write of GO, ignored and logged while BUSY. -/
def execInvalidationStart (port : BitVec 1) (value : W64) (s : State) : Out :=
  concludeEvent (fun s =>
    if !bit value.toNat 16 then s
    else s.byOwner port.toNat 0x2110 fun s =>
      if s.hub.inval.isSome then s.dropWrite port.toNat 0x2110
      else
        let s := s.writeInvctl port.toNat value.toNat
        { s with hub := { s.hub with inval := some s.hub.newInval } }) s

/-! ### What matches -/

def Inval.ofAsid (x : Inval) (asid : Nat) : Bool := x.all || x.asid == asid

/-- Bytes from `va` on lie in the range. -/
def Inval.meets (x : Inval) (asid va n : Nat) : Bool := x.ofAsid asid && va < x.hi && x.lo < va + n

/-- A page of the range. -/
def Inval.matches (x : Inval) (e : TlbEntry) : Bool := x.meets e.asid e.va (2 ^ e.log2)

/-- A translated piece lies in a page of the range: in its 64 KiB, or in a larger page that a cached translation
shows. -/
def Inval.touches (x : Inval) (pages : List TlbEntry) (asid : Nat) (y : Piece) : Bool :=
  match y.place with
  | some (.phys _ _) =>
      x.meets asid (y.va / 65536 * 65536) 65536 || pages.any fun e => e.covers asid y.va
  | _ => false

/-! ### Delivery (R248) -/

/-- The cached translations that match: in micro-TLBs, shared TLBs and pins. -/
def State.matching (s : State) (x : Inval) : List TlbEntry :=
  ((s.cores.flatMap fun (e : Nat × Core) => e.2.itlb ++ e.2.dtlb ++ e.2.team.pins)
    ++ (s.chips.flatMap fun (e : Nat × Chip) => e.2.stlb)).filter x.matches

def Command.await (x : Inval) (c : Command) : Command := { c with awaited := c.awaited || c.pins.any x.matches }

def Stream.await (x : Inval) (c : Stream) : Stream := { c with awaited := c.awaited || c.pins.any x.matches }

def Access.await (x : Inval) (pages : List TlbEntry) (asid : Nat) (a : Access) : Access :=
  { a with awaited := a.awaited || a.pieces.any (x.touches pages asid) }

/-- A command or stream that waits for room, having pinned its pages. -/
def WaitFor.await (x : Inval) : WaitFor → WaitFor
  | .enqRoom q c => .enqRoom q (c.await x)
  | .streamRoom y => .streamRoom (y.await x)
  | w => w

def ClusterState.await (x : Inval) (c : ClusterState) : ClusterState :=
  match c.status with
  | .waiting w popped => { c with status := .waiting (w.await x) popped }
  | _ => c

def Ctx.await (x : Inval) (pages : List TlbEntry) (asid : Nat) (c : Ctx) : Ctx :=
  { c with
    c := c.c.await x
    a := c.a.await x
    v := c.v.await x
    m := c.m.await x
    loadQ := c.loadQ.map (Access.await x pages asid)
    storeQ := c.storeQ.map (Access.await x pages asid) }

/-- Everything of a team that has used a matching page before delivery. -/
def Team.await (x : Inval) (pages : List TlbEntry) (t : Team) : Team :=
  { t with
    ctxs := t.ctxs.map fun (e : Nat × Ctx) => (e.1, e.2.await x pages t.asid.toNat)
    queues := t.queues.map fun (e : Nat × EngineQueue) => (e.1, { e.2 with cmds := e.2.cmds.map (Command.await x) })
    streams := t.streams.map (Stream.await x) }

/-- A merge entry holds a RED that waits. -/
def State.entryAwaited (s : State) (e : RedEntry) : Bool :=
  e.members.any fun m => (s.ctx m.1 m.2.1).storeQ.any fun a => a.seq == m.2.2 && a.awaited

def Core.forget (x : Inval) (c : Core) : Core :=
  { c with
    itlb := c.itlb.filter fun e => !x.matches e
    dtlb := c.dtlb.filter fun e => !x.matches e }

/-- Matching entries of every TLB go stale, and what has used one is noted. -/
def State.deliverInval (s : State) (x : Inval) : State :=
  let far := s.farCommands.map fun (c : FarCommand) => { c with awaited := c.awaited || c.pins.any x.matches }
  let pages := s.matching x
  let cores := s.cores.map fun (e : Nat × Core) =>
    (e.1, ({ e.2 with team := e.2.team.await x pages } : Core).forget x)
  let chips := s.chips.map fun (e : Nat × Chip) => (e.1, { e.2 with stlb := e.2.stlb.filter fun y => !x.matches y })
  let images := s.images.map fun (i : Image) => { i with team := i.team.await x pages }
  let s := { s with cores := cores, chips := chips, images := images, farCommands := far }
  { s with redEntries := s.redEntries.map fun e => { e with awaited := e.awaited || s.entryAwaited e } }

/-- INVALIDATION_DELIVERY (R248). -/
def execInvalidationDelivery (s : State) : Out :=
  concludeEvent (fun s =>
    match s.hub.inval with
    | some x =>
        if x.delivered then s
        else
          let s := s.deliverInval x
          { s with hub := { s.hub with inval := some { x with delivered := true } } }
    | none => s) s

/-! ### Drain (R248) -/

def WaitFor.awaited : WaitFor → Bool
  | .enqRoom _ c => c.awaited
  | .streamRoom x => x.awaited
  | _ => false

def ClusterState.awaited (c : ClusterState) : Bool :=
  match c.status with
  | .waiting w _ => w.awaited
  | _ => false

/-- A context still has an access that waits, or a parked piece in the range. -/
def Ctx.undrained (x : Inval) (asid : Nat) (c : Ctx) : Bool :=
  (c.loadQ ++ c.storeQ).any Access.awaited
    || (c.replay ++ c.savedParked).any (fun a => a.pieces.any fun y => x.meets asid (y.va / 65536 * 65536) 65536)
    || Cluster.all.any fun cl => (Ctx.cluster c cl).awaited

def Team.undrained (x : Inval) (t : Team) : Bool :=
  t.ctxs.any (fun e => e.2.undrained x t.asid.toNat)
    || t.queues.any (fun e => e.2.cmds.any Command.awaited)
    || t.streams.any Stream.awaited

/-- The three conditions of R248's drain. -/
def State.invDrained (s : State) (x : Inval) : Bool :=
  s.residents.all (fun e => !e.2.team.undrained x)
    && s.images.all (fun i => !i.team.undrained x)
    && (s.redEntries.all fun e => !e.awaited)
    && s.farCommands.all fun c => !c.awaited

/-- INVALIDATION_DRAIN (R248): what stores have left modified of host pages is written back, so that they have performed
at .sys (R382); DONE sets, BUSY clears, and IRQV is sent where IRQ asks for it. -/
def execInvalidationDrain (s : State) : Out :=
  concludeEvent (fun s =>
    match s.hub.inval with
    | some x =>
        if !x.delivered || !s.invDrained x then s
        else
          let ctl := s.hub.invctl
          let s := s.writebackHost.1
          let s := { s with hub := { s.hub with
            inval := none
            invctl := ctl ||| BitVec.ofNat 64 invDone } }
          if bit ctl.toNat 23 then s.sendVector (bits ctl.toNat 24 6) else s
    | none => s) s

end Sys2Proof.Machine
end

