-- ==== Sys2Proof/Machine/Migrate.lean ====
section
/-! DEFINITION. Thermal migration (R415, R416, R452, R466). -/

namespace Sys2Proof.Machine

/-! ### Requests (R415) -/

/-- MIGRATION_REQUEST: a core that reads 95 °C or more requests the migration of its resident team. -/
def execMigrationRequest (core : Nat) (s : State) : Out :=
  concludeEvent (fun s =>
    let c := s.core core
    if c.resident && c.migration.isNone && 95 ≤ s.sensor core then
      s.setCore core { c with migration := some ⟨s.now, s.now, false, none⟩ }
    else s) s

/-- The search for a target is repeated; the request is taken if its 200 µs have passed and there is one. -/
def State.retryMove (s : State) (p : Nat) (m : MigRequest) : State :=
  let m := { m with lastTry := s.now }
  if m.since + 200 * microsecond ≤ s.now then s.takeMove p m else s.modCore p fun c => { c with migration := some m }

/-- MIGRATION_RETRY: every 10 µs. -/
def execMigrationRetry (core : Nat) (s : State) : Out :=
  concludeEvent (fun s =>
    match (s.core core).migration with
    | some m =>
        if (s.core core).resident && m.target.isNone && m.lastTry + 10 * microsecond ≤ s.now then s.retryMove core m else s
    | none => s) s

/-- MIGRATION_TIMEOUT: 200 µs after the request, once. -/
def execMigrationTimeout (core : Nat) (s : State) : Out :=
  concludeEvent (fun s =>
    match (s.core core).migration with
    | some m =>
        if (s.core core).resident && m.target.isNone && !m.timedOut && m.since + 200 * microsecond ≤ s.now then
          s.takeMove core { m with timedOut := true }
        else s
    | none => s) s

/-! ### The move (R416) -/

/-- Every access of a stopping team has performed, those aside that wait for a held target (R241, R393). -/
def State.movable (s : State) (p : Nat) : Bool := (List.range (s.team p).width).all fun k => s.quieted p ((s.team p).ctx k)

/-- Steps 1 to 3: HOLD sets, REDs that have passed the old core's port perform, and the team stops. -/
def State.beginMove (s : State) (p : Nat) : State :=
  let l := s.logicalOf p
  let s := s.setRemap l { s.remap l with hold := true }
  let s := (s.redEntries.filter fun e => e.core == some p).foldl State.performRed s
  s.modTeam p Team.stopAll

/-- What names a core by its number names the new one: REDs in merge entries, and messages on their way. -/
def State.renameCore (s : State) (old new : Nat) : State :=
  { s with
    redEntries := s.redEntries.map fun e =>
      { e with members := e.members.map fun m => if m.1 == old then (new, m.2) else m }
    messages := s.messages.map fun x => if x.source == old && x.origin.isNone then { x with source := new } else x }

/-- The remap entries of both cores change in one fabric cycle, and HOLD clears (R416, R452). -/
def State.exchangeRemap (s : State) (p q : Nat) : State :=
  let l := s.logicalOf p
  let k := s.logicalOf q
  (s.setRemap l { s.remap l with phys := q, hold := false }).setRemap k { s.remap k with phys := p }

/-- The team with its commands recorded; their pins stay. -/
def State.movedTeam (s : State) (p : Nat) : Team := (s.team p).recordCommands true

/-- Steps 4 to 7: team, pool and operand memory move core to core; the old core is out of use until it has cooled. -/
def State.finishMove (s : State) (p q : Nat) : State :=
  let s := s.recallMessages (s.team p).age
  let old := s.core p
  let t := s.movedTeam p
  let s := s.exchangeRemap p q
  let s := (s.vacate p).clearCore q
  let s := s.modCore p fun c => { c with hot := true }
  let s := s.modCore q fun c => { c with
    resident := true
    assign := none
    team := t
    lastLaunch := old.lastLaunch
    pool := old.pool
    live := old.live
    opmem := old.opmem
    poison := old.poison
    migration := none }
  s.renameCore p q

/-- MIGRATION (R416): begun once the request is taken, and ended once the team has stopped. -/
def execMigration (core : Nat) (s : State) : Out :=
  concludePlacing (fun s =>
    let c := s.core core
    match c.migration.bind MigRequest.target with
    | none => s
    | some q =>
        if !c.resident || c.team.preemptDue || c.team.swapDue then s
        else
          let s := if (s.remap (s.logicalOf core)).hold then s else s.beginMove core
          if s.movable core then s.finishMove core q else s) s

/-- SENSOR_BELOW_85_C (R416): a core that a team has left hot re-enters its idle FIFO. -/
def execSensorBelow85 (core : Nat) (s : State) : Out :=
  concludePlacing (fun s =>
    if (s.core core).hot && s.sensor core < 85 then (s.modCore core fun c => { c with hot := false }).idleCore core
    else s) s

end Sys2Proof.Machine
end

