-- ==== Sys2Proof/Machine/Power.lean ====
section
/-! DEFINITION. Power and heat: the cap (R30, R417, R418), operating points (R109, R419, R460 to R462), and thermal
limits (R466). -/

namespace Sys2Proof.Machine

/-! ### The power cap (R417, R418, R467) -/

/-- Whether a lease holds. -/
def State.leased (s : State) : Bool := s.now < s.hub.leaseUntil

/-- The cap in force: the lease's, else the floor budget. -/
def State.capNow (s : State) : Nat := if s.leased then s.hub.leaseWatts else s.hub.floor.toNat

/-- Milliseconds left of the lease, rounded up. -/
def State.leaseLeft (s : State) : Nat :=
  if s.leased then (s.hub.leaseUntil - s.now + millisecond - 1) / millisecond else 0

/-- WATTS within 400 and the rated draw. -/
def clampWatts (rated w : Nat) : Nat := min (max w 400) (max rated 400)

/-- The status of a message: 0 accepted, 1 stale, 2 duplicate. -/
def Hub.leaseStatus (h : Hub) (seq : Nat) : Nat :=
  match h.leaseSeq with
  | none => 0
  | some last =>
      let d := (seq + 2 ^ 32 - last % 2 ^ 32) % 2 ^ 32
      if d = 0 then 2 else if d < 2 ^ 31 then 0 else 1

/-- An accepted lease replaces any earlier one; DURMS 0 ends it. -/
def State.acceptLease (s : State) (seq watts durms : Nat) : State :=
  { s with hub := { s.hub with
    leaseSeq := some seq
    leaseWatts := if durms = 0 then 0 else clampWatts s.hub.rated.toNat watts
    leaseUntil := if durms = 0 then 0 else s.now + durms * millisecond } }

/-- LEASE (R418).  It needs no challenge (R467). -/
def execLease (seq : BitVec 32) (watts : BitVec 16) (durms : BitVec 32) (s : State) : Out :=
  concludeEvent (fun s =>
    if !s.hub.booted then s
    else
      let st := s.hub.leaseStatus seq.toNat
      let s := if st = 0 then s.acceptLease seq.toNat watts.toNat durms.toNat else s
      let s := s.post evLEASE 0 srcHub 0 (seq.toNat * 2 ^ 32 + st)
      s.emit (.reply (leBytes 1 st ++ leBytes 2 s.capNow ++ leBytes 4 s.leaseLeft))) s

/-- LEASE_LAPSE (R418): the floor budget applies. -/
def execLeaseLapse (s : State) : Out :=
  concludeEvent (fun s =>
    if s.hub.leaseUntil != 0 && !s.leased then
      { s with hub := { s.hub with leaseUntil := 0, leaseWatts := 0 } }
    else s) s

/-! ### Requests of launches (R108, R419, R462) -/

/-- The contexts of a launch's teams. -/
def State.contextsOf (s : State) (slot : Nat) : List Ctx :=
  let teams := (s.residents.map fun e => e.2.team) ++ s.images.map Image.team
  (teams.filter fun t => t.ofLaunch slot).flatMap fun t => t.ctxs.map Prod.snd

/-- The phases of a launch's contexts, 0 where it has none (R419). -/
def State.phases (s : State) (slot : Nat) : List Nat :=
  let ps := (s.contextsOf slot).map fun c => c.phase.toNat
  if ps.isEmpty then [0] else ps

/-- A launch's request on a rail (R419): the highest of its contexts', each what its latest PHASE found, or before that
what the dispatch found (R108, R217). -/
def State.launchRequest (s : State) (slot : Nat) (l : Launch) (rail : Nat) : Nat :=
  let points := (s.contextsOf slot).map fun c => (c.asked.map PhaseRec.points).getD l.points
  (if points.isEmpty then [l.points] else points).foldl (fun m p => max m (p.getD rail 7)) 0

/-- The highest request of the dispatched launches, if there are any. -/
def State.wanted (s : State) (rail : Nat) : Option Nat :=
  (s.launches.filterMap fun e => e.2.map fun l => s.launchRequest e.1 l rail).max?

/-- Entries that dispatched launches use, noted for the replacement of R462. -/
def State.noteUses (s : State) : State :=
  let keys := s.launches.flatMap fun e => match e.2 with
    | some l => (s.phases e.1).map fun p => (launchKernel l.record, p)
    | none => []
  let used := keys.filterMap fun k => if k.1 = 0 then none else s.hub.lookup k.1 k.2
  { s with hub := { s.hub with optUse := used.foldl (fun t i => tput t i s.now) s.hub.optUse } }

/-- The entry a new key takes, never a pinned one: one not VALID, else the least recently used. -/
def Hub.victimEntry (h : Hub) : Option Nat :=
  match (List.range 1024).find? fun i => !optValid (h.opt i) && !optPin (h.opt i) with
  | some i => some i
  | none =>
      let free := (List.range 1024).filter fun i => !optPin (h.opt i)
      free.foldl (fun (best : Option Nat) i =>
        match best with
        | none => some i
        | some b => if tget 0 h.optUse i < tget 0 h.optUse b then some i else some b) none

def Hub.points (h : Hub) : List Nat := (List.range 4).map fun r => tget 0 h.rails r

/-- An entry after one more measured run: the points of the lowest EDP stay (R462). -/
def learnt (e : Nat) (points : List Nat) (edp : Nat) : W64 :=
  if edp < optEdp e then optWord false (optTrials e + 1) (optKernel e) (optPhase e) points edp
  else optWord false (optTrials e + 1) (optKernel e) (optPhase e) ((List.range 4).map (optPoint e)) (optEdp e)

/-- A dispatched launch of a KERNELID has run a phase for 100 µs or more: one of its contexts is in it for so long, or the
last one it has left was (R462). -/
def State.measured (s : State) (kernel : Nat) (phase : BitVec 8) : Bool :=
  s.launches.any fun e => match e.2 with
    | some l => launchKernel l.record == kernel &&
        (let old (t : Nat) : Bool := t + 100 * microsecond ≤ s.now
         let cs := s.contextsOf e.1
         (phase == 0 && cs.isEmpty && old l.time)
           || cs.any fun c => (c.phase == phase && old ((c.asked.map PhaseRec.since).getD l.time)) || c.phaseDone == some phase)
    | none => false

/-- OPT_TABLE_LEARN (R462): an interval of at least 100 µs of a launch with a KERNELID has been measured. -/
def execOptTableLearn (kernel : BitVec 16) (phase : BitVec 8) (edp : BitVec 16) (s : State) : Out :=
  concludeEvent (fun s =>
    if kernel = 0 || !s.measured kernel.toNat phase then s
    else
      let h := s.hub
      match h.lookup kernel.toNat phase.toNat with
      | some i =>
          if optPin (h.opt i) then s
          else { s with hub := { h with
            optable := tput h.optable i (learnt (h.opt i) h.points edp.toNat)
            optUse := tput h.optUse i s.now } }
      | none =>
          match h.victimEntry with
          | some i => { s with hub := { h with
              optable := tput h.optable i (optWord false 1 kernel.toNat phase.toNat h.points edp.toNat)
              optUse := tput h.optUse i s.now } }
          | none => s) s

/-! ### Rails (R109, R419, R466) -/

/-- Whether a chiplet has a core at 105 °C or more. -/
def State.chipHot (s : State) (chip : Nat) : Bool :=
  (List.range 256).any fun i => 105 ≤ s.sensor (256 * chip + i)

/-- Throttling ends with the readings that caused it. -/
def State.easeThrottle (s : State) : State :=
  if (List.range 16).any s.chipHot then s
  else { s with hub := { s.hub with throttle := 0 } }

/-- The point of a rail before the cap: the highest one requested, lowered by throttling; with no launch dispatched it
stays (R109). -/
def State.railBase (s : State) (rail : Nat) : Nat :=
  match s.wanted rail with
  | none => tget 0 s.hub.rails rail
  | some want => want - s.hub.throttle

/-- RAIL_CHANGE (R109, R419): a rail moves to its point, lowered as the cap in force requires whatever runs (R30). -/
def execRailChange (rail : BitVec 2) (s : State) : Out :=
  concludeEvent (fun s =>
    let s := s.easeThrottle
    let point := s.railBase rail.toNat - Config.capPoints s.capNow rail.toNat s.freeSeed
    let s := s.noteUses.draw
    { s with hub := { s.hub with rails := tput s.hub.rails rail.toNat point } }) s

/-- Every rail runs one point lower. -/
def Hub.lowerRails (h : Hub) : Hub :=
  { h with
    throttle := h.throttle + 1
    rails := (List.range 4).foldl (fun t r => tput t r (tget 0 t r - 1)) h.rails }

/-- THERMAL_THROTTLE (R466): all rails go down one point, and again every 1 ms while a core reads 105 °C or more. -/
def execThermalThrottle (chip : Nat) (s : State) : Out :=
  concludeEvent (fun s =>
    let x := s.chip chip
    if 16 ≤ chip then s
    else if !s.chipHot chip then s.setChip chip { x with throttled := none }
    else
      let due := match x.throttled with
        | some t => decide (t + millisecond ≤ s.now)
        | none => true
      if due then { s.setChip chip { x with throttled := some s.now } with hub := s.hub.lowerRails } else s) s

/-! ### Trips and refresh (R443, R466) -/

/-- A chiplet-fatal fault whose cause the spec does not number; the scan of the tags may fail (R444). -/
def State.tripChip (s : State) (chip : Nat) : State :=
  s.draw.chipletFatal chip ((Config.freeWord s.freeSeed).toNat % 256) (Config.scanFails s.freeSeed)

/-- THERMAL_TRIP: on the measured temperature only (R451). -/
def execThermalTrip (chip : Nat) (s : State) : Out :=
  concludePlacing (fun s =>
    if chip < 16 && (List.range 256).any fun i => 115 ≤ (s.core (256 * chip + i)).temp then s.tripChip chip else s) s

/-- HBM_REFRESH: a stack at 95 °C or more refreshes at twice the rate. -/
def execHbmRefresh (chip : Nat) (s : State) : Out :=
  concludeEvent (fun s =>
    if chip < 16 then s.setChip chip { s.chip chip with refresh := decide (95 ≤ (s.chip chip).stackTemp) } else s) s

/-- HBM_TRIP: a stack at 105 °C. -/
def execHbmTrip (chip : Nat) (s : State) : Out :=
  concludePlacing (fun s => if chip < 16 && 105 ≤ (s.chip chip).stackTemp then s.tripChip chip else s) s

end Sys2Proof.Machine
end

