-- ==== Sys2Proof/Machine/Host.lean ====
section
/-! DEFINITION. The host's registers in BAR0 and BAR4 (R8, R90 to R92, R96, R247, R446, R455), and its reads and writes of
device memory through BAR2 (R91, R390). -/

namespace Sys2Proof.Machine

/-! ### Reading registers -/

/-- LEASE.REMAIN (R96). -/
def State.leaseRemain (s : State) : Nat :=
  if s.hub.leaseMs = 0 || s.ownerNow = 0 then 0
  else (s.hub.leaseStart + s.hub.leaseMs * millisecond - s.now + millisecond - 1) / millisecond

/-- STATE of a queue's front (R97, R101). -/
def Front.code : Front → Nat
  | .empty => 0 | .check => 1 | .waitdep => 2 | .tthold => 3 | .ready => 4

/-- QFRONT.EFFPRIO (R97). -/
def State.frontShown (s : State) (q : Nat) : Nat :=
  let x := s.queueReg q
  match x.front with
  | .ready => s.frontPrio q
  | .empty => 0
  | _ => if x.record.isEmpty then 0 else launchPrio x.record

/-- A register of a launch queue (R97, R98). -/
def State.queueRead (s : State) (q i : Nat) : Nat :=
  let x := s.queueReg q
  match i with
  | 0 => x.base.toNat
  | 1 => x.control.toNat
  | 2 => x.tail.toNat
  | 3 => x.head.toNat
  | 4 =>
      let on := ctlEn x.control.toNat
      x.fseq.toNat * 2 ^ 32 + (if on then s.frontShown q * 2 ^ 8 + x.front.code else 0)
  | _ => 0

/-- A dword of an error bank; banks 50 to 63 read as zero (R441). -/
def State.bankRead (s : State) (n i : Nat) : Nat :=
  if 50 ≤ n then 0
  else
    let b := tget bankEmpty s.hub.banks n
    match i with
    | 0 => b.status.toNat
    | 1 => b.addr.toNat
    | 2 => b.misc.toNat
    | _ => b.time

/-- A dword of an event record. -/
def EventRec.dword (r : EventRec) : Nat → Nat
  | 0 => r.d0.toNat | 1 => r.d1.toNat | 2 => r.d2.toNat | _ => r.d3.toNat

/-- The management registers (R455), those of invalidation (R247), the recorder (R446), injection (R447) and forcing
(R450). -/
def State.manageRead (s : State) (off : Nat) : Nat :=
  let h := s.hub
  match off with
  | 0x2000 => (if h.fatal then 2 ^ 17 else 0) + (if h.ready then 2 ^ 16 else 0) + h.livemask.toNat
  | 0x2010 => h.rootbase.toNat
  | 0x2018 => h.tiercap.toNat
  | 0x2028 => h.pkgid.toNat
  | 0x2030 => h.rated.toNat * 2 ^ 16 + h.floor.toNat
  | 0x2038 => h.optix.toNat
  | 0x2040 => h.opt h.optix.toNat
  | 0x2100 => h.invva.toNat
  | 0x2108 => h.invlen.toNat
  | 0x2110 => h.invctlRead
  | 0x2300 => h.evcount
  | 0x2308 => h.evix.toNat
  | 0x2330 => h.evctl.toNat
  | 0x2400 => h.injection.toNat
  | 0x2500 => (tget 0 h.forces 0).toNat
  | 0x2508 => ((s.sensor (bits (tget 0 h.forces 0).toNat 32 12)) % 256).toNat
  | _ =>
      if 0x2200 ≤ off && off < 0x2290 then (tget 0 h.portst ((off - 0x2200) / 8)).toNat
      else if 0x2310 ≤ off && off < 0x2330 then (s.eventRec h.evix.toNat).dword ((off - 0x2310) / 8)
      else if 0x3000 ≤ off && off < 0x3800 then s.bankRead ((off - 0x3000) / 0x20) (off / 8 % 4)
      else 0

/-- A register of BAR0 as a port reads it (R90, R96, R114). -/
def State.regRead (s : State) (port off : Nat) : Nat :=
  match off with
  | 0x0000 => if s.ownerNow = port + 1 then 1 else 0
  | 0x0008 => s.ownerNow
  | 0x0010 => s.leaseRemain * 2 ^ 16 + s.hub.leaseMs
  | 0x0020 => s.hub.agep.toNat
  | 0x0028 => s.timens
  | 0x1400 => s.hub.sheafQ.base.toNat
  | 0x1408 => s.hub.sheafQ.control.toNat
  | 0x1410 => s.hub.sheafQ.tail.toNat
  | 0x1418 => s.hub.sheafQ.head.toNat
  | _ =>
      if 0x1000 ≤ off && off < 0x1400 then s.queueRead ((off - 0x1000) / 0x40) (off % 0x40 / 8)
      else if 0x2000 ≤ off then s.manageRead off
      else 0

/-- A dword of BAR4: the MSI-X table, then the pending bits (R90). -/
def State.bar4Read (s : State) (port off : Nat) : Nat :=
  if off < 0x400 then (tget 0 s.hub.msixTable (128 * port + off / 8)).toNat
  else if off = 0x400 then
    ((List.range 64).filter fun v => s.hub.msixPending.contains (port + 1, v) || s.hub.msixPending.contains (0, v)).foldl
      (fun n v => n + 2 ^ v) 0
  else 0

/-- Bytes of a run of dwords. -/
def dwordBytes (f : Nat → Nat) (addr n : Nat) : List Byte :=
  (List.range n).map fun i => BitVec.ofNat 8 (f ((addr + i) / 8 * 8) / 2 ^ (8 * ((addr + i) % 8)))

/-! ### Host reads (R91, R390) -/

/-- Bytes at a physical address as a host reads them: all ones outside memory; a poisoned sector's bytes are open. -/
def State.hostBytes (s : State) (pa n : Nat) : List Byte × State :=
  if !(s.isTableMemory pa && s.isTableMemory (pa + n - 1)) then (List.replicate n 0xFF, s)
  else
    let s := s.flushSpot (.mem pa true) n
    let s := s.readSectors pa n .clean
    if s.rangePoison pa n then (freeBytes s.freeSeed n, s.drawBytes n) else (s.physRead pa n, s)

/-- HOST_READ: reads from either port take effect (R92). -/
def execHostRead (port : BitVec 1) (bar : Bar) (addr n : Nat) (s : State) : Out :=
  concludeEvent (fun s =>
    if !s.hub.hostLinks.getLsbD port.toNat then s
    else match bar with
    | .bar0 => s.emit (.readData port.toNat (dwordBytes (s.regRead port.toNat) addr n))
    | .bar4 => s.emit (.readData port.toNat (dwordBytes (s.bar4Read port.toNat) addr n))
    | .bar2 =>
        let (bs, s) := s.hostBytes addr n
        s.emit (.readData port.toNat bs)) s

/-! ### Host writes to memory (R91, R92, R390) -/

/-- HOST_WRITE: only the owner's; one outside memory is dropped and logged. -/
def execHostWrite (port : BitVec 1) (pa : Nat) (bytes : List Byte) (s : State) : Out :=
  concludeEvent (fun s =>
    if !s.hub.hostLinks.getLsbD port.toNat || bytes.isEmpty then s
    else s.byOwner port.toNat pa fun s =>
      if s.isTableMemory pa && s.isTableMemory (pa + bytes.length - 1) then
        s.writeSpot ⟨noAsid, none, false⟩ none (.mem pa true) bytes false
      else s.dropWrite port.toNat pa) s

/-! ### Writes to registers with no behaviour of their own (R8, R9) -/

/-- Writes that have a step of their own. -/
def ownStep (off v : Nat) : Bool :=
  match off with
  | 0x0000 => bit v 0
  | 0x0010 => true
  | 0x0018 => bit v 0
  | 0x1408 => true
  | 0x1410 => true
  | 0x2008 => bit v 0
  | 0x2020 => v % 2 ^ 32 != 0
  | 0x2110 => bit v 16
  | 0x2400 => true
  | 0x2500 => true
  | _ =>
      (0x1000 ≤ off && off < 0x1400 && (off % 0x40 == 0x08 || off % 0x40 == 0x10))
        || (0x3000 ≤ off && off < 0x3800 && off % 0x20 == 0 && bit v 63)

/-- Must-be-zero bits of BAR0's registers. -/
def regMbz (off : Nat) : Nat :=
  match off with
  | 0x0000 => 2 ^ 64 - 2
  | 0x0008 => 2 ^ 64 - 4
  | 0x0018 => 2 ^ 64 - 2
  | 0x0020 => 2 ^ 64 - 2 ^ 32
  | 0x1400 => 2 ^ 64 - 2 ^ 52 + 0xFFF
  | 0x1418 => 2 ^ 64 - 2 ^ 32
  | 0x2008 => 2 ^ 64 - 2
  | 0x2010 => 2 ^ 64 - 2 ^ 52 + (2 ^ 19 - 1)
  | 0x2020 => 2 ^ 64 - 2 ^ 32
  | 0x2028 => 2 ^ 64 - 2 ^ 8
  | 0x2030 => 2 ^ 64 - 2 ^ 32
  | 0x2038 => 2 ^ 64 - 2 ^ 10
  | 0x2040 => 0x3F * 2 ^ 52
  | 0x2100 => 2 ^ 64 - 2 ^ 56 + 0xFFFF
  | 0x2108 => 0xFFFF
  | 0x2330 => 2 ^ 64 - 2 ^ 7
  | _ =>
      if 0x1000 ≤ off && off < 0x1400 then
        match off % 0x40 with
        | 0x00 => 2 ^ 64 - 2 ^ 52 + 0xFFF
        | 0x18 => 2 ^ 64 - 2 ^ 32
        | 0x20 => 0xFFFFF8F0
        | _ => 0
      else 0

/-- Whether PKGID and ROOTBASE may change: no launch is dispatched and no queue is enabled (R455). -/
def State.identityFree (s : State) : Bool :=
  s.launches.all (fun e => e.2.isNone)
    && (List.range 16).all (fun q => !ctlEn (s.queueReg q).control.toNat)
    && !ctlEn s.hub.sheafQ.control.toNat

/-- The field a write sets, its padding cleared. -/
def State.regSet (s : State) (port off value : Nat) : State :=
  let h := s.hub
  let v := value &&& (2 ^ 64 - 1 - regMbz off)
  let w := BitVec.ofNat 64 v
  match off with
  | 0x0020 => { s with hub := { h with agep := BitVec.ofNat 32 (min (max v 100) 100000) } }
  | 0x1400 =>
      if ctlEn h.sheafQ.control.toNat then s.dropWrite port off
      else { s with hub := { h with sheafQ := { h.sheafQ with base := w } } }
  | 0x2010 => if s.identityFree then { s with hub := { h with rootbase := w } } else s.dropWrite port off
  | 0x2028 => if s.identityFree then { s with hub := { h with pkgid := BitVec.ofNat 8 v } } else s.dropWrite port off
  | 0x2030 =>
      { s with hub := { h with floor := BitVec.ofNat 16 (clampWatts h.rated.toNat (v % 2 ^ 16)) } }
  | 0x2038 => { s with hub := { h with optix := w } }
  | 0x2040 => { s with hub := { h with optable := tput h.optable h.optix.toNat w } }
  | 0x2100 => { s with hub := { h with invva := w } }
  | 0x2108 => { s with hub := { h with invlen := w } }
  | 0x2110 => s.writeInvctl port value
  | 0x2308 => { s with hub := { h with evix := w } }
  | 0x2330 => { s with hub := { h with evctl := w } }
  | _ =>
      if 0x1000 ≤ off && off < 0x1400 && off % 0x40 == 0 then
        let q := (off - 0x1000) / 0x40
        let x := s.queueReg q
        if ctlEn x.control.toNat then s.dropWrite port off else s.setQueueReg q { x with base := w }
      else if 0x10000 ≤ off && off < 0x10400 then
        { s with hub := { h with msixTable := tput h.msixTable (128 * port + (off - 0x10000) / 8) w } }
      else s

/-- A launch-queue or sheaf-queue register. -/
def isQueueReg (off : Nat) : Bool := 0x1000 ≤ off && off < 0x1420

/-- REGISTER_WRITE: offsets of BAR0, and from 0x10000 on those of BAR4. -/
def execRegisterWrite (port : BitVec 1) (off : Nat) (value : W64) (s : State) : Out :=
  concludeEvent (fun s =>
    let v := value.toNat
    if !s.hub.hostLinks.getLsbD port.toNat || ownStep off v then s
    else
      let act := fun (s : State) => (s.checkMbz port.toNat off v (regMbz off)).regSet port.toNat off v
      if isQueueReg off then s.byReady port.toNat off act else s.byOwner port.toNat off act) s

/-! ### Registers with steps of their own -/

/-- BANK_CLEAR (R441): a write of 1 to VALID. -/
def execBankClear (port : BitVec 1) (bank : Nat) (s : State) : Out :=
  concludeEvent (fun s => s.byOwner port.toNat (0x3000 + 0x20 * bank) fun s => s.clearBank bank) s

/-- INJECTION_ARM (R447, R448): it replaces a pending request. -/
def execInjectionArm (port : BitVec 1) (value : W64) (s : State) : Out :=
  concludeEvent (fun s => s.byOwner port.toNat 0x2400 fun s =>
    let s := s.checkMbz port.toNat 0x2400 value.toNat (0x7F * 2 ^ 56 + 0xFF * 2 ^ 32)
    { s with hub := { s.hub with
      injection := value &&& 0x80FFFF00FFFFFFFF
      injectOrder := [] } }) s

/-- SENSOR_FORCE (R450, R451). -/
def execSensorForce (port : BitVec 1) (value : W64) (s : State) : Out :=
  concludeEvent (fun s => s.byOwner port.toNat 0x2500 fun s =>
    let s := s.checkMbz port.toNat 0x2500 value.toNat (0x7FFFF * 2 ^ 44 + 0xFFFFFF * 2 ^ 8)
    { s with hub := { s.hub with forces := tput s.hub.forces 0 (value &&& 0x80000FFF000000FF) } }) s

/-! ### Fencing by the host (R464) -/

/-- The fields of FENCECTL, and its must-be-zero bits (R455). -/
def fenceField (v : Nat) : BitVec 16 := BitVec.ofNat 16 v
def unfenceField (v : Nat) : BitVec 16 := BitVec.ofNat 16 (v / 2 ^ 16)
def fencectlMbz : Nat := 2 ^ 64 - 2 ^ 32

/-- FENCECTL_FENCE: the chiplets of a write's FENCE field, each as a chiplet-fatal fault with CAUSE 0, whose scan of the
tags may fail (R444); one already fenced stays so. -/
def execFencectlFence (port : BitVec 1) (value : W64) (s : State) : Out :=
  let v := value.toNat
  concludePlacing (fun s =>
    if fenceField v = 0 then s
    else s.byOwner port.toNat 0x2020 fun s =>
      (List.range 16).foldl (fun s c =>
          if (fenceField v).getLsbD c then s.draw.chipletFatal c 0 (Config.scanFails s.freeSeed) else s)
        (s.checkMbz port.toNat 0x2020 v fencectlMbz)) s

/-- UNFENCE: the bring-up of the fenced chiplets of a write's UNFENCE field begins.  A write with FENCE bits too is
logged, where it is to be, by the step that fences. -/
def execUnfence (port : BitVec 1) (value : W64) (s : State) : Out :=
  let v := value.toNat
  concludeEvent (fun s =>
    let begin := fun (s : State) =>
      { s with hub := { s.hub with unfencing := s.hub.unfencing ||| (unfenceField v &&& s.hub.fencemask) } }
    if unfenceField v = 0 then s
    else if fenceField v = 0 then
      s.byOwner port.toNat 0x2020 fun s => begin (s.checkMbz port.toNat 0x2020 v fencectlMbz)
    else if s.portUp port.toNat && s.ownerNow = port.toNat + 1 then begin s else s) s

/-- The remap entries of a chiplet's cores are the identity (R139). -/
def State.identityRemap (s : State) (chip : Nat) : State :=
  (List.range 256).foldl (fun s i => s.setRemap (256 * chip + i) ⟨true, false, 256 * chip + i⟩) s

/-- A chiplet that has passed its self-test: live, its cores idle.  DESIGN CHOICE (log entry 82): its idle FIFO lists them
in ascending number. -/
def State.startChip (s : State) (chip : Nat) : State :=
  let idle := ((List.range 256).map fun i => 256 * chip + i).filter fun p => !(s.core p).hot
  s.setChip chip { s.chip chip with live := true, fifo := idle, stlb := [], throttled := none }

/-- UNFENCE_COMPLETE. -/
def execUnfenceComplete (chip : Nat) (passed : Bool) (s : State) : Out :=
  concludePlacing (fun s =>
    if 16 ≤ chip || !s.hub.unfencing.getLsbD chip then s
    else
      let one := 1#16 <<< chip
      let s := { s with hub := { s.hub with unfencing := s.hub.unfencing &&& ~~~one } }
      if !passed then s
      else
        let s := (s.identityRemap chip).startChip chip
        { s with hub := { s.hub with
          livemask := s.hub.livemask ||| one
          fencemask := s.hub.fencemask &&& ~~~one } }) s

end Sys2Proof.Machine
end

