-- ==== Sys2Proof/Machine/LockOps.lean ====
section
/-! DEFINITION. LOCK and UNLOCK, their requests at the home manager (R368 to R373). -/

namespace Sys2Proof.Machine

def lockName (t : Team) (domain : Nat) (level : LockLevel) (w : W64) : LockName :=
  ⟨t.asid.toNat, domain, level, normWord level w⟩

/-- LOCK (R369). -/
def execLock (mode : LockMode) (domain : BitVec 2) (level : LockLevel) (a : Src) (s : State) : Out :=
  concludeSyllable (do
    let w ← readSrc a
    let tag ← freshTag
    pushAccess .store (.lock mode domain.toNat level w tag) (some .pkg) none [] [] false []
    defer (.lq (.pending tag))) s

/-- UNLOCK (R373). -/
def execUnlock (domain : BitVec 2) (level : LockLevel) (a : Src) (s : State) : Out :=
  concludeSyllable (do
    let w ← readSrc a
    raisePending
    pushAccess .store (.unlock domain.toNat level w) none (some .pkg) [] [] false []) s

/-- LOCK_REQUEST (R370): the LOCK at the head of a store queue reaches its home manager.  In a later run of a
pair it is granted without one (R373). -/
def execLockRequest (r : CtxRef) (s : State) : Out :=
  concludeEvent (fun s =>
    let c := s.ctx r.core r.ctx
    match c.storeQ with
    | a :: _ =>
        (match a.kind with
         | .lock mode domain level w tag =>
             let t := s.team r.core
             if a.sent || !(s.core r.core).resident || !s.mayPerform r.core c a then s
             else if t.suppressed then s.lockDone r.core r.ctx tag (lockStatus 0 (some mode))
             else
               let s := s.modCtx r.core r.ctx fun c => { c with
                 storeQ := c.storeQ.map fun x => if x.seq == a.seq then { x with sent := true } else x }
               (match s.lockRequest t.age r.ctx tag (lockName t domain level w) mode with
                | (s, some status) => s.lockDone r.core r.ctx tag status
                | (s, none) => s)
         | _ => s)
    | [] => s) s

/-- LOCK_RELEASE (R373): the UNLOCK at the head of a store queue reaches its home manager; a refused one delivers
LOCKHIER as a store fault. -/
def execLockRelease (r : CtxRef) (s : State) : Out :=
  concludeEvent (fun s =>
    let c := s.ctx r.core r.ctx
    match c.storeQ with
    | a :: _ =>
        (match a.kind with
         | .unlock domain level w =>
             let t := s.team r.core
             if !(s.core r.core).resident || !s.mayPerform r.core c a then s
             else
               let s := s.releaseAt r.core r.ctx a.release
               let s := s.popStore r.core r.ctx a.seq
               if t.suppressed then s
               else
                 (match s.lockRelease t.age (lockName t domain level w) with
                  | (s, true) => s.storeFault r.core r.ctx causeLOCKHIER w
                  | (s, false) => s)
         | _ => s)
    | [] => s) s

end Sys2Proof.Machine
end

