-- ==== Sys2Proof/Machine/Crypto.lean ====
section
/-! DEFINITION. SHA-384 and ECDSA over P-384, which R456 to R458 name.  PRESUMED (log entry 108): the definitions are those
of FIPS 180-4 and FIPS 186-5, which the spec does not reproduce. -/

namespace Sys2Proof

/-! ### SHA-384 -/

/-- Round constants 0 to 39 and 40 to 79: 64 bits of the cube roots of the first 80 primes. -/
def shaConstsLow : List (BitVec 64) := [
  0x428a2f98d728ae22, 0x7137449123ef65cd, 0xb5c0fbcfec4d3b2f, 0xe9b5dba58189dbbc,
  0x3956c25bf348b538, 0x59f111f1b605d019, 0x923f82a4af194f9b, 0xab1c5ed5da6d8118,
  0xd807aa98a3030242, 0x12835b0145706fbe, 0x243185be4ee4b28c, 0x550c7dc3d5ffb4e2,
  0x72be5d74f27b896f, 0x80deb1fe3b1696b1, 0x9bdc06a725c71235, 0xc19bf174cf692694,
  0xe49b69c19ef14ad2, 0xefbe4786384f25e3, 0x0fc19dc68b8cd5b5, 0x240ca1cc77ac9c65,
  0x2de92c6f592b0275, 0x4a7484aa6ea6e483, 0x5cb0a9dcbd41fbd4, 0x76f988da831153b5,
  0x983e5152ee66dfab, 0xa831c66d2db43210, 0xb00327c898fb213f, 0xbf597fc7beef0ee4,
  0xc6e00bf33da88fc2, 0xd5a79147930aa725, 0x06ca6351e003826f, 0x142929670a0e6e70,
  0x27b70a8546d22ffc, 0x2e1b21385c26c926, 0x4d2c6dfc5ac42aed, 0x53380d139d95b3df,
  0x650a73548baf63de, 0x766a0abb3c77b2a8, 0x81c2c92e47edaee6, 0x92722c851482353b]

def shaConstsHigh : List (BitVec 64) := [
  0xa2bfe8a14cf10364, 0xa81a664bbc423001, 0xc24b8b70d0f89791, 0xc76c51a30654be30,
  0xd192e819d6ef5218, 0xd69906245565a910, 0xf40e35855771202a, 0x106aa07032bbd1b8,
  0x19a4c116b8d2d0c8, 0x1e376c085141ab53, 0x2748774cdf8eeb99, 0x34b0bcb5e19b48a8,
  0x391c0cb3c5c95a63, 0x4ed8aa4ae3418acb, 0x5b9cca4f7763e373, 0x682e6ff3d6b2b8a3,
  0x748f82ee5defb2fc, 0x78a5636f43172f60, 0x84c87814a1f0ab72, 0x8cc702081a6439ec,
  0x90befffa23631e28, 0xa4506cebde82bde9, 0xbef9a3f7b2c67915, 0xc67178f2e372532b,
  0xca273eceea26619c, 0xd186b8c721c0c207, 0xeada7dd6cde0eb1e, 0xf57d4f7fee6ed178,
  0x06f067aa72176fba, 0x0a637dc5a2c898a6, 0x113f9804bef90dae, 0x1b710b35131c471b,
  0x28db77f523047d84, 0x32caab7b40c72493, 0x3c9ebe0a15c9bebc, 0x431d67c49c100d4c,
  0x4cc5d4becb3e42b6, 0x597f299cfc657e2a, 0x5fcb6fab3ad6faec, 0x6c44198c4a475817]

/-- The initial hash value: 64 bits of the square roots of the ninth to sixteenth primes. -/
def shaInit : List (BitVec 64) := [
  0xcbbb9d5dc1059ed8, 0x629a292a367cd507, 0x9159015a3070dd17, 0x152fecd8f70e5939,
  0x67332667ffc00b31, 0x8eb44a8768581511, 0xdb0c2e0d64f98fa7, 0x47b5481dbefa4fa4]

/-- Bytes as a number, the first most significant. -/
def beNat (bs : List Byte) : Nat := bs.foldl (fun n b => 256 * n + b.toNat) 0

/-- The n low bytes of a number, the most significant first. -/
def beBytes (n v : Nat) : List Byte := (List.range n).map fun i => BitVec.ofNat 8 (v / 256 ^ (n - 1 - i))

/-- A message padded to whole blocks of 128 bytes. -/
def shaPad (m : List Byte) : List Byte :=
  m ++ [0x80] ++ List.replicate ((239 - m.length % 128) % 128) 0 ++ beBytes 16 (8 * m.length)

/-- Words of a schedule, newest first: n more after the sixteen of the block. -/
def shaExtend : Nat → List (BitVec 64) → List (BitVec 64)
  | 0, ws => ws
  | n + 1, ws =>
      let a := ws.getD 14 0
      let b := ws.getD 1 0
      let s0 := a.rotateRight 1 ^^^ a.rotateRight 8 ^^^ (a >>> 7)
      let s1 := b.rotateRight 19 ^^^ b.rotateRight 61 ^^^ (b >>> 6)
      shaExtend n ((ws.getD 15 0 + s0 + ws.getD 6 0 + s1) :: ws)

/-- The eight working variables. -/
structure ShaState where
  a : BitVec 64
  b : BitVec 64
  c : BitVec 64
  d : BitVec 64
  e : BitVec 64
  f : BitVec 64
  g : BitVec 64
  h : BitVec 64

/-- One round with its constant and word. -/
def ShaState.round (x : ShaState) (k : BitVec 64 × BitVec 64) : ShaState :=
  let s1 := x.e.rotateRight 14 ^^^ x.e.rotateRight 18 ^^^ x.e.rotateRight 41
  let ch := (x.e &&& x.f) ^^^ (~~~x.e &&& x.g)
  let t1 := x.h + s1 + ch + k.1 + k.2
  let s0 := x.a.rotateRight 28 ^^^ x.a.rotateRight 34 ^^^ x.a.rotateRight 39
  let maj := (x.a &&& x.b) ^^^ (x.a &&& x.c) ^^^ (x.b &&& x.c)
  ⟨t1 + (s0 + maj), x.a, x.b, x.c, x.d + t1, x.e, x.f, x.g⟩

def ShaState.add (x y : ShaState) : ShaState :=
  ⟨x.a + y.a, x.b + y.b, x.c + y.c, x.d + y.d, x.e + y.e, x.f + y.f, x.g + y.g, x.h + y.h⟩

/-- A block of 128 bytes is taken in. -/
def ShaState.block (x : ShaState) (bs : List Byte) : ShaState :=
  let ws := (List.range 16).map fun i => BitVec.ofNat 64 (beNat ((bs.drop (8 * i)).take 8))
  let ks := shaConstsLow ++ shaConstsHigh
  ((ks.zip (shaExtend 64 ws.reverse).reverse).foldl ShaState.round x).add x

def ShaState.start : ShaState :=
  let h (i : Nat) : BitVec 64 := shaInit.getD i 0
  ⟨h 0, h 1, h 2, h 3, h 4, h 5, h 6, h 7⟩

/-- Blocks in turn. -/
def ShaState.blocks : Nat → List Byte → ShaState → ShaState
  | 0, _, x => x
  | n + 1, bs, x => ShaState.blocks n (bs.drop 128) (x.block (bs.take 128))

/-- The SHA-384 digest of bytes: 48 bytes. -/
def sha384 (m : List Byte) : List Byte :=
  let p := shaPad m
  let x := ShaState.start.blocks (p.length / 128) p
  [x.a, x.b, x.c, x.d, x.e, x.f].flatMap fun w => beBytes 8 w.toNat

/-! ### ECDSA over P-384 -/

def p384 : Nat := 0xfffffffffffffffffffffffffffffffffffffffffffffffffffffffffffffffeffffffff0000000000000000ffffffff
def p384b : Nat := 0xb3312fa7e23ee7e4988e056be3f82d19181d9c6efe8141120314088f5013875ac656398d8a2ed19d2a85c8edd3ec2aef
def p384n : Nat := 0xffffffffffffffffffffffffffffffffffffffffffffffffc7634d81f4372ddf581a0db248b0a77aecec196accc52973
def p384gx : Nat := 0xaa87ca22be8b05378eb1c71ef320ad746e1d3b628ba79b9859f741e082542a385502f25dbf55296c3a545e3872760ab7
def p384gy : Nat := 0x3617de4a96262c6f5d9e98bf9292dc29f8f41dbd289a147ce9da3113b5f0b8c00a60b1ce1d7e819d7a431d7c90ea0e5f

/-- b to the power e modulo m, by squaring; `fuel` bounds the bits of e. -/
def powMod (m : Nat) : Nat → Nat → Nat → Nat
  | 0, _, _ => 1
  | fuel + 1, b, e =>
      if e = 0 then 1
      else
        let h := powMod m fuel (b * b % m) (e / 2)
        if e % 2 = 1 then b * h % m else h

/-- The inverse modulo a prime of at most 384 bits. -/
def invMod (m a : Nat) : Nat := powMod m 384 (a % m) (m - 2)

/-- A point in Jacobian coordinates; z = 0 is the point at infinity. -/
structure Jac where
  x : Nat
  y : Nat
  z : Nat

def Jac.inf : Jac := ⟨1, 1, 0⟩

def subMod (a b : Nat) : Nat := (a + p384 - b % p384) % p384

/-- Twice a point of a curve with a = -3. -/
def Jac.double (q : Jac) : Jac :=
  if q.z = 0 || q.y = 0 then Jac.inf
  else
    let d := q.z * q.z % p384
    let g := q.y * q.y % p384
    let b := q.x * g % p384
    let a := 3 * (subMod q.x d * (q.x + d)) % p384
    let x := subMod (a * a) (8 * b)
    let z := subMod (subMod ((q.y + q.z) * (q.y + q.z)) g) d
    ⟨x, subMod (a * subMod (4 * b) x) (8 * (g * g)), z⟩

/-- The sum of two points. -/
def Jac.add (q r : Jac) : Jac :=
  if q.z = 0 then r
  else if r.z = 0 then q
  else
    let zq := q.z * q.z % p384
    let zr := r.z * r.z % p384
    let u := q.x * zr % p384
    let v := r.x * zq % p384
    let s := q.y * zr % p384 * r.z % p384
    let t := r.y * zq % p384 * q.z % p384
    if u = v then (if s = t then q.double else Jac.inf)
    else
      let h := subMod v u
      let h2 := h * h % p384
      let h3 := h2 * h % p384
      let w := subMod t s
      let x := subMod (subMod (w * w) h3) (2 * (u * h2))
      ⟨x, subMod (w * subMod (u * h2) x) (s * h3), q.z * r.z % p384 * h % p384⟩

/-- n times a point; `fuel` bounds the bits of n. -/
def Jac.times : Nat → Nat → Jac → Jac
  | 0, _, _ => Jac.inf
  | fuel + 1, n, q =>
      if n = 0 then Jac.inf
      else
        let h := (Jac.times fuel (n / 2) q).double
        if n % 2 = 1 then h.add q else h

def Jac.base : Jac := ⟨p384gx, p384gy, 1⟩

/-- The affine x coordinate. -/
def Jac.affineX (q : Jac) : Nat := q.x * invMod p384 (q.z * q.z % p384) % p384

/-- Whether an affine point lies on the curve. -/
def onP384 (x y : Nat) : Bool := x < p384 && y < p384 && y * y % p384 == subMod (x * x * x + p384b) (3 * x)

/-- Whether a signature (r, s) over a digest verifies under a public point. -/
def ecdsaVerifies (x y r s digest : Nat) : Bool :=
  let w := invMod p384n s
  let q := (Jac.times 384 (digest * w % p384n) Jac.base).add (Jac.times 384 (r * w % p384n) ⟨x, y, 1⟩)
  onP384 x y && 1 ≤ r && r < p384n && 1 ≤ s && s < p384n && q.z != 0 && q.affineX % p384n == r

/-- Whether a signature of 96 bytes over a message verifies under a public key of 96 bytes, all big-endian. -/
def signatureOk (key sig msg : List Byte) : Bool :=
  key.length == 96 && sig.length == 96 &&
    ecdsaVerifies (beNat (key.take 48)) (beNat (key.drop 48)) (beNat (sig.take 48)) (beNat (sig.drop 48)) (beNat (sha384 msg))

/-- The signature of a digest under a private key with a nonce. -/
def ecdsaSign (d k digest : Nat) : Nat × Nat :=
  let r := (Jac.times 384 k Jac.base).affineX % p384n
  (r, invMod p384n k * (digest + r * d) % p384n)

/-- A signature of 96 bytes over a message. -/
def signWith (d k : Nat) (msg : List Byte) : List Byte :=
  let s := ecdsaSign d k (beNat (sha384 msg))
  beBytes 48 s.1 ++ beBytes 48 s.2

end Sys2Proof
end

