-- ==== Sys2Proof/Machine/Move.lean ====
section
/-! DEFINITION. What moves next: a cluster that issues, a step of the device, or the surroundings; and the
mover where the list names none. -/

namespace Sys2Proof.Machine

/-- A step of the device: an instruction that no cluster executes. -/
def isDeviceStep (i : Instr) : Bool := (clustersOf i).isEmpty

/-- Remove an element by position. -/
def dropAt {α : Type} : List α → Nat → List α
  | [], _ => []
  | _ :: xs, 0 => xs
  | x :: xs, n + 1 => x :: dropAt xs n

/-- Device time passes: `n` units of 1/7.2 GHz (R7, R27, R460). -/
def State.tick (s : State) (n : Nat) : State :=
  { s with now := s.now + n, cycleAcc := s.cycleAcc + n * s.clock }

/-- Time passes for the whole machine: what has begun or ended to wait for a core, or for positions, is noted at the moment
at which it did (R121, R125), what ageing brings too. -/
def State.pass (s : State) (n : Nat) : State := (s.noteWaits.tick n).noteWaits

/-- Set a bit of a two-bit register. -/
def setPort (x : BitVec 2) (port : Nat) (on : Bool) : BitVec 2 :=
  if on then x ||| (1#2 <<< port) else x &&& ~~~(1#2 <<< port)

/-- A message of the management path needs firmware, and most need that their requester has completed SPDM CHALLENGE:
without it status 3. -/
def State.managed (s : State) (f : State → State) : State :=
  if !s.hub.booted then s
  else if s.hub.trusted then f s
  else s.emit (.reply [3])

/-- A reserved management command is answered with status 2 and has no effect (R467); the others are steps.  DESIGN CHOICE
(log entry 105): a requester without a completed CHALLENGE is answered with status 3 first. -/
def State.reservedCommand (s : State) (code : BitVec 8) : State :=
  if 7 ≤ code.toNat then s.managed fun s => s.emit (.reply [2]) else s

/-- What the surroundings do (log entry 2). -/
def State.env (s : State) : EnvAct → State
  | .tick n => s.pass n
  | .evictL1 p w => s.modCore p fun c => { c with l1 := tdel c.l1 w }
  | .evictSector pa =>
      match tfind s.hostSectors (sectorOf pa) with
      | some h => if h.dirty = 0 then s.evictSector pa else s
      | none =>
          if tfind s.l2 (sectorOf pa) = some false then s.evictSector pa else s
  | .evictTlb p which i =>
      match which with
      | 0 => s.modCore p fun c => { c with itlb := dropAt c.itlb i }
      | 1 => s.modCore p fun c => { c with dtlb := dropAt c.dtlb i }
      | _ => s.setChip p { s.chip p with stlb := dropAt (s.chip p).stlb i }
  | .setTemp p t => s.modCore p fun c => { c with temp := t }
  | .setStackTemp c t => s.setChip c { s.chip c with stackTemp := t }
  | .hostLinkDown port => { s with hub := { s.hub with hostLinks := setPort s.hub.hostLinks port false } }
  | .atomicEnable port on => { s with hub := { s.hub with atomics := setPort s.hub.atomics port on } }
  | .idleCore p => s.idleCore p
  | .management code => s.reservedCommand code
  | .requester r => { s with hub := { s.hub with requester := r } }
  | .hostMemory pa bs =>
      if isHost pa && isHost (pa + bs.length - 1) then { s with mem := Mem.write s.mem pa bs }.storeMarks pa bs.length false else s
  | .sramError bank ue addr =>
      let s := s.sramError bank ue addr
      if bank = 48 && ue then s.deviceFatal evUE else s
  | .sliceUe chip addr scanFails =>
      if 16 ≤ chip then s else (s.sramError (32 + chip) true addr).chipletFatal chip evUE scanFails
  | .hbmFlips pa f => s.flipBits pa f
  | .poolUe p a =>
      if 4096 ≤ p then s
      else (s.modCore p fun c => { c with poison := markSectors c.poison a 1 true }).sramError (32 + chipOf p) true a

/-- Elements of a list from a place on, then those before it. -/
def fromPlace {α : Type} (xs : List α) (n : Nat) : List α := xs.drop (n % max 1 xs.length) ++ xs.take (n % max 1 xs.length)

/-- What an attempt to issue comes to: 2 where a syllable issues or a cause is taken, 1 where a stall is marked for the
first time, 0 where nothing happens (R188, R192). -/
def State.attempt (s : State) (run : Run) (p k : Nat) (cl : Cluster) : Nat :=
  match issueAt run s p k cl with
  | .next t =>
      let c := s.ctx p k
      let d := t.ctx p k
      if !(t.core p).resident || d.issued != c.issued || d.halted != c.halted || d.trapDue != c.trapDue
          || d.saved.isSome != c.saved.isSome then 2
      else if (Ctx.cluster d cl).status != (Ctx.cluster c cl).status then 1 else 0
  | _ => 2

/-- The context from which a cluster issues next: the first that has a syllable ready, after the one it issued from last
(R24); where none has, one whose stall is to be marked. -/
def State.nextCtx (s : State) (run : Run) (p : Nat) (cl : Cluster) : Option Nat :=
  let t := s.team p
  let ks := (fromPlace (List.range t.width) (tget 0 t.served (Cluster.index cl) + 1)).map fun k => (k, s.attempt run p k cl)
  ((ks.find? fun e => e.2 == 2).or (ks.find? fun e => e.2 == 1)).map Prod.fst

/-- What the default mover lets issue: cores and clusters take turns with time, and a cluster takes its team's contexts
by round robin (R24). -/
def State.focus (s : State) (run : Run) : Option (Nat × Nat × Cluster) :=
  (fromPlace s.residents (s.now / 8)).findSome? fun e =>
    (fromPlace Cluster.all (s.now / 2)).findSome? fun cl => (s.nextCtx run e.1 cl).map fun k => (e.1, k, cl)

/-- The step that performs the head of a store queue. -/
def performStep (r : CtxRef) (a : Access) : Instr :=
  match a.kind with
  | .lock .. => .lockRequest r
  | .unlock .. => .lockRelease r
  | .bsig _ => .bsigArrival [r]
  | .evsig .. => .evsigArrival r
  | _ => .accessPerform r .store false .clean

/-- The step that ends what a cluster of a context waits for. -/
def waitStep (r : CtxRef) : WaitFor → List Instr
  | .ringFilled .. | .ringFree .. => [.rwaitEnd r]
  | .event .. => [.evwaitEnd r]
  | .barrier .. => [.bwaitEnd r]
  | .streams _ => [.mwaitEnd r]
  | .interrupt => [.waitiEnd r]
  | .csr n v _ =>
      if n = 0x103 then [.codesetWrite r v]
      else if 0x1C0 ≤ n && n ≤ 0x1C3 then [.lkmtxWrite r (BitVec.ofNat 2 (n - 0x1C0)) v]
      else if v.getLsbD 8 then [.tctlRequeue r ⟨[]⟩]
      else [.tctlFatal r (BitVec.ofNat 8 v.toNat)]
  | .enqRoom .. => [.enqAppend r]
  | .sheafRoom .. => [.sheafSubmit r]
  | .streamRoom _ => [.streamAppend r]
  | .halt | .eret => []

/-- Steps that a context's state calls for. -/
def State.ctxSteps (r : CtxRef) (c : Ctx) : List Instr :=
  (if c.loadQ.isEmpty then [] else [.accessPerform r .load false .clean])
    ++ (match c.nextStore with | some a => [performStep r a] | none => [])
    ++ (if c.faultReports.isEmpty then [] else [.storeFaultReport r])
    ++ (if c.trapDue.isSome then [.trapEntry r] else [])
    ++ Cluster.all.flatMap fun cl => match (Ctx.cluster c cl).status with
      | .waiting w _ => waitStep r w
      | _ => []

/-- Steps of a core's engine queue. -/
def queueSteps (p q : Nat) (e : EngineQueue) : List Instr :=
  (if e.cmds.isEmpty then []
    else [.commandStart p q, .copy p q none, .fill p q none, .convert p q none, .gather p q none, .scatter p q none,
      .encode p q none, .a2a p q, .commandRetire p q])
    ++ if e.act then [.chainFetch p q] else []

/-- Steps of a core's sequencer. -/
def streamSteps (p : Nat) (t : Team) : List Instr :=
  if t.streams.isEmpty then []
  else [.streamStart p, .recordFetch p, .mma p, .mmaz p, .maddz p, .mscl p, .mconv p, .streamComplete p]

/-- Steps that end a team's work or move it. -/
def teamSteps (p : Nat) (c : Core) : List Instr :=
  (if !c.team.woundsDue.isEmpty then [.wound p ⟨[]⟩] else [])
    ++ (match c.team.commit with | .done _ => [.commitWindowExpiry p] | .none => [])
    ++ (if c.team.persist then [.persistentSwap p] else [])
    ++ (if c.team.preemptDue then [.walkerPreempt (chipOf p) ⟨[]⟩] else [])
    ++ (if c.migration.isSome then [.migrationRetry p, .migrationTimeout p, .migration p] else [])
    ++ match c.team.work with
      | .launch slot plot _ =>
          if c.team.ctxs.all fun e => e.2.halted then
            [if c.team.pairRun = 0 then .plotRetire p else .pairCompare slot plot]
          else []
      | .sheaf id task tile => [.returnArrival id task tile]

/-- Steps that a resident core's state calls for. -/
def coreSteps (p : Nat) (c : Core) : List Instr :=
  (c.team.ctxs.flatMap fun e => State.ctxSteps ⟨p, e.1⟩ e.2)
    ++ (c.team.queues.flatMap fun e => queueSteps p e.1 e.2)
    ++ streamSteps p c.team
    ++ teamSteps p c

/-- Steps of the launch table: completions, elections, reissues, sorts, hand-outs and steals. -/
def launchSteps (slot : Nat) (l : Launch) : List Instr :=
  [.launchComplete slot]
    ++ (if l.electing then [.election slot] else [])
    ++ (((List.range 16).filter fun c => l.toGlean.getLsbD c).map Instr.gleaner)
    ++ (if (l.record.getD 0x30 0).toNat / 4 % 4 = 3 then [.costSort slot l.segments.length] else [])
    ++ (l.ranges.map fun (r : Range) => .coreHandout r.chip)
    ++ (((List.range 16).filter fun c => l.chips.getLsbD c).map fun c => .steal c slot)

/-- Steps of the hub and the walkers. -/
def State.hubSteps (s : State) : List Instr :=
  (((List.range 16).filter fun c => (s.chip c).live && s.overQuarantined c).map fun c =>
      .chipletFatal c (BitVec.ofNat 8 (Config.freeWord s.freeSeed).toNat) false)
    ++ (if s.redEntries.isEmpty then [] else [.redEntryPerform 0])
    ++ (if s.messages.isEmpty then [] else [.a2aDelivery 0])
    ++ (s.hub.queues.flatMap fun (e : Nat × LaunchQueue) => match e.2.front with
      | .check => [.launchCheck e.1]
      | .waitdep => [.waitdepRecheck]
      | .ready => [.dispatch]
      | _ => [])
    ++ (s.cores.flatMap fun (e : Nat × Core) => e.2.encodes.map fun x => .encode e.1 x.queue none)
    ++ (s.cores.flatMap fun (e : Nat × Core) => match e.2.assign with
      | some a => [if a.resume then .teamResume e.1 else .plotStart e.1]
      | none => [])
    ++ (s.launches.flatMap fun (e : Nat × Option Launch) => match e.2 with
      | some l => launchSteps e.1 l
      | none => [])
    ++ (if s.hub.sheafQ.posts.isEmpty then [] else [.sheafTake])
    ++ (s.sheaves.flatMap fun (x : Sheaf) => match x.phase with
      | .waiting | .placed => [.sheafSplit x.id]
      | _ => .sheafTimeout x.id :: x.tasks.map fun t => .coreHandout t.chip)
    ++ if s.hub.inval.isSome then [.invalidationDelivery, .invalidationDrain] else []

/-- Steps of the device that the state calls for; one that is not ready yet changes nothing. -/
def State.dueSteps (s : State) : List Instr :=
  (s.residents.flatMap fun e => coreSteps e.1 e.2) ++ s.hubSteps

/-- The mover where the list names none (log entry 2): the steps due take turns with issue. -/
def State.defaultMover (s : State) (run : Run) : Mover :=
  let due := s.dueSteps
  match s.now % 2, due[s.now / 2 % due.length]?, s.focus run with
  | 0, some i, _ => .event i
  | _, _, some (p, k, cl) => .issue p k cl
  | _, some i, none => .event i
  | _, none, none => .env (.tick 1)

/-- One move of the machine. -/
def moveWith (run : Run) (m : Mover) (s : State) : Host.Outcome State Fault Refusal :=
  match m with
  | .issue p k cl => issueAt run s p k cl
  | .event i => if isDeviceStep i then run i s else .fault .badInput
  | .env a => .next (s.env a)

/-- The next move: the first of the list, else the default one, with which a unit of time passes. -/
def nextMove (run : Run) (s : State) : Host.Outcome State Fault Refusal :=
  match s.turn with
  | m :: ms => moveWith run m { s with turn := ms }
  | [] => moveWith run (s.defaultMover run) (s.pass 1)

/-! ### Placing one syllable where the next step fetches it -/

/-- The cluster whose slot holds a syllable placed for the next step. -/
def placeCluster (i : Instr) : Cluster :=
  match clustersOf i with
  | cl :: _ => cl
  | [] => .c

/-- The four slots with a word in one of them. -/
def placedBundle (cl : Cluster) (w : W64) : List Byte :=
  Cluster.all.flatMap fun x => if x = cl then leBytes 8 w.toNat else leBytes 8 0

/-- A page that maps the low 64 KiB onto itself with every right. -/
def placedPage (asid : Nat) : TlbEntry := ⟨asid, 0, 16, 0, 31⟩

/-- A context whose cluster stands at address 0 with a bundle or, for JOIN, a stream syllable there. -/
def placeCtx (c : Ctx) (i : Option Instr) (cl : Cluster) (w : W64) : Ctx :=
  let join := match i with | some (.join _) => true | _ => false
  let late := (i.map isLate).getD false
  let c := { c.lockstepAt 0 with
    halted := false
    trapDue := none
    pending := []
    dbgpc := 0
    code := Mem.write c.code 0 (placedBundle cl w) }
  if join then
    { c with
      apart := true
      a := { c.a with status := .resting }
      v := { c.v with status := .resting }
      m := { c.m with status := .resting } }
  else if late then
    { c with a := { c.a with pc := 32 }, v := { c.v with pc := 32 }, m := { c.m with pc := 32 } }
  else c

/-- Put the bits of one syllable where the next step fetches: on core 0, context 0, of a resident team, and
name that issue as the next move. -/
def State.placeWord (s : State) (w : W64) : State :=
  let i := (decodeWord w).toOption.map Syllable.op
  let cl := (i.map placeCluster).getD .c
  let t := s.team 0
  let t := { t with vregs := 16, width := max t.width 1, preemptDue := false, swapDue := false, yielded := false }
  let t := t.setCtx 0 (placeCtx (t.ctx 0) i cl w)
  let s := s.modCore 0 fun c => { c with
    resident := true
    team := t
    migration := none
    itlb := [placedPage t.asid.toNat] }
  { s with turn := [.issue 0 0 cl], issue := Issue.idle }

end Sys2Proof.Machine
end

