-- ==== Sys2Proof/Machine/Manage.lean ====
section
/-! DEFINITION. Resets and bring-up (R453, R454), firmware and attestation (R456 to R458), fabric ports and links (R17,
R465), the management path (R467), and arrivals through the fabric window (R286, R287). -/

namespace Sys2Proof.Machine

/-! ### Resets (R453) -/

/-- Cells of host memory, which is no part of the device. -/
def hostCells (m : Mem) : Mem := m.filter fun e => decide (2 ^ 51 ≤ e.1)

/-- A cold reset: all state clears but what is no state of the logic: host memory, flash, fuses and stack temperatures; the
readings of the cores are 0 until they are next measured (R450); and
the model's own list of movers, draws and what has been sent. -/
def State.coldReset (s : State) : State :=
  { State.reset with
    turn := s.turn
    freeSeed := s.freeSeed
    outbox := s.outbox
    mem := hostCells s.mem
    chips := s.chips.map fun (e : Nat × Chip) => (e.1, { Chip.reset with stackTemp := e.2.stackTemp })
    hub := { Hub.reset with
      slotA := s.hub.slotA
      slotB := s.hub.slotB
      bootSlot := s.hub.nextSlot.getD s.hub.bootSlot
      fuseCount := s.hub.fuseCount } }

/-- COLD_RESET. -/
def execColdReset (s : State) : Out := concludeEvent State.coldReset s

/-- What the slices held modified is lost with them: the bytes of those sectors in memory are open. -/
def State.loseModified (s : State) : State :=
  let lost := (s.l2.filter fun e => e.2).map Prod.fst
  lost.foldl (fun s x => { s with mem := Mem.write s.mem (32 * x) (freeBytes s.freeSeed 32) }.drawBytes 32) s

/-- Registers of the hub after a warm reset: those of R453's list stay, and what has no reset. -/
def Hub.warm (h : Hub) : Hub :=
  { Hub.reset with
    owner := h.owner
    leaseMs := h.leaseMs
    leaseStart := h.leaseStart
    agep := h.agep
    evcount := h.evcount
    evring := h.evring
    evix := h.evix
    evctl := h.evctl
    banks := h.banks
    bankCycles := h.bankCycles
    heldInReset := h.heldInReset
    requester := h.requester
    optable := h.optable
    optUse := h.optUse
    tiercap := h.tiercap
    ageCounter := h.ageCounter
    booted := h.booted
    slotA := h.slotA
    slotB := h.slotB
    bootSlot := h.bootSlot
    nextSlot := h.nextSlot
    fuseCount := h.fuseCount
    msixTable := h.msixTable
    msixPending := h.msixPending
    hostLinks := h.hostLinks
    atomics := h.atomics
    rowDown := h.rowDown
    rails := h.rails
    portst := h.portst
    sheafIds := h.sheafIds
    sheafTickets := h.sheafTickets
    claimAt := h.claimAt
    rechecked := h.rechecked }

/-- A warm reset: all work in flight is discarded and no completion record is written. -/
def State.warmReset (s : State) : State :=
  let s := s.dropWork.loseModified
  { s with
    issue := Issue.idle
    hostSectors := []
    l2 := []
    l2Tags := []
    tensorLines := []
    poison := tdel s.poison slicePoison
    cores := s.cores.map fun (e : Nat × Core) => (e.1, { Core.reset with temp := e.2.temp, hot := e.2.hot })
    chips := s.chips.map fun (e : Nat × Chip) => (e.1, { Chip.reset with stackTemp := e.2.stackTemp })
    hub := s.hub.warm }

/-- WARM (R455): a write of 1 to RESETCTL.WARM. -/
def execWarm (w : PortWrite) (s : State) : Out :=
  concludeEvent (fun s =>
    if !bit w.value.toNat 0 then s
    else s.byOwner w.port.toNat 0x2008 fun s =>
      (s.checkMbz w.port.toNat 0x2008 w.value.toNat (2 ^ 64 - 2)).warmReset) s

/-- A port's reset: its link goes down, its MSI-X table and pending bits clear, and its configuration space takes its reset
value (log entry 6). -/
def State.portReset (s : State) (port : Nat) : State :=
  { s with hub := { s.hub with
    hostLinks := setPort s.hub.hostLinks port false
    msixTable := s.hub.msixTable.filter fun e => e.1 / 128 != port
    msixPending := s.hub.msixPending.filter fun e => e.1 != port + 1
    atomics := setPort s.hub.atomics port true } }

/-- PERST (R453): both ports make a cold reset, the owner's alone a warm one with its own port's, another a port's. -/
def execPerst (port0 port1 : Bool) (s : State) : Out :=
  concludeEvent (fun s =>
    if port0 && port1 then s.coldReset
    else if !port0 && !port1 then s
    else
      let port := if port0 then 0 else 1
      if s.ownerNow = port + 1 then s.warmReset.portReset port else s.portReset port) s

/-- LINK_UP (R453): the messages held for the port are sent; a port that the hub holds in reset stays down (R456). -/
def execLinkUp (port : BitVec 1) (s : State) : Out :=
  concludeEvent (fun s =>
    if s.hub.heldInReset then s
    else
      let p := port.toNat
      let held := s.hub.msixPending.filter fun e => e.1 == p + 1
      let s := { s with hub := { s.hub with
        hostLinks := setPort s.hub.hostLinks p true
        msixPending := s.hub.msixPending.filter fun e => e.1 != p + 1 } }
      held.foldl (fun s e => s.emit (.msix p e.2)) s) s

/-! ### Firmware (R456) -/

/-- The body of an image, and whether its length agrees. -/
def imageBody (i : List Byte) : List Byte := i.drop 256

def imageVersion (i : List Byte) : Nat := fieldOf i 4 4

/-- Whether the boot ROM accepts an image. -/
def imageOk (fuse : Nat) (i : List Byte) : Bool :=
  256 ≤ i.length && fieldOf i 0 4 == 0x5A584657 && fieldOf i 8 8 == (imageBody i).length
    && sha384 ((i.drop 160).take 96) == Config.fusedKeyHash
    && signatureOk ((i.drop 160).take 96) ((i.drop 64).take 96) (i.take 64)
    && sha384 (imageBody i) == (i.drop 16).take 48
    && fuse ≤ imageVersion i

def Hub.slot (h : Hub) (n : Nat) : List Byte := if n = 0 then h.slotA else h.slotB

/-- The slot the ROM boots: the one last booted first, then the other. -/
def Hub.bootable (h : Hub) : Option Nat :=
  [h.bootSlot, 1 - h.bootSlot].find? fun n => imageOk h.fuseCount (h.slot n)

/-! ### Fabric ports (R465) -/

/-- PORTSTn of a port that is down: the peer it named stays (R465). -/
def portDown (w : W64) : W64 := w &&& 0xFF1F000000000000

/-- PORTSTn has no other bits; a port that is up has 4 or 8 lanes, and one that is not is down (R465). -/
def portWord (w : W64) : W64 :=
  if w.getLsbD 0 && (bits w.toNat 2 2 == 1 || bits w.toNat 2 2 == 2) then w &&& 0xFF1F00000000000D else portDown w

/-- A port reports this package's own id. -/
def Hub.loops (h : Hub) (w : W64) : Bool := w.getLsbD 0 && bits w.toNat 56 8 == h.pkgid.toNat

/-- An event whose TYPE, ADDR and DETAIL the spec does not give. -/
def State.postOpen (s : State) : State :=
  let w (i : Nat) : Nat := (Config.freeWord (s.freeSeed + i)).toNat
  ((s.draw.draw).draw).post (1 + w 0 % 16) 0 srcHub (w 1) (w 2)

/-- Ports that report the package's own id: those up, and those left down for it. -/
def Hub.loopPorts (h : Hub) : List Nat :=
  h.looped ++ ((h.portst.filter fun e => h.loops e.2).map Prod.fst).filter fun n => !h.looped.contains n

/-- Two ports that report the package's own id are left down; each that comes to be so is logged (R465). -/
def State.settlePorts (s : State) : State :=
  let bad := s.hub.loopPorts
  if bad.length < 2 then s
  else
    let new := bad.filter fun n => s.hub.loops (tget 0 s.hub.portst n)
    let s := { s with hub := { s.hub with looped := bad } }
    new.foldl (fun s n =>
      { s with hub := { s.hub with portst := tput s.hub.portst n (portDown (tget 0 s.hub.portst n)) } }.postOpen) s

/-- PORT_RETRAIN: a port that has dropped reports its new status. -/
def execPortRetrain (port : Nat) (status : W64) (s : State) : Out :=
  concludeEvent (fun s =>
    if 18 ≤ port then s
    else ({ s with hub := { s.hub with
      looped := s.hub.looped.erase port
      portst := tput s.hub.portst port (portWord status) } } : State).settlePorts) s

/-- ROW_NEIGHBOUR_LINK_DOWN (R16, R17): traffic between the two falls back to the hub; nothing else shows it.  DESIGN
CHOICE (log entry 90): the argument n names the link between chiplets n and n + 1, of which the rows have 14. -/
def execRowNeighbourLinkDown (chip : Nat) (s : State) : Out :=
  concludeEvent (fun s =>
    if chip < 15 && chip != 7 then { s with hub := { s.hub with rowDown := s.hub.rowDown ||| (1#16 <<< chip) } } else s) s

/-! ### Bring-up (R454) -/

/-- The flash as the ROM finds it: what firmware updates have left, else what the board supplies. -/
def Hub.flash (h : Hub) (d : BringUpData) : Hub :=
  { h with
    slotA := if h.slotA.isEmpty then d.slotA else h.slotA
    slotB := if h.slotB.isEmpty then d.slotB else h.slotB }

/-- Step 1 of a cold bring-up: the slot booted, if an image is accepted. -/
def Hub.boot (h : Hub) : Option Hub :=
  if h.booted then some h
  else h.bootable.map fun n =>
    { h with
      booted := true
      bootSlot := n
      fuseCount := max h.fuseCount (imageVersion (h.slot n)) }

/-- Fields that firmware writes (step 6), with the second tier of a cold bring-up (step 4). -/
def Hub.firmware (h : Hub) (d : BringUpData) (cold : Bool) : Hub :=
  let rated := max d.rated.toNat 400
  { h with
    tiercap := if cold then (if 4096 < d.tiercap.toNat then 4096 else d.tiercap) else h.tiercap
    pkgid := d.pkgid
    rated := BitVec.ofNat 16 rated
    floor := BitVec.ofNat 16 (if d.floor = 0 then 400 else clampWatts rated d.floor.toNat)
    tvec := BitVec.ofNat 56 (d.tvec.toNat / 32 * 32)
    livemask := d.livemask
    fencemask := ~~~d.livemask
    looped := []
    portst := (d.ports.filter fun e => decide (e.1 < 18)).foldl (fun t e => tput t e.1 (portWord e.2)) []
    remap := [] }

/-- The remap table: the identity for live chiplets, VALID clear for the others. -/
def State.bringRemap (s : State) (live : BitVec 16) : State :=
  (List.range 16).foldl (fun s c =>
    if live.getLsbD c then s
    else (List.range 256).foldl (fun s i => s.setRemap (256 * c + i) ⟨false, false, 256 * c + i⟩) s) s

/-- The steps after the boot. -/
def State.bringChips (s : State) (h : Hub) (d : BringUpData) (cold : Bool) : State :=
  let rails := (List.range 4).foldl (fun t r => tput t r 3) h.rails
  let s := { s with hub := { h with rails := rails } }
  if d.livemask = 0 then { s with hub := { s.hub with fatal := true, livemask := 0, fencemask := ~~~0 } }
  else
    let s := { s with hub := s.hub.firmware d cold }
    let s := ((List.range 16).filter fun c => d.livemask.getLsbD c).foldl State.startChip s
    let s := (s.bringRemap d.livemask).settlePorts
    { s with hub := { s.hub with ready := true } }

/-- BRING_UP (R454): with no image accepted both ports stay in reset; with no chiplet passing, FATAL sets. -/
def execBringUp (data : BringUpData) (s : State) : Out :=
  concludeEvent (fun s =>
    if s.hub.ready || s.hub.fatal then s
    else
      let h := s.hub.flash data
      match h.boot with
      | none => { s with hub := { h with hostLinks := 0, heldInReset := true } }
      | some b => s.bringChips b data (!h.booted)) s

/-! ### Management messages (R467) -/

/-- TELEMETRY: points and power of the rails, temperatures and DEVSTAT.  It needs no challenge. -/
def execTelemetry (s : State) : Out :=
  concludeEvent (fun s =>
    if !s.hub.booted then s
    else
      let rails := (List.range 4).flatMap fun r =>
        leBytes 1 (tget 0 s.hub.rails r) ++ leBytes 4 (Config.measured (s.freeSeed + r))
      let chips := (List.range 16).flatMap fun c => leBytes 2 (Config.measured (s.freeSeed + 4 + c))
      let towers := (List.range 16).flatMap fun c => leBytes 2 ((s.chip c).stackTemp % 65536).toNat
      ({ s with freeSeed := s.freeSeed + 20 } : State).emit
        (.reply (leBytes 1 0 ++ rails ++ chips ++ towers ++ leBytes 8 (s.manageRead 0x2000)))) s

/-- ERRBANK: the four dwords of bank n. -/
def execErrbank (n : Nat) (s : State) : Out :=
  concludeEvent (fun s => s.managed fun s =>
    s.emit (.reply (leBytes 1 0 ++ (List.range 4).flatMap fun i => leBytes 8 (s.bankRead n i)))) s

/-- EVENTS: a record, as R446 gives. -/
def execEvents (index : Nat) (s : State) : Out :=
  concludeEvent (fun s => s.managed fun s =>
    s.emit (.reply (leBytes 1 0 ++ (List.range 4).flatMap fun i => leBytes 8 ((s.eventRec index).dword i)))) s

/-- FWUPDATE: a checked image goes to the slot not booted, which the next cold reset boots; the status of a refused one is open. -/
def execFwupdate (image : List Byte) (s : State) : Out :=
  concludeEvent (fun s => s.managed fun s =>
    if imageOk s.hub.fuseCount image then
      let h := if s.hub.bootSlot = 0 then { s.hub with slotB := image } else { s.hub with slotA := image }
      ({ s with hub := { h with nextSlot := some (1 - s.hub.bootSlot) } } : State).emit (.reply [0])
    else (s.drawBytes 1).emit (.reply (freeBytes s.freeSeed 1))) s

/-- RESET: a warm reset. -/
def execReset (s : State) : Out :=
  concludeEvent (fun s => s.managed fun s => s.warmReset.emit (.reply [0])) s

/-! ### Attestation (R457, R458)

PRESUMED (log entry 108): the layouts of the messages are those of SPDM 1.2, which the spec names and does not
reproduce. -/

/-- A reply of the attestation protocol, formed from some bytes that are open. -/
def State.spdm (s : State) (n : Nat) (reply : List Byte → List Byte) : State :=
  if !s.hub.booted then s else (s.drawBytes n).emit (.reply (reply (freeBytes s.freeSeed n)))

/-- The head of a reply: version 1.2, its code and two parameters. -/
def spdmHead (code p1 p2 : Byte) : List Byte := [0x12, code, p1, p2]

/-- GET_VERSION: one version, 1.2. -/
def execGetVersion (s : State) : Out := concludeEvent (fun s => s.spdm 0 fun _ => [0x10, 0x04, 0, 0, 0, 1, 0x00, 0x12]) s

/-- GET_CAPABILITIES: certificates, challenge and signed measurements, and nothing of sessions; times and sizes are open. -/
def execGetCapabilities (s : State) : Out :=
  concludeEvent (fun s => s.spdm 9 fun x =>
    spdmHead 0x61 0 0 ++ [0] ++ x.take 1 ++ [0, 0] ++ leBytes 4 0x16 ++ x.drop 1) s

/-- NEGOTIATE_ALGORITHMS: one asymmetric algorithm, ECDSA P-384, and one hash, SHA-384. -/
def execNegotiateAlgorithms (s : State) : Out :=
  concludeEvent (fun s => s.spdm 0 fun _ =>
    spdmHead 0x63 0 0 ++ leBytes 2 36 ++ [1, 0] ++ leBytes 4 4 ++ leBytes 4 0x80 ++ leBytes 4 2 ++ List.replicate 16 0) s

/-- GET_DIGESTS: of the one certificate chain. -/
def execGetDigests (s : State) : Out :=
  concludeEvent (fun s => s.spdm 0 fun _ => spdmHead 0x01 0 1 ++ sha384 (Config.certificates 0)) s

/-- GET_CERTIFICATE. -/
def execGetCertificate (s : State) : Out :=
  concludeEvent (fun s => s.spdm 0 fun _ =>
    let c := Config.certificates 0
    spdmHead 0x02 0 0 ++ leBytes 2 c.length ++ [0, 0] ++ c) s

/-- CHALLENGE: the device signs the nonce with what it answers, and its requester may then send every command (R467). -/
def execChallenge (nonce : List Byte) (s : State) : Out :=
  concludeEvent (fun s =>
    if !s.hub.booted then s
    else
      let s := s.spdm 32 fun x =>
        let body := spdmHead 0x03 0 1 ++ sha384 (Config.certificates 0) ++ x ++ [0, 0]
        body ++ signWith Config.deviceKey (Config.signNonce s.freeSeed) (nonce ++ body)
      { s with hub := s.hub.trust }) s

/-- The 64 code parameter sets as bytes. -/
def Hub.codeBytes (h : Hub) : List Byte := (List.range 64).flatMap fun i => leBytes 8 (tget 0 h.codesets i).toNat

/-- What the four indices measure (R458): boot ROM, image with its security version, fused configuration, code sets. -/
def Hub.measured (h : Hub) : List (List Byte) :=
  let image := h.slot h.bootSlot
  [Config.bootRom, image ++ leBytes 4 (imageVersion image), Config.fusedMask ++ leBytes 4 h.fuseCount, h.codeBytes]

/-- A measurement of an index: its digest of SHA-384, with its kind. -/
def measurement (index : Nat) (bs : List Byte) : List Byte :=
  leBytes 1 index ++ [1] ++ leBytes 2 51 ++ leBytes 1 (index - 1) ++ leBytes 2 48 ++ sha384 bs

/-- The measurements of indices 1 to 4. -/
def Hub.measurements (h : Hub) : List Byte := h.measured.zipIdx.flatMap fun m => measurement (m.2 + 1) m.1

/-- GET_MEASUREMENTS. -/
def execGetMeasurements (s : State) : Out :=
  concludeEvent (fun s => s.spdm 32 fun x =>
    let ms := s.hub.measurements
    spdmHead 0x60 0 0 ++ [4] ++ leBytes 3 ms.length ++ ms ++ x ++ [0, 0]) s

/-! ### Arrivals through the fabric window (R286, R287) -/

/-- The answer to another package: a cause, 0 for none, and bytes. -/
def State.answer (s : State) (cause : Nat) (bs : List Byte) : State := s.emit (.fabricReply cause bs)

/-- Translate the pages of a run as a user's: the pins, or a cause. -/
def State.farPin (s : State) (asid : Nat) (run : Nat × Nat × Bool) : Except Nat (List TlbEntry) :=
  let va := run.1 % 2 ^ 40
  (unitsOf 65536 va run.2.1).foldl (fun acc x =>
    match acc with
    | .error c => .error c
    | .ok pins =>
        match s.walk asid (65536 * x) with
        | none => .error causeXLATE
        | some e =>
            if e.forbids (if run.2.2 then accWrite else accRead) true then .error causePROT
            else .ok (if pins.contains e then pins else pins ++ [e])) (.ok [])

/-- Translate and pin what a command of another package is to touch here (R286). -/
def State.farStart (s : State) (pkg id asid : Nat) (runs : List (Nat × Nat × Bool)) : State :=
  let all := runs.foldl (fun acc run =>
    match acc, s.farPin asid run with
    | .ok pins, .ok more => .ok (pins ++ more)
    | .error c, _ => .error c
    | .ok _, .error c => .error c) (Except.ok (ε := Nat) [])
  match all with
  | .error c => s.answer c []
  | .ok pins =>
      let c : FarCommand := ⟨pkg, id, asid, pins.eraseDups, false⟩
      ({ s with farCommands := s.farCommands ++ [c] } : State).answer 0 []

/-- The place of bytes of a started command of another package: by what it has pinned, else by a translation, which
for the word of its completion is made when it is added to. -/
def State.farAt (s : State) (pkg id va : Nat) (k : AccessKind) : Except Nat (Client × Spot) :=
  match s.farCommands.find? fun c => c.pkg == pkg && c.id == id with
  | none => .error causeXLATE
  | some c =>
      let va := va % 2 ^ 40
      match (c.pins.find? fun e => e.covers c.asid va).or (s.walk c.asid va) with
      | none => .error causeXLATE
      | some e => if e.forbids k true then .error causePROT else .ok (Client.mk c.asid none false, Spot.mem (e.paOf va) e.cached)

/-- Parts of a run of bytes within pages of 64 KiB. -/
def pageParts (va n : Nat) : List (Nat × Nat) := (unitsOf 65536 va n).map (pagePart va n)

/-- A write of another package performs; what a C = 1 host page takes reaches host memory at once (R468). -/
def State.farWrite (s : State) (pkg id va : Nat) (bs : List Byte) : Except Nat State :=
  (pageParts va bs.length).foldl (fun acc x =>
    match acc with
    | .error c => .error c
    | .ok s =>
        match s.farAt pkg id x.1 accWrite with
        | .error c => .error c
        | .ok (cl, y) =>
            let s := s.writeSpot cl none y ((bs.drop (x.1 - va)).take x.2) false
            .ok (match y with
              | .mem pa true => if isHost pa then (unitsOf 32 pa x.2).foldl (fun s z => (s.writebackSector (32 * z)).1) s
                  else s
              | _ => s)) (.ok s)

def State.farRead (s : State) (pkg id va n : Nat) : Except Nat (List Byte × State) :=
  (pageParts va n).foldl (fun acc x =>
    match acc with
    | .error c => .error c
    | .ok (bs, s) =>
        match s.farAt pkg id x.1 accRead with
        | .error c => .error c
        | .ok (cl, y) => let (more, _, s) := s.readAt cl y x.2 .clean; .ok (bs ++ more, s)) (.ok ([], s))

/-- The completion word's addition. -/
def State.farAdd (s : State) (pkg id va : Nat) : Except Nat State :=
  match s.farAt pkg id va accAtomic with
  | .error c => .error c
  | .ok (cl, y) =>
      match y with
      | .mem pa cached =>
          if cached || !isHost pa then .ok (s.addOne cl y 1)
          else if s.rootAdds pa then .ok (s.draw.addOne cl y 1)
          else .error causeAMOTGT
      | .pool _ _ => .ok (s.addOne cl y 1)

/-- The messages of a packet from its header and payload (R284): up to three segments, one where TF is set. -/
def packetMessages (header : Nat) (payload : List Byte) : List Message :=
  let tf := bit header 47
  let pkg := bits header 16 8
  let len (i : Nat) : Nat := 16 * (if bits header (64 + 24 * i) 8 = 0 then 256 else bits header (64 + 24 * i) 8)
  let start (i : Nat) : Nat := ((List.range i).map len).sum
  (List.range (if tf then 1 else bits header 24 2)).map fun i =>
    let ring := bits header (60 + 24 * i) 4
    let d : Dest := ⟨tf, pkg, if tf then bits header 72 14 else bits header (48 + 24 * i) 12, ring⟩
    ⟨d.entry, 0, BitVec.ofNat 16 header, none, (payload.drop (start i)).take (len i), 0,
      some (bits header 26 8, bits header 34 12), []⟩

/-- A packet arrives: one with NSEG = 0 is dropped and logged (R284); the reason it is logged with is the model's (log
entry 77). -/
def State.packetArrives (s : State) (header : Nat) (payload : List Byte) : State :=
  if bits header 24 2 = 0 then s.dropMessage none ⟨false, bits header 16 8, 0, 0⟩ 0
  else { s with messages := s.messages ++ packetMessages header payload }

/-- The first command of a queue that a condition picks, replaced. -/
def EngineQueue.modFirst (e : EngineQueue) (f : Command → Bool) (g : Command → Command) : EngineQueue :=
  match e.cmds.find? f with
  | some c => { e with cmds := e.cmds.map fun x => if x.serial == c.serial then g x else x }
  | none => e

/-- A package has acknowledged the last write to it of the queue's oldest command that waits for it (R287). -/
def State.farWritten (s : State) (core q : Nat) : State :=
  s.modTeam core fun t => t.setQueue q ((t.queue q).modFirst (fun c => !c.away.isEmpty && c.dataDone)
    fun c => { c with away := c.away.tail })

/-- Another package has answered the addition at a completion word: the command retires, or its queue halts (R271,
R287). -/
def State.farCompleted (s : State) (core q cause : Nat) : State :=
  match ((s.team core).queue q).cmds with
  | [] => s
  | c :: _ =>
      if !c.cplSent || !(s.core core).resident then s
      else if cause = 0 then s.retireHead core q c
      else s.haltQueue core q c.serial cause (cmdCplw c.bytes)

/-- Another package has ended the oldest message of a core (R285). -/
def State.farEnded (s : State) (core : Nat) (dropped : Bool) : State :=
  match s.messages.findIdx? fun m => m.source == core && m.origin.isNone && m.leaves s with
  | some i =>
      (match s.messages[i]? with
       | some m => s.endMessage i m (if dropped then dropFlag else 0)
       | none => s)
  | none => s

/-- An access performs and is answered, or its fault is. -/
def State.answered (s : State) (x : Except Nat State) : State :=
  match x with
  | .error c => s.draw.answer c []
  | .ok s => s.answer 0 []

/-- FABRIC_WINDOW_ARRIVAL: the commands, packets and answers of other packages (R284 to R287). -/
def execFabricWindowArrival (op : FabricOp) (s : State) : Out :=
  concludeEvent (fun s =>
    match op with
    | .start pkg id asid runs => s.farStart pkg id asid.toNat runs
    | .write pkg id va bytes => s.answered (s.farWrite pkg id va bytes)
    | .read pkg id va n =>
        (match s.farRead pkg id va n with
         | .error cause => s.answer cause []
         | .ok (bs, s) => s.answer 0 bs)
    | .cplAdd pkg id va => s.answered (s.farAdd pkg id va)
    | .finish pkg id => { s with farCommands := s.farCommands.filter fun c => !(c.pkg == pkg && c.id == id) }
    | .packet header payload => s.packetArrives header.toNat payload
    | .written core q => s.farWritten core q
    | .completed core q cause => s.farCompleted core q cause.toNat
    | .messageEnd core dropped => s.farEnded core dropped) s

end Sys2Proof.Machine
end

