-- ==== Sys2Proof/Machine/Special.lean ====
section
/-! DEFINITION. The special functions of R298 and R299, computed from exact integers: reciprocal and roots by
integer division and square root, the transcendental ones in fixed point of 512 fraction bits, far below
every rounding boundary of the three formats. -/

namespace Sys2Proof

/-- Integer square root by bits: `fuel` bits of the root are decided, from the top. -/
def isqrtAux : Nat → Nat → Nat → Nat
  | 0, _, root => root
  | fuel + 1, n, root =>
      let cand := root + 2 ^ fuel
      isqrtAux fuel n (if cand * cand ≤ n then cand else root)

/-- The floor of the square root. -/
def isqrt (n : Nat) : Nat := isqrtAux (bitLength n / 2 + 1) n 0

/-- A truncated value whose exact value lies strictly above it by less than one unit of `e` when
`sticky`; the added bit stands for the rest. -/
def stickyDyadic (neg : Bool) (m : Nat) (e : Int) (sticky : Bool) : Dyadic :=
  ⟨neg, 2 * m + (if sticky then 1 else 0), e - 1⟩

/-- Fraction bits of the fixed-point computations. -/
def fixBits : Nat := 512

def fixOne : Nat := 2 ^ 256 * 2 ^ 256

/-- The sum of the terms z^(2k+1)/(2k+1), for k below `fuel`; `p` is the current power. -/
def atanhAux : Nat → Nat → Nat → Nat → Nat
  | 0, _, _, _ => 0
  | fuel + 1, k, p, zz => p / (2 * k + 1) + atanhAux fuel (k + 1) (p * zz / fixOne) zz

/-- The fixed-point inverse hyperbolic tangent of num/den, at most 1/3. -/
def fixAtanh (num den : Nat) : Nat :=
  let z := num * fixOne / den
  atanhAux 170 0 z (z * z / fixOne)

/-- ln 2 in fixed point. -/
def fixLn2 : Nat := 2 * fixAtanh 1 3

/-- The Taylor sum of e^t; `term` is t^k/k!. -/
def expAux : Nat → Nat → Nat → Nat → Nat
  | 0, _, _, _ => 0
  | fuel + 1, k, term, t => term + expAux fuel (k + 1) (term * t / fixOne / (k + 1)) t

/-- 2^f in fixed point, for a fixed-point f below 1. -/
def fixExp2 (f : Nat) : Nat := expAux 120 0 fixOne (f * fixLn2 / fixOne)

/-- A dyadic magnitude in fixed point, rounded down. -/
def Dyadic.fix (d : Dyadic) : Nat :=
  let e : Int := d.e + fixBits
  if 0 ≤ e then d.m * 2 ^ e.toNat else d.m / 2 ^ (-e).toNat

/-- 1/a of a finite nonzero a. -/
def recipDyadic (d : Dyadic) : Dyadic :=
  let k := bitLength d.m + 64
  stickyDyadic d.neg (2 ^ k / d.m) (-(k : Int) - d.e) (2 ^ k % d.m != 0)

/-- m × 2^e with an even exponent. -/
def evenForm (d : Dyadic) : Nat × Int :=
  if d.e % 2 = 0 then (d.m, d.e) else (2 * d.m, d.e - 1)

/-- √a of a positive a. -/
def sqrtDyadic (d : Dyadic) : Dyadic :=
  let (m, e) := evenForm d
  let n := m * 2 ^ 128
  let s := isqrt n
  stickyDyadic false s (e / 2 - 64) (s * s != n)

/-- 1/√a of a positive a. -/
def rsqrtDyadic (d : Dyadic) : Dyadic :=
  let (m, e) := evenForm d
  let k := bitLength m + 64
  let s := isqrt (2 ^ (2 * k) / m)
  stickyDyadic false s (-(k : Int) - e / 2) (s * s * m != 2 ^ (2 * k))

/-- A finite value that overflows every format, and one that underflows every format. -/
def hugeDyadic (neg : Bool) : Dyadic := ⟨neg, 1, 100000⟩
def minuteDyadic (neg : Bool) : Dyadic := ⟨neg, 1, -100000⟩

/-- 2^a of a finite a. -/
def exp2Dyadic (d : Dyadic) : Dyadic :=
  if d.m = 0 then ⟨false, 1, 0⟩
  else if 20 ≤ (bitLength d.m : Int) + d.e then (if d.neg then minuteDyadic false else hugeDyadic false)
  else
    let v := d.fix
    let n := v / fixOne
    let f := v % fixOne
    let whole : Bool := decide (0 ≤ d.e) || d.m % 2 ^ (-d.e).toNat == 0
    if whole then ⟨false, 1, if d.neg then -(n : Int) else n⟩
    else if d.neg then stickyDyadic false (fixExp2 (fixOne - f)) (-(n : Int) - 1 - fixBits) true
    else stickyDyadic false (fixExp2 f) ((n : Int) - fixBits) true

/-- log2 of a positive a. -/
def log2Dyadic (d : Dyadic) : Dyadic :=
  let k := bitLength d.m - 1
  let ex : Int := d.e + k
  if d.m = 2 ^ k then ⟨decide (ex < 0), ex.natAbs, 0⟩
  else
    -- the fraction of log2(m / 2^k) by 2·atanh((x-1)/(x+1)) / ln 2
    let frac := 2 * fixAtanh (d.m - 2 ^ k) (d.m + 2 ^ k) * fixOne / fixLn2
    let t : Int := ex * fixOne + frac
    if t < 0 then stickyDyadic true (t.natAbs - 1) (-(fixBits : Int)) true
    else stickyDyadic false t.natAbs (-(fixBits : Int)) true

/-- tanh of a finite nonzero a. -/
def tanhDyadic (d : Dyadic) : Dyadic :=
  let mag : Int := (bitLength d.m : Int) + d.e
  if mag ≤ -40 then stickyDyadic d.neg (d.m * 2 ^ 200 - 1) (d.e - 200) true
  else if 7 < mag then stickyDyadic d.neg (2 ^ 200 - 1) (-200) true
  else
    let y := 2 * d.fix * fixOne / fixLn2
    let g := fixExp2 (y % fixOne) * 2 ^ (y / fixOne)
    stickyDyadic d.neg ((g - fixOne) * fixOne / (g + fixOne)) (-(fixBits : Int)) true

/-- The six special functions of major 0x52 (R298). -/
inductive SpecialFn where
  | rcp | rsq | sqrt | exp2 | log2 | tanh
  deriving DecidableEq, Repr

/-- A divide by zero: infinity with DZ. -/
def FloatParams.byZero (p : FloatParams) (neg : Bool) : Nat × Flags :=
  (p.signBit neg + p.infBits, flagDZ)

/-- A special function of a finite value (R298, R299). -/
def SpecialFn.finite (fn : SpecialFn) (p : FloatParams) (r : Rnd) (d : Dyadic) : Nat × Flags :=
  match fn with
  | .rcp => if d.m = 0 then p.byZero d.neg else p.round r (recipDyadic d)
  | .rsq =>
      if d.m = 0 then p.byZero d.neg
      else if d.neg then p.invalid else p.round r (rsqrtDyadic d)
  | .sqrt =>
      if d.m = 0 then (p.signBit d.neg, 0)
      else if d.neg then p.invalid else p.round r (sqrtDyadic d)
  | .exp2 => p.round r (exp2Dyadic d)
  | .log2 =>
      if d.m = 0 then p.byZero true
      else if d.neg then p.invalid else p.round r (log2Dyadic d)
  | .tanh => if d.m = 0 then (p.signBit d.neg, 0) else p.round r (tanhDyadic d)

/-- A special function of an infinity (R299). -/
def SpecialFn.ofInf (fn : SpecialFn) (p : FloatParams) (neg : Bool) : Nat × Flags :=
  match fn with
  | .rcp => (p.signBit neg, 0)
  | .rsq => if neg then p.invalid else (0, 0)
  | .sqrt => if neg then p.invalid else p.inf false
  | .exp2 => if neg then (0, 0) else p.inf false
  | .log2 => if neg then p.invalid else p.inf false
  | .tanh => p.round .rne ⟨neg, 1, 0⟩

/-- R298, R299. -/
def SpecialFn.eval (fn : SpecialFn) (p : FloatParams) (r : Rnd) : Num → Nat × Flags
  | .nan s => p.quiet s
  | .inf neg => fn.ofInf p neg
  | .fin d => fn.finite p r d

end Sys2Proof
end

