-- ==== Sys2Proof/Machine/VectorOps.lean ====
section
/-! DEFINITION. What vector syllables share: elements and cells of an entry, masks, poison marks, reductions, the
exchange network and selection (R289 to R291, R303 to R311). -/

namespace Sys2Proof.Machine

/-! ### Elements (R289) -/

/-- The elements of width `w` of an entry, row 0 first. -/
def elemsOf (w : Nat) (v : VBits) : List Nat :=
  (List.range (32768 / w)).map fun n => v.toNat / 2 ^ (w * n) % 2 ^ w

/-- An element by its number. -/
def elemOf (w : Nat) (v : VBits) (n : Nat) : Nat := v.toNat / 2 ^ (w * n) % 2 ^ w

/-- The entry that elements of width `w` make. -/
def ofElems (w : Nat) (es : List Nat) : VBits :=
  BitVec.ofNat 32768 (es.foldr (fun e acc => e % 2 ^ w + 2 ^ w * acc) 0)

/-- Cell n of an entry, row by row. -/
def cellOf (v : VBits) (n : Nat) : Nat := elemOf 32 v n

/-- The rows of a list of elements, `c` to a row. -/
def rowsOf (c : Nat) (es : List Nat) : List (List Nat) :=
  (List.range 16).map fun i => (es.drop (c * i)).take c

/-- A result of elements with the flags each raises. -/
abbrev Lanes := List (Nat × Flags)

/-! ### Masks (R290) -/

/-- Which elements are enabled: all of them where there is no mask. -/
def readMask (f : Fmt) (mask : Option VSrc) : Act (List Bool) :=
  match mask with
  | none => pure (List.replicate (16 * f.perRow) true)
  | some m => do return (elemsOf f.elemWidth (← readVec m)).map (fun x => x != 0)

/-- Write lanes and raise their flags (R43). -/
def writeLanes (f : Fmt) (d : VDst) (rs : Lanes) : Act Unit := do
  raiseFlags (orFlags (rs.map Prod.snd))
  writeVec d (ofElems f.elemWidth (rs.map Prod.fst))

/-- An element-wise operation on A: a disabled element is A's. -/
def lanes1 (g : Nat → Nat × Flags) (as : List Nat) (en : List Bool) : Lanes :=
  (as.zip en).map fun x => if x.2 then g x.1 else (x.1, 0)

/-- An element-wise operation on A and B: a disabled element is A's. -/
def lanes2 (g : Nat → Nat → Nat × Flags) (as bs : List Nat) (en : List Bool) : Lanes :=
  ((as.zip bs).zip en).map fun x => if x.2 then g x.1.1 x.1.2 else (x.1.1, 0)

/-- `op vD, vA` with an optional mask. -/
def vecUnary (f : Fmt) (d : VDst) (a : VSrc) (mask : Option VSrc) (g : Nat → Nat × Flags) : Act Unit := do
  let x ← readVec a
  let en ← readMask f mask
  writeLanes f d (lanes1 g (elemsOf f.elemWidth x) en)

/-- `op vD, vA, vB` with an optional mask. -/
def vecBinary (f : Fmt) (d : VDst) (a b : VSrc) (mask : Option VSrc) (g : Nat → Nat → Nat × Flags) : Act Unit := do
  let x ← readVec a
  let y ← readVec b
  let en ← readMask f mask
  writeLanes f d (lanes2 g (elemsOf f.elemWidth x) (elemsOf f.elemWidth y) en)

/-! ### Floating elements (R296, R297) -/

def floatAdd (f : Fmt) (r : Rnd) (x y : Nat) : Nat × Flags := f.params.add r (f.num x) (f.num y)
def floatSub (f : Fmt) (r : Rnd) (x y : Nat) : Nat × Flags := f.params.add r (f.num x) (f.num y).neg
def floatMul (f : Fmt) (r : Rnd) (x y : Nat) : Nat × Flags := f.params.mul r (f.num x) (f.num y)

/-- VFMA and VFMS. -/
def vecFma (f : Fmt) (r : Rnd) (d : VDst) (a b c : VSrc) (negate : Bool) : Act Unit := do
  let x ← readVec a
  let y ← readVec b
  let z ← readVec c
  let w := f.elemWidth
  let zs := (elemsOf w z).map fun e => if negate then (f.num e).neg else f.num e
  writeLanes f d ((((elemsOf w x).zip (elemsOf w y)).zip zs).map fun e =>
    f.params.fma r (f.num e.1.1) (f.num e.1.2) e.2)

/-- VABS and VNEG act on the sign bit alone (R298). -/
def absBits (f : Fmt) (x : Nat) : Nat := x % 2 ^ (f.elemWidth - 1)
def negBits (f : Fmt) (x : Nat) : Nat :=
  if x < 2 ^ (f.elemWidth - 1) then x + 2 ^ (f.elemWidth - 1) else x - 2 ^ (f.elemWidth - 1)

/-- A special function of each element (R298, R299). -/
def vecSpecial (fn : SpecialFn) (f : Fmt) (r : Rnd) (d : VDst) (a : VSrc) (mask : Option VSrc) : Act Unit :=
  vecUnary f d a mask fun x => fn.eval f.params r (f.num x)

/-! ### Integer elements (R300) -/

/-- An element as an integer. -/
def intOf (uns : Bool) (w x : Nat) : Int := if uns then (x : Int) else signedOf w x

/-- An exact result narrowed, with or without saturation. -/
def narrow (uns sat : Bool) (w : Nat) (t : Int) : Nat × Flags :=
  let hi : Int := if uns then 2 ^ w - 1 else 2 ^ (w - 1) - 1
  let lo : Int := if uns then 0 else -(2 ^ (w - 1))
  if sat && t > hi then (wrapInt w hi, flagOF)
  else if sat && t < lo then (wrapInt w lo, flagOF)
  else (wrapInt w t, 0)

/-- VIADD, VISUB and VIMUL. -/
def vecInt (f : Fmt) (uns sat : Bool) (d : VDst) (a b : VSrc) (mask : Option VSrc) (g : Int → Int → Int) : Act Unit :=
  let w := f.elemWidth
  vecBinary f d a b mask fun x y => narrow uns sat w (g (intOf uns w x) (intOf uns w y))

/-- A bitwise or shifting operation of integer elements. -/
def vecBits (f : Fmt) (d : VDst) (a b : VSrc) (mask : Option VSrc) (g : Nat → Nat → Nat) : Act Unit :=
  vecBinary f d a b mask fun x y => (g x y % 2 ^ f.elemWidth, 0)

/-- The smaller or larger of two elements; of equal ones, A's. -/
def intMinMax (isMax uns : Bool) (w x y : Nat) : Nat :=
  let takeB := if isMax then decide (intOf uns w x < intOf uns w y) else decide (intOf uns w y < intOf uns w x)
  if takeB then y else x

/-! ### Compare (R301) -/

/-- One element of VCMP. -/
def compareElem (cc : Cc) (f : Fmt) (x y : Nat) : Nat × Flags :=
  let w := f.elemWidth
  if f.isInt then
    (if Cc.intHolds cc (signedOf w x) (signedOf w y) x y then 2 ^ w - 1 else 0, 0)
  else
    let a := f.num x
    let b := f.num y
    (if Cc.floatHolds cc a b then 2 ^ w - 1 else 0, if a.isSnan || b.isSnan then flagNV else 0)

/-! ### Poison marks (R291) -/

/-- The sector of an entry that holds element n of width `w`. -/
def sectorOfElem (w n : Nat) : Nat := w * n / 256

/-- The marks of a result whose element n comes from the element `src n` of an entry with these marks. -/
def movedMarks (w : Nat) (src : Nat → Nat) (marks : BitVec 128) : BitVec 128 :=
  if marks = 0 then 0
  else markBits ((List.range 128).filter fun x =>
    (List.range (256 / w)).any fun i => marks.getLsbD (sectorOfElem w (src (256 / w * x + i))))

/-- A result whose cell n is cell `src n` of A, marks carried forward. -/
def moveCells (d : VDst) (a : VSrc) (src : Nat → Nat) : Act Unit := do
  let (x, m) ← readVecP a
  writeVecP d (ofElems 32 ((List.range 1024).map fun n => cellOf x (src n))) (movedMarks 32 src m)

/-- The moves of R305, which take their amount from B. -/
def moveBy (d : VDst) (a : VSrc) (b : Src) (src : Nat → Nat → Nat) : Act Unit := do
  let (x, m) ← readVecP a
  let n ← readSrc b
  let g := src n.toNat
  writeVecP d (ofElems 32 ((List.range 1024).map fun c => cellOf x (g c))) (movedMarks 32 g m)

/-- Cell numbers of the four moves: n is 64 i + j. -/
def rotRow (b n : Nat) : Nat := n / 64 * 64 + (n % 64 + b % 64) % 64
def rotColumn (b n : Nat) : Nat := (n / 64 + b % 16) % 16 * 64 + n % 64
def castRow (b n : Nat) : Nat := n / 64 * 64 + b % 64
def castColumn (b n : Nat) : Nat := b % 16 * 64 + n % 64

/-! ### Reads of parts of an entry (R291, R303, R304, R308, R311) -/

/-- Those that hold the first `n` bytes of row 0. -/
def firstSectors (n : Nat) : BitVec 128 := markBits ((List.range 8).filter fun x => decide (32 * x < n))

/-- What VCVT reads: of a source with more elements to a row, the part it converts. -/
def cvtReads (fd fs : Fmt) (part : Nat) : BitVec 128 :=
  let n := 256 * min fs.perRow fd.perRow / fs.perRow
  rowReads (if n < 256 then n * part else 0) n

/-- What VTOBI reads: 64 elements of every row. -/
def tobiReads (fs : Fmt) (part : Nat) : BitVec 128 := rowReads (8 * fs.elemWidth * part) (8 * fs.elemWidth)

/-- What VFROMBI reads: 64 mantissas and two scale codes of every row. -/
def frombiReads (fs : Fmt) : BitVec 128 := rowReads 0 (8 * fs.blockWidth + 2)

/-! ### Conversions (R303, R304) -/

/-- The source element of destination element kd of a row, if one converts to it (R303). -/
def cvtSource (cs cd part kd : Nat) : Option Nat :=
  let n := min cs cd
  let k := if n < cd then kd - n * part else kd
  if n < cd && (kd < n * part || n * part + n ≤ kd) then none
  else some (if n < cs then n * part + k else k)

/-- VCVT's lanes. -/
def cvtLanes (fd fs : Fmt) (r : Rnd) (part : Nat) (v : VBits) : Lanes :=
  let cs := fs.perRow
  let cd := fd.perRow
  (List.range (16 * cd)).map fun n =>
    match cvtSource cs cd part (n % cd) with
    | some k => convertElem fd fs r (elemOf fs.elemWidth v (n / cd * cs + k))
    | none => (0, 0)

/-- Bytes of a row that VTOBI writes: mantissas of `w` bits, the two scale codes, zeros (R304). -/
def blockRow (w : Nat) (blocks : List (Nat × List Int × Flags)) : List Nat :=
  let ms := blocks.flatMap fun b => b.2.1
  let bytes := ms.flatMap fun m => if w = 8 then [wrapInt 8 m] else [wrapInt 16 m % 256, wrapInt 16 m / 256]
  let all := bytes ++ blocks.map Prod.fst
  all ++ List.replicate (256 - all.length) 0

/-- The two blocks VTOBI forms of row i. -/
def rowBlocks (fd fs : Fmt) (r : Rnd) (part i : Nat) (v : VBits) : List (Nat × List Int × Flags) :=
  (List.range 2).map fun b =>
    toBlock ((List.range 32).map fun t =>
      fs.num (elemOf fs.elemWidth v (fs.perRow * i + 64 * part + 32 * b + t))) fd.blockWidth r

/-- One element of VFROMBI (R304). -/
def fromBlock (fd fs : Fmt) (r : Rnd) (part : Nat) (v : VBits) (n : Nat) : Nat × Flags :=
  let i := n / fd.perRow
  let kd := n % fd.perRow
  if kd < 64 * part || 64 * part + 64 ≤ kd then (0, 0)
  else
    let k := kd - 64 * part
    let w := fs.blockWidth
    let e := elemOf 8 v (256 * i + 8 * w + k / 32)
    if e = 0xFF then invalidElem fd
    else fd.params.ofNum r (blockValue w e (signedOf w (elemOf w v (2048 / w * i + k))))

/-! ### Reductions and scans (R59, R306, R307) -/

/-- One level of the tree: index pairs. -/
def treeLevel (g : Nat → Nat → Nat × Flags) : List Nat → List Nat × Flags
  | x :: y :: rest =>
      let (z, f) := g x y
      let (zs, h) := treeLevel g rest
      (z :: zs, f ||| h)
  | xs => (xs, 0)

/-- The fixed tree over `2 ^ levels` values. -/
def treeFold (g : Nat → Nat → Nat × Flags) : Nat → List Nat → Nat × Flags
  | 0, xs => (xs.headD 0, 0)
  | levels + 1, xs =>
      let (ys, f) := treeLevel g xs
      let (z, h) := treeFold g levels ys
      (z, f ||| h)

/-- The operation of a reduction on two elements. -/
def redElem (op : VRedOp) (f : Fmt) (r : Rnd) (uns : Bool) (x y : Nat) : Nat × Flags :=
  let w := f.elemWidth
  match op with
  | .add => if f.isInt then ((x + y) % 2 ^ w, 0) else floatAdd f r x y
  | .min => if f.isInt then (intMinMax false uns w x y, 0) else f.params.minMax false x y
  | .max => if f.isInt then (intMinMax true uns w x y, 0) else f.params.minMax true x y
  | .and => (x &&& y, 0)
  | .or => (x ||| y, 0)
  | .xor => (x ^^^ y, 0)

/-- What a disabled element contributes (R306). -/
def redIdentity (op : VRedOp) (f : Fmt) (uns : Bool) : Nat :=
  let w := f.elemWidth
  match op with
  | .add => if f.isInt then 0 else f.params.signBit true
  | .min => if !f.isInt then f.params.infBits else if uns then 2 ^ w - 1 else 2 ^ (w - 1) - 1
  | .max => if !f.isInt then f.params.signBit true + f.params.infBits else if uns then 0 else 2 ^ (w - 1)
  | .and => 2 ^ w - 1
  | .or | .xor => 0

/-- A disabled element gives way to its identity. -/
def maskWith (ident : Nat) (es : List Nat) (en : List Bool) : List Nat :=
  (es.zip en).map fun x => if x.2 then x.1 else ident

/-- Each row's reduction, for all its elements. -/
def reduceRows (g : Nat → Nat → Nat × Flags) (c : Nat) (es : List Nat) : Lanes :=
  (rowsOf c es).flatMap fun row =>
    let z := treeFold g (ceilLog2 c) row
    z :: List.replicate (c - 1) (z.1, 0)

/-- Each column's reduction, for all its elements. -/
def reduceColumns (g : Nat → Nat → Nat × Flags) (c : Nat) (es : List Nat) : Lanes :=
  let rows := rowsOf c es
  let zs := (List.range c).map fun k => treeFold g 4 (rows.map fun row => row.getD k 0)
  zs ++ (List.range 15).flatMap fun _ => zs.map fun z => (z.1, 0)

/-- VREDR and VREDC. -/
def vecReduce (op : VRedOp) (f : Fmt) (r : Rnd) (uns : Bool) (d : VDst) (a : VSrc) (mask : Option VSrc)
    (reduce : (Nat → Nat → Nat × Flags) → Nat → List Nat → Lanes) : Act Unit := do
  let x ← readVec a
  let en ← readMask f mask
  writeLanes f d (reduce (redElem op f r uns) f.perRow (maskWith (redIdentity op f uns) (elemsOf f.elemWidth x) en))

/-- Inclusive running sums from a start (R307). -/
def scanRow (g : Nat → Nat → Nat × Flags) : Nat → List Nat → Lanes
  | _, [] => []
  | s, x :: xs =>
      let z := g s x
      z :: scanRow g z.1 xs

/-! ### Permutes (R308, R309) -/

/-- Stage s of the network applied to a list of 64 (R309). -/
def benesStage (w : BenesWord) (x : List Nat) (s : Nat) : List Nat :=
  let b := if s ≤ 5 then 5 - s else s - 5
  (List.range 64).map fun p =>
    let j := p / 2 ^ (b + 1) * 2 ^ b + p % 2 ^ b
    let other := if p / 2 ^ b % 2 = 0 then p + 2 ^ b else p - 2 ^ b
    if w.getLsbD (32 * s + j) then x.getD other 0 else x.getD p 0

/-- The column that each cell of a row receives. -/
def benesColumns (w : BenesWord) : List Nat := (List.range 11).foldl (benesStage w) (List.range 64)

/-- The word PSET writes (R308). -/
def benesOf (v : VBits) : BenesWord := v.extractLsb' 0 352

/-! ### Selection (R310, R311) -/

/-- Whether element x ranks above element y. -/
def ranksAbove (f : Fmt) (x y : Nat) : Bool :=
  if f.isInt then decide (signedOf 32 y < signedOf 32 x)
  else
    let a := f.num x
    let b := f.num y
    if a.isNan then false else if b.isNan then true else decide (0 < a.cmp b)

/-- Put an element with its column behind those it does not rank above. -/
def insertRank (f : Fmt) (x : Nat × Nat) : List (Nat × Nat) → List (Nat × Nat)
  | [] => [x]
  | y :: ys => if ranksAbove f x.1 y.1 then x :: y :: ys else y :: insertRank f x ys

/-- Elements with their columns, larger first, equal ones in ascending column. -/
def ranked (f : Fmt) (xs : List (Nat × Nat)) : List (Nat × Nat) := xs.foldl (fun acc x => insertRank f x acc) []

/-- One row of VTOPKR. -/
def topRow (f : Fmt) (k : Nat) (row : List Nat) (en : List Bool) : List Nat :=
  let best := (ranked f (((row.zipIdx).zip en).filterMap fun x => if x.2 then some x.1 else none)).take k
  let low := if f.isInt then 2 ^ 31 else 0xFF800000
  let cells := best ++ List.replicate (k - best.length) (low, 0xFFFFFFFF)
  let pad := List.replicate (32 - k) 0
  cells.map Prod.fst ++ pad ++ cells.map Prod.snd ++ pad

/-- Whether a splitter is at most an element (R311). -/
def splitterLe (f : Fmt) (uns : Bool) (s x : Nat) : Bool :=
  if f.isInt then decide (intOf uns 32 s ≤ intOf uns 32 x)
  else Cc.floatHolds .le (f.num s) (f.num x)

/-- The bucket of an element. -/
def bucketOf (f : Fmt) (uns : Bool) (splitters : List Nat) (x : Nat) : Nat :=
  if !f.isInt && (f.num x).isNan then splitters.length
  else (splitters.filter fun s => splitterLe f uns s x).length

/-! ### Element moves (R312) -/

/-- The element an index selects. -/
def elemIndex (f : Fmt) (e : W64) : Nat := e.toNat % (16 * f.perRow)

/-- What VGET pushes of an element's bits. -/
def getValue (f : Fmt) (x : Nat) : W64 :=
  if f.isInt then BitVec.ofInt 64 (signedOf f.intWidth x) else BitVec.ofNat 64 x

/-- The element VLI writes. -/
def immElem (f : Fmt) (imm : BitVec 24) : Nat :=
  if f.isInt then wrapInt f.elemWidth imm.toInt
  else if f.elemWidth = 32 then imm.toNat * 256
  else imm.toNat % 2 ^ 16

end Sys2Proof.Machine
end

