-- ==== Sys2Proof/Machine/Vector.lean ====
section
/-! DEFINITION. The vector syllables (R294 to R312). -/

namespace Sys2Proof.Machine

/-! ### Floating arithmetic (R296 to R299) -/

/-- VADD (R296). -/
def execVadd (f : Fmt) (r : Rnd) (d : VDst) (a b : VSrc) (mask : Option VSrc) (s : State) : Out :=
  concludeSyllable (vecBinary f d a b mask (floatAdd f r)) s

/-- VSUB (R296). -/
def execVsub (f : Fmt) (r : Rnd) (d : VDst) (a b : VSrc) (mask : Option VSrc) (s : State) : Out :=
  concludeSyllable (vecBinary f d a b mask (floatSub f r)) s

/-- VMUL (R296). -/
def execVmul (f : Fmt) (r : Rnd) (d : VDst) (a b : VSrc) (mask : Option VSrc) (s : State) : Out :=
  concludeSyllable (vecBinary f d a b mask (floatMul f r)) s

/-- VMIN (R296). -/
def execVmin (f : Fmt) (d : VDst) (a b : VSrc) (mask : Option VSrc) (s : State) : Out :=
  concludeSyllable (vecBinary f d a b mask (f.params.minMax false)) s

/-- VMAX (R296). -/
def execVmax (f : Fmt) (d : VDst) (a b : VSrc) (mask : Option VSrc) (s : State) : Out :=
  concludeSyllable (vecBinary f d a b mask (f.params.minMax true)) s

/-- VFMA (R297). -/
def execVfma (f : Fmt) (r : Rnd) (d : VDst) (a b c : VSrc) (s : State) : Out :=
  concludeSyllable (vecFma f r d a b c false) s

/-- VFMS (R297). -/
def execVfms (f : Fmt) (r : Rnd) (d : VDst) (a b c : VSrc) (s : State) : Out :=
  concludeSyllable (vecFma f r d a b c true) s

/-- VABS (R298). -/
def execVabs (f : Fmt) (d : VDst) (a : VSrc) (mask : Option VSrc) (s : State) : Out :=
  concludeSyllable (vecUnary f d a mask fun x => (absBits f x, 0)) s

/-- VNEG (R298). -/
def execVneg (f : Fmt) (d : VDst) (a : VSrc) (mask : Option VSrc) (s : State) : Out :=
  concludeSyllable (vecUnary f d a mask fun x => (negBits f x, 0)) s

/-- VRCP (R298, R299). -/
def execVrcp (f : Fmt) (r : Rnd) (d : VDst) (a : VSrc) (mask : Option VSrc) (s : State) : Out :=
  concludeSyllable (vecSpecial .rcp f r d a mask) s

/-- VRSQ (R298, R299). -/
def execVrsq (f : Fmt) (r : Rnd) (d : VDst) (a : VSrc) (mask : Option VSrc) (s : State) : Out :=
  concludeSyllable (vecSpecial .rsq f r d a mask) s

/-- VSQRT (R298, R299). -/
def execVsqrt (f : Fmt) (r : Rnd) (d : VDst) (a : VSrc) (mask : Option VSrc) (s : State) : Out :=
  concludeSyllable (vecSpecial .sqrt f r d a mask) s

/-- VEXP2 (R298, R299). -/
def execVexp2 (f : Fmt) (r : Rnd) (d : VDst) (a : VSrc) (mask : Option VSrc) (s : State) : Out :=
  concludeSyllable (vecSpecial .exp2 f r d a mask) s

/-- VLOG2 (R298, R299). -/
def execVlog2 (f : Fmt) (r : Rnd) (d : VDst) (a : VSrc) (mask : Option VSrc) (s : State) : Out :=
  concludeSyllable (vecSpecial .log2 f r d a mask) s

/-- VTANH (R298, R299). -/
def execVtanh (f : Fmt) (r : Rnd) (d : VDst) (a : VSrc) (mask : Option VSrc) (s : State) : Out :=
  concludeSyllable (vecSpecial .tanh f r d a mask) s

/-! ### Integer arithmetic, compare and select (R300 to R302) -/

/-- VIADD (R300). -/
def execViadd (f : Fmt) (uns sat : Bool) (d : VDst) (a b : VSrc) (mask : Option VSrc) (s : State) : Out :=
  concludeSyllable (vecInt f uns sat d a b mask fun x y => x + y) s

/-- VISUB (R300). -/
def execVisub (f : Fmt) (uns sat : Bool) (d : VDst) (a b : VSrc) (mask : Option VSrc) (s : State) : Out :=
  concludeSyllable (vecInt f uns sat d a b mask fun x y => x - y) s

/-- VIMUL (R300). -/
def execVimul (f : Fmt) (uns sat : Bool) (d : VDst) (a b : VSrc) (mask : Option VSrc) (s : State) : Out :=
  concludeSyllable (vecInt f uns sat d a b mask fun x y => x * y) s

/-- VIMULH (R300). -/
def execVimulh (f : Fmt) (uns : Bool) (d : VDst) (a b : VSrc) (mask : Option VSrc) (s : State) : Out :=
  concludeSyllable (vecInt f uns false d a b mask fun x y => x * y / 2 ^ f.elemWidth) s

/-- VAND (R300). -/
def execVand (f : Fmt) (d : VDst) (a b : VSrc) (mask : Option VSrc) (s : State) : Out :=
  concludeSyllable (vecBits f d a b mask fun x y => x &&& y) s

/-- VOR (R300). -/
def execVor (f : Fmt) (d : VDst) (a b : VSrc) (mask : Option VSrc) (s : State) : Out :=
  concludeSyllable (vecBits f d a b mask fun x y => x ||| y) s

/-- VXOR (R300). -/
def execVxor (f : Fmt) (d : VDst) (a b : VSrc) (mask : Option VSrc) (s : State) : Out :=
  concludeSyllable (vecBits f d a b mask fun x y => x ^^^ y) s

/-- VSHL (R300). -/
def execVshl (f : Fmt) (d : VDst) (a b : VSrc) (mask : Option VSrc) (s : State) : Out :=
  concludeSyllable (vecBits f d a b mask fun x y => x * 2 ^ (y % f.elemWidth)) s

/-- VSHR (R300). -/
def execVshr (f : Fmt) (d : VDst) (a b : VSrc) (mask : Option VSrc) (s : State) : Out :=
  concludeSyllable (vecBits f d a b mask fun x y => x / 2 ^ (y % f.elemWidth)) s

/-- VSAR (R300). -/
def execVsar (f : Fmt) (d : VDst) (a b : VSrc) (mask : Option VSrc) (s : State) : Out :=
  concludeSyllable (vecBits f d a b mask fun x y => wrapInt f.elemWidth (signedOf f.elemWidth x / 2 ^ (y % f.elemWidth))) s

/-- VIMIN (R300). -/
def execVimin (f : Fmt) (uns : Bool) (d : VDst) (a b : VSrc) (mask : Option VSrc) (s : State) : Out :=
  concludeSyllable (vecBits f d a b mask (intMinMax false uns f.elemWidth)) s

/-- VIMAX (R300). -/
def execVimax (f : Fmt) (uns : Bool) (d : VDst) (a b : VSrc) (mask : Option VSrc) (s : State) : Out :=
  concludeSyllable (vecBits f d a b mask (intMinMax true uns f.elemWidth)) s

/-- VCMP (R301): a disabled element is zero. -/
def execVcmp (cc : Cc) (f : Fmt) (d : VDst) (a b : VSrc) (mask : Option VSrc) (s : State) : Out :=
  concludeSyllable (do
    let x ← readVec a
    let y ← readVec b
    let en ← readMask f mask
    let w := f.elemWidth
    writeLanes f d ((((elemsOf w x).zip (elemsOf w y)).zip en).map fun e =>
      if e.2 then compareElem cc f e.1.1 e.1.2 else (0, 0))) s

/-- VSEL (R302). -/
def execVsel (f : Fmt) (d : VDst) (a b c : VSrc) (s : State) : Out :=
  concludeSyllable (do
    let (x, mx) ← readVecP a
    let (y, my) ← readVecP b
    let z ← readVec c
    let w := f.elemWidth
    let zs := elemsOf w z
    let rs := (((elemsOf w x).zip (elemsOf w y)).zip zs).map fun e => if e.2 != 0 then e.1.1 else e.1.2
    let marked := (zs.zipIdx).filterMap fun e =>
      let sec := sectorOfElem w e.2
      if (if e.1 != 0 then mx else my).getLsbD sec then some sec else none
    writeVecP d (ofElems w rs) (if mx = 0 && my = 0 then 0 else markBits marked)) s

/-! ### Conversions (R303, R304) -/

/-- VCVT (R303). -/
def execVcvt (fd fs : Fmt) (r : Rnd) (part : BitVec 2) (d : VDst) (a : VSrc) (s : State) : Out :=
  concludeSyllable (do
    writeLanes fd d (cvtLanes fd fs r part.toNat (← readVecOf a (cvtReads fd fs part.toNat)))) s

/-- VTOBI (R304). -/
def execVtobi (fd fs : Fmt) (r : Rnd) (part : BitVec 2) (d : VDst) (a : VSrc) (s : State) : Out :=
  concludeSyllable (do
    let v ← readVecOf a (tobiReads fs part.toNat)
    let rows := (List.range 16).map fun i => rowBlocks fd fs r part.toNat i v
    raiseFlags (orFlags (rows.flatMap fun row => row.map fun b => b.2.2))
    writeVec d (ofElems 8 (rows.flatMap (blockRow fd.blockWidth)))) s

/-- VFROMBI (R304). -/
def execVfrombi (fd fs : Fmt) (r : Rnd) (part : BitVec 2) (d : VDst) (a : VSrc) (s : State) : Out :=
  concludeSyllable (do
    let v ← readVecOf a (frombiReads fs)
    writeLanes fd d ((List.range (16 * fd.perRow)).map (fromBlock fd fs r part.toNat v))) s

/-! ### Along rows and columns (R305 to R307) -/

/-- VROTR (R305). -/
def execVrotr (d : VDst) (a : VSrc) (b : Src) (s : State) : Out := concludeSyllable (moveBy d a b rotRow) s

/-- VROTC (R305). -/
def execVrotc (d : VDst) (a : VSrc) (b : Src) (s : State) : Out := concludeSyllable (moveBy d a b rotColumn) s

/-- VBCR (R305). -/
def execVbcr (d : VDst) (a : VSrc) (b : Src) (s : State) : Out := concludeSyllable (moveBy d a b castRow) s

/-- VBCC (R305). -/
def execVbcc (d : VDst) (a : VSrc) (b : Src) (s : State) : Out := concludeSyllable (moveBy d a b castColumn) s

/-- VSCANR (R307). -/
def execVscanr (f : Fmt) (r : Rnd) (d : VDst) (a : VSrc) (mask : Option VSrc) (s : State) : Out :=
  concludeSyllable (do
    let x ← readVec a
    let en ← readMask f mask
    let z := redIdentity .add f false
    let es := maskWith z (elemsOf f.elemWidth x) en
    writeLanes f d ((rowsOf f.perRow es).flatMap (scanRow (redElem .add f r false) z))) s

/-- VREDR (R306). -/
def execVredr (op : VRedOp) (f : Fmt) (r : Rnd) (uns : Bool) (d : VDst) (a : VSrc) (mask : Option VSrc)
    (s : State) : Out :=
  concludeSyllable (vecReduce op f r uns d a mask reduceRows) s

/-- VREDC (R306). -/
def execVredc (op : VRedOp) (f : Fmt) (r : Rnd) (uns : Bool) (d : VDst) (a : VSrc) (mask : Option VSrc)
    (s : State) : Out :=
  concludeSyllable (vecReduce op f r uns d a mask reduceColumns) s

/-! ### Permutes and selection (R308 to R311) -/

/-- VPERM (R309). -/
def execVperm (d : VDst) (a : VSrc) (bw : BitVec 3) (s : State) : Out :=
  concludeSyllable (do
    let cols := benesColumns (tget 0 (← getCtx).benes bw.toNat)
    moveCells d a fun n => n / 64 * 64 + cols.getD (n % 64) 0) s

/-- PSET (R308): it reads cells 0 to 10 of row 0. -/
def execPset (bw : BitVec 3) (a : VSrc) (s : State) : Out :=
  concludeSyllable (do
    let v ← readVecOf a (firstSectors 44)
    modCtxA fun c => { c with benes := tput c.benes bw.toNat (benesOf v) }) s

/-- VTOPKR (R310). -/
def execVtopkr (f : Fmt) (d : VDst) (a : VSrc) (b : Src) (mask : Option VSrc) (s : State) : Out :=
  concludeSyllable (do
    let x ← readVec a
    let n ← readSrc b
    let en ← readMask f mask
    let k := min n.toNat 32
    let rows := rowsOf 64 (elemsOf 32 x)
    writeVec d (ofElems 32 (rows.zipIdx.flatMap fun row => topRow f k row.1 ((en.drop (64 * row.2)).take 64)))) s

/-- VBUCK (R311): of B it reads the splitter row, row 0. -/
def execVbuck (f : Fmt) (uns : Bool) (d : VDst) (a b : VSrc) (c : Src) (s : State) : Out :=
  concludeSyllable (do
    let x ← readVec a
    let y ← readVecOf b (firstSectors 256)
    let n ← readSrc c
    let splitters := (List.range (min n.toNat 63)).map (cellOf y)
    writeVec d (ofElems 32 ((elemsOf 32 x).map (bucketOf f uns splitters)))) s

/-! ### Element moves (R312) -/

/-- VMOV (R312). -/
def execVmov (d : VDst) (a : VSrc) (s : State) : Out :=
  concludeSyllable (do
    let (x, m) ← readVecP a
    writeVecP d x m) s

/-- VGET (R291, R312). -/
def execVget (f : Fmt) (d : Dst) (a : VSrc) (b : Src) (s : State) : Out :=
  concludeSyllable (do
    let (x, m) ← readVecP a
    let e := elemIndex f (← readSrc b)
    let w := f.elemWidth
    writeEntry d (.ready (getValue f (elemOf w x e)) (m.getLsbD (sectorOfElem w e)))) s

/-- VPUT (R312): a poisoned scalar marks the sector of its element (R440). -/
def execVput (f : Fmt) (d : VDst) (a : VSrc) (b c : Src) (s : State) : Out :=
  concludeSyllable (do
    let (x, m) ← readVecP a
    let (v, bad) ← readSrcP b
    let e := elemIndex f (← readSrc c)
    let w := f.elemWidth
    let mark := if bad then markBits [sectorOfElem w e] else 0
    writeVecP d (ofElems w ((elemsOf w x).set e (v.toNat % 2 ^ w))) (m ||| mark)) s

/-- VLI (R312). -/
def execVli (f : Fmt) (d : VDst) (imm : BitVec 24) (s : State) : Out :=
  concludeSyllable (writeVec d (ofElems f.elemWidth (List.replicate (16 * f.perRow) (immElem f imm)))) s

end Sys2Proof.Machine
end

