-- ==== Sys2Proof/Machine/Dispatch.lean ====
section
/-! DEFINITION. One arm per instruction: its meaning. -/

namespace Sys2Proof.Machine

def exec (i : Instr) (s : State) : Host.Outcome State Fault Refusal :=
  match i with
  | .nop => Sys2Proof.Machine.execNop s
  | .add d a b => Sys2Proof.Machine.execAdd d a b s
  | .sub d a b => Sys2Proof.Machine.execSub d a b s
  | .and d a b => Sys2Proof.Machine.execAnd d a b s
  | .or d a b => Sys2Proof.Machine.execOr d a b s
  | .xor d a b => Sys2Proof.Machine.execXor d a b s
  | .andn d a b => Sys2Proof.Machine.execAndn d a b s
  | .shl d a b => Sys2Proof.Machine.execShl d a b s
  | .shr d a b => Sys2Proof.Machine.execShr d a b s
  | .sar d a b => Sys2Proof.Machine.execSar d a b s
  | .rol d a b => Sys2Proof.Machine.execRol d a b s
  | .min d a b => Sys2Proof.Machine.execMin d a b s
  | .minn d a b => Sys2Proof.Machine.execMinn d a b s
  | .max d a b => Sys2Proof.Machine.execMax d a b s
  | .maxn d a b => Sys2Proof.Machine.execMaxn d a b s
  | .mul d a b => Sys2Proof.Machine.execMul d a b s
  | .mulh d a b => Sys2Proof.Machine.execMulh d a b s
  | .mulhn d a b => Sys2Proof.Machine.execMulhn d a b s
  | .div d a b => Sys2Proof.Machine.execDiv d a b s
  | .divn d a b => Sys2Proof.Machine.execDivn d a b s
  | .rem d a b => Sys2Proof.Machine.execRem d a b s
  | .remn d a b => Sys2Proof.Machine.execRemn d a b s
  | .mov d a => Sys2Proof.Machine.execMov d a s
  | .abs d a => Sys2Proof.Machine.execAbs d a s
  | .clz d a => Sys2Proof.Machine.execClz d a s
  | .ctz d a => Sys2Proof.Machine.execCtz d a s
  | .popc d a => Sys2Proof.Machine.execPopc d a s
  | .sel d a b neg p => Sys2Proof.Machine.execSel d a b neg p s
  | .lea d a b shift => Sys2Proof.Machine.execLea d a b shift s
  | .cmp cc pd a b => Sys2Proof.Machine.execCmp cc pd a b s
  | .cmpi cc pd a imm => Sys2Proof.Machine.execCmpi cc pd a imm s
  | .addi d a imm => Sys2Proof.Machine.execAddi d a imm s
  | .andi d a imm => Sys2Proof.Machine.execAndi d a imm s
  | .ori d a imm => Sys2Proof.Machine.execOri d a imm s
  | .xori d a imm => Sys2Proof.Machine.execXori d a imm s
  | .shli d a n => Sys2Proof.Machine.execShli d a n s
  | .shri d a n => Sys2Proof.Machine.execShri d a n s
  | .sari d a n => Sys2Proof.Machine.execSari d a n s
  | .li d imm => Sys2Proof.Machine.execLi d imm s
  | .lih d a imm => Sys2Proof.Machine.execLih d a imm s
  | .pand pd pa pb => Sys2Proof.Machine.execPand pd pa pb s
  | .por pd pa pb => Sys2Proof.Machine.execPor pd pa pb s
  | .pxor pd pa pb => Sys2Proof.Machine.execPxor pd pa pb s
  | .pandn pd pa pb => Sys2Proof.Machine.execPandn pd pa pb s
  | .pnot pd pa => Sys2Proof.Machine.execPnot pd pa s
  | .pmov pd pa => Sys2Proof.Machine.execPmov pd pa s
  | .br disp => Sys2Proof.Machine.execBr disp s
  | .bri a => Sys2Proof.Machine.execBri a s
  | .call d disp => Sys2Proof.Machine.execCall d disp s
  | .ret a => Sys2Proof.Machine.execRet a s
  | .loop counter disp stages => Sys2Proof.Machine.execLoop counter disp stages s
  | .split disp => Sys2Proof.Machine.execSplit disp s
  | .join disp => Sys2Proof.Machine.execJoin disp s
  | .brq sense disp => Sys2Proof.Machine.execBrq sense disp s
  | .pushb neg p => Sys2Proof.Machine.execPushb neg p s
  | .csrr d csr => Sys2Proof.Machine.execCsrr d csr s
  | .csrw csr a => Sys2Proof.Machine.execCsrw csr a s
  | .csrx d csr a => Sys2Proof.Machine.execCsrx d csr a s
  | .halt => Sys2Proof.Machine.execHalt s
  | .waiti => Sys2Proof.Machine.execWaiti s
  | .fencei => Sys2Proof.Machine.execFencei s
  | .trap code => Sys2Proof.Machine.execTrap code s
  | .eret => Sys2Proof.Machine.execEret s
  | .commit => Sys2Proof.Machine.execCommit s
  | .yield => Sys2Proof.Machine.execYield s
  | .rplrel => Sys2Proof.Machine.execRplrel s
  | .phase marker => Sys2Proof.Machine.execPhase marker s
  | .segb id => Sys2Proof.Machine.execSegb id s
  | .sege id a => Sys2Proof.Machine.execSege id a s
  | .ld ty d m => Sys2Proof.Machine.execLd ty d m s
  | .st ty x_s m => Sys2Proof.Machine.execSt ty x_s m s
  | .vldr f d m => Sys2Proof.Machine.execVldr f d m s
  | .vstr f x_s m => Sys2Proof.Machine.execVstr f x_s m s
  | .vldc f d m => Sys2Proof.Machine.execVldc f d m s
  | .vstc f x_s m => Sys2Proof.Machine.execVstc f x_s m s
  | .vgth f d m => Sys2Proof.Machine.execVgth f d m s
  | .vsct f x_s m => Sys2Proof.Machine.execVsct f x_s m s
  | .mark => Sys2Proof.Machine.execMark s
  | .fence scope => Sys2Proof.Machine.execFence scope s
  | .amo op ty scope order a b => Sys2Proof.Machine.execAmo op ty scope order a b s
  | .red op ty scope release a b => Sys2Proof.Machine.execRed op ty scope release a b s
  | .lock mode domain level a => Sys2Proof.Machine.execLock mode domain level a s
  | .unlock domain level a => Sys2Proof.Machine.execUnlock domain level a s
  | .bsig scope a b => Sys2Proof.Machine.execBsig scope a b s
  | .bwait scope a b => Sys2Proof.Machine.execBwait scope a b s
  | .rset ring a => Sys2Proof.Machine.execRset ring a s
  | .rclaim ring d => Sys2Proof.Machine.execRclaim ring d s
  | .rpub ring a => Sys2Proof.Machine.execRpub ring a s
  | .rtake ring d => Sys2Proof.Machine.execRtake ring d s
  | .rfree ring a => Sys2Proof.Machine.execRfree ring a s
  | .rwaitf ring a => Sys2Proof.Machine.execRwaitf ring a s
  | .rwaite ring a => Sys2Proof.Machine.execRwaite ring a s
  | .rstat ring d a => Sys2Proof.Machine.execRstat ring d a s
  | .evsig ev a b => Sys2Proof.Machine.execEvsig ev a b s
  | .evwait ev a => Sys2Proof.Machine.execEvwait ev a s
  | .evstat ev d => Sys2Proof.Machine.execEvstat ev d s
  | .enq q a => Sys2Proof.Machine.execEnq q a s
  | .chlink q a => Sys2Proof.Machine.execChlink q a s
  | .chkick q a => Sys2Proof.Machine.execChkick q a s
  | .engstat q d => Sys2Proof.Machine.execEngstat q d s
  | .sheaf a => Sys2Proof.Machine.execSheaf a s
  | .vadd f r d a b mask => Sys2Proof.Machine.execVadd f r d a b mask s
  | .vsub f r d a b mask => Sys2Proof.Machine.execVsub f r d a b mask s
  | .vmul f r d a b mask => Sys2Proof.Machine.execVmul f r d a b mask s
  | .vmin f d a b mask => Sys2Proof.Machine.execVmin f d a b mask s
  | .vmax f d a b mask => Sys2Proof.Machine.execVmax f d a b mask s
  | .vfma f r d a b c => Sys2Proof.Machine.execVfma f r d a b c s
  | .vfms f r d a b c => Sys2Proof.Machine.execVfms f r d a b c s
  | .vabs f d a mask => Sys2Proof.Machine.execVabs f d a mask s
  | .vneg f d a mask => Sys2Proof.Machine.execVneg f d a mask s
  | .vrcp f r d a mask => Sys2Proof.Machine.execVrcp f r d a mask s
  | .vrsq f r d a mask => Sys2Proof.Machine.execVrsq f r d a mask s
  | .vsqrt f r d a mask => Sys2Proof.Machine.execVsqrt f r d a mask s
  | .vexp2 f r d a mask => Sys2Proof.Machine.execVexp2 f r d a mask s
  | .vlog2 f r d a mask => Sys2Proof.Machine.execVlog2 f r d a mask s
  | .vtanh f r d a mask => Sys2Proof.Machine.execVtanh f r d a mask s
  | .viadd f uns sat d a b mask => Sys2Proof.Machine.execViadd f uns sat d a b mask s
  | .visub f uns sat d a b mask => Sys2Proof.Machine.execVisub f uns sat d a b mask s
  | .vimul f uns sat d a b mask => Sys2Proof.Machine.execVimul f uns sat d a b mask s
  | .vimulh f uns d a b mask => Sys2Proof.Machine.execVimulh f uns d a b mask s
  | .vand f d a b mask => Sys2Proof.Machine.execVand f d a b mask s
  | .vor f d a b mask => Sys2Proof.Machine.execVor f d a b mask s
  | .vxor f d a b mask => Sys2Proof.Machine.execVxor f d a b mask s
  | .vshl f d a b mask => Sys2Proof.Machine.execVshl f d a b mask s
  | .vshr f d a b mask => Sys2Proof.Machine.execVshr f d a b mask s
  | .vsar f d a b mask => Sys2Proof.Machine.execVsar f d a b mask s
  | .vimin f uns d a b mask => Sys2Proof.Machine.execVimin f uns d a b mask s
  | .vimax f uns d a b mask => Sys2Proof.Machine.execVimax f uns d a b mask s
  | .vcmp cc f d a b mask => Sys2Proof.Machine.execVcmp cc f d a b mask s
  | .vsel f d a b c => Sys2Proof.Machine.execVsel f d a b c s
  | .vcvt fd fs r part d a => Sys2Proof.Machine.execVcvt fd fs r part d a s
  | .vtobi fd fs r part d a => Sys2Proof.Machine.execVtobi fd fs r part d a s
  | .vfrombi fd fs r part d a => Sys2Proof.Machine.execVfrombi fd fs r part d a s
  | .vrotr d a b => Sys2Proof.Machine.execVrotr d a b s
  | .vrotc d a b => Sys2Proof.Machine.execVrotc d a b s
  | .vbcr d a b => Sys2Proof.Machine.execVbcr d a b s
  | .vbcc d a b => Sys2Proof.Machine.execVbcc d a b s
  | .vscanr f r d a mask => Sys2Proof.Machine.execVscanr f r d a mask s
  | .vredr op f r uns d a mask => Sys2Proof.Machine.execVredr op f r uns d a mask s
  | .vredc op f r uns d a mask => Sys2Proof.Machine.execVredc op f r uns d a mask s
  | .vperm d a bw => Sys2Proof.Machine.execVperm d a bw s
  | .pset bw a => Sys2Proof.Machine.execPset bw a s
  | .vtopkr f d a b mask => Sys2Proof.Machine.execVtopkr f d a b mask s
  | .vbuck f uns d a b c => Sys2Proof.Machine.execVbuck f uns d a b c s
  | .vmov d a => Sys2Proof.Machine.execVmov d a s
  | .vget f d a b => Sys2Proof.Machine.execVget f d a b s
  | .vput f d a b c => Sys2Proof.Machine.execVput f d a b c s
  | .vli f d imm => Sys2Proof.Machine.execVli f d imm s
  | .oclaim first count => Sys2Proof.Machine.execOclaim first count s
  | .orelease first count => Sys2Proof.Machine.execOrelease first count s
  | .mstr a b => Sys2Proof.Machine.execMstr a b s
  | .mwait n => Sys2Proof.Machine.execMwait n s
  | .mcfg d a => Sys2Proof.Machine.execMcfg d a s
  | .mstat d => Sys2Proof.Machine.execMstat d s
  | .rwaitEnd r => Sys2Proof.Machine.execRwaitEnd r s
  | .evwaitEnd r => Sys2Proof.Machine.execEvwaitEnd r s
  | .bwaitEnd r => Sys2Proof.Machine.execBwaitEnd r s
  | .mwaitEnd r => Sys2Proof.Machine.execMwaitEnd r s
  | .waitiEnd r => Sys2Proof.Machine.execWaitiEnd r s
  | .wedge r => Sys2Proof.Machine.execWedge r s
  | .enqAppend r => Sys2Proof.Machine.execEnqAppend r s
  | .commandStart core q => Sys2Proof.Machine.execCommandStart core q s
  | .copy core q sel => Sys2Proof.Machine.execCopy core q sel s
  | .fill core q sel => Sys2Proof.Machine.execFill core q sel s
  | .convert core q sel => Sys2Proof.Machine.execConvert core q sel s
  | .gather core q sel => Sys2Proof.Machine.execGather core q sel s
  | .scatter core q sel => Sys2Proof.Machine.execScatter core q sel s
  | .encode core q sel => Sys2Proof.Machine.execEncode core q sel s
  | .a2a core q => Sys2Proof.Machine.execA2a core q s
  | .a2aDelivery index => Sys2Proof.Machine.execA2aDelivery index s
  | .commandRetire core q => Sys2Proof.Machine.execCommandRetire core q s
  | .chainFetch core q => Sys2Proof.Machine.execChainFetch core q s
  | .streamAppend r => Sys2Proof.Machine.execStreamAppend r s
  | .streamStart core => Sys2Proof.Machine.execStreamStart core s
  | .recordFetch core => Sys2Proof.Machine.execRecordFetch core s
  | .mma core => Sys2Proof.Machine.execMma core s
  | .mmaz core => Sys2Proof.Machine.execMmaz core s
  | .maddz core => Sys2Proof.Machine.execMaddz core s
  | .mscl core => Sys2Proof.Machine.execMscl core s
  | .mconv core => Sys2Proof.Machine.execMconv core s
  | .streamComplete core => Sys2Proof.Machine.execStreamComplete core s
  | .sequencerTrap r => Sys2Proof.Machine.execSequencerTrap r s
  | .accessPerform r q fill ecc => Sys2Proof.Machine.execAccessPerform r q fill ecc s
  | .redEntryPerform index => Sys2Proof.Machine.execRedEntryPerform index s
  | .lineWriteback line => Sys2Proof.Machine.execLineWriteback line s
  | .storeFaultReport r => Sys2Proof.Machine.execStoreFaultReport r s
  | .bankRetention core bank => Sys2Proof.Machine.execBankRetention core bank s
  | .bsigArrival who => Sys2Proof.Machine.execBsigArrival who s
  | .evsigArrival r => Sys2Proof.Machine.execEvsigArrival r s
  | .lockRequest r => Sys2Proof.Machine.execLockRequest r s
  | .lockRelease r => Sys2Proof.Machine.execLockRelease r s
  | .wound core choice => Sys2Proof.Machine.execWound core choice s
  | .trapEntry r => Sys2Proof.Machine.execTrapEntry r s
  | .tctlRequeue r choice => Sys2Proof.Machine.execTctlRequeue r choice s
  | .tctlFatal r cause => Sys2Proof.Machine.execTctlFatal r cause s
  | .codesetWrite r value => Sys2Proof.Machine.execCodesetWrite r value s
  | .lkmtxWrite r domain value => Sys2Proof.Machine.execLkmtxWrite r domain value s
  | .commitWindowExpiry core => Sys2Proof.Machine.execCommitWindowExpiry core s
  | .plotRetire core => Sys2Proof.Machine.execPlotRetire core s
  | .pairCompare slot plot => Sys2Proof.Machine.execPairCompare slot plot s
  | .claim w => Sys2Proof.Machine.execClaim w s
  | .leaseRenew port value => Sys2Proof.Machine.execLeaseRenew port value s
  | .ownershipLapse => Sys2Proof.Machine.execOwnershipLapse s
  | .handover w => Sys2Proof.Machine.execHandover w s
  | .queueEnable port q value => Sys2Proof.Machine.execQueueEnable port q value s
  | .queueDisable port q value => Sys2Proof.Machine.execQueueDisable port q value s
  | .abort port q => Sys2Proof.Machine.execAbort port q s
  | .poke port q => Sys2Proof.Machine.execPoke port q s
  | .qtail port q value => Sys2Proof.Machine.execQtail port q value s
  | .sqEnable port value => Sys2Proof.Machine.execSqEnable port value s
  | .sqDisable port value => Sys2Proof.Machine.execSqDisable port value s
  | .sqtail port value => Sys2Proof.Machine.execSqtail port value s
  | .launchCheck q => Sys2Proof.Machine.execLaunchCheck q s
  | .waitdepRecheck => Sys2Proof.Machine.execWaitdepRecheck s
  | .dispatch => Sys2Proof.Machine.execDispatch s
  | .costSort slot segment => Sys2Proof.Machine.execCostSort slot segment s
  | .launchComplete slot => Sys2Proof.Machine.execLaunchComplete slot s
  | .steal thief slot => Sys2Proof.Machine.execSteal thief slot s
  | .coreHandout chip => Sys2Proof.Machine.execCoreHandout chip s
  | .plotStart core => Sys2Proof.Machine.execPlotStart core s
  | .walkerPreempt chip choice => Sys2Proof.Machine.execWalkerPreempt chip choice s
  | .persistentSwap core => Sys2Proof.Machine.execPersistentSwap core s
  | .teamResume core => Sys2Proof.Machine.execTeamResume core s
  | .election slot => Sys2Proof.Machine.execElection slot s
  | .gleaner chip => Sys2Proof.Machine.execGleaner chip s
  | .chipletFatal chip cause scanFails => Sys2Proof.Machine.execChipletFatal chip cause scanFails s
  | .deviceFatal cause => Sys2Proof.Machine.execDeviceFatal cause s
  | .sheafSubmit r => Sys2Proof.Machine.execSheafSubmit r s
  | .sheafTake => Sys2Proof.Machine.execSheafTake s
  | .sheafSplit id => Sys2Proof.Machine.execSheafSplit id s
  | .returnArrival id task tile => Sys2Proof.Machine.execReturnArrival id task tile s
  | .sheafTimeout id => Sys2Proof.Machine.execSheafTimeout id s
  | .invalidationStart port value => Sys2Proof.Machine.execInvalidationStart port value s
  | .invalidationDelivery => Sys2Proof.Machine.execInvalidationDelivery s
  | .invalidationDrain => Sys2Proof.Machine.execInvalidationDrain s
  | .warm w => Sys2Proof.Machine.execWarm w s
  | .fencectlFence port value => Sys2Proof.Machine.execFencectlFence port value s
  | .unfence port value => Sys2Proof.Machine.execUnfence port value s
  | .unfenceComplete chip passed => Sys2Proof.Machine.execUnfenceComplete chip passed s
  | .bankClear port bank => Sys2Proof.Machine.execBankClear port bank s
  | .injectionArm port value => Sys2Proof.Machine.execInjectionArm port value s
  | .sensorForce port value => Sys2Proof.Machine.execSensorForce port value s
  | .registerWrite port off value => Sys2Proof.Machine.execRegisterWrite port off value s
  | .hostWrite port pa bytes => Sys2Proof.Machine.execHostWrite port pa bytes s
  | .hostRead port bar addr n => Sys2Proof.Machine.execHostRead port bar addr n s
  | .migrationRequest core => Sys2Proof.Machine.execMigrationRequest core s
  | .migrationRetry core => Sys2Proof.Machine.execMigrationRetry core s
  | .migrationTimeout core => Sys2Proof.Machine.execMigrationTimeout core s
  | .migration core => Sys2Proof.Machine.execMigration core s
  | .lease seq watts durms => Sys2Proof.Machine.execLease seq watts durms s
  | .leaseLapse => Sys2Proof.Machine.execLeaseLapse s
  | .railChange rail => Sys2Proof.Machine.execRailChange rail s
  | .optTableLearn kernel phase edp => Sys2Proof.Machine.execOptTableLearn kernel phase edp s
  | .thermalThrottle chip => Sys2Proof.Machine.execThermalThrottle chip s
  | .thermalTrip chip => Sys2Proof.Machine.execThermalTrip chip s
  | .hbmRefresh chip => Sys2Proof.Machine.execHbmRefresh chip s
  | .hbmTrip chip => Sys2Proof.Machine.execHbmTrip chip s
  | .portRetrain port status => Sys2Proof.Machine.execPortRetrain port status s
  | .coldReset => Sys2Proof.Machine.execColdReset s
  | .perst port0 port1 => Sys2Proof.Machine.execPerst port0 port1 s
  | .bringUp data => Sys2Proof.Machine.execBringUp data s
  | .telemetry => Sys2Proof.Machine.execTelemetry s
  | .errbank n => Sys2Proof.Machine.execErrbank n s
  | .events index => Sys2Proof.Machine.execEvents index s
  | .fwupdate image => Sys2Proof.Machine.execFwupdate image s
  | .reset => Sys2Proof.Machine.execReset s
  | .getVersion => Sys2Proof.Machine.execGetVersion s
  | .getCapabilities => Sys2Proof.Machine.execGetCapabilities s
  | .negotiateAlgorithms => Sys2Proof.Machine.execNegotiateAlgorithms s
  | .getDigests => Sys2Proof.Machine.execGetDigests s
  | .getCertificate => Sys2Proof.Machine.execGetCertificate s
  | .challenge nonce => Sys2Proof.Machine.execChallenge nonce s
  | .getMeasurements => Sys2Proof.Machine.execGetMeasurements s
  | .sensorBelow85 core => Sys2Proof.Machine.execSensorBelow85 core s
  | .linkUp port => Sys2Proof.Machine.execLinkUp port s
  | .rowNeighbourLinkDown chip => Sys2Proof.Machine.execRowNeighbourLinkDown chip s
  | .fabricWindowArrival op => Sys2Proof.Machine.execFabricWindowArrival op s
  | .podTaskArrival descriptor => Sys2Proof.Machine.execPodTaskArrival descriptor s

end Sys2Proof.Machine
end

