-- ==== Sys2Proof/Machine/Step.lean ====
section
/-! DEFINITION. One step of the machine, and the placing of one syllable for the next step. -/

namespace Sys2Proof.Machine

/-- One step: the agent that `turn` names moves, else the default one. -/
def step (s : State) : Host.Outcome State Fault Refusal := nextMove exec s

/-- A state whose very next step fetches and runs the syllable with these bits. -/
def State.withFetchWord (s : State) (nbits w : Nat) : State := s.placeWord (BitVec.ofNat 64 (w % 2 ^ nbits))

end Sys2Proof.Machine
end

