-- ==== Sys2Proof/Safety.lean ====
section
/-! DEFINITION. The vocabulary of the statements: canonical memory, what a syllable leaves alone, and what the rules
give as results. -/

namespace Sys2Proof.Machine

/-- The memory is in canonical form: addresses strictly rise, and no listed byte is the unlisted one. -/
def State.memWf (s : State) : Prop := Mem.wf s.mem = true

/-- The event recorded last (R445): its type, cause, source, address and detail, beside its number. -/
def State.lastEvent (t : State) (type cause source addr detail : Nat) : Prop :=
  ∃ n time, t.hub.evcount = n + 1 ∧ tfind t.hub.evring (n % 4096) = some
    ⟨time, BitVec.ofNat 64 (type * 2 ^ 56 + cause % 256 * 2 ^ 48 + source % 2 ^ 16 * 2 ^ 32 + n % 2 ^ 32),
      BitVec.ofNat 64 addr, BitVec.ofNat 64 detail⟩

/-! ### Syllables at issue -/

/-- A syllable issues alone: it has written nothing and begun no wait yet. -/
def State.freshIssue (s : State) : Bool :=
  s.issue.alone && s.issue.writes.isEmpty && s.issue.waits.isEmpty

/-- Two states agree on everything but the context at issue and the record of the issue itself: memory, slices, hub,
locks, every other core, the core's pool, L1 and translations, the team's rings, events, queues, slots and streams,
and the team's other contexts. -/
structure Elsewhere (s t : State) : Prop where
  now : t.now = s.now
  turn : t.turn = s.turn
  cycleAcc : t.cycleAcc = s.cycleAcc
  freeSeed : t.freeSeed = s.freeSeed
  mem : t.mem = s.mem
  hostSectors : t.hostSectors = s.hostSectors
  l2 : t.l2 = s.l2
  l2Tags : t.l2Tags = s.l2Tags
  tensorLines : t.tensorLines = s.tensorLines
  owners : t.owners = s.owners
  redEntries : t.redEntries = s.redEntries
  poison : t.poison = s.poison
  flips : t.flips = s.flips
  orphans : t.orphans = s.orphans
  locks : t.locks = s.locks
  chips : t.chips = s.chips
  launches : t.launches = s.launches
  sheaves : t.sheaves = s.sheaves
  images : t.images = s.images
  messages : t.messages = s.messages
  farCommands : t.farCommands = s.farCommands
  hub : t.hub = s.hub
  outbox : t.outbox = s.outbox
  cores : ∀ q, q ≠ s.issue.core → t.core q = s.core q
  core : t.core s.issue.core = { s.core s.issue.core with team := t.team s.issue.core }
  team : t.team s.issue.core = { s.team s.issue.core with ctxs := (t.team s.issue.core).ctxs }
  ctxs : ∀ j, j ≠ s.issue.ctx → t.ctx s.issue.core j = s.ctx s.issue.core j

/-! ### Bundles that issue together -/

/-- The slots of a bundle with a syllable for each cluster, under guard p0. -/
def bundleOf (i : Cluster → Instr) (w : Cluster → W64) : List (Cluster × Slot) :=
  Cluster.all.map fun q => (q, ⟨w q, some ⟨false, 0, false, i q⟩⟩)

/-- One syllable for each cluster, in slot order (R159). -/
def inSlots (c a v m : Instr) : Cluster → Instr
  | .c => c
  | .a => a
  | .v => v
  | .m => m

/-- All four clusters have issued from a context (R24). -/
def State.begunAll (s : State) (p k : Nat) : State := Cluster.all.foldl (fun s q => s.beginSlot p k q 0 0 false) s

/-- Each counter at the next bundle (R159). -/
def Ctx.pastBundle (c : Ctx) : Ctx := (((c.advance .c).advance .a).advance .v).advance .m

/-- A sync bundle has issued in full: no syllable is at issue, ISSUED has counted four (R210), the context is as said,
and nothing else has changed. -/
structure BundleIssued (s : State) (p k : Nat) (c : Ctx) (u : State) : Prop where
  idle : u.issue = Issue.idle
  elsewhere : Elsewhere (s.begunAll p k) u
  ctx : u.ctx p k = { c with issued := c.issued + 4, lastIssue := s.now }

/-- The target of a BR-format displacement in a slot of a bundle (R154). -/
def slotTarget (pc : W64) (q : Cluster) (disp : BitVec 32) : W64 :=
  pc + BitVec.ofNat 64 (8 * Cluster.index q) + BitVec.ofInt 64 (8 * disp.toInt)

/-- A scalar destination takes a write of a cluster now: z always; else no other cluster has bound it (R190), and a
push finds room (R187). -/
def Ctx.takes (c : Ctx) (cl : Cluster) (d : Dst) : Bool :=
  let q := c.squeue d.reg.toNat
  d.reg.toNat == 63
    || ((q.producer == none || q.producer == some cl)
      && ((d.mode == .replace && !q.entries.isEmpty) || q.entries.length < queueDepth d.reg.toNat))

/-- WriteDst (R187): z discards; a replace supersedes the newest entry; else the entry is pushed, the drop mark is
cleared and the register is LIVE.  The register is bound to the cluster (R190); bq holds bit 0 (R184). -/
def Ctx.put (c : Ctx) (cl : Cluster) (d : Dst) (e : SEntry) : Ctx :=
  if d.reg.toNat = 63 then c
  else
    let q := c.squeue d.reg.toNat
    let e := if d.reg.toNat = 61 then bqEntry e else e
    c.setSqueue d.reg.toNat
      (if d.mode = .replace ∧ q.entries ≠ [] then
        { q with entries := q.entries.dropLast ++ [e], retain := false, producer := some cl }
      else ⟨q.entries ++ [e], false, false, .live, some cl⟩)

/-- ISSUED counts one syllable (R210). -/
def Ctx.counted (c : Ctx) (now : Nat) : Ctx := { c with issued := c.issued + 1, lastIssue := now }

/-- The context after a syllable of a cluster has issued alone: its counter stands at the next syllable of a stream, or
at the next bundle (R159, R164), and ISSUED has counted it. -/
def Ctx.past (c : Ctx) (cl : Cluster) (now : Nat) : Ctx := (c.advance cl).counted now

/-- A vector destination takes a write of a cluster now (R187, R190). -/
def Ctx.vtakes (c : Ctx) (cl : Cluster) (d : VDst) : Bool :=
  let q := c.vqueue d.reg.toNat
  (q.producer == none || q.producer == some cl)
    && ((d.mode == .replace && !q.entries.isEmpty) || q.entries.length < 2)

/-- WriteDst of a vector register (R187, R190). -/
def Ctx.vput (c : Ctx) (cl : Cluster) (d : VDst) (e : VEntry) : Ctx :=
  let q := c.vqueue d.reg.toNat
  c.setVqueue d.reg.toNat
    (if d.mode = .replace ∧ q.entries ≠ [] then
      { q with entries := q.entries.dropLast ++ [e], retain := false, producer := some cl }
    else ⟨q.entries ++ [e], false, false, .live, some cl⟩)

/-- A predicate of a cluster is written; a write to p0 is discarded (R202). -/
def Ctx.putPred (c : Ctx) (cl : Cluster) (p : Pred) (b : Bool) : Ctx :=
  if p = 0 then c
  else Ctx.setCluster c cl { Ctx.cluster c cl with preds :=
    if b then (Ctx.cluster c cl).preds ||| (1#64 <<< p.toNat) else (Ctx.cluster c cl).preds &&& ~~~(1#64 <<< p.toNat) }

/-- A taken transfer moves all four counters in lockstep, the cluster's own in a stream (R203); a cluster that stalled
runs again. -/
def Ctx.transferred (c : Ctx) (cl : Cluster) (target : W64) : Ctx :=
  if c.apart then Ctx.setCluster c cl { (Ctx.cluster c cl).resume with pc := target, next := none }
  else { c with
    c := { c.c.resume with pc := target, next := none }
    a := { c.a.resume with pc := target, next := none }
    v := { c.v.resume with pc := target, next := none }
    m := { c.m.resume with pc := target, next := none } }

/-- What a taken transfer requires of its target (R167, R203). -/
def Ctx.targetOk (c : Ctx) (target : W64) : Bool := target.toNat % (if c.apart then 8 else 32) == 0

/-- The target of a BR-format displacement: the syllable's own address + 8 × displacement32 (R154). -/
def State.brTarget (s : State) (disp : BitVec 32) : W64 := s.issue.pc + BitVec.ofInt 64 (8 * disp.toInt)

/-- Two sources, one result: what R196, R197 and R199 give for d. -/
inductive BinaryRule : Instr → Dst → Src → Src → (W64 → W64 → W64) → Prop where
  | add (d a b) : BinaryRule (.add d a b) d a b fun x y => BitVec.ofNat 64 (x.toNat + y.toNat)
  | sub (d a b) : BinaryRule (.sub d a b) d a b fun x y => BitVec.ofInt 64 ((x.toNat : Int) - y.toNat)
  | and (d a b) : BinaryRule (.and d a b) d a b fun x y => x &&& y
  | or (d a b) : BinaryRule (.or d a b) d a b fun x y => x ||| y
  | xor (d a b) : BinaryRule (.xor d a b) d a b fun x y => x ^^^ y
  | andn (d a b) : BinaryRule (.andn d a b) d a b fun x y => x &&& ~~~y
  | shl (d a b) : BinaryRule (.shl d a b) d a b fun x y => BitVec.ofNat 64 (x.toNat * 2 ^ (y.toNat % 64))
  | shr (d a b) : BinaryRule (.shr d a b) d a b fun x y => BitVec.ofNat 64 (x.toNat / 2 ^ (y.toNat % 64))
  | sar (d a b) : BinaryRule (.sar d a b) d a b fun x y => BitVec.ofInt 64 (x.toInt / 2 ^ (y.toNat % 64))
  | rol (d a b) : BinaryRule (.rol d a b) d a b fun x y =>
      x <<< (y.toNat % 64) ||| x >>> (64 - y.toNat % 64)
  | min (d a b) : BinaryRule (.min d a b) d a b fun x y => if x.toInt ≤ y.toInt then x else y
  | minn (d a b) : BinaryRule (.minn d a b) d a b fun x y => if x.toNat ≤ y.toNat then x else y
  | max (d a b) : BinaryRule (.max d a b) d a b fun x y => if y.toInt ≤ x.toInt then x else y
  | maxn (d a b) : BinaryRule (.maxn d a b) d a b fun x y => if y.toNat ≤ x.toNat then x else y
  | mul (d a b) : BinaryRule (.mul d a b) d a b fun x y => BitVec.ofNat 64 (x.toNat * y.toNat)
  | mulh (d a b) : BinaryRule (.mulh d a b) d a b fun x y => BitVec.ofInt 64 (x.toInt * y.toInt / 2 ^ 64)
  | mulhn (d a b) : BinaryRule (.mulhn d a b) d a b fun x y => BitVec.ofNat 64 (x.toNat * y.toNat / 2 ^ 64)
  | div (d a b) : BinaryRule (.div d a b) d a b fun x y =>
      if y = 0 then 0xFFFFFFFFFFFFFFFF
      else if x = 0x8000000000000000 ∧ y = 0xFFFFFFFFFFFFFFFF then 0x8000000000000000
      else BitVec.ofInt 64 (x.toInt.tdiv y.toInt)
  | divn (d a b) : BinaryRule (.divn d a b) d a b fun x y =>
      if y = 0 then 0xFFFFFFFFFFFFFFFF else BitVec.ofNat 64 (x.toNat / y.toNat)
  | rem (d a b) : BinaryRule (.rem d a b) d a b fun x y =>
      if y = 0 then x
      else if x = 0x8000000000000000 ∧ y = 0xFFFFFFFFFFFFFFFF then 0
      else BitVec.ofInt 64 (x.toInt - y.toInt * x.toInt.tdiv y.toInt)
  | remn (d a b) : BinaryRule (.remn d a b) d a b fun x y =>
      if y = 0 then x else BitVec.ofNat 64 (x.toNat % y.toNat)
  | lea (d a b k) : BinaryRule (.lea d a b k) d a b fun x y => x + BitVec.ofNat 64 (y.toNat * 2 ^ k.toNat)

/-- Source A, one result: what R198 and R201 give for d. -/
inductive UnaryRule : Instr → Dst → Src → (W64 → W64) → Prop where
  | abs (d a) : UnaryRule (.abs d a) d a fun x => if 0 ≤ x.toInt then x else BitVec.ofInt 64 (-x.toInt)
  | clz (d a) : UnaryRule (.clz d a) d a fun x =>
      BitVec.ofNat 64 (((List.range 64).reverse.takeWhile fun i => !x.getLsbD i).length)
  | ctz (d a) : UnaryRule (.ctz d a) d a fun x =>
      BitVec.ofNat 64 (((List.range 64).takeWhile fun i => !x.getLsbD i).length)
  | popc (d a) : UnaryRule (.popc d a) d a fun x =>
      BitVec.ofNat 64 (((List.range 64).filter fun i => x.getLsbD i).length)
  | addi (d a imm) : UnaryRule (.addi d a imm) d a fun x => x + BitVec.ofInt 64 imm.toInt
  | andi (d a imm) : UnaryRule (.andi d a imm) d a fun x => x &&& BitVec.ofInt 64 imm.toInt
  | ori (d a imm) : UnaryRule (.ori d a imm) d a fun x => x ||| BitVec.ofInt 64 imm.toInt
  | xori (d a imm) : UnaryRule (.xori d a imm) d a fun x => x ^^^ BitVec.ofInt 64 imm.toInt
  | shli (d a n) : UnaryRule (.shli d a n) d a fun x => BitVec.ofNat 64 (x.toNat * 2 ^ n.toNat)
  | shri (d a n) : UnaryRule (.shri d a n) d a fun x => BitVec.ofNat 64 (x.toNat / 2 ^ n.toNat)
  | sari (d a n) : UnaryRule (.sari d a n) d a fun x => BitVec.ofInt 64 (x.toInt / 2 ^ n.toNat)
  | lih (d a imm) : UnaryRule (.lih d a imm) d a fun x => BitVec.ofNat 64 (x.toNat * 2 ^ 24 + imm.toNat)

/-- When a cc b holds: unsigned codes compare as n64, the others as i64 (R158, R200). -/
def ccSays (cc : Cc) (x y : W64) : Bool :=
  match cc with
  | .eq => x == y
  | .ne => x != y
  | .lt => decide (x.toInt < y.toInt)
  | .ge => decide (y.toInt ≤ x.toInt)
  | .le => decide (x.toInt ≤ y.toInt)
  | .gt => decide (y.toInt < x.toInt)
  | .ltn => decide (x.toNat < y.toNat)
  | .gen => decide (y.toNat ≤ x.toNat)
  | .len => decide (x.toNat ≤ y.toNat)
  | .gtn => decide (y.toNat < x.toNat)
  | .un => false

/-- One predicate from predicates of the executing cluster (R202). -/
inductive PredRule : Instr → Pred → (State → Bool) → Prop where
  | pand (d a b) : PredRule (.pand d a b) d fun s => s.pred a.toNat && s.pred b.toNat
  | por (d a b) : PredRule (.por d a b) d fun s => s.pred a.toNat || s.pred b.toNat
  | pxor (d a b) : PredRule (.pxor d a b) d fun s => s.pred a.toNat ^^ s.pred b.toNat
  | pandn (d a b) : PredRule (.pandn d a b) d fun s => s.pred a.toNat && !s.pred b.toNat
  | pnot (d a) : PredRule (.pnot d a) d fun s => !s.pred a.toNat
  | pmov (d a) : PredRule (.pmov d a) d fun s => s.pred a.toNat

/-- A trap taken at the issuing syllable (R393). -/
def State.trapHere (s : State) (cause : Nat) (value : W64) : State :=
  s.raise s.issue.core s.issue.ctx ⟨cause, value, s.issue.cluster, false⟩

/-! ### Memory -/

/-- A load takes its place behind the context's other loads, with a fresh tag for its entry (R189, R378). -/
def Ctx.queuedLoad (c : Ctx) (kind : AccKind) (acquire : Option Scope) (pieces : List Piece) : Ctx :=
  { c with
    nextTag := c.nextTag + 1
    nextSeq := c.nextSeq + 1
    loadQ := c.loadQ ++ [⟨c.nextSeq, kind, acquire, none, pieces, false, [], [], false, false⟩] }

/-- A store or atomic takes its place behind the context's others (R378). -/
def Ctx.queuedStore (c : Ctx) (kind : AccKind) (acquire release : Option Scope) (pieces : List Piece)
    (lastUse : Bool) (poison : List Nat) : Ctx :=
  { c with
    nextSeq := c.nextSeq + 1
    storeQ := c.storeQ ++ [⟨c.nextSeq, kind, acquire, release, pieces, lastUse, [], poison, false, false⟩] }

/-- The scope at which an ordered access acquires or releases (R155). -/
def scopeOf : Space → Option Scope
  | .virt => none
  | .virtOrdered sc => some sc
  | .own false _ _ => none
  | .own true _ _ => some .team

/-- The operands of a whole-entry vector memory access: its rows as (address, offset, bytes), its agent, and its kind
of transfer (R258 to R262). -/
inductive VLoadRule (s : State) : State → Instr → Agent → Fmt → Bool → VDst → Space → List (W64 × Nat × Nat) → Prop where
  | vldr (f d m s1 ea) : memAddress m 64 s = .ok (ea, s1) → ea.toNat % 64 = 0 → f ≠ .ra →
      VLoadRule s s1 (.vldr f d m) .vload f false d m.space [(ea, 0, 4096)]
  | vldrRa (d m s1 ea) : memAddress m 64 s = .ok (ea, s1) → ea.toNat % 64 = 0 →
      VLoadRule s s1 (.vldr .ra d m) .raLoad .ra false d m.space [(ea, 0, 16384)]
  | vldc (f d m s1 ea) : memAddress m 64 s = .ok (ea, s1) → ea.toNat % 64 = 0 →
      VLoadRule s s1 (.vldc f d m) .vload f true d m.space [(ea, 0, 4096)]
  | vgth (f d m s1 s2 b idx) : readSrc m.base s = .ok (b, s1) → readVecOf m.index (rowReads 0 4) s1 = .ok (idx, s2) →
      (∀ i, i < 16 → (b + m.disp.signExtend 64 * 64 + (idx.extractLsb' (2048 * i) 32).signExtend 64).toNat % 64 = 0) →
      VLoadRule s s2 (.vgth f d m) .vload f false d m.space ((List.range 16).map fun i =>
        (b + m.disp.signExtend 64 * 64 + (idx.extractLsb' (2048 * i) 32).signExtend 64, 256 * i, 256))

/-- The operands of a vector store: its rows, its data and the data's poisoned sectors (R260, R261, R440). -/
inductive VStoreRule (s : State) : State → Instr → Space → List (W64 × Nat × Nat) → List Byte → List Nat → Prop where
  | vstr (f v m s1 s2 ea b marks) : memAddress m 64 s = .ok (ea, s1) → readVecP v s1 = .ok ((b, marks), s2) →
      ea.toNat % 64 = 0 →
      VStoreRule s s2 (.vstr f v m) m.space [(ea, 0, 4096)] (imageBytes b) (dataPoison id marks)
  | vstc (f v m s1 s2 ea b marks) : memAddress m 64 s = .ok (ea, s1) → readVecP v s1 = .ok ((b, marks), s2) →
      ea.toNat % 64 = 0 →
      VStoreRule s s2 (.vstc f v m) m.space [(ea, 0, 4096)] (columnBytes f b)
        (dataPoison (columnIndex (Fmt.elemWidth f / 8)) marks)
  | vsct (f v m s1 s2 s3 b idx x marks) : readSrc m.base s = .ok (b, s1) → readVecOf m.index (rowReads 0 4) s1 = .ok (idx, s2) →
      readVecP v s2 = .ok ((x, marks), s3) →
      (∀ i, i < 16 → (b + m.disp.signExtend 64 * 64 + (idx.extractLsb' (2048 * i) 32).signExtend 64).toNat % 64 = 0) →
      VStoreRule s s3 (.vsct f v m) m.space ((List.range 16).map fun i =>
        (b + m.disp.signExtend 64 * 64 + (idx.extractLsb' (2048 * i) 32).signExtend 64, 256 * i, 256))
        (imageBytes x) (dataPoison id marks)

/-- A team whose later run performs nothing outside its core (R435). -/
def State.suppressedHere (s : State) : Bool := 2 ≤ (s.team s.issue.core).pairRun.toNat

/-! ### Synchronising -/

/-- What an AMO makes of the old value of its word, with operands b and c (R354, R356). -/
def amoGives (op : AmoOp) (ty : AmoTy) (old : Nat) (b c : W64) : Nat :=
  let w := 8 * AmoTy.size ty
  let x := b.toNat % 2 ^ w
  match op with
  | .add => (old + b.toNat) % 2 ^ w
  | .and => Nat.land old x
  | .or => Nat.lor old x
  | .xor => Nat.xor old x
  | .min => if signedOf w old ≤ signedOf w x then old else x
  | .max => if signedOf w old < signedOf w x then x else old
  | .minn => if old ≤ x then old else x
  | .maxn => if old < x then x else old
  | .swp => x
  | .cas _ => if old = x then c.toNat % 2 ^ w else old
  | .fadd => amoFadd ty old x

/-- The next lq entry is reserved (R189); lq is not bound to a producer (R190). -/
def Ctx.putLq (c : Ctx) (e : SEntry) : Ctx :=
  let q := c.squeue 60
  c.setSqueue 60 ⟨q.entries ++ [e], false, false, .live, q.producer⟩

/-- A cluster that waited runs on past its wait instruction, or where a transfer of its bundle went (R161). -/
def Ctx.resumed (c : Ctx) (cl : Cluster) : Ctx :=
  let x := Ctx.cluster c cl
  Ctx.setCluster c cl { x with
    pc := match x.next with | some t => t | none => x.pc + (if c.apart then 8 else 32)
    status := .running
    next := none }

/-- A CSRX has written the old value of its CSR to its destination (R208). -/
def Ctx.oldTo (c : Ctx) (dst : Option Dst) (old : W64) : Ctx :=
  match dst with
  | some d => c.put .c d (.ready old false)
  | none => c

/-- A cluster stands in a wait instruction and waits for something. -/
def Ctx.waitsFor (c : Ctx) (cl : Cluster) (w : WaitFor) : Prop :=
  ∃ popped, (Ctx.cluster c cl).status = .waiting w popped

/-! ### Engine commands -/

/-- The sectors that the rows of a region and their scale codes lie in. -/
def regionSectors (d : Side) : List Nat := (d.rows.flatMap (rowSectors d)).eraseDups

/-- The bytes of a region whose elements and scale codes are given (R64, R65). -/
def regionBytes (d : Side) (cell : Index → Cell) : List OutByte :=
  (d.rows.flatMap (rowOut d cell)).filter fun o => (regionSectors d).contains (o.va / 32)

/-- The rows that a GATHER or SCATTER moves into a destination (R276). -/
def movedRows (d : Side) (r : Rec) (ix : Mem) : List (Row × Option Row) :=
  (gatherMoves r ix).filter fun mv => !(rowSectors d mv.1).isEmpty

/-- The command at a position of a queue has ended its data step. -/
def State.dataEnded (s : State) (p q i : Nat) (r : Rec) : Prop :=
  ∃ c, ((s.team p).queue q).cmds[i]? = some c ∧ c.dataDone = true ∧ c.bytes = r

/-! ### Vector results -/

/-- A mask enables element n (R290). -/
def enabledAt (en : List Bool) (n : Nat) : Bool := en.getD n false

/-- The context after a vector result of elements with flags (R43, R187). -/
def Ctx.vresult (c : Ctx) (cl : Cluster) (d : VDst) (z : VBits) (fl : List Flags) : Ctx :=
  ({ c with fpstat := c.fpstat ||| orFlags fl } : Ctx).vput cl d (.ready z 0)

/-- Element-wise `op vD, vA, vB` with an optional mask: what R296 and R300 give for an element, with its flags. -/
inductive VBinRule : Instr → Fmt → VDst → VSrc → VSrc → Option VSrc → (Nat → Nat → Nat × Flags) → Prop where
  | vadd (f r d a b k) : VBinRule (.vadd f r d a b k) f d a b k fun x y => f.params.add r (f.num x) (f.num y)
  | vsub (f r d a b k) : VBinRule (.vsub f r d a b k) f d a b k fun x y => f.params.add r (f.num x) (f.num y).neg
  | vmul (f r d a b k) : VBinRule (.vmul f r d a b k) f d a b k fun x y => f.params.mul r (f.num x) (f.num y)
  | vmin (f d a b k) : VBinRule (.vmin f d a b k) f d a b k fun x y => f.params.minMax false x y
  | vmax (f d a b k) : VBinRule (.vmax f d a b k) f d a b k fun x y => f.params.minMax true x y
  | viadd (f u s d a b k) : VBinRule (.viadd f u s d a b k) f d a b k fun x y =>
      narrow u s f.elemWidth (intOf u f.elemWidth x + intOf u f.elemWidth y)
  | visub (f u s d a b k) : VBinRule (.visub f u s d a b k) f d a b k fun x y =>
      narrow u s f.elemWidth (intOf u f.elemWidth x - intOf u f.elemWidth y)
  | vimul (f u s d a b k) : VBinRule (.vimul f u s d a b k) f d a b k fun x y =>
      narrow u s f.elemWidth (intOf u f.elemWidth x * intOf u f.elemWidth y)
  | vimulh (f u d a b k) : VBinRule (.vimulh f u d a b k) f d a b k fun x y =>
      (wrapInt f.elemWidth (intOf u f.elemWidth x * intOf u f.elemWidth y / 2 ^ f.elemWidth), 0)
  | vand (f d a b k) : VBinRule (.vand f d a b k) f d a b k fun x y => (x &&& y, 0)
  | vor (f d a b k) : VBinRule (.vor f d a b k) f d a b k fun x y => (x ||| y, 0)
  | vxor (f d a b k) : VBinRule (.vxor f d a b k) f d a b k fun x y => (x ^^^ y, 0)
  | vshl (f d a b k) : VBinRule (.vshl f d a b k) f d a b k fun x y => (x * 2 ^ (y % f.elemWidth), 0)
  | vshr (f d a b k) : VBinRule (.vshr f d a b k) f d a b k fun x y => (x / 2 ^ (y % f.elemWidth), 0)
  | vsar (f d a b k) : VBinRule (.vsar f d a b k) f d a b k fun x y =>
      (wrapInt f.elemWidth (signedOf f.elemWidth x / 2 ^ (y % f.elemWidth)), 0)
  | vimin (f u d a b k) : VBinRule (.vimin f u d a b k) f d a b k fun x y =>
      (if intOf u f.elemWidth y < intOf u f.elemWidth x then y else x, 0)
  | vimax (f u d a b k) : VBinRule (.vimax f u d a b k) f d a b k fun x y =>
      (if intOf u f.elemWidth x < intOf u f.elemWidth y then y else x, 0)

/-- Element-wise `op vD, vA` with an optional mask (R298, R299). -/
inductive VUnRule : Instr → Fmt → VDst → VSrc → Option VSrc → (Nat → Nat × Flags) → Prop where
  | vabs (f d a k) : VUnRule (.vabs f d a k) f d a k fun x => (x % 2 ^ (f.elemWidth - 1), 0)
  | vneg (f d a k) : VUnRule (.vneg f d a k) f d a k fun x => ((x + 2 ^ (f.elemWidth - 1)) % 2 ^ f.elemWidth, 0)
  | vrcp (f r d a k) : VUnRule (.vrcp f r d a k) f d a k fun x => SpecialFn.rcp.eval f.params r (f.num x)
  | vrsq (f r d a k) : VUnRule (.vrsq f r d a k) f d a k fun x => SpecialFn.rsq.eval f.params r (f.num x)
  | vsqrt (f r d a k) : VUnRule (.vsqrt f r d a k) f d a k fun x => SpecialFn.sqrt.eval f.params r (f.num x)
  | vexp2 (f r d a k) : VUnRule (.vexp2 f r d a k) f d a k fun x => SpecialFn.exp2.eval f.params r (f.num x)
  | vlog2 (f r d a k) : VUnRule (.vlog2 f r d a k) f d a k fun x => SpecialFn.log2.eval f.params r (f.num x)
  | vtanh (f r d a k) : VUnRule (.vtanh f r d a k) f d a k fun x => SpecialFn.tanh.eval f.params r (f.num x)

/-- Moves by an amount from B: which cell of A cell n of D is, n being 64 row + column (R305). -/
inductive VMoveRule : Instr → VDst → VSrc → Src → (Nat → Nat → Nat) → Prop where
  | vrotr (d a b) : VMoveRule (.vrotr d a b) d a b fun k n => 64 * (n / 64) + (n % 64 + k) % 64
  | vrotc (d a b) : VMoveRule (.vrotc d a b) d a b fun k n => 64 * ((n / 64 + k) % 16) + n % 64
  | vbcr (d a b) : VMoveRule (.vbcr d a b) d a b fun k n => 64 * (n / 64) + k % 64
  | vbcc (d a b) : VMoveRule (.vbcc d a b) d a b fun k n => 64 * (k % 16) + n % 64

/-! ### Matrix -/

/-- A stream after a number of tile issues of its record (R86, R318, R326). -/
def Stream.stepped (x : Stream) (r : Rec) (issues : Nat) (fl : Flags) : Stream :=
  if x.tile + issues < recTiles r then { x with flags := x.flags ||| fl, tile := x.tile + issues }
  else { x with flags := x.flags ||| fl, record := none, index := x.index + 1 }

/-- A tile issue is due: the stream in work holds this record, and no REDs are merged at the core's port. -/
def State.tileDue (s : State) (p i : Nat) (x : Stream) (r : Rec) : Prop :=
  (s.core p).resident = true ∧ (s.team p).current = some (i, x) ∧ x.record = some r ∧
    ∀ e ∈ s.redEntries, e.core ≠ some p

/-- A tile at an offset of Z lies in the buffer (R331). -/
def State.inZ (s : State) (p : Nat) (z : Int) : Prop := 0 ≤ z ∧ z.toNat + 16384 ≤ (s.team p).bufSize .z

/-- Bytes stand at an offset of a buffer of a core's pool. -/
def State.poolHolds (s : State) (p start off : Nat) (bs : List Byte) : Prop :=
  Mem.read (s.core p).pool (start + off) bs.length = bs

end Sys2Proof.Machine
end

