-- ==== Sys2Proof/Certificates/Slice0/Obligations.lean ====
section
/-! DEFINITION. The statements for the provers. -/

open Sys2Proof Sys2Proof.Machine

/-- Decode and encode agree (R147, R153, R169 to R175): no bit of an encoding is dropped. -/
def Obligations.DecodeUndoesEncode : Prop :=
  ∀ y : Syllable, y.wf = true → decodeWord y.encode = .ok y

/-- No must-be-zero bit is ignored (R9, R148), so no two words name one syllable. -/
def Obligations.DecodedWordIsEncoding : Prop :=
  (∀ (w : W64) (y : Syllable), decodeWord w = .ok y → y.wf = true ∧ y.encode = w) ∧
  (∀ (v w : W64) (y : Syllable), decodeWord v = .ok y → decodeWord w = .ok y → v = w)

/-- Words laid out field by field from the tables: NOP, the worked LIH of R201, an ADD, a BR back by one syllable, a
CSRR of 0x80, an LD.n32 from the Y buffer, a VADD.f32 under a mask, an AMO.add and a LOCK.  Reserved majors and impure NOPs (R169, R170) decode to nothing. -/
def Obligations.WordsDecode : Prop :=
  (decodeWord 0 = .ok ⟨false, 0, false, .nop⟩ ∧
    decodeWord 0x08008283579BDE08 = .ok ⟨false, 0, false, .lih ⟨.replace, 1⟩ ⟨.keep, 1⟩ 0xABCDEF⟩ ∧
    decodeWord (BitVec.ofNat 64 (2 ^ 63 + 1 * 2 ^ 56 + 5 * 2 ^ 50 + 1 * 2 ^ 49 + 3 * 2 ^ 41 + (64 + 1) * 2 ^ 33 + 2 * 2 ^ 25)) =
      .ok ⟨true, 5, true, .add ⟨.push, 3⟩ ⟨.keep, 1⟩ ⟨.pop, 2⟩⟩ ∧
    decodeWord (BitVec.ofNat 64 (0x20 * 2 ^ 56 + 0xFFFFFFFF * 2 ^ 9)) = .ok ⟨false, 0, false, .br 0xFFFFFFFF⟩ ∧
    decodeWord (BitVec.ofNat 64 (0x29 * 2 ^ 56 + 4 * 2 ^ 41 + 0x80 * 2 ^ 17)) =
      .ok ⟨false, 0, false, .csrr ⟨.push, 4⟩ 0x80⟩ ∧
    decodeWord (BitVec.ofNat 64 (0x30 * 2 ^ 56 + 5 * 2 ^ 41 + (64 + 2) * 2 ^ 33 + 63 * 2 ^ 25 + 0 * 2 ^ 9 + 2 * 2 ^ 6 + 2 * 2 ^ 4 + 2)) =
      .ok ⟨false, 0, false, .ld .n32 ⟨.push, 5⟩ ⟨⟨.keep, 2⟩, ⟨.pop, 63⟩, 0, .own false false .y⟩⟩ ∧
    decodeWord (BitVec.ofNat 64 (0x50 * 2 ^ 56 + 1 * 2 ^ 41 + 2 * 2 ^ 33 + 3 * 2 ^ 25 + (64 + 4) * 2 ^ 17 + 4)) =
      .ok ⟨false, 0, false, .vadd .fp32 .rne ⟨.push, 1⟩ ⟨.pop, 2⟩ ⟨.pop, 3⟩ (some ⟨.keep, 4⟩)⟩ ∧
    decodeWord (BitVec.ofNat 64 (0x39 * 2 ^ 56 + 1 * 2 ^ 33 + 2 * 2 ^ 25 + 3 * 2 ^ 12 + 4 * 2 ^ 9 + 3 * 2 ^ 7)) =
      .ok ⟨false, 0, false, .amo .add .n64 .pkg .acqRel ⟨.pop, 1⟩ ⟨.pop, 2⟩⟩ ∧
    decodeWord (BitVec.ofNat 64 (0x3B * 2 ^ 56 + 7 * 2 ^ 33 + 2 * 2 ^ 5 + 1 * 2 ^ 3 + 5)) =
      .ok ⟨false, 0, false, .lock .x 1 .line ⟨.pop, 7⟩⟩) ∧
  (∀ w : W64,
      ((0x09 ≤ w.toNat / 2 ^ 56 % 128 ∧ w.toNat / 2 ^ 56 % 128 ≤ 0x0F) ∨
        (0x11 ≤ w.toNat / 2 ^ 56 % 128 ∧ w.toNat / 2 ^ 56 % 128 ≤ 0x1F) ∨
        (0x2C ≤ w.toNat / 2 ^ 56 % 128 ∧ w.toNat / 2 ^ 56 % 128 ≤ 0x2F) ∨
        (0x40 ≤ w.toNat / 2 ^ 56 % 128 ∧ w.toNat / 2 ^ 56 % 128 ≤ 0x4F) ∨
        (0x5D ≤ w.toNat / 2 ^ 56 % 128 ∧ w.toNat / 2 ^ 56 % 128 ≤ 0x6F) ∨
        0x72 ≤ w.toNat / 2 ^ 56 % 128 ∨
        (w.toNat / 2 ^ 56 % 128 = 0 ∧ w.toNat % 2 ^ 56 ≠ 0)) →
      ∃ r, decodeWord w = .error r)

/-- A stream syllable runs as it decodes (R148, R164, R167). -/
def Obligations.StreamStepRunsDecoded : Prop :=
  ∀ (s s1 : State) (ms : List Mover) (p k : Nat) (cl : Cluster) (pa : Nat) (cached : Bool) (y : Syllable),
    s.turn = .issue p k cl :: ms →
    (s.core p).resident = true → (s.core p).stopping = false →
    (s.ctx p k).halted = false → (s.ctx p k).trapDue = none → (s.ctx p k).dueCause cl = none →
    (s.ctx p k).finishing = none → (s.ctx p k).csrWaits = false →
    (Ctx.cluster (s.ctx p k) cl).ready = true → (s.ctx p k).apart = true →
    State.fetchAt { s with turn := ms } p k (Ctx.cluster (s.ctx p k) cl).pc = (.ok pa cached, s1) →
    (s1.ctx p k).debugs (Ctx.cluster (s.ctx p k) cl).pc = false →
    decodeWord (codeWord (s1.ctx p k) pa) = .ok y → streamOk (s1.team p).vregs cl y = true →
    let s2 := s1.beginSlot p k cl (Ctx.cluster (s.ctx p k) cl).pc (codeWord (s1.ctx p k) pa) true
    ((s2.pred y.guard.toNat != y.gneg) = true → step s = finishIssue (exec y.op s2)) ∧
    ((s2.pred y.guard.toNat != y.gneg) = false → step s = finishIssue (concludeSyllable (pure ()) s2))

/-- A slot of a loose bundle runs as it decodes (R148, R159, R160); a TRAP at C waits until its bundle has issued in full
(R394). -/
def Obligations.LooseStepRunsDecoded : Prop :=
  ∀ (s s1 : State) (ms : List Mover) (p k : Nat) (cl : Cluster) (pa : Nat) (cached : Bool) (x0 x : Slot)
    (xs : List Slot) (y0 y : Syllable),
    s.turn = .issue p k cl :: ms →
    (s.core p).resident = true → (s.core p).stopping = false →
    (s.ctx p k).halted = false → (s.ctx p k).trapDue = none → (s.ctx p k).dueCause cl = none →
    (s.ctx p k).finishing = none → (s.ctx p k).csrWaits = false →
    (Ctx.cluster (s.ctx p k) cl).ready = true → (s.ctx p k).apart = false →
    let pc := (Ctx.cluster (s.ctx p k) cl).pc
    beyondReach { s with turn := ms } p k cl = false →
    State.fetchAt { s with turn := ms } p k pc = (.ok pa cached, s1) →
    Ctx.cluster (s1.ctx p k) cl = Ctx.cluster (s.ctx p k) cl →
    debugSlots (s1.ctx p k) pc = [] →
    fetchSlots (s1.ctx p k) pa = x0 :: xs → badSlots (s1.team p).vregs (x0 :: xs) = [] →
    x0.syl = some y0 → y0.y = false → isLate y0.op = false → makesSync y0.op = false →
    s1.pushClash p k cl (x0 :: xs) = none →
    (x0 :: xs)[Cluster.index cl]? = some x → x.syl = some y →
    let s2 := s1.beginSlot p k cl (pc + BitVec.ofNat 64 (8 * Cluster.index cl)) x.word true
    (s1.trapHeld p k cl (some x) = true → step s = .next s1) ∧
    ((s2.pred y.guard.toNat != y.gneg) = true → s1.trapHeld p k cl (some x) = false →
      step s = finishIssue (exec y.op s2)) ∧
    ((s2.pred y.guard.toNat != y.gneg) = false → step s = finishIssue (concludeSyllable (pure ()) s2))

/-- Slots that issue together (R160, R163, R186, R203 to R207, R394): a sync bundle whose clusters all stand at it runs as
one; slots whose guard is false have no effect; two scalar slots read in slot order and then write; a transfer in slot 0
moves all four counters after the bundle ends the binding interval; a SPLIT bundle starts streams and rests the clusters of
its NOP slots; COMMIT and HALT; a slot that traps suppresses every other, and the lowest one's cause is taken; a slot that
stalls holds the others. -/
def Obligations.SyncBundleIssuesTogether : Prop :=
  (∀ (s s1 : State) (ms : List Mover) (p k : Nat) (cl : Cluster) (pa : Nat) (cached : Bool) (x0 : Slot) (xs : List Slot)
    (y0 : Syllable), s.turn = .issue p k cl :: ms →
    (s.core p).resident = true → (s.core p).stopping = false →
    (s.ctx p k).halted = false → (s.ctx p k).trapDue = none → (s.ctx p k).dueCause cl = none →
    (s.ctx p k).finishing = none → (s.ctx p k).csrWaits = false →
    (Ctx.cluster (s.ctx p k) cl).ready = true → (s.ctx p k).apart = false →
    let pc := (Ctx.cluster (s.ctx p k) cl).pc
    beyondReach { s with turn := ms } p k cl = false →
    State.fetchAt { s with turn := ms } p k pc = (.ok pa cached, s1) →
    Ctx.cluster (s1.ctx p k) cl = Ctx.cluster (s.ctx p k) cl →
    debugSlots (s1.ctx p k) pc = [] →
    fetchSlots (s1.ctx p k) pa = x0 :: xs → badSlots (s1.team p).vregs (x0 :: xs) = [] →
    x0.syl = some y0 → isLate y0.op = false → (y0.y = true ∨ makesSync y0.op = true) →
    (∀ q, (s1.ctx p k).atBundle cl q = true ∧ (Ctx.cluster (s1.ctx p k) q).ready = true) →
    (s1.ctx p k).dueAmong Cluster.all = none →
    step s = finishLate exec p k
      (issueTogether exec s1 p k pc (Cluster.all.zip (x0 :: xs)) (isSplitBundle (x0 :: xs)) true)) ∧
  (∀ (s : State) (p k : Nat) (pc : W64) (xs : List (Cluster × Slot)), s.issue = Issue.idle →
    xs.map Prod.fst = Cluster.all →
    (∀ e ∈ xs, ∃ y, e.2.syl = some y ∧ (s.beginSlot p k e.1 pc 0 false).pred y.guard.toNat = y.gneg) →
    ∃ u, issueTogether exec s p k pc xs false true = .next u ∧ BundleIssued s p k (s.ctx p k).unbind.pastBundle u) ∧
  (∀ (s s1 s2 s3 s4 : State) (p k : Nat) (pc : W64) (d e : Dst) (a b f g : Src) (x y v z : W64) (w : Cluster → W64),
    s.issue = Issue.idle →
    readSrc a (s.beginSlot p k .c pc (w .c) false) = .ok (x, s1) →
    readSrc b s1 = .ok (y, s2) →
    let t := State.beginSlot { s2 with issue := { s2.issue with writes := [.scalar .c d (.ready (x + y) false)] } }
      p k .a (pc + 8) (w .a) false
    readSrc f t = .ok (v, s3) →
    readSrc g s3 = .ok (z, s4) →
    (s4.cur.unbind).takes .c d = true →
    ((s4.cur.unbind).put .c d (.ready (x + y) false)).takes .a e = true →
    ∃ u, issueTogether exec s p k pc (bundleOf (inSlots (.add d a b) (.add e f g) .nop .nop) w) false true = .next u ∧
      BundleIssued s p k
        (((s4.cur.unbind).put .c d (.ready (x + y) false)).put .a e (.ready (v + z) false)).pastBundle u) ∧
  (∀ (s : State) (p k : Nat) (pc : W64) (w : Cluster → W64), s.issue = Issue.idle → (s.ctx p k).apart = false →
    let c := s.ctx p k
    let runs := fun (i : Instr) => issueTogether exec s p k pc (bundleOf (inSlots i .nop .nop .nop) w) false true
    (∀ (disp : BitVec 32),
      (c.targetOk (slotTarget pc .c disp) = true → ∃ u, runs (.br disp) = .next u ∧
        BundleIssued s p k (c.unbind.transferred .c (slotTarget pc .c disp)) u) ∧
      (c.targetOk (slotTarget pc .c disp) = false →
        runs (.br disp) = .next (s.raise p k ⟨causeALIGN, slotTarget pc .c disp, .c, false⟩).endIssue)) ∧
    (∀ (i : Instr) (a : Src) (s1 : State) (x : W64), i = .bri a ∨ i = .ret a →
      readSrc a (s.beginSlot p k .c pc (w .c) false) = .ok (x, s1) → c.targetOk x = true →
      ∃ u, runs i = .next u ∧ BundleIssued s p k (s1.cur.unbind.transferred .c x) u) ∧
    (∀ (d : Dst) (disp : BitVec 32), c.targetOk (slotTarget pc .c disp) = true → c.unbind.takes .c d = true →
      ∃ u, runs (.call d disp) = .next u ∧ BundleIssued s p k
        ((c.unbind.transferred .c (slotTarget pc .c disp)).put .c d
          (.ready (BitVec.ofNat 64 (pc.toNat / 32 * 32 + 32)) false)) u) ∧
    (∀ (sense : Bool) (disp : BitVec 32) (s1 : State) (b : W64),
      readSrc ⟨.pop, 61⟩ (s.beginSlot p k .c pc (w .c) false) = .ok (b, s1) →
      (((b != 0) ^^ sense) = true → c.targetOk (slotTarget pc .c disp) = true) →
      ∃ u, runs (.brq sense disp) = .next u ∧ BundleIssued s p k
        (if ((b != 0) ^^ sense) = true then s1.cur.unbind.transferred .c (slotTarget pc .c disp)
          else s1.cur.unbind.pastBundle) u) ∧
    (∀ (r : BitVec 6) (disp : BitVec 32) (stages : BitVec 4) (n : W64) (es : List SEntry), r.toNat < 56 →
      stages.toNat ≤ 8 → (c.squeue r.toNat).cond ≠ .dead → (c.squeue r.toNat).entries = .ready n false :: es →
      let newp := decide (1 < n.toInt)
      let old := fun (q : Cluster) (j : Nat) => (Ctx.cluster c q).preds.getLsbD j
      let new := fun (q : Cluster) (j : Nat) =>
        if 56 ≤ j ∧ j < 56 + stages.toNat then (if j = 56 then newp else old q (j - 1)) else old q j
      let taken := newp || (List.range stages.toNat).any fun j => new .c (56 + j)
      (taken = true → c.targetOk (slotTarget pc .c disp) = true) →
      ∃ u, runs (.loop r disp stages) = .next u ∧ u.issue = Issue.idle ∧ Elsewhere (s.begunAll p k) u ∧
        ((u.ctx p k).squeue r.toNat).entries = .ready (if newp then n - 1 else 0) false :: es ∧
        ((u.ctx p k).squeue r.toNat).producer = some .c ∧
        (∀ j, j ≠ r.toNat → (u.ctx p k).squeue j = c.unbind.squeue j) ∧
        (∀ q j, j < 64 → (Ctx.cluster (u.ctx p k) q).preds.getLsbD j = new q j) ∧
        (∀ q, (Ctx.cluster (u.ctx p k) q).pc = if taken then slotTarget pc .c disp else (Ctx.cluster c.pastBundle q).pc) ∧
        (u.ctx p k).issued = c.issued + 4) ∧
    ((s.team p).commit = .none → s.logBusy (s.team p) = false → (s.team p).woundsDue = [] →
      (s.team p).tctlWaits = false →
      ∃ u, runs .commit = .next u ∧ u.issue = Issue.idle ∧ u.mem = s.mem ∧ (u.team p).commit = .done s.cycles ∧
        u.ctx p k = { c.unbind.pastBundle with issued := c.issued + 4, lastIssue := s.now }) ∧
    (∃ u, runs .halt = .next u ∧ u.issue = Issue.idle ∧ u.mem = s.mem ∧ (u.ctx p k).waitsFor .c .halt ∧
      (u.ctx p k).issued = c.issued + 4 ∧
      ∀ q, (Ctx.cluster (u.ctx p k) q).pc = if q = .c then c.c.pc else (Ctx.cluster c.pastBundle q).pc)) ∧
  (∀ (s : State) (p k : Nat) (pc : W64) (w : Cluster → W64) (i : Cluster → Instr) (disp : Cluster → BitVec 32),
    s.issue = Issue.idle → i .c = .split (disp .c) → (∀ q, i q = .split (disp q) ∨ i q = .nop) →
    let c := (s.ctx p k).unbind
    let after := fun (q : Cluster) => if isSplit (i q) then
        { Ctx.cluster c q with pc := slotTarget pc q (disp q), status := .running }
      else { Ctx.cluster c q with status := .resting }
    ∃ u, issueTogether exec s p k pc (bundleOf i w) true true = .next u ∧ BundleIssued s p k
      { c with c := after .c, a := after .a, v := after .v, m := after .m, apart := true } u) ∧
  (∀ (s s1 s2 : State) (p k : Nat) (pc : W64) (d e : Dst) (a b f g : Src) (x y : W64) (w : Cluster → W64),
    s.issue = Issue.idle →
    let runs := issueTogether exec s p k pc (bundleOf (inSlots (.add d a b) (.add e f g) .nop .nop) w) false true
    let u := s.beginSlot p k .c pc (w .c) false
    (readSrc a u = .ok (x, s1) → readSrc b s1 = .ok (y, s2) → s2.cur.unbind.takes .c d = true →
      let t := State.beginSlot { s2 with issue := { s2.issue with writes := [.scalar .c d (.ready (x + y) false)] } }
        p k .a (pc + 8) (w .a) false
      (∀ cause v, readSrc f t = .error (.trap cause v) → runs = .next (s.raise p k ⟨cause, v, .a, false⟩).endIssue) ∧
      (∀ room r, readSrc f t = .error (.stall room r) →
        runs = .next (s.modCtx p k fun c => (Cluster.all.foldl (fun c q => Ctx.setCluster c q (Ctx.cluster c q).resume)
          c).stallMark .a room r).endIssue)) ∧
    (∀ cause v cause' v', readSrc a u = .error (.trap cause v) →
      readSrc f (State.beginSlot { u with issue := { u.issue with raised := some ⟨cause, v, .c, false⟩ } } p k .a (pc + 8)
        (w .a) false) = .error (.trap cause' v') →
      runs = .next (s.raise p k ⟨cause, v, .c, false⟩).endIssue))

/-- R162: no slot of a bundle issues where a slot is illegal or the fetch faults; the trap is taken at the lowest such
slot, once its cluster stands at the bundle (R393: the boundary is precise), and until then the bundle waits. -/
def Obligations.IllegalSlotStopsBundle : Prop :=
  ∀ (s s1 : State) (ms : List Mover) (p k : Nat) (cl : Cluster) (pa i : Nat) (is : List Nat) (cached : Bool),
    s.turn = .issue p k cl :: ms →
    (s.core p).resident = true → (s.core p).stopping = false →
    (s.ctx p k).halted = false → (s.ctx p k).trapDue = none → (s.ctx p k).dueCause cl = none →
    (s.ctx p k).finishing = none → (s.ctx p k).csrWaits = false →
    (Ctx.cluster (s.ctx p k) cl).ready = true → (s.ctx p k).apart = false →
    let pc := (Ctx.cluster (s.ctx p k) cl).pc
    beyondReach { s with turn := ms } p k cl = false →
    (∀ x, Ctx.cluster (s1.ctx p k) x = Ctx.cluster (s.ctx p k) x) →
    (∀ x, (Ctx.cluster (s.ctx p k) x).front ≤ (Ctx.cluster (s.ctx p k) cl).front) →
    (∀ cause, State.fetchAt { s with turn := ms } p k pc = (.bad cause, s1) →
      step s = .next (if (s.ctx p k).atBundle cl .c then s1.raise p k ⟨cause, pc, .c, false⟩
        else { s with turn := ms })) ∧
    (State.fetchAt { s with turn := ms } p k pc = (.ok pa cached, s1) → debugSlots (s1.ctx p k) pc = [] →
      badSlots (s1.team p).vregs (fetchSlots (s1.ctx p k) pa) = i :: is →
      step s = .next (if (s.ctx p k).atBundle cl (clusterOfSlot i) then s1.raise p k
          ⟨causeILLEGAL, codeWord (s1.ctx p k) (pa + 8 * i), clusterOfSlot i, false⟩
        else s1))

/-- ReadSrc (R187): z, ctx, then the four modes. -/
def Obligations.SourceReadsOldest : Prop :=
  ∀ (s : State) (f : Src),
    (f.reg.toNat = 63 → readSrc f s = .ok (0, s)) ∧
    (f.reg.toNat = 62 → readSrc f s = .ok (s.ctxWord s.issue.core s.issue.ctx, s)) ∧
    (∀ v es, f.reg.toNat < 62 → (s.cur.squeue f.reg.toNat).cond ≠ .dead →
      (s.cur.squeue f.reg.toNat).entries = .ready v false :: es →
      ∃ t, readSrc f s = .ok (v, t) ∧ Elsewhere s t ∧
        (∀ r, r ≠ f.reg.toNat → t.cur.squeue r = s.cur.squeue r) ∧
        (∀ r, t.cur.vqueue r = s.cur.vqueue r) ∧
        t.cur = { s.cur with scalars := t.cur.scalars, vectors := t.cur.vectors } ∧
        let q := t.cur.squeue f.reg.toNat
        let old := s.cur.squeue f.reg.toNat
        let pops := f.mode == .pop || f.mode == .drop
        let marked := old.drop || f.mode == .drop
        q.entries = (if pops then es else old.entries) ∧
        q.drop = (if f.mode = .drop then true else old.drop) ∧
        q.retain = (f.mode == .hold) ∧
        q.producer = old.producer ∧
        q.cond = (if pops then (if es.isEmpty then (if marked && f.reg.toNat < 56 then .dead else .idle) else .live)
          else old.cond))

/-- What a first source that gives no value does (R185, R188, R440); that POISON's value is the operand's register number is
the model's reading (log entry 24).  Producer binding and room (R187, R188, R190). -/
def Obligations.OperandsThatStop : Prop :=
  (∀ (s : State) (a : Src) (i : Instr),
      ((∃ d b, i = .add d a b) ∨ (∃ d imm, i = .addi d a imm) ∨ (∃ cc p b, i = .cmp cc p a b) ∨ i = .bri a ∨
        (∃ ty d x disp sp, i = .ld ty d ⟨a, x, disp, sp⟩)) →
      s.issue.alone = true → a.reg.toNat < 62 →
      ((s.cur.squeue a.reg.toNat).cond = .dead →
        exec i s = .next (s.trapHere causeQDROP (BitVec.ofNat 64 a.reg.toNat))) ∧
      (∀ v es, (s.cur.squeue a.reg.toNat).cond ≠ .dead → (s.cur.squeue a.reg.toNat).entries = .ready v true :: es →
        exec i s = .next (s.trapHere causePOISON (BitVec.ofNat 64 a.reg.toNat))) ∧
      ((s.cur.squeue a.reg.toNat).cond ≠ .dead → (s.cur.squeue a.reg.toNat).entries = [] →
        exec i s = .next (s.setCur (Ctx.setCluster s.cur s.issue.cluster
          { Ctx.cluster s.cur s.issue.cluster with status := .stalled false a.reg.toNat (s.cur.entriesOf a.reg.toNat) })))) ∧
  (∀ (s s1 s2 : State) (d : Dst) (a b : Src) (x y : W64) (other : Cluster),
      s.freshIssue = true → readSrc a s = .ok (x, s1) → readSrc b s1 = .ok (y, s2) → d.reg.toNat ≠ 63 →
      ((s2.cur.squeue d.reg.toNat).producer = some other → other ≠ s.issue.cluster →
        exec (.add d a b) s = .next (s.trapHere causeQBIND (BitVec.ofNat 64 d.reg.toNat))) ∧
      ((s2.cur.squeue d.reg.toNat).producer = none → d.mode = .push →
        queueDepth d.reg.toNat ≤ (s2.cur.squeue d.reg.toNat).entries.length →
        exec (.add d a b) s = .next (s.setCur (Ctx.setCluster s.cur s.issue.cluster
          { Ctx.cluster s.cur s.issue.cluster with status := .stalled true d.reg.toNat (s.cur.entriesOf d.reg.toNat) }))) ∧
      ((s2.cur.squeue d.reg.toNat).producer = none → d.mode = .replace →
        (s2.cur.squeue d.reg.toNat).entries ≠ [] → s2.cur.takes s.issue.cluster d = true))

/-- R196, R197 (and LEA of R199): the result, and the frame. -/
def Obligations.ScalarBinaryResults : Prop :=
  ∀ (i : Instr) (d : Dst) (a b : Src) (f : W64 → W64 → W64), BinaryRule i d a b f →
  ∀ (s s1 s2 : State) (x y : W64), s.freshIssue = true →
    readSrc a s = .ok (x, s1) → readSrc b s1 = .ok (y, s2) → s2.cur.takes s.issue.cluster d = true →
    ∃ t, exec i s = .next t ∧ Elsewhere s t ∧
      t.cur = (s2.cur.put s.issue.cluster d (.ready (f x y) false)).past s.issue.cluster s.now

/-- R198, R201: the result, and the frame. -/
def Obligations.ScalarUnaryResults : Prop :=
  (∀ (i : Instr) (d : Dst) (a : Src) (f : W64 → W64), UnaryRule i d a f →
    ∀ (s s1 : State) (x : W64), s.freshIssue = true → readSrc a s = .ok (x, s1) →
      s1.cur.takes s.issue.cluster d = true →
      ∃ t, exec i s = .next t ∧ Elsewhere s t ∧
        t.cur = (s1.cur.put s.issue.cluster d (.ready (f x) false)).past s.issue.cluster s.now) ∧
  (∀ (d : Dst) (imm : BitVec 24) (s : State), s.freshIssue = true → s.cur.takes s.issue.cluster d = true →
    ∃ t, exec (.li d imm) s = .next t ∧ Elsewhere s t ∧
      t.cur = (s.cur.put s.issue.cluster d (.ready (BitVec.ofInt 64 imm.toInt) false)).past s.issue.cluster s.now) ∧
  (∀ (d : Dst) (a : Src) (s s1 : State) (x : W64) (mark : Bool), s.freshIssue = true →
    readSrcP a s = .ok ((x, mark), s1) → s1.cur.takes s.issue.cluster d = true →
    ∃ t, exec (.mov d a) s = .next t ∧ Elsewhere s t ∧
      t.cur = (s1.cur.put s.issue.cluster d (.ready x mark)).past s.issue.cluster s.now)

/-- SEL (R199).  R200 and R202: the predicate written, and the frame. -/
def Obligations.PredicateResults : Prop :=
  (∀ (d : Dst) (a b : Src) (neg : Bool) (p : Pred) (s s1 s2 : State) (x y : W64) (mx my : Bool),
      s.freshIssue = true → readSrcP a s = .ok ((x, mx), s1) → readSrcP b s1 = .ok ((y, my), s2) →
      s2.cur.takes s.issue.cluster d = true →
      ∃ t, exec (.sel d a b neg p) s = .next t ∧ Elsewhere s t ∧
        t.cur = (s2.cur.put s.issue.cluster d
          (if (s.pred p.toNat ^^ neg) then .ready x mx else .ready y my)).past s.issue.cluster s.now) ∧
  ((∀ (cc : Cc) (pd : Pred) (a b : Src) (s s1 s2 : State) (x y : W64), cc ≠ .un → s.freshIssue = true →
      readSrc a s = .ok (x, s1) → readSrc b s1 = .ok (y, s2) →
      ∃ t, exec (.cmp cc pd a b) s = .next t ∧ Elsewhere s t ∧
        t.cur = (s2.cur.putPred s.issue.cluster pd (ccSays cc x y)).past s.issue.cluster s.now) ∧
    (∀ (cc : Cc) (pd : Pred) (a : Src) (imm : BitVec 24) (s s1 : State) (x : W64), cc ≠ .un → s.freshIssue = true →
      readSrc a s = .ok (x, s1) →
      ∃ t, exec (.cmpi cc pd a imm) s = .next t ∧ Elsewhere s t ∧
        t.cur = (s1.cur.putPred s.issue.cluster pd (ccSays cc x (BitVec.ofInt 64 imm.toInt))).past s.issue.cluster s.now) ∧
    (∀ (i : Instr) (pd : Pred) (f : State → Bool), PredRule i pd f → ∀ (s : State), s.freshIssue = true →
      ∃ t, exec i s = .next t ∧ Elsewhere s t ∧
        t.cur = (s.cur.putPred s.issue.cluster pd (f s)).past s.issue.cluster s.now))

/-- NOP (R170). -/
def Obligations.NopChangesNothing : Prop :=
  (∀ s : State, s.freshIssue = true →
    ∃ t, exec .nop s = .next t ∧ Elsewhere s t ∧ t.cur = s.cur.past s.issue.cluster s.now) ∧
  (∀ (w : W64) (y : Syllable), decodeWord w = .ok y → (y.op = .nop ↔ w.toNat / 2 ^ 56 % 128 = 0)) ∧
  (∀ w : W64, w.toNat / 2 ^ 56 % 128 = 0 → ((∃ y, decodeWord w = .ok y) ↔ w.toNat % 2 ^ 56 = 0))

/-- R203: transfers, with R154's target. -/
def Obligations.TransfersMoveCounters : Prop :=
  (∀ (disp : BitVec 32) (s : State), s.freshIssue = true →
    (s.cur.targetOk (s.brTarget disp) = true → ∃ t, exec (.br disp) s = .next t ∧ Elsewhere s t ∧
      t.cur = (s.cur.transferred s.issue.cluster (s.brTarget disp)).counted s.now) ∧
    (s.cur.targetOk (s.brTarget disp) = false →
      exec (.br disp) s = .next (s.trapHere causeALIGN (s.brTarget disp)))) ∧
  (∀ (i : Instr) (a : Src) (s s1 : State) (x : W64), i = .bri a ∨ i = .ret a → s.freshIssue = true →
    readSrc a s = .ok (x, s1) →
    (s.cur.targetOk x = true → ∃ t, exec i s = .next t ∧ Elsewhere s t ∧
      t.cur = (s1.cur.transferred s.issue.cluster x).counted s.now) ∧
    (s.cur.targetOk x = false → exec i s = .next (s.trapHere causeALIGN x))) ∧
  (∀ (d : Dst) (disp : BitVec 32) (s : State), s.freshIssue = true → s.cur.takes s.issue.cluster d = true →
    (s.cur.targetOk (s.brTarget disp) = true → ∃ t, exec (.call d disp) s = .next t ∧ Elsewhere s t ∧
      t.cur = ((s.cur.transferred s.issue.cluster (s.brTarget disp)).put s.issue.cluster d
        (.ready (if s.cur.apart then s.issue.pc + 8 else BitVec.ofNat 64 (s.issue.pc.toNat / 32 * 32 + 32)) false)).counted
          s.now) ∧
    (s.cur.targetOk (s.brTarget disp) = false →
      exec (.call d disp) s = .next (s.trapHere causeALIGN (s.brTarget disp))))

/-- LOOP (R205). -/
def Obligations.LoopCountsDown : Prop :=
  ∀ (r : BitVec 6) (disp : BitVec 32) (stages : BitVec 4) (s : State) (c : W64) (es : List SEntry),
    s.freshIssue = true → r.toNat < 56 → stages.toNat ≤ 8 →
    (s.cur.squeue r.toNat).cond ≠ .dead → (s.cur.squeue r.toNat).entries = .ready c false :: es →
    ((s.cur.squeue r.toNat).producer = none ∨ (s.cur.squeue r.toNat).producer = some s.issue.cluster) →
    let newp := decide (1 < c.toInt)
    let old := fun (q : Cluster) (j : Nat) => (Ctx.cluster s.cur q).preds.getLsbD j
    let new := fun (q : Cluster) (j : Nat) =>
      if 56 ≤ j ∧ j < 56 + stages.toNat then (if j = 56 then newp else old q (j - 1)) else old q j
    let driven := fun (q : Cluster) => !s.cur.apart || q == s.issue.cluster
    let taken := newp || (List.range stages.toNat).any fun j => new s.issue.cluster (56 + j)
    (taken = true → s.cur.targetOk (s.brTarget disp) = true) →
    ∃ t, exec (.loop r disp stages) s = .next t ∧ Elsewhere s t ∧
      (t.cur.squeue r.toNat).entries = .ready (if newp then c - 1 else 0) false :: es ∧
      (t.cur.squeue r.toNat).producer = some s.issue.cluster ∧
      (∀ n, n ≠ r.toNat → t.cur.squeue n = s.cur.squeue n) ∧
      (∀ q j, j < 64 → (Ctx.cluster t.cur q).preds.getLsbD j = if driven q then new q j else old q j) ∧
      (∀ q, (Ctx.cluster t.cur q).pc = (Ctx.cluster (if taken then s.cur.transferred s.issue.cluster (s.brTarget disp)
        else s.cur.advance s.issue.cluster) q).pc) ∧
      t.cur.issued = s.cur.issued + 1

/-- SPLIT and JOIN (R163, R165, R206): JOINX where no other JOIN has arrived in this cycle; in one cycle the lowest cluster's
raises it (log entry 95). -/
def Obligations.SplitAndJoin : Prop :=
  (∀ (disp : BitVec 32) (s : State), s.freshIssue = true →
    ∃ t, exec (.split disp) s = .next t ∧ Elsewhere s t ∧
      t.cur = ({ Ctx.setCluster s.cur s.issue.cluster { Ctx.cluster s.cur s.issue.cluster with
        pc := s.brTarget disp, status := .running } with apart := true } : Ctx).counted s.now) ∧
  (∀ (disp : BitVec 32) (s : State), s.freshIssue = true → (s.brTarget disp).toNat % 32 = 0 →
    let others := [Cluster.c, .a, .v, .m].filter fun q => q != s.issue.cluster &&
      (Ctx.cluster s.cur q).status != .resting
    let joined := others.filterMap fun q => match (Ctx.cluster s.cur q).status with
      | .joined t n _ => some (n, t)
      | _ => none
    (joined.length < others.length → ∃ t, exec (.join disp) s = .next t ∧ Elsewhere s t ∧
      t.cur = ({ Ctx.setCluster s.cur s.issue.cluster { Ctx.cluster s.cur s.issue.cluster with
        status := .joined (s.brTarget disp) s.cur.joins s.cycles } with joins := s.cur.joins + 1 } : Ctx).counted
          s.now) ∧
    (joined.length = others.length → (∀ w ∈ joined, w.2 = s.brTarget disp) →
      ∃ t, exec (.join disp) s = .next t ∧ Elsewhere s t ∧
        t.cur = (s.cur.unbind.lockstepAt (s.brTarget disp)).counted s.now) ∧
    (∀ n u, joined.length = others.length → (n, u) ∈ joined → (∀ w ∈ joined, n ≤ w.1) →
      (∀ w ∈ joined, w.1 = n → w.2 = u) → (∃ w ∈ joined, w.2 ≠ s.brTarget disp) →
      (∀ q t m z, (Ctx.cluster s.cur q).status = .joined t m z → z ≠ s.cycles) →
      exec (.join disp) s = .next (s.trapHere causeJOINX u))) ∧
  (∀ (disp : BitVec 32) (s : State), s.freshIssue = true → (s.brTarget disp).toNat % 32 ≠ 0 →
    exec (.join disp) s = .next (s.trapHere causeALIGN (s.brTarget disp)))

/-- BRQ and PUSHB (R207). -/
def Obligations.BranchQueue : Prop :=
  (∀ (sense : Bool) (disp : BitVec 32) (s s1 : State) (b : W64), s.freshIssue = true →
    readSrc ⟨.pop, 61⟩ s = .ok (b, s1) →
    (((b != 0) ^^ sense) = true → s.cur.targetOk (s.brTarget disp) = true →
      ∃ t, exec (.brq sense disp) s = .next t ∧ Elsewhere s t ∧
        t.cur = (s1.cur.transferred s.issue.cluster (s.brTarget disp)).counted s.now) ∧
    (((b != 0) ^^ sense) = true → s.cur.targetOk (s.brTarget disp) = false →
      exec (.brq sense disp) s = .next (s.trapHere causeALIGN (s.brTarget disp))) ∧
    (((b != 0) ^^ sense) = false → ∃ t, exec (.brq sense disp) s = .next t ∧ Elsewhere s t ∧
      t.cur = s1.cur.past s.issue.cluster s.now)) ∧
  (∀ (neg : Bool) (p : Pred) (s : State), s.freshIssue = true → s.cur.takes s.issue.cluster ⟨.push, 61⟩ = true →
    ∃ t, exec (.pushb neg p) s = .next t ∧ Elsewhere s t ∧
      t.cur = (s.cur.put s.issue.cluster ⟨.push, 61⟩
        (.ready (if (s.pred p.toNat ^^ neg) then 1 else 0) false)).past s.issue.cluster s.now)

/-- R155's effective address, and ALIGN (R257, R260). -/
def Obligations.MemoryAddresses : Prop :=
  (∀ (m : MemOp) (n : Nat) (s s1 s2 : State) (b x : W64), readSrc m.base s = .ok (b, s1) →
    readSrc m.index s1 = .ok (x, s2) →
    memAddress m n s = .ok (BitVec.ofInt 64 (b.toInt + x.toInt * n + m.disp.toInt * n), s2)) ∧
  (∀ (ty : ScalarTy) (d : Dst) (m : MemOp) (s s1 : State) (ea : W64), s.issue.alone = true →
    memAddress m (ScalarTy.size ty) s = .ok (ea, s1) → ea.toNat % ScalarTy.size ty ≠ 0 →
    exec (.ld ty d m) s = .next (s.trapHere causeALIGN ea)) ∧
  (∀ (ty : ScalarTy) (d : Src) (m : MemOp) (s s1 s2 : State) (ea : W64) (v : W64 × Bool), s.issue.alone = true →
    memAddress m (ScalarTy.size ty) s = .ok (ea, s1) → readSrcP d s1 = .ok (v, s2) →
    ea.toNat % ScalarTy.size ty ≠ 0 → exec (.st ty d m) s = .next (s.trapHere causeALIGN ea)) ∧
  (∀ (f : Fmt) (d : VDst) (m : MemOp) (s s1 : State) (ea : W64), s.issue.alone = true →
    memAddress m 64 s = .ok (ea, s1) → ea.toNat % 64 ≠ 0 →
    exec (.vldr f d m) s = .next (s.trapHere causeALIGN ea) ∧
    exec (.vldc f d m) s = .next (s.trapHere causeALIGN ea)) ∧
  (∀ (f : Fmt) (d : VSrc) (m : MemOp) (s s1 s2 : State) (ea : W64) (v : VBits × BitVec 128), s.issue.alone = true →
    memAddress m 64 s = .ok (ea, s1) → readVecP d s1 = .ok (v, s2) → ea.toNat % 64 ≠ 0 →
    exec (.vstr f d m) s = .next (s.trapHere causeALIGN ea) ∧
    exec (.vstc f d m) s = .next (s.trapHere causeALIGN ea))

/-- LD (R256): both spaces. -/
def Obligations.LoadIssues : Prop :=
  (∀ (ty : ScalarTy) (d : Dst) (m : MemOp) (s s1 s2 : State) (ea : W64) (pl : Place), s.freshIssue = true →
    memAddress m (ScalarTy.size ty) s = .ok (ea, s1) → ea.toNat % ScalarTy.size ty = 0 →
    (∀ o l b, m.space ≠ .own o l b) → resolveVirtual .load ea accRead s1 = .ok (pl, s2) →
    s2.cur.takes s.issue.cluster d = true →
    ∃ t, exec (.ld ty d m) s = .next t ∧ Elsewhere s2 t ∧ t.mem = s.mem ∧
      t.cur = (((s2.cur.queuedLoad (.loadScalar d.reg.toNat s2.cur.nextTag ty) (scopeOf m.space)
        [⟨ea.toNat, some pl, 0, 0, ScalarTy.size ty⟩]).put s.issue.cluster d (.pending s2.cur.nextTag)).past
          s.issue.cluster s.now)) ∧
  (∀ (ty : ScalarTy) (d : Dst) (m : MemOp) (s s1 s2 : State) (ea : W64) (o l : Bool) (b : Buf) (bs : List Byte)
    (bad : Bool), s.freshIssue = true →
    memAddress m (ScalarTy.size ty) s = .ok (ea, s1) → ea.toNat % ScalarTy.size ty = 0 →
    m.space = .own o l b → b ≠ .z →
    let p := s.issue.core
    let n := ScalarTy.size ty
    let a := s1.curTeam.bufStart b + ea.toNat
    ea.toNat + n ≤ s1.curTeam.bufSize b → s1.cur.accesses = [] →
    (s1.core p).isDead a n = false → (∀ e ∈ s1.redEntries, e.core ≠ some p) →
    bs = (s1.core p).poolRead a n → bad = (s1.core p).poolPoison a n → s1.cur.takes s.issue.cluster d = true →
    s2 = s1.setCore p (if l then ((s1.core p).wake s.cycles a n).kill a n else (s1.core p).wake s.cycles a n) →
    ∃ t, exec (.ld ty d m) s = .next t ∧ Elsewhere s2 t ∧ t.mem = s.mem ∧
      t.cur = (s1.cur.put s.issue.cluster d (.ready
        (match ty with
          | .n8 | .n16 | .n32 | .n64 => BitVec.ofNat 64 (leNat bs)
          | .i8 => (BitVec.ofNat 8 (leNat bs)).signExtend 64
          | .i16 => (BitVec.ofNat 16 (leNat bs)).signExtend 64
          | .i32 => (BitVec.ofNat 32 (leNat bs)).signExtend 64
          | .i64 => BitVec.ofNat 64 (leNat bs)) bad)).past s.issue.cluster s.now) ∧
  (∀ (ty : ScalarTy) (d : Dst) (m : MemOp) (s s1 : State) (ea : W64) (o l : Bool) (b : Buf), s.freshIssue = true →
    memAddress m (ScalarTy.size ty) s = .ok (ea, s1) → ea.toNat % ScalarTy.size ty = 0 →
    m.space = .own o l b →
    let p := s.issue.core
    let a := s1.curTeam.bufStart b + ea.toNat
    (b = .z ∨ s1.curTeam.bufSize b < ea.toNat + ScalarTy.size ty →
      exec (.ld ty d m) s = .next (s.trapHere causePROT ea)) ∧
    (b ≠ .z → ea.toNat + ScalarTy.size ty ≤ s1.curTeam.bufSize b → s1.cur.accesses = [] →
      (s1.core p).isDead a (ScalarTy.size ty) = true → exec (.ld ty d m) s = .next (s.trapHere causeBANKDROP ea)))

/-- ST (R256). -/
def Obligations.StoreIssues : Prop :=
  (∀ (ty : ScalarTy) (d : Src) (m : MemOp) (s s1 s2 s3 : State) (ea v : W64) (bad : Bool) (pl : Place),
    s.freshIssue = true → memAddress m (ScalarTy.size ty) s = .ok (ea, s1) → readSrcP d s1 = .ok ((v, bad), s2) →
    ea.toNat % ScalarTy.size ty = 0 →
    ((∀ o l b, m.space ≠ .own o l b) ∧ resolveVirtual .store ea accWrite s2 = .ok (pl, s3) ∨
      (∃ o l, m.space = .own o l .y) ∧ ea.toNat + ScalarTy.size ty ≤ s2.curTeam.bufSize .y ∧
        pl = .pool (s2.curTeam.bufStart .y + ea.toNat) ∧ s3 = s2) →
    ((scopeOf m.space) = none ∨ s3.cur.storeFaults = []) →
    let p := s.issue.core
    let data := leBytes (ScalarTy.size ty) v.toNat
    let own := s3.ownPlace p pl
    let s4 := if own then s3 else s3.pairTerm p (sizeLog (ScalarTy.size ty)) ea.toNat (leNat data)
    ∃ t, exec (.st ty d m) s = .next t ∧ Elsewhere s4 t ∧ t.mem = s.mem ∧
      t.cur = (if own || !s3.suppressedHere then
          s4.cur.queuedStore (.store data) none (scopeOf m.space) [⟨ea.toNat, some pl, 0, 0, ScalarTy.size ty⟩]
            (match m.space with | .own _ l _ => l | _ => false) (if bad then [0] else [])
        else s4.cur).past s.issue.cluster s.now) ∧
  (∀ (ty : ScalarTy) (d : Src) (m : MemOp) (s s1 s2 : State) (ea v : W64) (bad o l : Bool) (b : Buf),
    s.freshIssue = true → memAddress m (ScalarTy.size ty) s = .ok (ea, s1) → readSrcP d s1 = .ok ((v, bad), s2) →
    ea.toNat % ScalarTy.size ty = 0 → m.space = .own o l b →
    (b ≠ .y ∨ s2.curTeam.bufSize b < ea.toNat + ScalarTy.size ty) →
    exec (.st ty d m) s = .next (s.trapHere causePROT ea))

/-- VLDR, VLDC, VGTH (R260 to R263): each completes in every space, and says where it does not. -/
def Obligations.VectorLoadIssues : Prop :=
  ∀ (s s1 : State) (i : Instr) (ag : Agent) (f : Fmt) (cols : Bool) (d : VDst) (sp : Space)
    (rows : List (W64 × Nat × Nat)), VLoadRule s s1 i ag f cols d sp rows → s.freshIssue = true →
    (∀ s2 ps, (∀ o l b, sp ≠ .own o l b) →
      resolveVector ag accRead (rows.flatMap fun r => sectorsFrom r.1 r.2.1 r.2.2) s1 = .ok ((ps, []), s2) →
      s2.cur.vtakes s.issue.cluster d = true →
      ∃ t, exec i s = .next t ∧ Elsewhere s2 t ∧ t.mem = s.mem ∧
        t.cur = ((s2.cur.queuedLoad (.loadVector d.reg.toNat s2.cur.nextTag f cols) (scopeOf sp) ps).vput s.issue.cluster d
          (.pending s2.cur.nextTag)).past s.issue.cluster s.now) ∧
    (∀ s2 ps x xs, (∀ o l b, sp ≠ .own o l b) →
      resolveVector ag accRead (rows.flatMap fun r => sectorsFrom r.1 r.2.1 r.2.2) s1 = .ok ((ps, x :: xs), s2) →
      s2.cur.vtakes s.issue.cluster d = true →
      let a : Access := ⟨s2.cur.nextSeq, .loadVector d.reg.toNat s2.cur.nextTag f cols, (scopeOf sp), none, x :: xs,
        false, [], [], ps.isEmpty, false⟩
      let c := if ps.isEmpty then { s2.cur with nextTag := s2.cur.nextTag + 1, nextSeq := s2.cur.nextSeq + 1 }
        else s2.cur.queuedLoad (.loadVector d.reg.toNat s2.cur.nextTag f cols) (scopeOf sp) ps
      ∃ u, exec i s = .next (u.raise s.issue.core s.issue.ctx ⟨causeREPLAY, BitVec.ofNat 64 x.va, .a, false⟩) ∧
        Elsewhere s2 u ∧ u.mem = s.mem ∧
        u.cur = ((({ c with replay := c.replay ++ [a] } : Ctx).vput s.issue.cluster d
          (.pending s2.cur.nextTag)).past s.issue.cluster s.now)) ∧
    (∀ o l b ps m marks s3 e fl, sp = .own o l b → ownPieces ag b rows s1 = .ok (ps, s1) →
      s1.cur.accesses = [] → checkLive ((rows.head?.map Prod.fst).getD 0) ps s1 = .ok ((), s1) →
      (∀ r ∈ s1.redEntries, r.core ≠ some s.issue.core) →
      s1.readPieces s.issue.core s.issue.ctx f cols .clean (ownSpots s.issue.core ps) [] [] = (m, marks, s3) →
      vectorResult f ((rows.head?.map Prod.fst).getD 0).toNat m marks = .ok (e, fl) →
      s1.cur.vtakes s.issue.cluster d = true →
      let s4 := if l then s3.modCore s.issue.core fun c => ps.foldl (fun c x =>
        match x.place with | some (.pool a) => c.kill a x.len | _ => c) c else s3
      ∃ t, exec i s = .next t ∧ Elsewhere s4 t ∧ t.mem = s.mem ∧
        t.cur = (({ s1.cur with fpstat := s1.cur.fpstat ||| fl } : Ctx).vput s.issue.cluster d e).past
          s.issue.cluster s.now) ∧
    (∀ o l b, sp = .own o l b → admits ag b = false →
      exec i s = .next (s.trapHere causePROT ((rows.head?.map Prod.fst).getD 0)))

/-- VSTR, VSTC, VSCT (R249, R260, R261, R395): each completes, parks what does not translate and takes REPLAY. -/
def Obligations.VectorStoreIssues : Prop :=
  ∀ (s s1 : State) (i : Instr) (sp : Space) (rows : List (W64 × Nat × Nat)) (data : List Byte) (bad : List Nat),
    VStoreRule s s1 i sp rows data bad → s.freshIssue = true →
    (∀ s2 ps, (∀ o l b, sp ≠ .own o l b) →
      resolveVector .vstore accWrite (rows.flatMap fun r => sectorsFrom r.1 r.2.1 r.2.2) s1 = .ok ((ps, []), s2) →
      ((scopeOf sp) = none ∨ s2.cur.storeFaults = []) → (s2.team s.issue.core).pairRun = 0 →
      ∃ t, exec i s = .next t ∧ Elsewhere s2 t ∧ t.mem = s.mem ∧
        t.cur = (s2.cur.queuedStore (.store data) none (scopeOf sp) ps false bad).past s.issue.cluster s.now) ∧
    (∀ s2 ps x xs, (∀ o l b, sp ≠ .own o l b) →
      resolveVector .vstore accWrite (rows.flatMap fun r => sectorsFrom r.1 r.2.1 r.2.2) s1 = .ok ((ps, x :: xs), s2) →
      (s2.team s.issue.core).pairRun = 0 →
      let a : Access := ⟨s2.cur.nextSeq, .store data, none, scopeOf sp, x :: xs, false, [], bad, ps.isEmpty, false⟩
      let c := if ps.isEmpty then { s2.cur with nextSeq := s2.cur.nextSeq + 1 }
        else s2.cur.queuedStore (.store data) none (scopeOf sp) ps false bad
      ∃ u, exec i s = .next (u.raise s.issue.core s.issue.ctx ⟨causeREPLAY, BitVec.ofNat 64 x.va, .a, false⟩) ∧
        Elsewhere s2 u ∧ u.mem = s.mem ∧
        u.cur = (({ c with replay := c.replay ++ [a] } : Ctx).past s.issue.cluster s.now)) ∧
    (∀ o l ps, sp = .own o l .y → ownPieces .vstore .y rows s1 = .ok (ps, s1) →
      (o = false ∨ s1.cur.storeFaults = []) →
      ∃ t, exec i s = .next t ∧ Elsewhere s1 t ∧ t.mem = s.mem ∧
        t.cur = (s1.cur.queuedStore (.store data) none (scopeOf sp) ps l bad).past s.issue.cluster s.now)

/-- MARK and FENCE (R384).  BWAIT, BWAIT_END, BSIG_ARRIVAL (R352).  That a syllable which has to wait does not issue (log
entry 18), and that a handler waits for the elements its context has parked (log entry 25), are the model's readings. -/
def Obligations.OrderingWaits : Prop :=
  ((∀ s : State, s.freshIssue = true → s.cur.drained = true → s.cur.storeFaults = [] →
      ∃ t, exec .mark s = .next t ∧ Elsewhere s t ∧ t.cur = s.cur.past s.issue.cluster s.now) ∧
    (∀ (sc : Scope) (s : State), s.freshIssue = true → (if sc = .ctx then s.cur.drainedCtx else s.cur.drained) = true →
      s.cur.storeFaults = [] →
      let u := (s.releaseAt s.issue.core s.issue.ctx (some sc)).acquireAt s.issue.core (some sc)
      u.issue = s.issue → ∃ t, exec (.fence sc) s = .next t ∧ Elsewhere u t ∧
        t.cur = u.cur.past s.issue.cluster s.now) ∧
    (∀ s : State, s.issue.alone = true → s.cur.drained = false →
      exec .mark s = .next s ∧ (∀ sc, sc ≠ .ctx → exec (.fence sc) s = .next s)) ∧
    (∀ (s : State) (r : CauseRec) (rs : List CauseRec), s.issue.alone = true → s.cur.drained = true →
      s.cur.storeFaults = r :: rs →
      exec .mark s = .next ((s.modCtx s.issue.core s.issue.ctx fun c => { c with storeFaults := rs }).raise
        s.issue.core s.issue.ctx { r with cluster := s.issue.cluster, async := true }))) ∧
  ((∀ (sc : Scope) (a b : Src) (s s1 s2 s3 : State) (x y : W64) (pl : Place), s.freshIssue = true →
      readSrc a s = .ok (x, s1) → readSrc b s1 = .ok (y, s2) → x.toNat % 8 = 0 →
      resolveVirtual .atomic x accRead s2 = .ok (pl, s3) → checkCounter x pl s3 = .ok ((), s3) →
      (∀ s4, (y = 0 ∧ s4 = s3 ∨ y ≠ 0 ∧ ∃ v, s3.readCounter s.issue.core s.issue.ctx ⟨x.toNat, some pl, 0, 0, 8⟩ =
          .ok (v, s4) ∧ y.toNat ≤ v) →
        let u := (s4.reachPoint s.issue.core).acquireAt s.issue.core (some sc)
        ∃ t, exec (.bwait sc a b) s = .next t ∧ Elsewhere u t ∧ t.mem = s4.mem ∧
          t.cur = s4.cur.past s.issue.cluster s.now) ∧
      (∀ s4 v, y ≠ 0 → s3.readCounter s.issue.core s.issue.ctx ⟨x.toNat, some pl, 0, 0, 8⟩ = .ok (v, s4) → v < y.toNat →
        ∃ t, exec (.bwait sc a b) s = .next t ∧ Elsewhere (s4.reachPoint s.issue.core) t ∧ t.mem = s4.mem ∧
          (Ctx.cluster t.cur s.issue.cluster).pc = (Ctx.cluster s4.cur s.issue.cluster).pc ∧
          t.cur.waitsFor s.issue.cluster (.barrier sc x.toNat pl y.toNat))) ∧
    (∀ (s s1 : State) (p k : Nat) (sc : Scope) (va : Nat) (pl : Place) (n v : Nat) (po : List Popped),
      (s.ctx p k).a.status = .waiting (.barrier sc va pl n) po →
      s.readCounter p k ⟨va, some pl, 0, 0, 8⟩ = .ok (v, s1) → n ≤ v →
      ∃ t, exec (.bwaitEnd ⟨p, k⟩) s = .next t ∧ t.ctx p k = (s1.ctx p k).resumed .a ∧ t.mem = s1.mem) ∧
    (∀ (s : State) (p k : Nat) (a : Access) (rest : List Access) (n : W64) (x : Piece) (addr : Nat),
      (s.core p).resident = true → (s.ctx p k).storeQ = a :: rest → s.mayPerform p (s.ctx p k) a = true →
      a.kind = .bsig n → a.release = some .ctx → a.pieces = [x] → x.place = some (.pool addr) → s.redEntries = [] →
      (s.core p).isDead addr 8 = false → (s.core p).poolPoison addr 8 = false → Mem.wf (s.core p).pool = true →
      ∃ t, exec (.bsigArrival [⟨p, k⟩]) s = .next t ∧ t.mem = s.mem ∧
        leNat ((t.core p).poolRead addr 8) = min (leNat ((s.core p).poolRead addr 8) + n.toNat) (2 ^ 64 - 1) ∧
        (t.ctx p k).storeQ = (a :: rest).filter fun y => y.seq != a.seq))

/-- ACCESS_PERFORM (R235, R236, R374, R375, R378): scalar and vector loads and stores of memory through a C = 0 page, which
go to the home bytes directly (log entry 29); loads of a C = 1 page from the L1 and from the home slice, and stores to it with
the ownership of their words; accesses to a scratchpad through the window; host memory with and without its link (R465).
Each performs at once where no earlier access holds it back; the last use of a store and its release are left to
StoreIssues and OrderingWaits. -/
def Obligations.AccessesPerform : Prop :=
  (∀ (s : State) (p k : Nat) (fill : Bool) (a : Access) (rest : List Access) (reg tag : Nat) (ty : ScalarTy) (x : Piece),
    (s.core p).resident = true → (s.ctx p k).loadQ = a :: rest → s.mayPerform p (s.ctx p k) a = true →
    a.kind = .loadScalar reg tag ty → a.acquire = none → a.pieces = [x] →
    let filled := fun (e : SEntry) =>
      fillEntries tag (if reg = 61 then bqEntry e else e) ((s.ctx p k).squeue reg).entries
    (∀ pa, x.place = some (.phys pa false) → isHost pa = false → (∀ y ∈ unitsOf 32 pa x.len, s.judge (y * 32) = .clean) →
      ∃ t, exec (.accessPerform ⟨p, k⟩ .load fill .clean) s = .next t ∧ t.mem = s.mem ∧ t.hub = s.hub ∧
        (∀ q, q ≠ p → t.core q = s.core q) ∧
        t.ctx p k = ({ s.ctx p k with loadQ := rest } : Ctx).fillLoad reg tag
          (.ready (loadValue ty (Mem.read s.mem pa x.len)) (s.rangeStored pa x.len))) ∧
    (∀ pa, x.place = some (.phys pa false) → isHost pa = true →
      (s.hostUp pa = true → ∃ t, exec (.accessPerform ⟨p, k⟩ .load fill .clean) s = .next t ∧ t.mem = s.mem ∧
        t.ctx p k = ({ s.ctx p k with loadQ := rest } : Ctx).fillLoad reg tag
          (.ready (loadValue ty (Mem.read s.mem pa x.len)) (s.rangeStored pa x.len))) ∧
      (s.hostUp pa = false → ∃ t v, exec (.accessPerform ⟨p, k⟩ .load fill .clean) s = .next t ∧ t.mem = s.mem ∧
        t.ctx p k = ({ s.ctx p k with loadQ := rest } : Ctx).fillLoad reg tag (.ready v true))) ∧
    (∀ pa bs bad, x.place = some (.phys pa true) → (∀ e ∈ s.redEntries, e.core ≠ none) → (s.team p).hasL1 = true →
      (s.core p).l1Bytes pa x.len = some (bs, bad) →
      ∃ t, exec (.accessPerform ⟨p, k⟩ .load fill .clean) s = .next t ∧ t.mem = s.mem ∧ t.l2 = s.l2 ∧
        (∀ q, q ≠ p → t.core q = s.core q) ∧ (t.ctx p k).loadQ = rest ∧
        ((t.ctx p k).squeue reg).entries = filled (.ready (loadValue ty bs) bad)) ∧
    (∀ pa, x.place = some (.phys pa true) → (∀ e ∈ s.redEntries, e.core ≠ none) →
      ((s.team p).hasL1 = true → (s.core p).l1Bytes pa x.len = none) →
      (∀ y ∈ unitsOf 32 pa x.len, s.lineHas (s.team p).asid.toNat (y * 32) = true) →
      ∃ t, exec (.accessPerform ⟨p, k⟩ .load fill .clean) s = .next t ∧ t.mem = s.mem ∧ t.l2 = s.l2 ∧
        (∀ q, q ≠ p → t.core q = s.core q) ∧ (t.ctx p k).loadQ = rest ∧
        ((t.ctx p k).squeue reg).entries =
          filled (.ready (loadValue ty (s.physRead pa x.len)) (s.rangePoison pa x.len)) ∧
        (fill = false → ∀ w ∈ wordsOf pa x.len, ∀ c, tfind (t.core p).l1 w = some c → c.owned = true) ∧
        (fill = true → (s.team p).hasL1 = true → ∀ i, i < 8 →
          ∃ c, tfind (t.core p).l1 (sectorOf pa * 8 + i) = some c ∧ c.value = s.phys32 (sectorOf pa * 8 + i))) ∧
    (∀ q addr, s.findPiece p x = .ok (.pool q addr) → (∀ e ∈ s.redEntries, e.core ≠ some q) →
      ((s.core q).isDead addr x.len = false → ∃ t, exec (.accessPerform ⟨p, k⟩ .load fill .clean) s = .next t ∧
        t.mem = s.mem ∧ (t.core q).pool = (s.core q).pool ∧ (t.ctx p k).loadQ = rest ∧
        ((t.ctx p k).squeue reg).entries = filled
          (.ready (loadValue ty ((s.core q).poolRead addr x.len)) ((s.core q).poolPoison addr x.len))) ∧
      ((s.core q).isDead addr x.len = true → ∃ t, exec (.accessPerform ⟨p, k⟩ .load fill .clean) s = .next t ∧
        t.mem = s.mem ∧ (t.ctx p k).loadQ = rest ∧
        ((t.ctx p k).squeue reg).entries = filled (.error causeBANKDROP a.va)))) ∧
  (∀ (s : State) (p k : Nat) (fill : Bool) (a : Access) (rest : List Access) (data : List Byte) (x : Piece),
    (s.core p).resident = true → (s.ctx p k).storeQ = a :: rest → a.sent = false →
    s.mayPerform p (s.ctx p k) a = true → a.kind = .store data → a.release = none → a.lastUse = false →
    a.poison = [] → a.pieces = [x] → 0 < x.len → x.off + x.len ≤ data.length → s.memWf →
    let left := (a :: rest).filter fun y => y.seq != a.seq
    (∀ pa, x.place = some (.phys pa false) → isHost pa = false → s.writeDropped pa = false →
      ∃ t, exec (.accessPerform ⟨p, k⟩ .store fill .clean) s = .next t ∧
        (∀ i, i < x.len → Mem.byte t.mem (pa + i) = data.getD (x.off + i) 0) ∧
        (∀ b, b < pa ∨ pa + x.len ≤ b → Mem.byte t.mem b = Mem.byte s.mem b) ∧ (t.ctx p k).storeQ = left) ∧
    (∀ pa, x.place = some (.phys pa false) → isHost pa = true →
      (s.hostUp pa = true → ∃ t, exec (.accessPerform ⟨p, k⟩ .store fill .clean) s = .next t ∧
        (∀ i, i < x.len → Mem.byte t.mem (pa + i) = data.getD (x.off + i) 0) ∧
        (∀ b, b < pa ∨ pa + x.len ≤ b → Mem.byte t.mem b = Mem.byte s.mem b) ∧ (t.ctx p k).storeQ = left) ∧
      (s.hostUp pa = false → ∃ t, exec (.accessPerform ⟨p, k⟩ .store fill .clean) s = .next t ∧ t.mem = s.mem ∧
        (t.ctx p k).storeQ = left ∧ t.lastEvent evDROPWR 0 (srcPort (hostPort pa)) pa p)) ∧
    (∀ pa, x.place = some (.phys pa true) → (∀ e ∈ s.redEntries, e.core ≠ none) → isHbm pa = true →
      s.stackFenced pa = false → (∀ y ∈ unitsOf 32 pa x.len, s.lineHas (s.team p).asid.toNat (y * 32) = true) →
      ∃ t, exec (.accessPerform ⟨p, k⟩ .store fill .clean) s = .next t ∧
        (∀ i, i < x.len → Mem.byte t.mem (pa + i) = data.getD (x.off + i) 0) ∧
        (∀ b, b < pa ∨ pa + x.len ≤ b → Mem.byte t.mem b = Mem.byte s.mem b) ∧ (t.ctx p k).storeQ = left ∧
        ∀ w ∈ wordsOf pa x.len, tfind t.owners w = some p ∧
          (∀ q, q ≠ p → tfind s.owners w = some q → tfind (t.core q).l1 w = none) ∧
          ((s.core p).l1Holds (w / 8) = true → ∃ c, tfind (t.core p).l1 w = some c ∧ c.owned = true)) ∧
    (∀ q addr, s.findPiece p x = .ok (.pool q addr) → (∀ e ∈ s.redEntries, e.core ≠ some q) →
      (s.core q).isDead addr x.len = false → Mem.wf (s.core q).pool = true →
      ∃ t, exec (.accessPerform ⟨p, k⟩ .store fill .clean) s = .next t ∧ t.mem = s.mem ∧
        (∀ i, i < x.len → Mem.byte (t.core q).pool (addr + i) = data.getD (x.off + i) 0) ∧
        (∀ b, b < addr ∨ addr + x.len ≤ b → Mem.byte (t.core q).pool b = Mem.byte (s.core q).pool b) ∧
        (t.ctx p k).storeQ = left)) ∧
  (∀ (s : State) (p k va : Nat) (fill : Bool) (a : Access) (rest : List Access) (pa : Nat → Nat),
    (s.core p).resident = true → s.mayPerform p (s.ctx p k) a = true →
    a.pieces = ((List.range 128).map fun i => ⟨va + 32 * i, some (.phys (pa i) false), 0, 32 * i, 32⟩) →
    (∀ i, i < 128 → pa i % 32 = 0 ∧ isHost (pa i) = false) →
    (∀ reg tag f columns, (s.ctx p k).loadQ = a :: rest → a.kind = .loadVector reg tag f columns → f ≠ .ra →
      a.acquire = none → ((s.ctx p k).replay.any fun y => y.seq == a.seq) = false →
      (∀ i, i < 128 → s.storedPoison (pa i) = false ∧ s.judge (pa i) = .clean) →
      ∃ t z, exec (.accessPerform ⟨p, k⟩ .load fill .clean) s = .next t ∧ t.mem = s.mem ∧ (t.ctx p k).loadQ = rest ∧
        ((t.ctx p k).vqueue reg).entries = ((s.ctx p k).vqueue reg).entries.map (fun y =>
          if y = .pending tag then .ready z 0 else y) ∧
        ∀ i j, i < 128 → j < 32 →
          z.extractLsb' (8 * imageIndex f columns (32 * i + j)) 8 = Mem.byte s.mem (pa i + j)) ∧
    (∀ data, (s.ctx p k).storeQ = a :: rest → a.kind = .store data → a.sent = false → a.release = none →
      a.lastUse = false → a.poison = [] → data.length = 4096 → s.memWf → (∀ i, i < 128 → s.writeDropped (pa i) = false) →
      (∀ i j, i < 128 → j < 128 → pa i = pa j → i = j) →
      ∃ t, exec (.accessPerform ⟨p, k⟩ .store fill .clean) s = .next t ∧
        (t.ctx p k).storeQ = ((a :: rest).filter fun y => y.seq != a.seq) ∧
        (∀ i j, i < 128 → j < 32 → Mem.byte t.mem (pa i + j) = data.getD (32 * i + j) 0) ∧
        ∀ b, (∀ i, i < 128 → b < pa i ∨ pa i + 32 ≤ b) → Mem.byte t.mem b = Mem.byte s.mem b))

/-- AMO, RED, BSIG (R352 to R357): each completes at issue where its target is admitted and no trap of its own is due; the
whole register is the operand of the signature's term (log entry 23).  AMO performs (R356): in a word of a scratchpad, its own
or through the window, in HBM at the home of a C = 1 page, and with AMOTGT where no root complex executes it (R355). -/
def Obligations.AtomicsRun : Prop :=
  ((∀ (op : AmoOp) (ty : AmoTy) (sc : Scope) (o : AmoOrder) (a b : Src) (s s1 s2 s3 s4 : State) (x y z : W64)
      (pl : Place), s.freshIssue = true → readSrc a s = .ok (x, s1) → readSrc b s1 = .ok (y, s2) →
      ((∃ new, op = .cas new ∧ readSrc new s2 = .ok (z, s3)) ∨ ((∀ new, op ≠ .cas new) ∧ z = 0 ∧ s3 = s2)) →
      routeAtomic x (AmoTy.size ty) s3 = .ok (pl, s4) →
      (amoRelease sc o = none ∨ s4.cur.storeFaults = []) → (s4.cur.squeue 60).entries.length < 32 →
      let u := if s4.ownPlace s.issue.core pl then s4
        else s4.pairTerm s.issue.core (0x10 + amoMinor op) x.toNat y.toNat
      ∃ t, exec (.amo op ty sc o a b) s = .next t ∧ Elsewhere u t ∧ t.mem = s.mem ∧
        t.cur = ((({ s4.cur with nextTag := s4.cur.nextTag + 1 } : Ctx).queuedStore
          (.amo op ty y z s4.cur.nextTag (!rootPlace pl || rootSupports op)) (amoAcquire sc o) (amoRelease sc o)
          [⟨x.toNat, some pl, 0, 0, AmoTy.size ty⟩] false []).putLq (.pending s4.cur.nextTag)).past
            s.issue.cluster s.now) ∧
    (∀ (op : RedOp) (ty : AmoTy) (sc : Scope) (rel : Bool) (a b : Src) (s s1 s2 s3 : State) (x y : W64) (pl : Place),
      s.freshIssue = true → readSrc a s = .ok (x, s1) → readSrc b s1 = .ok (y, s2) →
      routeAtomic x (AmoTy.size ty) s2 = .ok (pl, s3) → (rootPlace pl && !rootSupportsRed op) = false →
      (rel = false ∨ s3.cur.storeFaults = []) →
      let own := s3.ownPlace s.issue.core pl
      let u := if own then s3 else s3.pairTerm s.issue.core (0x10 + redMinor op) x.toNat y.toNat
      ∃ t, exec (.red op ty sc rel a b) s = .next t ∧ Elsewhere u t ∧ t.mem = s.mem ∧
        t.cur = (if own || !s3.suppressedHere then s3.cur.queuedStore (.red op ty y) none (if rel then some sc else none)
          [⟨x.toNat, some pl, 0, 0, AmoTy.size ty⟩] false [] else s3.cur).past s.issue.cluster s.now) ∧
    (∀ (sc : Scope) (a b : Src) (s s1 s2 s3 : State) (x y : W64) (pl : Place), s.freshIssue = true →
      readSrc a s = .ok (x, s1) → readSrc b s1 = .ok (y, s2) → x.toNat % 8 = 0 →
      resolveVirtual .atomic x accAtomic s2 = .ok (pl, s3) → checkCounter x pl s3 = .ok ((), s3) →
      s3.curTeam.uncommitted = false → s3.cur.storeFaults = [] →
      let own := s3.ownPlace s.issue.core pl
      let u := if own then s3 else s3.pairTerm s.issue.core 0x20 x.toNat y.toNat
      ∃ t, exec (.bsig sc a b) s = .next t ∧ Elsewhere u t ∧ t.mem = s.mem ∧
        t.cur = (if own || !s3.suppressedHere then s3.cur.queuedStore (.bsig y) none (some sc)
          [⟨x.toNat, some pl, 0, 0, 8⟩] false [] else s3.cur).past s.issue.cluster s.now) ∧
    (∀ (op : RedOp) (ty : AmoTy) (sc : Scope) (rel : Bool) (a b : Src) (s s1 s2 : State) (x y : W64),
      s.issue.alone = true → readSrc a s = .ok (x, s1) → readSrc b s1 = .ok (y, s2) →
      x.toNat % AmoTy.size ty ≠ 0 → exec (.red op ty sc rel a b) s = .next (s.trapHere causeALIGN x)) ∧
    (∀ (op : AmoOp) (ty : AmoTy) (sc : Scope) (o : AmoOrder) (a b : Src) (s s1 s2 s3 : State) (x y z : W64),
      s.issue.alone = true → readSrc a s = .ok (x, s1) → readSrc b s1 = .ok (y, s2) →
      ((∃ new, op = .cas new ∧ readSrc new s2 = .ok (z, s3)) ∨ (∀ new, op ≠ .cas new)) →
      x.toNat % AmoTy.size ty ≠ 0 → exec (.amo op ty sc o a b) s = .next (s.trapHere causeALIGN x)) ∧
    (∀ (sc : Scope) (a b : Src) (s s1 s2 : State) (x y : W64), s.issue.alone = true → readSrc a s = .ok (x, s1) →
      readSrc b s1 = .ok (y, s2) → x.toNat % 8 ≠ 0 →
      exec (.bsig sc a b) s = .next (s.trapHere causeALIGN x) ∧ exec (.bwait sc a b) s = .next (s.trapHere causeALIGN x))) ∧
  (∀ (s : State) (p k : Nat) (fill : Bool) (a : Access) (rest : List Access) (op : AmoOp) (ty : AmoTy) (b c : W64)
      (tag : Nat) (x : Piece), (s.core p).resident = true → (s.ctx p k).storeQ = a :: rest →
      a.sent = false → s.mayPerform p (s.ctx p k) a = true → a.kind = .amo op ty b c tag true → a.acquire = none →
      a.release = none → a.pieces = [x] → x.len = AmoTy.size ty → (s.team p).pairRun = 0 → op.accepts ty = true →
      let left := (a :: rest).filter fun y => y.seq != a.seq
      let gives := fun (t : State) (e : SEntry) => (t.ctx p k).storeQ = left ∧ (t.ctx p k).squeue 60 =
        { (s.ctx p k).squeue 60 with entries := fillEntries tag e ((s.ctx p k).squeue 60).entries }
      (∀ q addr, s.findPiece p x = .ok (.pool q addr) → (∀ e ∈ s.redEntries, e.core ≠ some q) →
        (s.core q).isDead addr x.len = false → (s.core q).poolPoison addr x.len = false → Mem.wf (s.core q).pool = true →
        let old := leNat ((s.core q).poolRead addr x.len)
        ∃ t, exec (.accessPerform ⟨p, k⟩ .store fill .clean) s = .next t ∧ t.mem = s.mem ∧
          leNat ((t.core q).poolRead addr x.len) = amoGives op ty old b c ∧
          (∀ i, i < addr ∨ addr + x.len ≤ i → Mem.byte (t.core q).pool i = Mem.byte (s.core q).pool i) ∧
          gives t (.ready (amoExtend ty old) false)) ∧
      (∀ pa, x.place = some (.phys pa true) → isHbm pa = true → s.stackFenced pa = false → s.memWf →
        (∀ e ∈ s.redEntries, e.core ≠ none) → s.rangePoison pa x.len = false →
        (∀ y ∈ unitsOf 32 pa x.len, s.lineHas (s.team p).asid.toNat (y * 32) = true) →
        let old := leNat (s.physRead pa x.len)
        ∃ t, exec (.accessPerform ⟨p, k⟩ .store fill .clean) s = .next t ∧
          leNat (t.physRead pa x.len) = amoGives op ty old b c ∧
          (∀ i, i < pa ∨ pa + x.len ≤ i → Mem.byte t.mem i = Mem.byte s.mem i) ∧
          gives t (.ready (amoExtend ty old) false)) ∧
      (∀ pa, x.place = some (.phys pa false) → s.rootWorks pa = false →
        ∃ t, exec (.accessPerform ⟨p, k⟩ .store fill .clean) s = .next t ∧ t.mem = s.mem ∧
          gives t (.error causeAMOTGT a.va)))

/-- EVSIG, EVWAIT, EVSTAT and their ends (R348, R349). -/
def Obligations.EventCounters : Prop :=
  (∀ (ev : BitVec 5) (a b : Src) (s s1 s2 : State) (t0 n : W64), s.freshIssue = true →
    readSrc a s = .ok (t0, s1) → readSrc b s1 = .ok (n, s2) → t0.toNat < 4096 → s2.cur.drained = true →
    s2.cur.savedParked = [] → s2.cur.storeFaults = [] →
    (s2.curTeam.event ev.toNat + n.toNat ≤ 65535 → ∃ t, exec (.evsig ev a b) s = .next t ∧
      t.curTeam.event ev.toNat = s2.curTeam.event ev.toNat + n.toNat ∧
      (∀ e, e ≠ ev.toNat → t.curTeam.event e = s2.curTeam.event e) ∧ t.mem = s.mem ∧
      t.cur = s2.cur.past s.issue.cluster s.now) ∧
    (65535 < s2.curTeam.event ev.toNat + n.toNat → exec (.evsig ev a b) s = .next (s.trapHere causeTOKOVF
      (BitVec.ofNat 64 (ev.toNat * 2 ^ 16 + s2.curTeam.event ev.toNat))))) ∧
  (∀ (ev : BitVec 5) (a b : Src) (s s1 s2 : State) (t0 n : W64), s.freshIssue = true →
    readSrc a s = .ok (t0, s1) → readSrc b s1 = .ok (n, s2) → evRemote t0 = true →
    checkSignal t0 s2 = .ok ((), s2) → s2.cur.storeFaults = [] →
    let u := s2.pairTerm s.issue.core 0x21 t0.toNat (n.toNat * 32 + ev.toNat)
    ∃ t, exec (.evsig ev a b) s = .next t ∧ Elsewhere u t ∧
      t.cur = (if s2.suppressedHere then s2.cur
        else s2.cur.queuedStore (.evsig ev.toNat t0 n) none (some .pkg) [] false []).past s.issue.cluster s.now) ∧
  (∀ (ev : BitVec 5) (a : Src) (s s1 : State) (n : W64), s.freshIssue = true → readSrc a s = .ok (n, s1) →
    n.toNat ≤ 65535 →
    (n.toNat = 0 ∨ (n.toNat ≤ s1.curTeam.event ev.toNat ∧
        s1.curTeam.earlierWaiter (s1.curTeam.waits + 1) [ev.toNat] = false) →
      ∃ t, exec (.evwait ev a) s = .next t ∧ t.mem = s.mem ∧
        t.curTeam.event ev.toNat = s1.curTeam.event ev.toNat - n.toNat ∧ t.cur = s1.cur.past s.issue.cluster s.now) ∧
    (n.toNat ≠ 0 → (s1.curTeam.event ev.toNat < n.toNat ∨
        s1.curTeam.earlierWaiter (s1.curTeam.waits + 1) [ev.toNat] = true) →
      ∃ t, exec (.evwait ev a) s = .next t ∧ t.mem = s.mem ∧ t.curTeam.events = s1.curTeam.events ∧
        t.cur.waitsFor s.issue.cluster (.event ev.toNat n.toNat (s1.curTeam.waits + 1)))) ∧
  (∀ (ev : BitVec 5) (d : Dst) (s : State), s.freshIssue = true → s.cur.takes s.issue.cluster d = true →
    ∃ t, exec (.evstat ev d) s = .next t ∧ Elsewhere s t ∧
      t.cur = (s.cur.put s.issue.cluster d (.ready (BitVec.ofNat 64 (s.curTeam.event ev.toNat)) false)).past
        s.issue.cluster s.now) ∧
  (∀ (s : State) (p k ev n since : Nat) (po : List Popped), (s.ctx p k).a.status = .waiting (.event ev n since) po →
    n ≤ (s.team p).event ev → (s.team p).earlierWaiter since [ev] = false →
    ∃ t, exec (.evwaitEnd ⟨p, k⟩) s = .next t ∧ t.ctx p k = (s.ctx p k).resumed .a ∧
      (t.team p).event ev = (s.team p).event ev - n ∧ t.mem = s.mem) ∧
  (∀ (s : State) (p k q : Nat) (a : Access) (rest : List Access) (n : Nat) (t0 b : W64), (s.core p).resident = true →
    (s.ctx p k).storeQ = a :: rest → s.mayPerform p (s.ctx p k) a = true → a.kind = .evsig n t0 b →
    a.release = some .pkg → s.targetOf (s.team p).persistentSlot (evTf t0) (evTarget t0) = .core q →
    s.sameAsid q (s.team p).asid = true → (s.team q).event n + b.toNat ≤ 65535 →
    ∃ t, exec (.evsigArrival ⟨p, k⟩) s = .next t ∧ (t.team q).event n = (s.team q).event n + b.toNat ∧
      (t.ctx p k).storeQ = (a :: rest).filter fun y => y.seq != a.seq)

/-- The ring syllables (R338, R343, R344): each completes where its ring, its slot and its count let it. -/
def Obligations.RingSyllables : Prop :=
  (∀ (g : BitVec 4) (a : Src) (s s1 : State) (w : W64), s.freshIssue = true → readSrc a s = .ok (w, s1) →
    s1.cur.drained = true → s1.cur.savedParked = [] → s1.cur.storeFaults = [] →
    ringRefuses s1.curTeam (s1.curTeam.ring g.toNat) w = false →
    ∃ t, exec (.rset g a) s = .next t ∧
      Elsewhere (s1.modTeam s.issue.core fun x =>
        x.setRing g.toNat ⟨w, 0, 0, 0, 0, w.toNat / 2 ^ 48 % 2 ^ 15, 0, 0, 0, 0, []⟩) t ∧
      t.cur = s1.cur.past s.issue.cluster s.now) ∧
  (∀ (g : BitVec 4) (d : Dst) (s : State), s.freshIssue = true → (s.curTeam.ring g.toNat).isSet = true →
    s.cur.takes s.issue.cluster d = true →
    let r := s.curTeam.ring g.toNat
    let word := fun (i : Nat) => BitVec.ofNat 64 (i * 2 ^ 32 + (r.base + r.slotBytes * i) % 2 ^ 22)
    (∃ t, exec (.rclaim g d) s = .next t ∧
      Elsewhere (if r.free = 0 then s else s.modTeam s.issue.core fun x => x.setRing g.toNat { r with
        slots := tput r.slots r.tail .claimed
        tail := if r.tail + 1 < r.nslot then r.tail + 1 else 0
        free := r.free - 1
        claimed := r.claimed + 1 }) t ∧
      t.cur = (s.cur.put s.issue.cluster d (.ready (if r.free = 0 then 0xFFFFFFFFFFFFFFFF else word r.tail)
        false)).past s.issue.cluster s.now) ∧
    (∃ t, exec (.rtake g d) s = .next t ∧
      Elsewhere (if r.filled = 0 then s else s.modTeam s.issue.core fun x => x.setRing g.toNat { r with
        slots := tput r.slots r.head .taken
        head := if r.head + 1 < r.nslot then r.head + 1 else 0
        filled := r.filled - 1
        taken := r.taken + 1 }) t ∧
      t.cur = (s.cur.put s.issue.cluster d (.ready (if r.filled = 0 then 0xFFFFFFFFFFFFFFFF else word r.head)
        false)).past s.issue.cluster s.now)) ∧
  (∀ (g : BitVec 4) (a : Src) (s s1 : State) (w : W64), s.freshIssue = true →
    (s.curTeam.ring g.toNat).isSet = true → readSrc a s = .ok (w, s1) → s1.cur.drained = true →
    s1.cur.savedParked = [] → s1.cur.storeFaults = [] →
    let r := s.curTeam.ring g.toNat
    let i := w.toNat / 2 ^ 32 % 2 ^ 15
    i < r.nslot →
    (r.slotState i = .claimed → ∃ t, exec (.rpub g a) s = .next t ∧
      Elsewhere (s1.modTeam s.issue.core fun x => x.setRing g.toNat (r.publish i)) t ∧
      t.cur = s1.cur.past s.issue.cluster s.now) ∧
    (r.slotState i = .taken → ∃ t, exec (.rfree g a) s = .next t ∧
      Elsewhere (s1.modTeam s.issue.core fun x => x.setRing g.toNat (r.release i)) t ∧
      t.cur = s1.cur.past s.issue.cluster s.now)) ∧
  (∀ (g : BitVec 4) (a : Src) (s s1 : State) (n : W64), s.freshIssue = true →
    (s.curTeam.ring g.toNat).isSet = true → readSrc a s = .ok (n, s1) →
    let r := s.curTeam.ring g.toNat
    n.toNat ≤ r.nslot →
    let u := s1.reachPoint s.issue.core
    (∃ t, exec (.rwaitf g a) s = .next t ∧ Elsewhere u t ∧
      (n.toNat ≤ r.filled → t.cur = s1.cur.past s.issue.cluster s.now) ∧
      (r.filled < n.toNat → t.cur.waitsFor s.issue.cluster (.ringFilled g.toNat n.toNat))) ∧
    (∃ t, exec (.rwaite g a) s = .next t ∧ Elsewhere u t ∧
      (n.toNat ≤ r.free → t.cur = s1.cur.past s.issue.cluster s.now) ∧
      (r.free < n.toNat → t.cur.waitsFor s.issue.cluster (.ringFree g.toNat n.toNat)))) ∧
  (∀ (g : BitVec 4) (d : Dst) (a : Src) (s s1 : State) (x : W64) (w : W64), s.freshIssue = true →
    readSrc a s = .ok (x, s1) → s1.cur.takes s.issue.cluster d = true →
    let r := s.curTeam.ring g.toNat
    ((x = 0 ∧ w = BitVec.ofNat 64 (r.taken * 2 ^ 48 + r.claimed * 2 ^ 32 + r.filled * 2 ^ 16 + r.free)) ∨
      (x = 1 ∧ w = BitVec.ofNat 64 (r.freep * 2 ^ 48 + r.head * 2 ^ 32 + r.pub * 2 ^ 16 + r.tail)) ∨
      (x = 2 ∧ w = r.config) ∨ (x = 3 ∧ w = BitVec.ofNat 64 (if r.isSet then r.drops else 0))) →
    ∃ t, exec (.rstat g d a) s = .next t ∧ Elsewhere s t ∧
      t.cur = (s1.cur.put s.issue.cluster d (.ready w false)).past s.issue.cluster s.now) ∧
  (∀ (s : State) (p k g n : Nat) (po : List Popped),
    ((s.ctx p k).a.status = .waiting (.ringFilled g n) po ∧ n ≤ ((s.team p).ring g).filled ∨
      (s.ctx p k).a.status = .waiting (.ringFree g n) po ∧ n ≤ ((s.team p).ring g).free) →
    exec (.rwaitEnd ⟨p, k⟩) s = .next (s.setCtx p k ((s.ctx p k).resumed .a))) ∧
  (∀ (g : BitVec 4) (d : Dst) (a : Src) (i : Instr) (s : State), s.issue.alone = true →
    (i = .rclaim g d ∨ i = .rtake g d ∨ i = .rpub g a ∨ i = .rfree g a ∨ i = .rwaitf g a ∨ i = .rwaite g a) →
    (s.curTeam.ring g.toNat).isSet = false → exec i s = .next (s.trapHere causeRINGERR (BitVec.ofNat 64 (0x100 + g.toNat))))

/-- R339's transitions keep FREE + CLAIMED + FILLED + TAKEN. -/
def Obligations.RingCountsAddUp : Prop :=
  ∀ (r : Ring) (n i : Nat), r.free + r.claimed + r.filled + r.taken = n →
    (0 < r.free → r.claim.free + r.claim.claimed + r.claim.filled + r.claim.taken = n) ∧
    ((r.publish i).free + (r.publish i).claimed + (r.publish i).filled + (r.publish i).taken = n) ∧
    (0 < r.filled → r.take.free + r.take.claimed + r.take.filled + r.take.taken = n) ∧
    ((r.release i).free + (r.release i).claimed + (r.release i).filled + (r.release i).taken = n)

/-- LOCK, UNLOCK and the home manager (R368 to R373): both complete at issue; a request is granted where its parent, the
holders, the older waiters and the manager's room let it; a release ends the holding. -/
def Obligations.LocksAreManaged : Prop :=
  (∀ (m : LockMode) (dom : BitVec 2) (lvl : LockLevel) (a : Src) (s s1 : State) (w : W64), s.freshIssue = true →
    readSrc a s = .ok (w, s1) → (s1.cur.squeue 60).entries.length < 32 →
    ∃ t, exec (.lock m dom lvl a) s = .next t ∧ Elsewhere s t ∧
      t.cur = ((({ s1.cur with nextTag := s1.cur.nextTag + 1 } : Ctx).queuedStore
        (.lock m dom.toNat lvl w s1.cur.nextTag) (some .pkg) none [] false []).putLq (.pending s1.cur.nextTag)).past
          s.issue.cluster s.now) ∧
  (∀ (dom : BitVec 2) (lvl : LockLevel) (a : Src) (s s1 : State) (w : W64), s.freshIssue = true →
    readSrc a s = .ok (w, s1) → s1.cur.storeFaults = [] →
    ∃ t, exec (.unlock dom lvl a) s = .next t ∧ Elsewhere s t ∧
      t.cur = (s1.cur.queuedStore (.unlock dom.toNat lvl w) none (some .pkg) [] false []).past
        s.issue.cluster s.now) ∧
  (∀ (s : State) (p k : Nat) (a : Access) (rest : List Access) (m : LockMode) (dom : Nat) (lvl : LockLevel) (w : W64)
    (tag : Nat), (s.core p).resident = true → (s.ctx p k).storeQ = a :: rest → a.sent = false →
    s.mayPerform p (s.ctx p k) a = true → a.kind = .lock m dom lvl w tag → (s.team p).pairRun = 0 →
    let n := lockName (s.team p) dom lvl w
    let age := (s.team p).age
    let e := s.lockEntry n
    ((s.chip n.home.1).live = true →
      (∀ q, n.parent = some q → ∃ h, (s.lockEntry q).heldBy age = some h ∧ parentAdmits m h = true) →
      (∀ h ∈ e.holders, h.team ≠ age ∧ s.compatible dom m h.mode = true) →
      (∀ x ∈ e.waiters, x.team ≠ age ∧ s.coreOfAge x.team ≠ some p ∧
        (age < x.team ∨ s.compatible dom m x.seeks = true)) →
      s.managerUse n.home < 4096 →
      ∃ t, exec (.lockRequest ⟨p, k⟩) s = .next t ∧ t.mem = s.mem ∧ ⟨age, m⟩ ∈ (t.lockEntry n).holders ∧
        ((t.ctx p k).squeue 60).entries = fillEntries tag (.ready (BitVec.ofNat 64 (2048 + lockCode m * 256)) false)
          ((s.ctx p k).squeue 60).entries) ∧
    ((s.chip n.home.1).live = false →
      ∃ t, exec (.lockRequest ⟨p, k⟩) s = .next t ∧ t.mem = s.mem ∧ t.locks = s.locks ∧
        ((t.ctx p k).squeue 60).entries = fillEntries tag (.ready 4 false) ((s.ctx p k).squeue 60).entries)) ∧
  (∀ (s : State) (p k : Nat) (a : Access) (rest : List Access) (dom : Nat) (lvl : LockLevel) (w : W64),
    (s.core p).resident = true → (s.ctx p k).storeQ = a :: rest → s.mayPerform p (s.ctx p k) a = true →
    a.kind = .unlock dom lvl w → a.release = some .pkg → (s.team p).pairRun = 0 →
    let n := lockName (s.team p) dom lvl w
    let age := (s.team p).age
    (s.chip n.home.1).live = true → ((s.lockEntry n).heldBy age).isSome = true →
    (∀ x ∈ (s.lockEntry n).waiters, x.team ≠ age ∧ s.coreOfAge x.team ≠ some p) → s.holdsChild age n = false →
    ∃ t, exec (.lockRelease ⟨p, k⟩) s = .next t ∧ t.mem = s.mem ∧ (t.lockEntry n).heldBy age = none ∧
      (t.ctx p k).storeQ = (a :: rest).filter fun y => y.seq != a.seq)

/-- The system syllables (R212 to R217, R404 to R407), and the end of a wedge (R188).  That the HALT or ERET of a bundle
joins its waits and completes later is log entry 35; when COMMIT and YIELD take effect is log entry 33; the waits of RPLREL
are log entry 25. -/
def Obligations.SystemSyllables : Prop :=
  (∀ (s : State) (j : Nat), s.issue.alone = true → s.cur.accesses = [] → s.cur.reserved = false → s.cur.faultReports = [] →
    s.curTeam.outstanding s.issue.ctx = 0 → s.cur.requestCause = none → s.cur.storeFaults = [] → j ≠ s.issue.ctx →
    j < s.curTeam.width →
    (s.ctx s.issue.core j).halted = false →
    ∃ t, exec .halt s = .next t ∧ Elsewhere s t ∧
      t.cur = { s.cur with halted := true, scalars := [], vectors := [] }) ∧
  (∀ (s : State), s.issue.alone = false →
    exec .halt s = .next { s with issue := { s.issue with waits := s.issue.waits ++ [(s.issue.cluster, .halt, [])] } } ∧
    (∀ x, s.cur.sup = true → s.cur.saved = some x →
      exec .eret s = .next { s with issue := { s.issue with
        waits := s.issue.waits ++ [(s.issue.cluster, .eret, [])] } })) ∧
  (∀ (s : State) (ms : List Mover) (p k : Nat) (cl : Cluster) (i : Instr), s.turn = .issue p k cl :: ms →
    (s.core p).resident = true → (s.core p).stopping = false → (s.ctx p k).halted = false →
    (s.ctx p k).trapDue = none → (s.ctx p k).requestCause = none → (s.ctx p k).finishing = some i →
    step s = finishIssue (exec i (State.beginSlot { s with turn := ms } p k .c (s.ctx p k).c.pc 0 true))) ∧
  (∀ (s : State), s.freshIssue = true → s.cur.sup = true →
    s.requestPending s.issue.core s.issue.ctx = false →
    ∃ t, exec .waiti s = .next t ∧ Elsewhere s t ∧ t.cur.waitsFor s.issue.cluster .interrupt ∧
      (Ctx.cluster t.cur s.issue.cluster).pc = (Ctx.cluster s.cur s.issue.cluster).pc ∧ t.cur.scalars = s.cur.scalars) ∧
  (∀ (s : State), s.freshIssue = true → s.cur.sup = true →
    s.requestPending s.issue.core s.issue.ctx = true → s.cur.requestCause = none →
    ∃ t, exec .waiti s = .next t ∧ Elsewhere (s.reachPoint s.issue.core) t ∧
      t.cur = s.cur.past s.issue.cluster s.now) ∧
  (∀ (s : State) (p k : Nat) (po : List Popped), (s.ctx p k).c.status = .waiting .interrupt po →
    s.requestPending p k = true →
    ((s.ctx p k).requestCause = none →
      exec (.waitiEnd ⟨p, k⟩) s = .next (s.setCtx p k ((s.ctx p k).resumed .c))) ∧
    (∀ x, (s.ctx p k).requestCause = some x →
      exec (.waitiEnd ⟨p, k⟩) s = .next ((s.setCtx p k (((s.ctx p k).resumed .c).dropCause x)).raise p k x))) ∧
  (∀ (s : State), s.freshIssue = true → s.cur.aBehind = false →
    (∀ a ∈ s.cur.storeQ ++ s.cur.replay, a.changesMemory = false) →
    ∃ t, exec .fencei s = .next t ∧ Elsewhere s t ∧
      t.cur = ({ s.cur with code := s.codeView } : Ctx).past s.issue.cluster s.now) ∧
  (∀ (s : State), s.issue.alone = true →
    (s.cur.aBehind = true ∨ ∃ a ∈ s.cur.storeQ ++ s.cur.replay, a.changesMemory = true) → exec .fencei s = .next s) ∧
  (∀ (s : State), s.freshIssue = true → s.curTeam.commit = .none → s.logBusy s.curTeam = false →
    s.curTeam.woundsDue = [] → s.curTeam.tctlWaits = false →
    ∃ t, exec .commit s = .next t ∧ t.mem = s.mem ∧ t.curTeam.commit = .done s.cycles ∧
      t.cur = s.cur.past s.issue.cluster s.now) ∧
  (∀ (s : State), s.freshIssue = true → s.curTeam.commit ≠ .none →
    ∃ t, exec .commit s = .next t ∧ Elsewhere s t ∧ t.cur = s.cur.past s.issue.cluster s.now) ∧
  (∀ (s : State), s.freshIssue = true → s.curTeam.persist = true →
    ∃ t, exec .yield s = .next t ∧ t.mem = s.mem ∧ t.curTeam.yielded = true ∧
      t.cur = s.cur.past s.issue.cluster s.now) ∧
  (∀ (s : State), s.freshIssue = true → s.curTeam.persist = false → s.cur.requestCause = none →
    ∃ t, exec .yield s = .next t ∧ Elsewhere (s.reachPoint s.issue.core) t ∧
      t.cur = s.cur.past s.issue.cluster s.now) ∧
  (∀ (s : State) (n : BitVec 8), s.freshIssue = true →
    ∃ t, exec (.phase n) s = .next t ∧ Elsewhere s t ∧
      t.cur = ({ s.cur with
        mark := n
        phase := n
        asked := some ⟨s.now, s.hub.requests s.curTeam.kernel n.toNat⟩
        phaseDone := if s.phaseSince s.curTeam s.cur + 720000 ≤ s.now then some s.cur.phase else s.cur.phaseDone } :
          Ctx).past s.issue.cluster s.now) ∧
  (∀ (s : State), s.freshIssue = true → s.cur.sup = true → s.cur.saved = none →
    ∃ t, exec .rplrel s = .next t ∧ Elsewhere s t ∧ t.cur = s.cur.past s.issue.cluster s.now) ∧
  (∀ (s : State) (x : Section), s.freshIssue = true → s.cur.sup = true → s.cur.saved = some x → x.parkedNow = [] →
    ∃ t, exec .rplrel s = .next t ∧ Elsewhere s t ∧
      t.cur = ({ s.cur with saved := some (x.reparked []) } : Ctx).past s.issue.cluster s.now) ∧
  (∀ (s : State) (p k : Nat) (cl : Cluster) (room : Bool) (reg held : Nat), s.wedged p k = some cl →
    (Ctx.cluster (s.ctx p k) cl).status = .stalled room reg held →
    exec (.wedge ⟨p, k⟩) s = .next (s.raise p k
      ⟨if room then causeQOVF else causeQUNF, BitVec.ofNat 64 (reg % 64), cl, false⟩))

/-- R401. -/
def Obligations.TrapRaisesTrapi : Prop :=
  ∀ (n : BitVec 8) (s : State), s.freshIssue = true → s.issue.cluster = .c → s.hub.tvec ≠ 0 → s.cur.sup = false →
    (s.cur.past .c s.now).stopClusters.reserved = false → s.cur.c.next = none →
    ∃ t, exec (.trap n) s = .next t ∧ t.cur.tval = n.zeroExtend 64 ∧
      t.cur.tcause = BitVec.ofNat 16 (s.cur.activeMask * 2 ^ 12 + (if s.cur.apart then 2 ^ 11 else 0) + causeTRAPI) ∧
      tget 0 t.cur.epc 0 = BitVec.ofNat 56 (s.cur.c.pc + (if s.cur.apart then 8 else 32)).toNat

/-- Trap entry (R396).  R397. -/
def Obligations.TrapEntry : Prop :=
  (∀ (s : State) (p k : Nat) (r : CauseRec), (s.core p).resident = true → (s.ctx p k).trapDue = some r →
      ((s.ctx p k).reserved = true → exec (.trapEntry ⟨p, k⟩) s = .next s) ∧
      ((s.ctx p k).reserved = false → s.hub.tvec ≠ 0 → (s.ctx p k).sup = false →
        ∃ t, exec (.trapEntry ⟨p, k⟩) s = .next t ∧
          let c := s.ctx p k
          let h := t.ctx p k
          let start : ClusterState := ⟨BitVec.ofNat 64 (s.hub.tvec.toNat / 32 * 32), .running, 1, none⟩
          h.saved = some (s.trapSection p k) ∧ h.tval = r.value ∧
          h.tcause = BitVec.ofNat 16 (c.activeMask * 2 ^ 12 + (if c.apart then 2 ^ 11 else 0)
            + (if r.async then 2 ^ 10 else 0) + Cluster.index r.cluster * 2 ^ 8 + r.cause) ∧
          h.epc = [(0, BitVec.ofNat 56 c.c.pc.toNat), (1, BitVec.ofNat 56 c.a.pc.toNat),
            (2, BitVec.ofNat 56 c.v.pc.toNat), (3, BitVec.ofNat 56 c.m.pc.toNat)] ∧
          h.sup = true ∧ h.apart = false ∧ h.c = start ∧ h.a = start ∧ h.v = start ∧ h.m = start ∧
          h.scalars = [] ∧ h.vectors = [] ∧ h.fpstat = 0 ∧ h.trapDue = none ∧
          t.mem = s.mem ∧ (∀ q, q ≠ p → t.core q = s.core q) ∧ (t.core p).pool = (s.core p).pool ∧
          t.team p = { s.team p with ctxs := (t.team p).ctxs } ∧ (∀ j, j ≠ k → t.ctx p j = s.ctx p j))) ∧
  (∀ (s : State) (p k slot plot pos : Nat) (r : CauseRec) (l : Launch), (s.core p).resident = true →
      (s.ctx p k).trapDue = some r → (s.ctx p k).reserved = false → (s.hub.tvec = 0 ∨ (s.ctx p k).sup = true) →
      (s.team p).work = .launch slot plot pos → s.launch slot = some l → l.ended = none →
      ∃ t m, exec (.trapEntry ⟨p, k⟩) s = .next t ∧ t.launch slot = some m ∧
        m.ended = some (3, r.cause, plot % 2 ^ 24) ∧ (t.core p).resident = false ∧ t.mem = s.mem)

/-- ERET (R402, R403). -/
def Obligations.EretRestores : Prop :=
  (∀ (s : State) (x : Section), s.issue.alone = true → s.cur.sup = true → s.cur.saved = some x → s.cur.loadQ = [] →
    s.cur.storeQ = [] → x.ok = true → epcAligned s.cur x = true → x.parkedNow = [] → s.cur.pending = [] →
    let goesOn := fun (i : Nat) => (x.targets.find? fun e =>
      e.1 == i && e.2.1 == BitVec.ofNat 64 (tget 0 s.cur.epc i).toNat).map fun e => e.2.2
    ∃ t, exec .eret s = .next t ∧ Elsewhere s t ∧ t.cur.sup = false ∧ t.cur.saved = none ∧
      t.cur.apart = bit (x.dword 1) 0 ∧
      t.cur.c = ⟨BitVec.ofNat 64 (tget 0 s.cur.epc 0).toNat, if bit (x.dword 1) 12 then .running else .resting,
        BitVec.ofNat 64 (x.dword 6) ||| 1, goesOn 0⟩ ∧
      t.cur.a = ⟨BitVec.ofNat 64 (tget 0 s.cur.epc 1).toNat, if bit (x.dword 1) 13 then .running else .resting,
        BitVec.ofNat 64 (x.dword 7) ||| 1, goesOn 1⟩ ∧
      t.cur.v = ⟨BitVec.ofNat 64 (tget 0 s.cur.epc 2).toNat, if bit (x.dword 1) 14 then .running else .resting,
        BitVec.ofNat 64 (x.dword 8) ||| 1, goesOn 2⟩ ∧
      t.cur.m = ⟨BitVec.ofNat 64 (tget 0 s.cur.epc 3).toNat, if bit (x.dword 1) 15 then .running else .resting,
        BitVec.ofNat 64 (x.dword 9) ||| 1, goesOn 3⟩ ∧
      t.cur.fpstat = BitVec.ofNat 5 (x.dword 74) ∧ t.cur.mctl = BitVec.ofNat 2 (x.dword 84)) ∧
  (∀ (s : State) (x : Section) (r : CauseRec), s.issue.alone = true → s.cur.sup = true → s.cur.saved = some x →
    s.cur.loadQ = [] → s.cur.storeQ = [] → x.ok = true → epcAligned s.cur x = true → x.parkedNow = [] →
    ({ s.cur with saved := none } : Ctx).requestCause = some r →
    let c := restoreCtx s.cur x (fun i => tget 0 s.cur.epc i) s.cycles false
    exec .eret s = .next ((s.setCtx s.issue.core s.issue.ctx (c.dropCause r)).raise s.issue.core s.issue.ctx r)) ∧
  (∀ (s : State) (x : Section), s.issue.alone = true → s.cur.sup = true → s.cur.saved = some x → s.cur.loadQ = [] →
    s.cur.storeQ = [] → (x.ok = false → exec .eret s = .next (s.endByTrap s.issue.core causeILLEGAL)) ∧
    (x.ok = true → epcAligned s.cur x = false →
      exec .eret s = .next (s.endByTrap s.issue.core causeALIGN)) ∧
    (∀ y ys, x.ok = true → epcAligned s.cur x = true → x.parkedNow.flatMap Access.pieces = y :: ys →
      let c := restoreCtx s.cur x (fun i => tget 0 s.cur.epc i) s.cycles false
      exec .eret s = .next ((s.setCtx s.issue.core s.issue.ctx c).raise s.issue.core s.issue.ctx
        ⟨causeREPLAY, BitVec.ofNat 64 y.va, .a, false⟩))) ∧
  (∀ (s : State), s.issue.alone = true → s.cur.sup = true → s.cur.saved = none →
    exec .eret s = .next (s.trapHere causeILLEGAL s.issue.word))

/-- The save image loses nothing (R402, R412); what of it stands outside the dwords is log entry 34.  p0 is 1. -/
def Obligations.SectionKeepsContext : Prop :=
  ∀ (t : Team) (k cycles : Nat) (old : Ctx) (epc : Nat → BitVec 56) (sup : Bool),
    (∀ r, r < 62 → ((t.ctx k).squeue r).entries.length ≤ queueDepth r ∧
      ∀ e, e ∈ ((t.ctx k).squeue r).entries → e.isPending = false ∧ ∀ c v, e = .error c v → c < 256) →
    (∀ r, r < 16 → ((t.ctx k).vqueue r).entries.length ≤ 2 ∧
      ∀ e, e ∈ ((t.ctx k).vqueue r).entries → e.isPending = false) →
    (t.ctx k).replay = [] →
    let c := t.ctx k
    let x := makeSection t k cycles
    let d := restoreCtx old x epc cycles sup
    (∀ r, r < 62 → (d.squeue r).entries = (c.squeue r).entries ∧ (d.squeue r).drop = (c.squeue r).drop ∧
      (d.squeue r).cond = (c.squeue r).cond ∧ (d.squeue r).retain = (c.squeue r).retain) ∧
    (∀ r, r < 16 → (d.vqueue r).entries = (c.vqueue r).entries ∧ (d.vqueue r).drop = (c.vqueue r).drop ∧
      (d.vqueue r).cond = (c.vqueue r).cond ∧ (d.vqueue r).retain = (c.vqueue r).retain) ∧
    (∀ cl, (Ctx.cluster d cl).preds = (Ctx.cluster c cl).preds ||| 1) ∧
    (∀ i, i < 8 → tget 0 d.benes i = tget 0 c.benes i) ∧ (∀ i, i < 6 → tget 0 d.counters i = tget 0 c.counters i) ∧
    d.apart = c.apart ∧ d.fpstat = c.fpstat ∧ d.issued = c.issued ∧ d.mark = c.mark ∧ d.mctl = c.mctl ∧
    d.mfltrec = c.mfltrec ∧ d.mflttile = c.mflttile ∧ d.segOpen = c.segOpen ∧ d.segId = c.segId ∧
    d.segCyc = c.segCyc ∧ d.segCrc = c.segCrc

/-- The privilege checks (R208, R398, R400): at user level a supervisor-only syllable raises PRIV, and so does an access to
a CSR that the map gives to supervisor level, also a write of one without a writable field (log entry 80); any other write
of a CSR without a writable field raises ILLEGAL. -/
def Obligations.PrivilegeChecked : Prop :=
  (∀ (s : State) (i : Instr), s.issue.alone = true → s.cur.sup = false → (i = .waiti ∨ i = .eret ∨ i = .rplrel) →
    ∃ v, exec i s = .next (s.trapHere causePRIV v)) ∧
  (∀ (s : State) (n : BitVec 16) (d : Dst) (a : Src), s.issue.alone = true → s.cur.sup = false → s.cur.quiet = true →
    s.flagsSettled s.issue.core s.issue.ctx n.toNat = true → (csrFence n.toNat = true → s.cur.performedAll = true) →
    (csrSupervisor n.toNat = true → ∃ v, exec (.csrr d n) s = .next (s.trapHere causePRIV v)) ∧
    (csrSupervisor n.toNat = true ∨ csrWriteSupervisor n.toNat = true →
      ∃ v, exec (.csrw n a) s = .next (s.trapHere causePRIV v) ∧
        exec (.csrx d n a) s = .next (s.trapHere causePRIV v))) ∧
  (∀ (s : State) (n : BitVec 16) (d : Dst) (a : Src), s.issue.alone = true → csrWritable n.toNat = false →
    (s.cur.sup = true ∨ csrSupervisor n.toNat = false) → s.cur.quiet = true →
    s.flagsSettled s.issue.core s.issue.ctx n.toNat = true → (csrFence n.toNat = true → s.cur.performedAll = true) →
    exec (.csrw n a) s = .next (s.trapHere causeILLEGAL s.issue.word) ∧
    exec (.csrx d n a) s = .next (s.trapHere causeILLEGAL s.issue.word)) ∧
  (∀ n, csrSupervisor n = true ↔ n ∈ [0x90, 0x91, 0x92, 0x100, 0x101, 0x102, 0x103, 0x201, 0x202, 0x203, 0x204, 0x205,
    0x206, 0x207, 0x208, 0x209, 0x20A])

/-- The CSR syllables (R208) and the hub's writes (R141, R367): each completes once the context's earlier work has, where
the access is allowed and the value is one the CSR takes. -/
def Obligations.CsrAccess : Prop :=
  (∀ (s : State) (n : BitVec 16) (d : Dst), s.freshIssue = true → csrDefined n = true →
    (csrSupervisor n.toNat = true → s.cur.sup = true) → s.cur.quiet = true →
    s.flagsSettled s.issue.core s.issue.ctx n.toNat = true →
    (csrFence n.toNat = true → s.cur.performedAll = true ∧ s.cur.storeFaults = []) →
    s.cur.takes s.issue.cluster d = true →
    ∃ t, exec (.csrr d n) s = .next t ∧ Elsewhere s t ∧
      t.cur = (s.cur.put s.issue.cluster d
        (.ready (s.csrValue s.issue.core s.issue.ctx n.toNat) false)).past s.issue.cluster s.now) ∧
  (∀ (s s1 : State) (n : BitVec 16) (d : Dst) (a : Src) (v : W64), s.freshIssue = true → csrDefined n = true →
    csrWritable n.toNat = true → (csrSupervisor n.toNat = true ∨ csrWriteSupervisor n.toNat = true → s.cur.sup = true) →
    s.cur.quiet = true → s.flagsSettled s.issue.core s.issue.ctx n.toNat = true → readSrc a s = .ok (v, s1) →
    csrMbz n.toNat v.toNat = true → s1.csrRefused s.issue.core s.issue.ctx n.toNat v.toNat = false →
    let p := s.issue.core
    let k := s.issue.ctx
    let old := s.csrValue p k n.toNat
    let u := s1.csrWrite p k n.toNat v
    (csrRemote n.toNat v.toNat = false →
      u.csrValue p k n.toNat = v ∧ u.mem = s.mem ∧ (n.toNat ≠ 0x200 → u.hub = s.hub) ∧
      (∀ q, q ≠ p → u.core q = s.core q) ∧ (∀ j, j ≠ k → u.ctx p j = s.ctx p j) ∧
      u.cur.scalars = s1.cur.scalars ∧ u.cur.vectors = s.cur.vectors ∧
      (∃ t, exec (.csrw n a) s = .next t ∧ Elsewhere u t ∧ t.cur = u.cur.past s.issue.cluster s.now) ∧
      (s1.cur.takes s.issue.cluster d = true → ∃ t, exec (.csrx d n a) s = .next t ∧ Elsewhere u t ∧
        t.cur = (u.cur.put s.issue.cluster d (.ready old false)).past s.issue.cluster s.now)) ∧
    (csrRemote n.toNat v.toNat = true →
      (∃ t, exec (.csrw n a) s = .next t ∧ Elsewhere s t ∧ t.cur.waitsFor s.issue.cluster (.csr n.toNat v none) ∧
        t.cur.scalars = s1.cur.scalars) ∧
      (s1.cur.takes s.issue.cluster d = true → ∃ t, exec (.csrx d n a) s = .next t ∧ Elsewhere s t ∧
        t.cur.waitsFor s.issue.cluster (.csr n.toNat v (some d)) ∧ t.cur.scalars = s1.cur.scalars))) ∧
  (∀ (s : State) (p k : Nat) (v : W64) (dst : Option Dst), s.csrWaiting ⟨p, k⟩ 0x103 v = some dst →
    ∃ t, exec (.codesetWrite ⟨p, k⟩ v) s = .next t ∧ tget 0 t.hub.codesets (s.ctx p k).codeix.toNat = v ∧
      (∀ i, i ≠ (s.ctx p k).codeix.toNat → tget 0 t.hub.codesets i = tget 0 s.hub.codesets i) ∧
      t.mem = s.mem ∧ t.ctx p k = ((s.ctx p k).resumed .c).oldTo dst (s.csrValue p k 0x103)) ∧
  (∀ (s : State) (p k : Nat) (dom : BitVec 2) (v : W64) (dst : Option Dst),
    s.csrWaiting ⟨p, k⟩ (0x1C0 + dom.toNat) v = some dst →
    ∃ t, exec (.lkmtxWrite ⟨p, k⟩ dom v) s = .next t ∧ t.lkmtx dom.toNat = BitVec.ofNat 36 v.toNat ∧
      (∀ i, i ≠ dom.toNat → t.lkmtx i = s.lkmtx i) ∧ t.mem = s.mem ∧
      t.ctx p k = ((s.ctx p k).resumed .c).oldTo dst (s.csrValue p k (0x1C0 + dom.toNat))) ∧
  (∀ (s s1 : State) (n : BitVec 16) (d : Dst) (a : Src) (v : W64), s.issue.alone = true → csrDefined n = true →
    csrWritable n.toNat = true → s.cur.sup = true → s.cur.quiet = true →
    s.flagsSettled s.issue.core s.issue.ctx n.toNat = true → readSrc a s = .ok (v, s1) →
    csrMbz n.toNat v.toNat = false →
    exec (.csrw n a) s = .next (s.trapHere causeILLEGAL s.issue.word) ∧
    exec (.csrx d n a) s = .next (s.trapHere causeILLEGAL s.issue.word))

/-- ENQ, ENQ_APPEND, CHLINK, CHKICK and ENGSTAT (R267 to R271): an ENQ that the hardware accepts completes at issue where
its queue has room and at ENQ_APPEND else; the others complete at issue. -/
def Obligations.EngineSyllables : Prop :=
  (∀ (q : BitVec 2) (a : Src) (s s1 s2 s3 : State) (x : W64) (r : Rec) (pins : List TlbEntry), s.freshIssue = true →
    readSrc a s = .ok (x, s1) → x.toNat % 128 = 0 → readRecord x 128 s1 = .ok (r, s2) →
    checkCommand r q.toNat (s2.factsOf s2.curTeam) = none → s2.checkAgents s2.issue.core r = none →
    (s2.needsCommit s2.issue.core r = true → s2.curTeam.uncommitted = false) →
    s2.pinFootprint s2.issue.core s2.issue.ctx s2.cur.user r = (.ok pins, s3) → s3.pinsFit s2.issue.core pins = true →
    ((s3.curTeam.queue q.toNat).occ < 16 →
      ∃ t, exec (.enq q a) s = .next t ∧
        (t.curTeam.queue q.toNat).cmds.map Command.bytes = (s3.curTeam.queue q.toNat).cmds.map Command.bytes ++ [r] ∧
        (∀ n, n ≠ q.toNat → t.curTeam.queue n = s3.curTeam.queue n) ∧ t.mem = s3.mem ∧
        t.cur = ({ s3.cur with nextSeq := s3.cur.nextSeq + 1 } : Ctx).past s.issue.cluster s.now) ∧
    (16 ≤ (s3.curTeam.queue q.toNat).occ →
      ∃ t c, exec (.enq q a) s = .next t ∧ t.curTeam.queues = s3.curTeam.queues ∧ c.bytes = r ∧
        t.cur.waitsFor s.issue.cluster (.enqRoom q.toNat c))) ∧
  (∀ (q : BitVec 2) (a : Src) (s s1 : State) (x : W64), s.issue.alone = true → readSrc a s = .ok (x, s1) →
    x.toNat % 128 ≠ 0 → exec (.enq q a) s = .next (s.trapHere causeALIGN x) ∧
      exec (.chlink q a) s = .next (s.trapHere causeALIGN x)) ∧
  (∀ (s : State) (p k q : Nat) (c : Command) (po : List Popped), (s.core p).resident = true →
    (s.ctx p k).a.status = .waiting (.enqRoom q c) po → ((s.team p).queue q).occ < 16 →
    ∃ t, exec (.enqAppend ⟨p, k⟩) s = .next t ∧ t.mem = s.mem ∧ t.ctx p k = (s.ctx p k).resumed .a ∧
      ((t.team p).queue q).cmds.map Command.bytes = ((s.team p).queue q).cmds.map Command.bytes ++ [c.bytes]) ∧
  (∀ (q : BitVec 2) (a : Src) (s s1 : State) (x : W64), s.freshIssue = true → readSrc a s = .ok (x, s1) →
    let e := s.curTeam.queue q.toNat
    let noted : EngineQueue := { e with lastKick := some s.issue.ctx }
    let kicked (u : EngineQueue) : EngineQueue := { u with kicker := s.issue.ctx, kickSeq := s.cur.nextSeq }
    (x.toNat % 128 = 0 → ∃ t, exec (.chlink q a) s = .next t ∧
      Elsewhere (s.modTeam s.issue.core fun m => m.setQueue q.toNat { e with link := x, act := e.act && x != 0 }) t ∧
      t.cur = s1.cur.past s.issue.cluster s.now) ∧
    (∃ t, exec (.chkick q a) s = .next t ∧
      Elsewhere (s.modTeam s.issue.core fun m =>
        if e.halt then
          (m.setQueue q.toNat (kicked (noted.resume (x.getLsbD 0) (s.issue.ctx, s.cur.nextSeq)))).stamp q.toNat
        else if !e.act && e.link != 0 then m.setQueue q.toNat (kicked { noted with act := true, next := e.link.toNat })
        else m.setQueue q.toNat noted) t ∧
      t.cur = s1.cur.past s.issue.cluster s.now ∧
      (e.halt = true → (t.curTeam.queue q.toNat).halt = false ∧ (t.curTeam.queue q.toNat).fault = 0 ∧
        (t.curTeam.queue q.toNat).cmds.map Command.bytes =
          (e.cmds.filter fun y => !x.getLsbD 0 || y.serial != e.haltAt).map Command.bytes))) ∧
  (∀ (q : BitVec 2) (d : Dst) (s : State), s.freshIssue = true → s.cur.takes s.issue.cluster d = true →
    ∃ t, exec (.engstat q d) s = .next t ∧ Elsewhere s t ∧
      t.cur = (s.cur.put s.issue.cluster d (.ready (s.curTeam.queue q.toNat).status false)).past s.issue.cluster s.now)

/-- COMMAND_START, COMMAND_RETIRE, CHAIN_FETCH (R80, R270): each completes where its conditions hold. -/
def Obligations.CommandsStartAndRetire : Prop :=
  (∀ (s : State) (p q i : Nat) (c : Command), (s.core p).resident = true → ((s.team p).queue q).halt = false →
    EngineQueue.nextStart ((s.team p).queue q).cmds 0 = some (i, c) →
    (c.fail = none → c.refetches = false → (s.core p).encodesAhead q c.serial = false →
      (cmdRact c.bytes ≠ 0 → ((s.team p).ring (cmdRing c.bytes)).isSet = true) →
      cmdReady (s.team p) c.bytes = true →
      ((s.team p).queue q).lastStart + 3 * ((s.team p).queue q).pace.toNat ≤ s.now →
      (s.team p).earlierWaiter c.waitSince (maskBits (cmdWaitMask c.bytes)) = false → s.fabricStart c.bytes = none →
      ∃ t d, exec (.commandStart p q) s = .next t ∧ t.mem = s.mem ∧
        (∀ n, n < 32 → (t.team p).event n = (s.team p).event n - (if bit (cmdWaitMask c.bytes) n then 1 else 0)) ∧
        (∀ n, (t.team p).ring n = (preStart (s.team p) c.bytes).1.ring n) ∧
        ((t.team p).queue q).cmds[i]? = some d ∧ d.started = true ∧ d.bytes = c.bytes ∧
        d.slot = (preStart (s.team p) c.bytes).2 ∧
        ((t.team p).queue q).lastStart = s.now ∧ (∀ k, t.ctx p k = s.ctx p k)) ∧
    (∀ cause v, c.fail = some (cause, v) → (s.team p).allHalted = false →
      ∃ t, exec (.commandStart p q) s = .next t ∧ t.mem = s.mem ∧ ((t.team p).queue q).halt = true ∧
        ((t.team p).queue q).fault = BitVec.ofNat 64 (cause * 2 ^ 56 + v.toNat % 2 ^ 56))) ∧
  (∀ (s : State) (p q : Nat) (c : Command) (rest : List Command) (u : Team), (s.core p).resident = true →
    ((s.team p).queue q).halt = false ∨ c.serial ≠ ((s.team p).queue q).haltAt →
    ((s.team p).queue q).cmds = c :: rest → c.started = true → c.dataDone = true → c.ringDone = false →
    c.kickClear (s.team p) = true → c.away = [] →
    postRetire (s.team p) q c = some u → cmdCplw c.bytes = 0 → (∀ n, n < 32 → (s.team p).event n < 0xFFFF) →
    ∃ t, exec (.commandRetire p q) s = .next t ∧ ((t.team p).queue q).cmds = rest ∧
      ((t.team p).queue q).flag = ((s.team p).queue q).flag ||| c.flags ∧ (∀ n, (t.team p).ring n = u.ring n) ∧
      (∀ n, n < 32 → (t.team p).event n = (s.team p).event n + (if bit (cmdSigMask c.bytes) n then 1 else 0))) ∧
  (∀ (s s1 s2 : State) (p q : Nat) (r : Rec) (pins : List TlbEntry), (s.core p).resident = true →
    let e := (s.team p).queue q
    e.act = true → e.occ < 16 → (e.cmds.all fun c => c.fail.isNone && !c.refetches) = true →
    (s.team p).enqWaits q = false → ((s.team p).ctx e.kicker).storesBefore e.kickSeq = true →
    s.fetchCommand p e.kicker e.next = .ok (r, s1) →
    s1.checkFetched p e.kicker q e.next r = (.ok pins, s2) → s2.pinsFit p pins = true →
    ∃ t, exec (.chainFetch p q) s = .next t ∧ t.mem = s2.mem ∧
      ((t.team p).queue q).cmds.map Command.bytes = ((s2.team p).queue q).cmds.map Command.bytes ++ [r] ∧
      ((t.team p).queue q).act = (((s2.team p).queue q).act && cmdChain r) ∧
      (cmdChain r = true → ((t.team p).queue q).next = cmdNext r))

/-- The data steps of R273 to R281: a step that takes all its rows at once completes with its command's data done.  The codes
COPY, GATHER and SCATTER write (127 where the source has none) and their padding are log entries 38 and 102; that rows which
share a sector write it once is log entry 109.  ENCODE under WIDE and the steps that take a part of the rows are left out. -/
def Obligations.EngineDataSteps : Prop :=
  ∀ (s : State) (p q i : Nat) (c : Command), c.doneSectors = [] →
    let r := c.bytes
    let x := srcSide r (s.srcAddr p c)
    let d := dstSide r (s.dstAddr p c)
    (∀ u, s.dataCommand p q 1 = some (i, c) →
      s.engineWrite p c (regionBytes d fun _ => ⟨if d.fmt = .ra then 0 else cmdKarg0 r, cmdKarg1 r, false⟩)
        (regionSectors d) = .ok u →
      ∃ t, exec (.fill p q none) s = .next t ∧ t.mem = u.mem ∧ t.dataEnded p q i r) ∧
    (∀ m s1 u, s.dataCommand p q 0 = some (i, c) → x.fmt = d.fmt →
      s.engineRead p c (cmdStid r) (sideReads x d.rows) = .ok (m, s1) →
      s1.engineWrite p c (regionBytes d fun j => ⟨x.elem m.bytes j, if x.scl = 0 then 127 else x.scale m.bytes j,
        if m.marks.isEmpty then false else x.marked m.marks j⟩) (regionSectors d) = .ok u →
      ∃ t, exec (.copy p q none) s = .next t ∧ t.mem = u.mem ∧ t.dataEnded p q i r) ∧
    (∀ m s1 u, s.dataCommand p q 2 = some (i, c) → x.fmt ≠ d.fmt →
      s.engineRead p c (cmdStid r) (sideReads x (rowsWithBlocks x
        (if d.fmt.isBlock then d.axis else if x.scl != 0 then x.axis else 0) d.rows)) = .ok (m, s1) →
      s1.engineWrite p c (regionBytes d fun j => ⟨(convertAt x d (cmdRnd r) m.bytes j).1,
        (convertAt x d (cmdRnd r) m.bytes j).2.1, convertMarked x d m.marks j⟩) (regionSectors d) = .ok u →
      ∃ t, exec (.convert p q none) s = .next t ∧ t.mem = u.mem ∧ t.dataEnded p q i r) ∧
    (∀ j, j = Instr.gather p q none ∧ s.dataCommand p q 3 = some (i, c) ∨
        j = Instr.scatter p q none ∧ s.dataCommand p q 4 = some (i, c) →
      (cmdEmpty r = true → ∃ t, exec j s = .next t ∧ t.mem = s.mem ∧ t.dataEnded p q i r) ∧
      (∀ ix m s1 s2 u, cmdEmpty r = false → s.indexArray p c = .ok (ix, s1) →
        let c' : Command := { c with early := some (ix.bytes, ix.marks) }
        let now := (moveSectors d (gatherMoves r ix.bytes)).map Prod.snd
        let moves := movesOver d (gatherMoves r ix.bytes) now
        s1.engineRead p c' (cmdStid r) (moves.flatMap fun mv => sideReads x mv.2.toList) = .ok (m, s2) →
        s2.engineWrite p c' (movesOut x d m moves now) now = .ok u →
        ∃ t y, exec j s = .next t ∧ t.mem = u.mem ∧ t.dataEnded p q i r ∧
          ((t.team p).queue q).cmds[i]? = some y ∧ y.flags = c.flags ||| oobOf r ix.bytes)) ∧
    (∀ sc s1, s.dataCommand p q 5 = some (i, c) → s.encodeScales p c = .ok (sc, s1) →
      let c' : Command := { c with early := some (sc.bytes, sc.marks) }
      let src := s1.srcAddr p c'
      let e := dstSide r (s1.dstAddr p c')
      let coded := fun b => encodeBlock r (s.srcAddr p c) sc.bytes [] b
      let policy := bits (cmdKarg0 r) 8 2
      (∀ m s2 u, (∀ b, b ∈ blockStarts d → fitsPlain (coded b) = true) →
        s1.engineRead p c' (cmdStid r) ((List.range (bits (cmdKarg0 r) 0 4)).flatMap fun j =>
          e.rows.map fun w => ((encodeSource r src j).rowAddr w, (encodeSource r src j).rowBytes)) = .ok (m, s2) →
        s2.engineWrite p c' ((e.rows.flatMap fun w => rowOut d (encodeCell r src e .single sc m) w).filter fun o =>
            (e.rows.flatMap fun w => rowSectors d w).eraseDups.contains (o.va / 32))
          (e.rows.flatMap fun w => rowSectors d w).eraseDups = .ok u →
        ∃ t, exec (.encode p q none) s = .next t ∧ t.mem = u.mem ∧ t.dataEnded p q i r) ∧
      ((∃ b, b ∈ blockStarts d ∧ fitsPlain (coded b) = false) →
        (policy = 1 → ∃ t y, exec (.encode p q none) s = .next t ∧ t.mem = s1.mem ∧ t.dataEnded p q i r ∧
          ((t.team p).queue q).cmds[i]? = some y ∧ y.flags.getLsbD 7 = true) ∧
        (policy = 0 → (s1.team p).allHalted = false → ∃ t, exec (.encode p q none) s = .next t ∧ t.mem = s1.mem ∧
          ((t.team p).queue q).halt = true ∧ ((t.team p).queue q).fault.toNat / 2 ^ 56 = causeACCRANGE)))

/-- A2A and A2A_DELIVERY (R283 to R285): an A2A step sends, and a message arrives or is dropped.  That the messages of a packet
leave together and are kept until the far package acknowledges each is log entry 41. -/
def Obligations.MessagesAreDelivered : Prop :=
  (∀ (s s1 : State) (p q i : Nat) (c : Command) (w : Row) (x : Parcel) (rest : List Parcel),
    s.dataCommand p q 6 = some (i, c) → (s.messages.any fun m => m.source == p && m.origin.isNone) = false →
    nextMessage c.bytes c.doneSectors.length = some w →
    s.readParcels p c c.doneSectors.length (packetRoom (cmdExt c.bytes 0)) = .ok (x :: rest, s1) →
    (s.team p).pairRun = 0 →
    (x.dest.pkg = s.hub.pkgid.toNat →
      ∃ t, exec (.a2a p q) s = .next t ∧ t.mem = s1.mem ∧ t.outbox = s1.outbox ∧
        t.messages = s1.messages ++ [x.message (s.team p) p]) ∧
    (x.dest.pkg ≠ s.hub.pkgid.toNat → x.dest.mayLeave = true →
      let xs := samePacket x.dest (x :: rest)
      ∃ t, exec (.a2a p q) s = .next t ∧ t.mem = s1.mem ∧
        t.outbox = (s1.sendPacket p (xs.map Parcel.dest) x.bytes.length (xs.flatMap Parcel.bytes)).outbox ∧
        t.messages = s1.messages ++ xs.map fun y => y.message (s.team p) p)) ∧
  (∀ (s : State) (p q i : Nat) (c : Command), s.dataCommand p q 6 = some (i, c) →
    (s.messages.any fun m => m.source == p && m.origin.isNone) = false → a2aRows c.bytes = [] →
    ∃ t, exec (.a2a p q) s = .next t ∧ t.mem = s.mem ∧ t.dataEnded p q i c.bytes) ∧
  (∀ (s : State) (index : Nat) (m : Message), s.messages[index]? = some m → m.leaves s = false →
    let d := destOf (bit m.target 32) m.target
    (∀ q slot, s.arrival m.launch m.asid d m.bytes.length = .slot q slot → (∀ e ∈ s.redEntries, e.core ≠ some q) →
      Mem.wf (s.core q).pool = true →
      ∃ t, exec (.a2aDelivery index) s = .next t ∧ t.messages = s.messages.eraseIdx index ∧
        (t.team q).ring d.ring = (((s.team q).ring d.ring).claim).publish slot ∧
        Mem.read (t.core q).pool ((s.team q).bufStart .y + ((s.team q).ring d.ring).offset slot) m.bytes.length =
          m.bytes) ∧
    (∀ reason q, s.arrival m.launch m.asid d m.bytes.length = .drop reason q →
      ∃ t, exec (.a2aDelivery index) s = .next t ∧ t.messages = s.messages.eraseIdx index ∧
        t.hub = (s.post evA2ADROP 0 srcHub d.entry reason).hub ∧ t.mem = s.mem ∧
        ∀ n, q = some n → (t.team n).ring d.ring = (let g := (s.team n).ring d.ring
          if g.isSet then { g with drops := min (g.drops + 1) 0xFFFF } else g)))

/-- The element-wise vector syllables (R296, R298 to R300): each completes where its sources read and D has room. -/
def Obligations.VectorElementwise : Prop :=
  (∀ (i : Instr) (f : Fmt) (d : VDst) (a b : VSrc) (k : Option VSrc) (g : Nat → Nat → Nat × Flags),
    VBinRule i f d a b k g → ∀ (s s1 s2 s3 : State) (x y : VBits) (en : List Bool), s.freshIssue = true →
    readVec a s = .ok (x, s1) → readVec b s1 = .ok (y, s2) → readMask f k s2 = .ok (en, s3) →
    s3.cur.vtakes s.issue.cluster d = true →
    let w := f.elemWidth
    ∃ t z, exec i s = .next t ∧ Elsewhere s t ∧
      t.cur = (s3.cur.vresult s.issue.cluster d z ((List.range (32768 / w)).map fun n =>
        if enabledAt en n then (g (elemOf w x n) (elemOf w y n)).2 else 0)).past s.issue.cluster s.now ∧
      ∀ n, n < 32768 / w → elemOf w z n =
        if enabledAt en n then (g (elemOf w x n) (elemOf w y n)).1 % 2 ^ w else elemOf w x n) ∧
  (∀ (i : Instr) (f : Fmt) (d : VDst) (a : VSrc) (k : Option VSrc) (g : Nat → Nat × Flags), VUnRule i f d a k g →
    ∀ (s s1 s2 : State) (x : VBits) (en : List Bool), s.freshIssue = true → readVec a s = .ok (x, s1) →
    readMask f k s1 = .ok (en, s2) → s2.cur.vtakes s.issue.cluster d = true →
    let w := f.elemWidth
    ∃ t z, exec i s = .next t ∧ Elsewhere s t ∧
      t.cur = (s2.cur.vresult s.issue.cluster d z ((List.range (32768 / w)).map fun n =>
        if enabledAt en n then (g (elemOf w x n)).2 else 0)).past s.issue.cluster s.now ∧
      ∀ n, n < 32768 / w → elemOf w z n =
        if enabledAt en n then (g (elemOf w x n)).1 % 2 ^ w else elemOf w x n)

/-- VFMA, VFMS, VCMP, VSEL (R297, R301, R302): each completes where its sources read and D has room. -/
def Obligations.VectorFmaCompareSelect : Prop :=
  ∀ (f : Fmt) (d : VDst) (a b : VSrc) (s s1 s2 : State) (x y : VBits), s.freshIssue = true →
    let w := f.elemWidth
    (∀ (r : Rnd) (c : VSrc) (s3 : State) (z : VBits), readVec a s = .ok (x, s1) → readVec b s1 = .ok (y, s2) →
      readVec c s2 = .ok (z, s3) → s3.cur.vtakes s.issue.cluster d = true →
      let g := fun (neg : Bool) n => f.params.fma r (f.num (elemOf w x n)) (f.num (elemOf w y n))
        (if neg then (f.num (elemOf w z n)).neg else f.num (elemOf w z n))
      (∃ t u, exec (.vfma f r d a b c) s = .next t ∧ Elsewhere s t ∧
        t.cur = (s3.cur.vresult s.issue.cluster d u ((List.range (32768 / w)).map fun n => (g false n).2)).past
          s.issue.cluster s.now ∧ ∀ n, n < 32768 / w → elemOf w u n = (g false n).1 % 2 ^ w) ∧
      (∃ t u, exec (.vfms f r d a b c) s = .next t ∧ Elsewhere s t ∧
        t.cur = (s3.cur.vresult s.issue.cluster d u ((List.range (32768 / w)).map fun n => (g true n).2)).past
          s.issue.cluster s.now ∧ ∀ n, n < 32768 / w → elemOf w u n = (g true n).1 % 2 ^ w)) ∧
    (∀ (cc : Cc) (k : Option VSrc) (s3 : State) (en : List Bool), readVec a s = .ok (x, s1) →
      readVec b s1 = .ok (y, s2) → readMask f k s2 = .ok (en, s3) → s3.cur.vtakes s.issue.cluster d = true →
      let h := fun n => if f.isInt then
          Cc.intHolds cc (signedOf w (elemOf w x n)) (signedOf w (elemOf w y n)) (elemOf w x n) (elemOf w y n)
        else Cc.floatHolds cc (f.num (elemOf w x n)) (f.num (elemOf w y n))
      ∃ t u, exec (.vcmp cc f d a b k) s = .next t ∧ Elsewhere s t ∧
        t.cur = (s3.cur.vresult s.issue.cluster d u ((List.range (32768 / w)).map fun n =>
          if enabledAt en n && !f.isInt && ((f.num (elemOf w x n)).isSnan || (f.num (elemOf w y n)).isSnan) then flagNV
          else 0)).past s.issue.cluster s.now ∧
        ∀ n, n < 32768 / w → elemOf w u n = if enabledAt en n && h n then 2 ^ w - 1 else 0) ∧
    (∀ (c : VSrc) (s3 : State) (z : VBits) (mx my : BitVec 128), readVecP a s = .ok ((x, mx), s1) →
      readVecP b s1 = .ok ((y, my), s2) → readVec c s2 = .ok (z, s3) → s3.cur.vtakes s.issue.cluster d = true →
      ∃ t u marks, exec (.vsel f d a b c) s = .next t ∧ Elsewhere s t ∧
        t.cur = (s3.cur.vput s.issue.cluster d (.ready u marks)).past s.issue.cluster s.now ∧
        (∀ e, e < 128 → (marks.getLsbD e = true ↔ ∃ n, n < 32768 / w ∧ w * n / 256 = e ∧
          (if elemOf w z n ≠ 0 then mx else my).getLsbD e = true)) ∧
        ∀ n, n < 32768 / w → elemOf w u n = if elemOf w z n ≠ 0 then elemOf w x n else elemOf w y n)

/-- Cells and elements that move (R305, R308, R309, R312), with the marks of their sectors (R291): each completes where
its sources read and its destination has room.  The exchange network of R309 permutes. -/
def Obligations.VectorMoves : Prop :=
  ((∀ (i : Instr) (d : VDst) (a : VSrc) (b : Src) (g : Nat → Nat → Nat), VMoveRule i d a b g →
      ∀ (s s1 s2 : State) (x : VBits) (m : BitVec 128) (k : W64), s.freshIssue = true →
      readVecP a s = .ok ((x, m), s1) → readSrc b s1 = .ok (k, s2) → s2.cur.vtakes s.issue.cluster d = true →
      ∃ t z marks, exec i s = .next t ∧ Elsewhere s t ∧
        t.cur = (s2.cur.vput s.issue.cluster d (.ready z marks)).past s.issue.cluster s.now ∧
        (∀ e, e < 128 → (marks.getLsbD e = true ↔ ∃ n, n / 8 = e ∧ m.getLsbD (g k.toNat n / 8) = true)) ∧
        ∀ n, n < 1024 → cellOf z n = cellOf x (g k.toNat n)) ∧
    (∀ (d : VDst) (a : VSrc) (bw : BitVec 3) (s s1 : State) (x : VBits) (m : BitVec 128), s.freshIssue = true →
      readVecP a s = .ok ((x, m), s1) → s1.cur.vtakes s.issue.cluster d = true →
      let g := fun (n : Nat) => 64 * (n / 64) + (benesColumns (tget 0 s.cur.benes bw.toNat)).getD (n % 64) 0
      ∃ t z marks, exec (.vperm d a bw) s = .next t ∧ Elsewhere s t ∧
        t.cur = (s1.cur.vput s.issue.cluster d (.ready z marks)).past s.issue.cluster s.now ∧
        (∀ e, e < 128 → (marks.getLsbD e = true ↔ ∃ n, n / 8 = e ∧ m.getLsbD (g n / 8) = true)) ∧
        ∀ n, n < 1024 → cellOf z n = cellOf x (g n)) ∧
    (∀ (a : VSrc) (bw : BitVec 3) (s s1 : State) (x : VBits), s.freshIssue = true →
      readVecOf a (firstSectors 44) s = .ok (x, s1) →
      ∃ t, exec (.pset bw a) s = .next t ∧ Elsewhere s t ∧
        t.cur = ({ s1.cur with benes := tput s1.cur.benes bw.toNat (BitVec.ofNat 352 x.toNat) } : Ctx).past
          s.issue.cluster s.now) ∧
    (∀ (d : VDst) (a : VSrc) (s s1 : State) (x : VBits) (m : BitVec 128), s.freshIssue = true →
      readVecP a s = .ok ((x, m), s1) → s1.cur.vtakes s.issue.cluster d = true →
      ∃ t, exec (.vmov d a) s = .next t ∧ Elsewhere s t ∧
        t.cur = (s1.cur.vput s.issue.cluster d (.ready x m)).past s.issue.cluster s.now) ∧
    (∀ (f : Fmt) (d : Dst) (a : VSrc) (b : Src) (s s1 s2 : State) (x : VBits) (m : BitVec 128) (k : W64),
      s.freshIssue = true → readVecP a s = .ok ((x, m), s1) → readSrc b s1 = .ok (k, s2) →
      s2.cur.takes s.issue.cluster d = true →
      let w := f.elemWidth
      let e := k.toNat % (32768 / w)
      ∃ t, exec (.vget f d a b) s = .next t ∧ Elsewhere s t ∧
        t.cur = (s2.cur.put s.issue.cluster d (.ready
          (if f.isInt then BitVec.ofInt 64 (signedOf w (elemOf w x e)) else BitVec.ofNat 64 (elemOf w x e))
          (m.getLsbD (w * e / 256)))).past s.issue.cluster s.now) ∧
    (∀ (f : Fmt) (d : VDst) (a : VSrc) (b c : Src) (s s1 s2 s3 : State) (x : VBits) (m : BitVec 128) (v k : W64)
      (bad : Bool), s.freshIssue = true → readVecP a s = .ok ((x, m), s1) → readSrcP b s1 = .ok ((v, bad), s2) →
      readSrc c s2 = .ok (k, s3) → s3.cur.vtakes s.issue.cluster d = true →
      let w := f.elemWidth
      let e := k.toNat % (32768 / w)
      ∃ t z, exec (.vput f d a b c) s = .next t ∧ Elsewhere s t ∧
        t.cur = (s3.cur.vput s.issue.cluster d
          (.ready z (m ||| if bad then 1#128 <<< (w * e / 256) else 0))).past s.issue.cluster s.now ∧
        ∀ n, n < 32768 / w → elemOf w z n = if n = e then v.toNat % 2 ^ w else elemOf w x n) ∧
    (∀ (f : Fmt) (d : VDst) (imm : BitVec 24) (s : State), s.freshIssue = true →
      s.cur.vtakes s.issue.cluster d = true →
      let w := f.elemWidth
      ∃ t z, exec (.vli f d imm) s = .next t ∧ Elsewhere s t ∧
        t.cur = (s.cur.vput s.issue.cluster d (.ready z 0)).past s.issue.cluster s.now ∧
        ∀ n, n < 32768 / w → elemOf w z n = (if f.isInt then wrapInt w imm.toInt
          else if w = 32 then imm.toNat * 256 else imm.toNat % 2 ^ 16) % 2 ^ w)) ∧
  (∀ w : BenesWord, (benesColumns w).Perm (List.range 64))

/-- VCVT, VTOBI, VFROMBI, VREDR, VREDC, VSCANR, VTOPKR, VBUCK (R303 to R311): each completes where its sources read
and D has room. -/
def Obligations.VectorLanes : Prop :=
  (∀ (fd fs : Fmt) (r : Rnd) (part : BitVec 2) (d : VDst) (a : VSrc) (s s1 : State) (x : VBits),
    s.freshIssue = true → s1.cur.vtakes s.issue.cluster d = true →
    (readVecOf a (cvtReads fd fs part.toNat) s = .ok (x, s1) →
      let cs := fs.perRow
      let cd := fd.perRow
      let lane := fun (n : Nat) => match cvtSource cs cd part.toNat (n % cd) with
        | some k => convertElem fd fs r (elemOf fs.elemWidth x (n / cd * cs + k))
        | none => (0, 0)
      ∃ t u, exec (.vcvt fd fs r part d a) s = .next t ∧ Elsewhere s t ∧
        t.cur = (s1.cur.vresult s.issue.cluster d u ((List.range (16 * cd)).map fun n => (lane n).2)).past
          s.issue.cluster s.now ∧
        ∀ n, n < 16 * cd → elemOf fd.elemWidth u n = (lane n).1 % 2 ^ fd.elemWidth) ∧
    (readVecOf a (tobiReads fs part.toNat) s = .ok (x, s1) →
      ∃ t u, exec (.vtobi fd fs r part d a) s = .next t ∧ Elsewhere s t ∧
        t.cur = (s1.cur.vresult s.issue.cluster d u ((List.range 16).flatMap fun i =>
          (rowBlocks fd fs r part.toNat i x).map fun b => b.2.2)).past s.issue.cluster s.now ∧
        ∀ i j, i < 16 → j < 256 →
          elemOf 8 u (256 * i + j) = (blockRow fd.blockWidth (rowBlocks fd fs r part.toNat i x)).getD j 0 % 2 ^ 8) ∧
    (readVecOf a (frombiReads fs) s = .ok (x, s1) →
      ∃ t u, exec (.vfrombi fd fs r part d a) s = .next t ∧ Elsewhere s t ∧
        t.cur = (s1.cur.vresult s.issue.cluster d u ((List.range (16 * fd.perRow)).map fun n =>
          (fromBlock fd fs r part.toNat x n).2)).past s.issue.cluster s.now ∧
        ∀ n, n < 16 * fd.perRow →
          elemOf fd.elemWidth u n = (fromBlock fd fs r part.toNat x n).1 % 2 ^ fd.elemWidth)) ∧
  (∀ (d : VDst) (a : VSrc) (s s1 : State) (x : VBits), s.freshIssue = true → readVec a s = .ok (x, s1) →
    (∀ (f : Fmt) (r : Rnd) (k : Option VSrc) (s2 : State) (en : List Bool), readMask f k s1 = .ok (en, s2) →
      s2.cur.vtakes s.issue.cluster d = true →
      let c := f.perRow
      let w := f.elemWidth
      let lane := fun (op : VRedOp) (uns : Bool) n => if enabledAt en n then elemOf w x n else redIdentity op f uns
      (∀ (op : VRedOp) (uns : Bool),
        let row := fun i => treeFold (redElem op f r uns) (ceilLog2 c) ((List.range c).map fun e => lane op uns (c * i + e))
        let column := fun j => treeFold (redElem op f r uns) 4 ((List.range 16).map fun e => lane op uns (c * e + j))
        (∃ t u, exec (.vredr op f r uns d a k) s = .next t ∧ Elsewhere s t ∧
          t.cur = (s2.cur.vresult s.issue.cluster d u ((List.range 16).map fun i => (row i).2)).past
            s.issue.cluster s.now ∧
          ∀ i j, i < 16 → j < c → elemOf w u (c * i + j) = (row i).1 % 2 ^ w) ∧
        (∃ t u, exec (.vredc op f r uns d a k) s = .next t ∧ Elsewhere s t ∧
          t.cur = (s2.cur.vresult s.issue.cluster d u ((List.range c).map fun j => (column j).2)).past
            s.issue.cluster s.now ∧
          ∀ i j, i < 16 → j < c → elemOf w u (c * i + j) = (column j).1 % 2 ^ w)) ∧
      (let sum := fun i n => (List.range n).foldl (fun acc e =>
          (redElem .add f r false acc (lane .add false (c * i + e))).1) (redIdentity .add f false)
        ∃ t u, exec (.vscanr f r d a k) s = .next t ∧ Elsewhere s t ∧
          t.cur = (s2.cur.vresult s.issue.cluster d u ((List.range 16).flatMap fun i => (List.range c).map fun j =>
            (redElem .add f r false (sum i j) (lane .add false (c * i + j))).2)).past s.issue.cluster s.now ∧
          ∀ i j, i < 16 → j < c → elemOf w u (c * i + j) = sum i (j + 1) % 2 ^ w)) ∧
    (∀ (f : Fmt) (b : Src) (k : Option VSrc) (s2 s3 : State) (en : List Bool) (n : W64), readSrc b s1 = .ok (n, s2) →
      readMask f k s2 = .ok (en, s3) → s3.cur.vtakes s.issue.cluster d = true →
      ∃ t u, exec (.vtopkr f d a b k) s = .next t ∧ Elsewhere s t ∧
        t.cur = (s3.cur.vput s.issue.cluster d (.ready u 0)).past s.issue.cluster s.now ∧
        ∀ i j, i < 16 → j < 64 → elemOf 32 u (64 * i + j) = (topRow f (min n.toNat 32)
          ((List.range 64).map fun e => elemOf 32 x (64 * i + e)) ((en.drop (64 * i)).take 64)).getD j 0 % 2 ^ 32) ∧
    (∀ (f : Fmt) (uns : Bool) (b : VSrc) (c : Src) (s2 s3 : State) (y : VBits) (n : W64),
      readVecOf b (firstSectors 256) s1 = .ok (y, s2) →
      readSrc c s2 = .ok (n, s3) → s3.cur.vtakes s.issue.cluster d = true →
      let sp := (List.range (min n.toNat 63)).map (cellOf y)
      ∃ t u, exec (.vbuck f uns d a b c) s = .next t ∧ Elsewhere s t ∧
        t.cur = (s3.cur.vput s.issue.cluster d (.ready u 0)).past s.issue.cluster s.now ∧
        ∀ e, e < 1024 → elemOf 32 u e = if !f.isInt && (f.num (elemOf 32 x e)).isNan then sp.length
          else (sp.filter fun q => splitterLe f uns q (elemOf 32 x e)).length))

/-- The M cluster's syllables (R314 to R321, R333 to R335): each completes, and says where it waits or traps.  A stream
takes its place behind those of the queue, but before the unstarted ones that contexts of higher numbers appended in the
same cycle (R318). -/
def Obligations.MatrixSyllables : Prop :=
  let placed := fun (z : Stream) (old new : List Stream) => ∃ l1 l2, old = l1 ++ l2 ∧ new = l1 ++ z :: l2 ∧
    (∀ y ∈ l2, y.since = z.since ∧ z.ctx < y.ctx ∧ y.started = false) ∧
    (∀ y, l1.getLast? = some y → ¬(y.since = z.since ∧ z.ctx < y.ctx ∧ y.started = false))
  (∀ (first : BitVec 6) (count : BitVec 7) (s : State), s.freshIssue = true →
    let k := s.issue.ctx
    let run := slotRun first.toNat count.toNat
    ((∀ i, i ∈ run → (s.curTeam.slot i).owner = none ∨ (s.curTeam.slot i).owner = some k) →
      ∃ t, exec (.oclaim first count) s = .next t ∧
        Elsewhere (s.modTeam s.issue.core fun x => { x with opslots := t.curTeam.opslots }) t ∧
        t.cur = s.cur.past s.issue.cluster s.now ∧
        (∀ i, i ∈ run → t.curTeam.slot i = ⟨some k, none⟩) ∧
        (∀ i, i ∉ run → t.curTeam.slot i = s.curTeam.slot i)) ∧
    (∀ i o, run.find? (fun j => (s.curTeam.slot j).owner.isSome && (s.curTeam.slot j).owner != some k) = some i →
      (s.curTeam.slot i).owner = some o →
      exec (.oclaim first count) s = .next (s.trapHere causePROT (BitVec.ofNat 64 (2048 * i)))) ∧
    (∃ t, exec (.orelease first count) s = .next t ∧
      Elsewhere (s.modTeam s.issue.core fun x => { x with opslots := t.curTeam.opslots }) t ∧
      t.cur = s.cur.past s.issue.cluster s.now ∧
      ∀ i, t.curTeam.slot i =
        if i ∈ run ∧ (s.curTeam.slot i).owner = some k ∧ (s.curTeam.slot i).release = none then
          (if s.curTeam.outstanding k = 0 then ⟨none, none⟩ else ⟨some k, some (s.curTeam.outstanding k)⟩)
        else s.curTeam.slot i)) ∧
  (∀ (a b : Src) (s s1 s2 : State) (x n : W64), s.freshIssue = true → readSrc a s = .ok (x, s1) →
    readSrc b s1 = .ok (n, s2) →
    (n = 0 → ∃ t, exec (.mstr a b) s = .next t ∧ Elsewhere s t ∧ t.cur = s2.cur.past s.issue.cluster s.now) ∧
    (4096 < n.toNat → exec (.mstr a b) s = .next (s.trapHere causeILLEGAL s.issue.word)) ∧
    (0 < n.toNat → n.toNat ≤ 4096 → x.toNat % 64 ≠ 0 → exec (.mstr a b) s = .next (s.trapHere causeALIGN x)) ∧
    (0 < n.toNat → n.toNat ≤ 4096 → x.toNat % 64 = 0 → s.cur.mctl.getLsbD 1 = true → s.cur.segOpen = false →
      exec (.mstr a b) s = .next (s.trapHere causeSEGMISMATCH 0)) ∧
    (0 < n.toNat → n.toNat ≤ 4096 → x.toNat % 64 = 0 → (s.cur.mctl.getLsbD 1 = true → s.cur.segOpen = true) →
      ∀ (pins : List TlbEntry) (s3 : State), pinRecords x (64 * n.toNat) s2 = .ok (pins, s3) →
      let y := Stream.fresh s3.cur s.issue.ctx x n.toNat pins
      (s3.curTeam.streams.length < 8 → ∃ t, exec (.mstr a b) s = .next t ∧
        Elsewhere (s3.modTeam s.issue.core fun z => { z with streams := t.curTeam.streams }) t ∧
        placed { y with since := s.cycles } s3.curTeam.streams t.curTeam.streams ∧
        t.cur = ({ s3.cur with nextSeq := s3.cur.nextSeq + 1 } : Ctx).past s.issue.cluster s.now) ∧
      (8 ≤ s3.curTeam.streams.length → ∃ t, exec (.mstr a b) s = .next t ∧ Elsewhere s3 t ∧
        t.cur.waitsFor s.issue.cluster (.streamRoom y)))) ∧
  (∀ (s : State) (p k : Nat) (x : Stream) (po : List Popped), (s.core p).resident = true →
    (s.ctx p k).m.status = .waiting (.streamRoom x) po → (s.team p).streams.length < 8 →
    ∃ t, exec (.streamAppend ⟨p, k⟩) s = .next t ∧ t.mem = s.mem ∧ t.ctx p k = (s.ctx p k).resumed .m ∧
      placed { x with since := s.cycles } (s.team p).streams (t.team p).streams) ∧
  (∀ (n : BitVec 4) (s : State), s.freshIssue = true →
    ∃ t, exec (.mwait n) s = .next t ∧ Elsewhere (s.reachPoint s.issue.core) t ∧
      (s.curTeam.outstanding s.issue.ctx ≤ n.toNat → t.cur = s.cur.past s.issue.cluster s.now) ∧
      (n.toNat < s.curTeam.outstanding s.issue.ctx → t.cur.waitsFor s.issue.cluster (.streams n.toNat))) ∧
  (∀ (s : State) (p k n : Nat) (po : List Popped), (s.ctx p k).m.status = .waiting (.streams n) po →
    (s.team p).outstanding k ≤ n → exec (.mwaitEnd ⟨p, k⟩) s = .next (s.setCtx p k ((s.ctx p k).resumed .m))) ∧
  (∀ (d : Dst) (a : Src) (s s1 : State) (v : W64), s.freshIssue = true → readSrc a s = .ok (v, s1) →
    (v.toNat < 4 → s1.cur.takes s.issue.cluster d = true →
      ∃ t, exec (.mcfg d a) s = .next t ∧ Elsewhere s t ∧
        t.cur = (({ s1.cur with mctl := BitVec.ofNat 2 v.toNat } : Ctx).put s.issue.cluster d
          (.ready (s.cur.mctl.zeroExtend 64) false)).past s.issue.cluster s.now) ∧
    (4 ≤ v.toNat → exec (.mcfg d a) s = .next (s.trapHere causeILLEGAL s.issue.word))) ∧
  (∀ (d : Dst) (s : State), s.freshIssue = true → s.cur.takes s.issue.cluster d = true →
    ∃ t, exec (.mstat d) s = .next t ∧ Elsewhere s t ∧
      t.cur = (s.cur.put s.issue.cluster d (.ready (BitVec.ofNat 64 (s.cur.segId.toNat * 2 ^ 24
        + (if s.cur.segOpen then 2 ^ 23 else 0) + s.curTeam.streams.length * 16
        + s.curTeam.outstanding s.issue.ctx)) false)).past s.issue.cluster s.now) ∧
  (∀ (id : BitVec 16) (s : State), s.freshIssue = true →
    (s.cur.segOpen = false → ∃ t, exec (.segb id) s = .next t ∧ Elsewhere s t ∧
      t.cur = ({ s.cur with segOpen := true, segId := id, segCyc := 0, segCrc := 0xFFFFFFFF } : Ctx).past
        s.issue.cluster s.now) ∧
    (s.cur.segOpen = true → exec (.segb id) s = .next (s.trapHere causeSEGMISMATCH 0))) ∧
  (∀ (id : BitVec 16) (a : Src) (s s1 : State) (w : W64), s.freshIssue = true → readSrc a s = .ok (w, s1) →
    (s.cur.segOpen = false → exec (.sege id a) s = .next (s.trapHere causeSEGMISMATCH 0)) ∧
    (s.cur.segOpen = true → s.curTeam.segmentIssued s.issue.ctx = true →
      let found := BitVec.ofNat 64 ((~~~s.cur.segCrc).toNat * 2 ^ 32 + s.cur.segCyc.toNat)
      (s.cur.segId = id → w = found → ∃ t, exec (.sege id a) s = .next t ∧ Elsewhere s t ∧
        t.cur = ({ s1.cur with segOpen := false } : Ctx).past s.issue.cluster s.now) ∧
      (s.cur.segId ≠ id ∨ w ≠ found → ∃ u : State, exec (.sege id a) s = .next (u.raise s.issue.core s.issue.ctx
          ⟨causeSEGMISMATCH, found, s.issue.cluster, false⟩) ∧ Elsewhere s u ∧
        u.cur = { s.cur with segOpen := false })))

/-- The sequencer (R318, R325 to R332). -/
def Obligations.SequencerRuns : Prop :=
  (∀ (s : State) (p i : Nat) (x : Stream), (s.core p).resident = true → (s.team p).current = some (i, x) →
    x.started = false → (s.ctx p x.ctx).forkClear x.forkSeq = true → (s.ctx p x.ctx).enqBefore x.forkSeq = false →
    ∃ t, exec (.streamStart p) s = .next t ∧ t.mem = s.mem ∧
      (t.team p).streams = (s.team p).streams.set i { x with started := true }) ∧
  (∀ (s s1 : State) (p i : Nat) (x : Stream) (r : Rec), (s.core p).resident = true →
    (s.team p).current = some (i, x) → x.started = true → x.record = none →
    s.fetchRecord p { x with tile := 0 } = .ok (r, s1) →
    (checkNest r = none → ∃ t, exec (.recordFetch p) s = .next t ∧ t.mem = s1.mem ∧
      (t.team p).streams = (s1.team p).streams.set i (if recTiles r = 0 then
        { x with tile := 0, index := x.index + 1 } else { x with tile := 0, record := some r })) ∧
    (∀ cause off, checkNest r = some (cause, off) → ∃ t, exec (.recordFetch p) s = .next t ∧
      (t.ctx p x.ctx).pending = (s1.ctx p x.ctx).pending ++
        [⟨cause, BitVec.ofNat 64 (x.base.toNat + 64 * x.index + off), .m, true⟩] ∧
      (t.team p).outstanding x.ctx ≤ (s1.team p).outstanding x.ctx)) ∧
  (∀ (s : State) (p i cause v : Nat) (x : Stream), (s.core p).resident = true → (s.team p).current = some (i, x) →
    x.started = true → x.record = none → s.fetchRecord p { x with tile := 0 } = .halt cause v →
    ∃ t, exec (.recordFetch p) s = .next t ∧ t.mem = s.mem ∧ (t.ctx p x.ctx).pending = (s.ctx p x.ctx).pending ++
      [⟨cause, BitVec.ofNat 64 v, .m, true⟩]) ∧
  (∀ (s : State) (p i : Nat) (x : Stream) (r : Rec), s.tileDue p i x r →
    let n := x.tile
    let start := (s.team p).bufStart .z
    let z := (tileZ r n).toNat
    let c := (s.core p).reviveRange s.cycles (start + z) tileBytes
    s.inZ p (tileZ r n) → Mem.wf (s.core p).pool = true →
    (∀ rs, ((s.team p).slot (tileA r n)).owner = some x.ctx → ((s.team p).slot (tileB r n)).owner = some x.ctx →
      (s.team p).pend (tileA r n) = 0 → (s.team p).pend (tileB r n) = 0 → c.markedProduct r n start z = none →
      badScale c.opmem (tileA r n) = none → badScale c.opmem (tileB r n) = none →
      let own := productChunks r n c.opmem
      let g := fuseMore (s.team p) c x.ctx r start z (fuseLimit x r - 1) n own
      productRecords r n g.2 (c.tileAt (start + z)) = rs.map some →
      (x.noFuse = true ∨ recFuse r = 0 → g = (0, own)) ∧ g.1 + 1 ≤ max 1 (2 ^ recFuse r) ∧
      (recOp r = 0 → ∃ t, exec (.mma p) s = .next t ∧ t.mem = s.mem ∧ t.poolHolds p start z (tileData rs) ∧
        (t.team p).streams = (s.team p).streams.set i (x.stepped r (g.1 + 1) 0)) ∧
      (recOp r = 1 → ∃ t, exec (.mmaz p) s = .next t ∧ t.mem = s.mem ∧ t.poolHolds p start z (tileData rs) ∧
        (t.team p).streams = (s.team p).streams.set i (x.stepped r (g.1 + 1) 0))) ∧
    (((s.team p).slot (tileA r n)).owner ≠ some x.ctx → recOp r = 0 →
      ∃ t, exec (.mma p) s = .next t ∧ t.mem = s.mem ∧ (t.core p).pool = (s.core p).pool ∧
        (t.ctx p x.ctx).pending = (s.ctx p x.ctx).pending ++
          [⟨causePROT, BitVec.ofNat 64 (2048 * tileA r n), .m, true⟩]) ∧
    (∀ rs, recOp r = 3 → s.inZ p (tileX r n) → (s.core p).deadByte (start + (tileX r n).toNat) tileBytes = none →
      c.markedTile start z = none → c.markedTile start (tileX r n).toNat = none →
      (((c.tileAt (start + z)).zip (c.tileAt (start + (tileX r n).toNat))).map fun e =>
        if 96 ≤ e.1.head || 96 ≤ e.2.head then none else e.1.add e.2) = rs.map some →
      ∃ t, exec (.maddz p) s = .next t ∧ t.mem = s.mem ∧ t.poolHolds p start z (tileData rs) ∧
        (t.team p).streams = (s.team p).streams.set i (x.stepped r 1 0)) ∧
    (∀ rs, recOp r = 4 → c.markedTile start z = none →
      ((c.tileAt (start + z)).map fun e => shiftRec e (recImm r)) = rs.map some →
      ∃ t, exec (.mscl p) s = .next t ∧ t.mem = s.mem ∧ t.poolHolds p start z (tileData rs) ∧
        (t.team p).streams = (s.team p).streams.set i (x.stepped r 1 0))) ∧
  (∀ (s : State) (p i : Nat) (x : Stream) (r : Rec), s.tileDue p i x r → recOp r = 2 →
    let start := (s.team p).bufStart .z
    let z := (tileZ r x.tile).toNat
    let y := tileX r x.tile
    let f := recCfmt r
    let c := (s.core p).wake s.cycles (start + z) tileBytes
    let v := convTile f (recRnd r) ((c.tileAt (start + z)).map fun e => scaledRec e (recImm r))
    s.inZ p (tileZ r x.tile) → 0 ≤ y → y.toNat + convBytes f ≤ (s.team p).bufSize .y →
    c.deadByte (start + z) tileBytes = none → c.markedTile start z = none →
    (∀ e, e ∈ c.tileAt (start + z) → e.head < 96) → Mem.wf (s.core p).pool = true →
    ∃ t, exec (.mconv p) s = .next t ∧ t.mem = s.mem ∧
      t.poolHolds p ((s.team p).bufStart .y) y.toNat (elemBytes (elemBits f / 8) v.1 ++ elemBytes 1 v.2.1) ∧
      (t.team p).streams = (s.team p).streams.set i (x.stepped r 1 v.2.2)) ∧
  (∀ (s : State) (p : Nat) (x : Stream) (rest : List Stream), (s.core p).resident = true →
    (s.team p).streams = x :: rest → x.count ≤ x.index → (s.ctx p x.ctx).saved = none ∨ x.handler = true →
    ∃ t, exec (.streamComplete p) s = .next t ∧ t.mem = s.mem ∧ (t.team p).streams = rest ∧
      (t.ctx p x.ctx).fpstat = (s.ctx p x.ctx).fpstat ||| x.flags) ∧
  (∀ (s : State) (p k : Nat) (e : CauseRec), (s.core p).resident = true → (s.ctx p k).halted = false →
    (s.ctx p k).trapDue = none → (s.ctx p k).dueCause .m = some e →
    exec (.sequencerTrap ⟨p, k⟩) s = .next ((s.setCtx p k ((s.ctx p k).dropCause e)).raise p k e))

/-- Steps of the memory system (R230, R234, R240, R359). -/
def Obligations.MemorySteps : Prop :=
  (∀ (s : State) (index q a : Nat) (e : RedEntry) (v : W64) (cs : List Nat), s.redEntries[index]? = some e →
    e.core = some q → e.words = [(a, v, cs)] → Mem.wf (s.core q).pool = true → (s.core q).isDead a (AmoTy.size e.ty) = false →
    (s.core q).poolPoison a (AmoTy.size e.ty) = false →
    let n := AmoTy.size e.ty
    ∃ t, exec (.redEntryPerform index) s = .next t ∧ t.mem = s.mem ∧ t.redEntries = s.redEntries.filter (· != e) ∧
      leNat ((t.core q).poolRead a n) = redNew e.op e.ty (leNat ((s.core q).poolRead a n)) v.toNat % 2 ^ (8 * n) ∧
      (∀ i, i < a ∨ a + n ≤ i → Mem.byte (t.core q).pool i = Mem.byte (s.core q).pool i) ∧
      ∀ m, m ∈ e.members → ∀ y, y ∈ (t.ctx m.1 m.2.1).storeQ → y.seq ≠ m.2.2) ∧
  (∀ (s : State) (line : Nat),
    ∃ t, exec (.lineWriteback (.flat line)) s = .next t ∧ (∀ i, i < 8 → t.sliceHas (line * 256 + 32 * i) = false) ∧
      (isHost (line * 256) = false → t.mem = s.mem) ∧ (∀ p, t.core p = s.core p)) ∧
  (∀ (s : State) (i : Nat) (l : TensorLine), s.tensorLines[i]? = some l →
    ∃ t, exec (.lineWriteback (.tensor i)) s = .next t ∧ t.tensorLines = s.tensorLines.filter (· != l) ∧
      ((∀ b ∈ l.bytes, isHost b.2.pa = false) → t.mem = s.mem) ∧ (∀ p, t.core p = s.core p)) ∧
  (∀ (s : State) (p k : Nat) (x : CauseRec) (xs : List CauseRec), (s.ctx p k).faultReports = x :: xs →
    exec (.storeFaultReport ⟨p, k⟩) s = .next (s.setCtx p k { s.ctx p k with
      faultReports := xs, storeFaults := (s.ctx p k).storeFaults ++ [x] })) ∧
  (∀ (s : State) (p bank : Nat), (s.core p).mayRetain bank = true →
    tget 0 (s.core p).bankUse bank + 512 ≤ s.cycles →
    ∃ t, exec (.bankRetention p bank) s = .next t ∧ t.mem = s.mem ∧ (t.core p).pool = (s.core p).pool ∧
      tfind (t.core p).banks bank = some 1 ∧ (∀ q, q ≠ p → t.core q = s.core q))

/-- How a team's work ends (R372, R398, R405, R408, R420, R436). -/
def Obligations.TeamsEnd : Prop :=
  (∀ (s : State) (p slot plot pos : Nat) (l : Launch), (s.team p).work = .launch slot plot pos →
    (s.team p).pairRun = 0 → s.drained p = true → s.launch slot = some l → l.electing = false →
    ∃ t m, exec (.plotRetire p) s = .next t ∧ t.launch slot = some m ∧ tfind m.log plot = some .retired ∧
      m.retiredCount = l.retiredCount + 1 ∧ (t.core p).resident = false) ∧
  (∀ (s : State) (slot plot p1 p2 : Nat) (l : Launch), s.runCore slot plot 1 = some p1 →
    s.runCore slot plot 2 = some p2 → s.drained p1 = true → s.drained p2 = true → s.launch slot = some l →
    l.electing = false → (s.team p1).pairSig = (s.team p2).pairSig →
    ∃ t m, exec (.pairCompare slot plot) s = .next t ∧ t.launch slot = some m ∧ tfind m.log plot = some .retired ∧
      m.retiredCount = l.retiredCount + 1 ∧ (t.core p1).resident = false ∧ (t.core p2).resident = false) ∧
  (∀ (s : State) (p age : Nat) (w : W64) (more : List (Nat × W64)) (ch : DiscardChoice), (s.core p).resident = true →
    (s.team p).woundsDue = (age, w) :: more → (s.team p).commit = .none →
    ((s.team p).save = true → ∃ t, exec (.wound p ch) s = .next t ∧ t.mem = s.mem ∧
      (s.locks = [] → (t.team p).woundsDue = more) ∧
      (t.team p).lkwage = BitVec.ofNat 48 age ∧ (t.team p).lkwname = w ∧
      ∀ k, k < (s.team p).width → (s.ctx p k).halted = false →
        (t.ctx p k).pending = (s.ctx p k).pending ++ [⟨causeWOUND, w, .c, true⟩]) ∧
    (∀ slot plot pos l, (s.team p).save = false → (s.team p).work = .launch slot plot pos → s.launch slot = some l →
      ch.stores = [] →
      ∃ t m, exec (.wound p ch) s = .next t ∧ t.mem = s.mem ∧ (t.core p).resident = false ∧ t.launch slot = some m ∧
        tfind m.wounds plot = some (age, w) ∧ ∃ r, r ∈ m.ranges ∧ r.chip = chipOf p ∧ pos ∈ r.returned)) ∧
  (∀ (s : State) (p k v slot plot pos : Nat) (l : Launch), s.tctlValue ⟨p, k⟩ = some v →
    (s.team p).work = .launch slot plot pos → s.launch slot = some l → l.ended = none →
    (∀ ch : DiscardChoice, ch.stores = [] → v % 256 = 0 → bit v 8 = true →
      ∃ t m, exec (.tctlRequeue ⟨p, k⟩ ch) s = .next t ∧ t.mem = s.mem ∧ (t.core p).resident = false ∧
        t.launch slot = some m ∧ ∃ r, r ∈ m.ranges ∧ r.chip = chipOf p ∧ pos ∈ r.returned) ∧
    (∀ cause : BitVec 8, cause ≠ 0 → v % 256 = cause.toNat →
      ∃ t m, exec (.tctlFatal ⟨p, k⟩ cause) s = .next t ∧ t.mem = s.mem ∧ (t.core p).resident = false ∧
        t.launch slot = some m ∧ m.ended = some (3, cause.toNat, plot % 2 ^ 24))) ∧
  (∀ (s : State) (p slot plot pos done : Nat) (l : Launch), (s.core p).resident = true →
    (s.team p).work = .launch slot plot pos → (s.team p).commit = .done done → s.launch slot = some l →
    l.ended = none → done + (if launchCommitWin l.record = 0 then 256 else launchCommitWin l.record) * 4096 ≤ s.cycles →
    ∃ t m, exec (.commitWindowExpiry p) s = .next t ∧ t.mem = s.mem ∧ (t.core p).resident = false ∧
      t.launch slot = some m ∧ m.ended = some (3, 0, plot % 2 ^ 24))

/-- Ownership and the queues' registers (R92 to R103, R114). -/
def Obligations.QueuesAreDriven : Prop :=
  (∀ (s : State) (port : BitVec 1) (v : W64), bit v.toNat 0 = true →
    (s.portUp port.toNat = false → exec (.claim ⟨port, v⟩) s = .next s) ∧
    (s.portUp port.toNat = true → s.ownerNow = 0 → ∃ t, exec (.claim ⟨port, v⟩) s = .next t ∧ t.mem = s.mem ∧
      t.hub.owner = port.toNat + 1 ∧ t.hub.leaseStart = s.now) ∧
    (s.portUp port.toNat = true → s.ownerNow ≠ 0 → ∃ t, exec (.claim ⟨port, v⟩) s = .next t ∧ t.mem = s.mem ∧
      t.hub.owner = if s.claimTie port.toNat then 1 else s.hub.owner)) ∧
  (∀ (s : State) (port : BitVec 1) (v : W64), s.portUp port.toNat = true →
    (s.ownerNow = port.toNat + 1 → ∃ t, exec (.leaseRenew port v) s = .next t ∧ t.mem = s.mem ∧
      t.hub.leaseMs = v.toNat % 2 ^ 16 ∧ t.hub.leaseStart = s.now ∧ t.hub.owner = s.hub.owner) ∧
    (s.ownerNow ≠ port.toNat + 1 → ∃ t, exec (.leaseRenew port v) s = .next t ∧ t.mem = s.mem ∧
      t.hub.leaseMs = s.hub.leaseMs ∧ t.hub.leaseStart = s.hub.leaseStart ∧ t.hub.owner = s.hub.owner)) ∧
  (∀ (s : State), s.leaseOver = true →
    exec .ownershipLapse s = .next { s with hub := { s.hub with owner := 0 } }) ∧
  (∀ (s : State) (port : BitVec 1) (v : W64), bit v.toNat 0 = true → s.portUp port.toNat = true →
    (s.ownerNow = port.toNat + 1 → ∃ t, exec (.handover ⟨port, v⟩) s = .next t ∧ t.mem = s.mem ∧
      t.hub.owner = 2 - port.toNat ∧ t.hub.leaseStart = s.now) ∧
    (s.ownerNow ≠ port.toNat + 1 → ∃ t, exec (.handover ⟨port, v⟩) s = .next t ∧ t.mem = s.mem ∧
      t.hub.owner = s.hub.owner ∧ t.hub.leaseMs = s.hub.leaseMs ∧ t.hub.leaseStart = s.hub.leaseStart)) ∧
  (∀ (s : State) (port : BitVec 1) (q : Nat) (v : W64), q < 16 → s.portUp port.toNat = true →
    s.ownerNow = port.toNat + 1 → s.hub.ready = true → s.hub.fatal = false →
    let x := s.queueReg q
    let n := bits v.toNat 0 4
    let irqv := bits v.toNat 16 8
    (bit v.toNat 15 = true → bit x.control.toNat 15 = false → 4 ≤ n → n ≤ 12 → irqv < 64 →
      s.ringInMemory (bits x.base.toNat 12 40 * 4096) (2 ^ n) 256 = true →
      ∃ t, exec (.queueEnable port q v) s = .next t ∧ t.mem = s.mem ∧ t.queueReg q = { LaunchQueue.reset with
        base := x.base
        control := BitVec.ofNat 64 (irqv * 2 ^ 16 + 2 ^ 15 + (if bit v.toNat 14 then 2 ^ 14 else 0) + n) }) ∧
    (bit v.toNat 15 = false → bit x.control.toNat 15 = true → x.head = x.tail →
      ∃ t, exec (.queueDisable port q v) s = .next t ∧ t.mem = s.mem ∧
        bit (t.queueReg q).control.toNat 15 = false ∧ (t.queueReg q).head = x.head ∧ (t.queueReg q).tail = x.tail) ∧
    (bit x.control.toNat 15 = true →
      tailOk (bits x.control.toNat 0 4) x.tail x.head (BitVec.ofNat 32 v.toNat) = true →
      ∃ t, exec (.qtail port q v) s = .next t ∧ t.mem = s.mem ∧ t.queueReg q = { x with
        tail := BitVec.ofNat 32 v.toNat
        front := if x.front = .empty ∧ BitVec.ofNat 32 v.toNat ≠ x.fseq then .check else x.front }) ∧
    (bit x.control.toNat 15 = true → (x.front ≠ .empty → x.fseq ≠ x.tail) → (x.tail - x.fseq).toNat ≤ 4096 →
      ∃ t, exec (.abort port q) s = .next t ∧ (t.queueReg q).front = .empty ∧ (t.queueReg q).tail = x.tail) ∧
    (∀ s1 s2, bit x.control.toNat 15 = true → x.front = .waitdep → s.waitMet x.record false = (some true, s1) →
      s1.waitMet x.record true = (some true, s2) → s2.tableHeld x.record = false → s2.queueReg q = x →
      ∃ t, exec (.poke port q) s = .next t ∧ t.queueReg q = { x with front := .ready, t0 := s2.now })) ∧
  (∀ (s : State) (port : BitVec 1) (v : W64), s.portUp port.toNat = true → s.ownerNow = port.toNat + 1 →
    s.hub.ready = true → s.hub.fatal = false →
    let x := s.hub.sheafQ
    let n := bits v.toNat 0 4
    let irqv := bits v.toNat 16 8
    (bit v.toNat 15 = true → bit x.control.toNat 15 = false → 4 ≤ n → n ≤ 12 → irqv < 64 →
      s.ringInMemory (bits x.base.toNat 12 40 * 4096) (2 ^ n) 128 = true →
      ∃ t, exec (.sqEnable port v) s = .next t ∧ t.mem = s.mem ∧ t.hub.sheafQ = ⟨x.base,
        BitVec.ofNat 64 (irqv * 2 ^ 16 + 2 ^ 15 + (if bit v.toNat 14 then 2 ^ 14 else 0) + n), 0, 0, []⟩) ∧
    (bit v.toNat 15 = false → bit x.control.toNat 15 = true → x.head = x.tail →
      ∃ t, exec (.sqDisable port v) s = .next t ∧ t.mem = s.mem ∧ bit t.hub.sheafQ.control.toNat 15 = false) ∧
    (bit x.control.toNat 15 = true →
      tailOk (bits x.control.toNat 0 4) x.tail x.head (BitVec.ofNat 32 v.toNat) = true →
      ∃ t, exec (.sqtail port v) s = .next t ∧ t.mem = s.mem ∧ t.hub.sheafQ.tail = BitVec.ofNat 32 v.toNat ∧
        t.hub.sheafQ.head = x.head ∧
        t.hub.sheafQ.posts.length = x.posts.length + (BitVec.ofNat 32 v.toNat - x.tail).toNat))

/-- A launch from queue to completion (R101 to R121). -/
def Obligations.LaunchesRun : Prop :=
  (∀ (s : State) (q : Nat), (s.queueReg q).front = .check → s.hub.fatal = false →
    let x := s.queueReg q
    let r := s.physRead (x.slotAddr x.fseq.toNat) 256
    (checkLaunch r = none → launchWait r false = 0 → launchWait r true = 0 → s.tableHeld r = false →
      ∃ t, exec (.launchCheck q) s = .next t ∧ t.mem = s.mem ∧
        t.queueReg q = { x with record := r, front := .ready, t0 := s.now }) ∧
    (checkLaunch r = none → (launchWait r false ≠ 0 ∨ launchWait r true ≠ 0) →
      ∃ t, exec (.launchCheck q) s = .next t ∧ t.mem = s.mem ∧
        t.queueReg q = { x with record := r, front := .waitdep, t0 := s.now }) ∧
    (∀ off, checkLaunch r = some off → ∃ t, exec (.launchCheck q) s = .next t ∧
      (t.queueReg q).fseq = x.fseq + 1 ∧ (t.queueReg q).front = (if x.fseq + 1 = x.tail then .empty else .check))) ∧
  (∀ (s s1 s2 : State) (q : Nat), q < 16 → s.hub.fatal = false → (s.queueReg q).front = .waitdep →
    (∀ n, n < 16 → n ≠ q → (s.queueReg n).front ≠ .waitdep) →
    s.hub.rechecked < gridOf s.now → gridOf (s.queueReg q).t0 < gridOf s.now →
    ({ s with hub := { s.hub with rechecked := gridOf s.now } } : State).waitMet (s.queueReg q).record false =
      (some true, s1) →
    s1.waitMet (s.queueReg q).record true = (some true, s2) →
    s2.tableHeld (s.queueReg q).record = false → s2.hub.queues = s.hub.queues →
    ∃ t, exec .waitdepRecheck s = .next t ∧ t.queueReg q = { s.queueReg q with front := .ready, t0 := s2.now }) ∧
  (∀ s : State, gridOf s.now ≤ s.hub.rechecked → exec .waitdepRecheck s = .next s) ∧
  (∀ (s s1 : State) (slot q : Nat) (table : List Byte), s.hub.fatal = false → s.hub.ready = true →
    s.freeEntry = some slot → s.chosenFront = some q →
    let r := (s.queueReg q).record
    let cs := s.members r
    cs ≠ [] → s.tensorTable r = .ok (table, s1) → s1.hub.queues = s.hub.queues →
    ∃ t l, exec .dispatch s = .next t ∧ t.mem = s1.mem ∧ t.launch slot = some l ∧ l.record = r ∧ l.queue = q ∧
      l.count = (s.queueReg q).fseq.toNat ∧ l.master = cs.headD 0 ∧ l.deputy = cs[1]? ∧
      l.plots = launchPlots r ∧ l.ranges = dealRanges r (launchPlots r) cs ∧ l.retiredCount = 0 ∧ l.ended = none ∧
      (t.queueReg q).fseq = (s.queueReg q).fseq + 1) ∧
  (∀ (s s1 : State) (slot seg : Nat) (l : Launch) (bs : List Byte), s.launch slot = some l →
    launchWalk l.record = 3 → launchPersist l.record = false → l.ended = none → seg * 2 ^ 24 < l.plots →
    l.segments.length = seg →
    (if seg = 0 then s.readCosts l else .ok (l.costs, s)) = .ok (bs, s1) →
    let n := min (2 ^ 24) (l.plots - seg * 2 ^ 24)
    let order := sortCosts (seg * 2 ^ 24) (bs.drop (2 * (seg * 2 ^ 24))) n
    ∃ t m, exec (.costSort slot seg) s = .next t ∧ t.mem = s1.mem ∧ t.launch slot = some m ∧ m.costs = bs ∧
      tfind m.segments seg = some order ∧ order.Perm ((List.range n).map fun i => seg * 2 ^ 24 + i)) ∧
  (∀ (s : State) (thief slot : Nat) (l : Launch) (r : Range), s.noteWaits.launch slot = some l →
    s.noteWaits.mayStealFor slot l thief = true → s.noteWaits.outAsked slot l thief = false →
    largestRange (l.ranges.filter fun x => l.inS x.chip && (s.chip x.chip).live) = some r → 2 ≤ r.left →
    ∃ t m, exec (.steal thief slot) s = .next t ∧ t.mem = s.mem ∧ t.launch slot = some m ∧
      m.ranges = replaceRange r (r.split thief).1 l.ranges ++ [(r.split thief).2] ∧
      (r.split thief).1.left + (r.split thief).2.left = r.left ∧ (r.split thief).2.left = r.left / 2) ∧
  (∀ (s : State) (slot : Nat) (l : Launch), s.launch slot = some l → s.hub.fatal = false →
    (l.ended ≠ none ∨ l.plots ≤ l.retiredCount) →
    ∃ t, exec (.launchComplete slot) s = .next t ∧ t.launch slot = none)

/-- Teams and cores (R123 to R131, R409 to R411).  That a waiting pair's second core is served before R124's selection is the
model's choice (log entry 81). -/
def Obligations.TeamsComeAndGo : Prop :=
  (∀ (s : State) (chip p : Nat) (rest : List Nat), s.hub.fatal = false → (s.chip chip).live = true →
    (∀ q a, s.secondCore chip = some (q, a) → ∃ t, exec (.coreHandout chip) s = .next t ∧ t.mem = s.mem ∧
      (t.core q).assign = some a) ∧
    (∀ c l a, s.secondCore chip = none → (s.chip chip).fifo = p :: rest → chipOf p = chip →
      bestClaimant (s.claimants chip) = some c → c.task = none → s.launch c.id = some l →
      s.launchGives c.id l chip = some a →
      ∃ t, exec (.coreHandout chip) s = .next t ∧ t.mem = s.mem ∧ (t.core p).assign = some a ∧
        p ∉ (t.chip chip).fifo) ∧
    (∀ c x y task, s.secondCore chip = none → (s.chip chip).fifo = p :: rest → chipOf p = chip →
      bestClaimant (s.claimants chip) = some c → c.task = some task → s.sheafOf c.id = some x →
      (x.tasks.find? fun t => t.id == task) = some y →
      ∃ t, exec (.coreHandout chip) s = .next t ∧ t.mem = s.mem ∧ (t.core p).assign = some (s.taskGives x y) ∧
        p ∉ (t.chip chip).fifo)) ∧
  (∀ (s : State) (p slot plot pos run : Nat) (l : Launch), (s.core p).assign = some ⟨.launch slot plot pos, run, false⟩ →
    s.launch slot = some l → l.electing = false → s.pairReady slot plot run = true →
    ∃ t, exec (.plotStart p) s = .next t ∧ t.mem = s.mem ∧ (t.core p).resident = true ∧
      (t.team p).work = .launch slot plot pos ∧ (t.team p).asid = launchAsid l.record ∧
      (tfind l.log plot = none → (t.team p).age = s.hub.ageCounter ∧ t.hub.ageCounter = s.hub.ageCounter + 1) ∧
      (∀ k, k < launchWidth l.record →
        let c := t.ctx p k
        (∀ i, i < 4 → (c.squeue i).entries = [.ready (BitVec.ofNat 64 (plotIndex l.record plot i)) false]) ∧
        (c.squeue 4).entries = [.ready (BitVec.ofNat 64 (launchArg l.record)) false] ∧
        (∀ r, 4 < r → (c.squeue r).entries = []) ∧ c.vectors = [] ∧ c.sup = launchSup l.record ∧ c.halted = false ∧
        ∀ cl, Ctx.cluster c cl = ⟨BitVec.ofNat 64 (launchEntry l.record), .running, 1, none⟩) ∧
      (∀ q, q ≠ p → t.core q = s.core q)) ∧
  (∀ (s : State) (p id task tile run : Nat) (x : Sheaf), (s.core p).assign = some ⟨.sheaf id task tile, run, false⟩ →
    s.sheafOf id = some x →
    ∃ t, exec (.plotStart p) s = .next t ∧ t.mem = s.mem ∧ (t.core p).resident = true ∧
      (t.team p).work = .sheaf id task tile ∧ (t.team p).width = 1 ∧ (t.ctx p 0).sup = true ∧
      (∀ i, i < 64 → ((t.team p).slot i).owner = some 0)) ∧
  (∀ (s : State) (p : Nat) (i : Image), s.owedImage p = some i →
    ((∀ q, (i.team.queue q).cmds = []) ∨ i.team.allHalted = false) →
    ∃ t, exec (.teamResume p) s = .next t ∧ t.mem = s.mem ∧ (t.core p).resident = true ∧
      (t.team p).work = i.team.work ∧ (t.team p).age = i.team.age ∧ (t.core p).pool = i.pool ∧
      ∀ k, (t.ctx p k).scalars = (i.team.ctx k).scalars ∧ (t.ctx p k).vectors = (i.team.ctx k).vectors ∧
        (t.ctx p k).c = (i.team.ctx k).c) ∧
  (∀ (s : State) (chip p : Nat) (c : Claimant) (ch : DiscardChoice),
    (s.residents.find? fun e => chipOf e.1 == chip && e.2.team.preemptDue) = none →
    let n := s.noteWaits
    n.pressing chip = some c → n.victim chip c.prio = some p → (s.core p).resident = true →
    (n.discards (s.team p) = true → ∃ t, exec (.walkerPreempt chip ch) s = .next t ∧ (t.core p).resident = false) ∧
    (n.discards (s.team p) = false →
      let b := ((n.stopTeam p).modTeam p fun t => { t with preemptDue := true }).withdrawOwn p
      b.settled p = true → ∃ t i, exec (.walkerPreempt chip ch) s = .next t ∧ (t.core p).resident = false ∧
        i ∈ t.images ∧ i.team.work = (s.team p).work ∧ i.pool = (b.core p).pool)) ∧
  (∀ (s : State) (p slot plot pos : Nat), (s.core p).resident = true → (s.team p).work = .launch slot plot pos →
    (s.team p).persist = true → (s.team p).preemptDue = false → (s.team p).swapDue = true →
    let b := s.withdrawOwn p
    b.settled p = true → b.electing slot = false →
    ∃ t i, exec (.persistentSwap p) s = .next t ∧ (t.core p).resident = false ∧ i ∈ t.images ∧
      i.team.work = .launch slot plot pos ∧ i.pool = (b.core p).pool)

/-- Faults of a chiplet and of the device, and what follows (R120, R135 to R139, R443, R444, R464).  ELECT's detail and the
detail of FAULT at a lost election are log entry 48; that a scan of the tags may fail at any fence, as a free value says, is
log entry 71. -/
def Obligations.FencingRuns : Prop :=
  (∀ (s : State) (cause : BitVec 8), s.hub.fatal = false →
    ∃ t : State, exec (.deviceFatal cause) s = .next t ∧ t.mem = s.mem ∧ t.poison = s.poison ∧ t.hub.fatal = true ∧
      t.hub.ready = false ∧ t.launches = [] ∧ t.sheaves = [] ∧ t.locks = [] ∧ t.images = [] ∧
      (∀ p, (t.core p).resident = false) ∧ t.lastEvent evDEVFATAL cause.toNat srcHub 0 cause.toNat) ∧
  (∀ (s : State) (chip : Nat) (cause : BitVec 8), chip < 16 → s.hub.fatal = false → (s.chip chip).live = true →
    (∃ c, c < 16 ∧ c ≠ chip ∧ (s.chip c).live = true) →
    ∃ t : State, exec (.chipletFatal chip cause false) s = .next t ∧ (t.chip chip).live = false ∧
      (t.chip chip).fifo = [] ∧ t.hub.fencemask.getLsbD chip = true ∧ t.hub.livemask.getLsbD chip = false ∧
      (∀ p, chipOf p = chip → (t.core p).resident = false) ∧ (∀ e, e ∈ t.locks → e.name.home.1 ≠ chip) ∧
      (∀ l, l < 4096 → chipOf (s.remap l).phys = chip → (t.remap l).valid = false) ∧
      (∀ slot l, s.launch slot = some l → l.inS chip = true → l.ended = none →
        ∃ m, t.launch slot = some m ∧ m.electing = true ∧ m.toGlean.getLsbD chip = true ∧ m.inS chip = false) ∧
      t.lastEvent evFENCE cause.toNat (srcChip chip) 0 chip) ∧
  (∀ (s : State) (port : BitVec 1) (chip : Nat), chip < 16 → s.portUp port.toNat = true →
    s.ownerNow = port.toNat + 1 → ∃ t, exec (.fencectlFence port (1#64 <<< chip)) s = .next t ∧
      exec (.chipletFatal chip 0 (Config.scanFails s.freeSeed)) s.draw = .next t) ∧
  (∀ (s : State) (port : BitVec 1) (v : W64), v.toNat % 2 ^ 16 ≠ 0 → s.portUp port.toNat = true →
    (s.ownerNow = port.toNat + 1 → v.toNat < 2 ^ 32 → exec (.fencectlFence port v) s =
      .next (((List.range 16).filter fun c => v.getLsbD c).foldl
        (fun u c => u.draw.chipletFatal c 0 (Config.scanFails u.freeSeed)) s).noteWaits) ∧
    (s.ownerNow ≠ port.toNat + 1 → ∃ t : State, exec (.fencectlFence port v) s = .next t ∧
      t.mem = s.mem ∧ t.chips = s.chips ∧ t.hub.fencemask = s.hub.fencemask ∧
      t.lastEvent evDROPWR 0 (srcPort port.toNat) 0x2020 port.toNat)) ∧
  (∀ (s : State) (port : BitVec 1) (v : W64), s.portUp port.toNat = true → s.ownerNow = port.toNat + 1 →
    v.toNat < 2 ^ 32 → exec (.unfence port v) s = .next { s with hub := { s.hub with
      unfencing := s.hub.unfencing ||| (BitVec.ofNat 16 (v.toNat / 2 ^ 16) &&& s.hub.fencemask) } }) ∧
  (∀ (s : State) (chip : Nat), chip < 16 → s.hub.unfencing.getLsbD chip = true →
    (∃ t : State, exec (.unfenceComplete chip true) s = .next t ∧ t.mem = s.mem ∧ (t.chip chip).live = true ∧
      t.hub.livemask.getLsbD chip = true ∧ t.hub.fencemask.getLsbD chip = false ∧
      t.hub.unfencing.getLsbD chip = false ∧
      (∀ i, i < 256 → t.remap (256 * chip + i) = ⟨true, false, 256 * chip + i⟩) ∧
      (∀ p, p ∈ (t.chip chip).fifo ↔ chipOf p = chip ∧ (s.core p).hot = false)) ∧
    (∃ t : State, exec (.unfenceComplete chip false) s = .next t ∧ t.mem = s.mem ∧ t.chips = s.chips ∧
      t.hub.fencemask = s.hub.fencemask ∧ t.hub.unfencing.getLsbD chip = false)) ∧
  (∀ (s : State) (slot : Nat) (l : Launch), s.launch slot = some l → l.electing = true →
    let here := fun (c : Nat) => l.inS c && (s.chip c).live
    let cs := (List.range 16).filter here
    ((here l.master = true ∨ ∃ d, l.deputy = some d ∧ here d = true) →
      ∃ (t : State) (m : Launch), exec (.election slot) s = .next t ∧ t.mem = s.mem ∧ t.launch slot = some m ∧
        m.electing = false ∧ m.master = cs.headD l.master ∧ m.deputy = cs[1]? ∧ m.ended = l.ended ∧
        t.lastEvent evELECT 0 srcHub 0 (slot * 2 ^ 32 + m.master)) ∧
    (here l.master = false → (∀ d, l.deputy = some d → here d = false) → l.ended = none →
      ∃ (t : State) (m : Launch), exec (.election slot) s = .next t ∧ t.launch slot = some m ∧ m.electing = false ∧
        m.ended = some (3, 0, 0))) ∧
  (∀ (s : State) (chip slot : Nat) (l : Launch), s.launch slot = some l →
    (s.launches.filter fun e => e.2.any fun x => x.toGlean.getLsbD chip && !x.electing && x.ended.isNone) =
      [(slot, some l)] →
    (∀ plot, l.lostPlot chip = some plot →
      ∃ (t : State) (m : Launch), exec (.gleaner chip) s = .next t ∧ t.launch slot = some m ∧
        m.ended = some (3, 0, plot % 2 ^ 24)) ∧
    (l.lostPlot chip = none → launchPersist l.record = false → (l.inS chip && (s.chip chip).live) = false →
      (∃ c, c < 16 ∧ l.inS c = true ∧ (s.chip c).live = true) →
      ∃ (t : State) (m : Launch), exec (.gleaner chip) s = .next t ∧ t.mem = s.mem ∧ t.launch slot = some m ∧
        m.ended = none ∧ m.toGlean.getLsbD chip = false ∧ (∀ r, r ∈ m.ranges → r.chip ≠ chip) ∧
        (m.ranges.flatMap Range.positions).Perm (l.ranges.flatMap Range.positions) ∧
        ∀ plot a c, tfind l.log plot = some (.started a c) → chipOf c = chip → tfind m.log plot = some (.returned a)))

/-- The life of a sheaf (R114, R143 to R146, R288, R423 to R432).  The 144 bytes of a task from another package are log entry
56; the queues in which the hub's ENCODEs stand are log entry 92. -/
def Obligations.SheavesRun : Prop :=
  (∀ (a : Src) (s s1 s2 : State) (x : W64) (d : Rec), s.freshIssue = true → readSrc a s = .ok (x, s1) →
    x.toNat % 128 = 0 → readRecord x 128 s1 = .ok (d, s2) →
    (checkSheaf d (tget 0 s2.hub.codesets (shOpid d)) = none → s2.curTeam.uncommitted = false →
      s2.cur.storeFaults = [] → s2.curTeam.suppressed = false →
      (s2.heldSheaves < 64 → s2.sheafWaits = [] → s2.hub.sheafQ.posts = [] →
        ∃ t : State, exec (.sheaf a) s = .next t ∧ t.mem = s2.mem ∧ t.sheaves = s2.sheaves ++
            [{ s2.submission s.issue.core s.issue.ctx d s2.cur.nextSeq with id := s2.hub.sheafIds }] ∧
          t.cur = ({ s2.cur with nextSeq := s2.cur.nextSeq + 1 } : Ctx).past s.issue.cluster s.now) ∧
      (64 ≤ s2.heldSheaves ∨ s2.sheafWaits ≠ [] ∨ s2.hub.sheafQ.posts ≠ [] → ∃ t : State, exec (.sheaf a) s = .next t ∧ t.mem = s2.mem ∧ t.sheaves = s2.sheaves ∧
        t.cur.waitsFor s.issue.cluster (.sheafRoom d s2.hub.sheafTickets))) ∧
    (∀ c off, s.issue.alone = true → checkSheaf d (tget 0 s2.hub.codesets (shOpid d)) = some (c, off) →
      exec (.sheaf a) s = .next (s.trapHere c (BitVec.ofNat 64 off)))) ∧
  (∀ (a : Src) (s s1 : State) (x : W64), s.issue.alone = true → readSrc a s = .ok (x, s1) → x.toNat % 128 ≠ 0 →
    exec (.sheaf a) s = .next (s.trapHere causeALIGN x)) ∧
  (∀ (s : State) (p k n : Nat) (d : Rec) (po : List Popped), (s.ctx p k).a.status = .waiting (.sheafRoom d n) po →
    (s.core p).resident = true → s.mayTake n = true →
    ∃ t : State, exec (.sheafSubmit ⟨p, k⟩) s = .next t ∧ t.mem = s.mem ∧ t.ctx p k = (s.ctx p k).resumed .a ∧
      t.sheaves = s.sheaves ++ [{ s.submission p k d (s.ctx p k).nextSeq with id := s.hub.sheafIds }]) ∧
  (∀ (s : State) (n : Nat) (rest : List Nat), s.hub.sheafQ.posts = n :: rest → s.hub.fatal = false →
    s.hub.ready = true → s.mayTake n = true →
    let q := s.hub.sheafQ
    let count := (q.tail - BitVec.ofNat 32 q.posts.length).toNat
    ∃ (t : State) (y : Sheaf), exec .sheafTake s = .next t ∧ t.mem = s.mem ∧ t.hub.sheafQ = { q with posts := rest } ∧
      t.sheaves = s.sheaves ++ [y] ∧ y.phase = .waiting ∧ y.hosted = true ∧
      y.desc = s.physRead (bits q.base.toNat 12 40 * 4096 + 128 * (count % 2 ^ bits q.control.toNat 0 4)) 128) ∧
  (∀ (s : State) (id : Nat) (x : Sheaf), s.sheafOf id = some x → s.hub.fatal = false → x.phase = .waiting →
    s.forkDone x = true → s.earlierPost x = false → x.outer = none → shPod x.desc = false →
    let w := tget 0 s.hub.codesets (shOpid x.desc)
    let live := orderBy s.chipTasks ((List.range 16).filter fun c => (s.chip c).live)
    checkSheaf x.desc w = none → s.operandFault x = none →
    (bits w.toNat 4 4 ≤ live.length →
      let r := min (bits w.toNat 8 4) (live.length - bits w.toNat 4 4)
      ∃ (t : State) (y : Sheaf), exec (.sheafSplit id) s = .next t ∧ t.sheafOf id = some y ∧ y.phase = .placed ∧
        y.k = bits w.toNat 4 4 ∧ y.r = r ∧ y.splitAt = s.now ∧
        y.tasks = ((live.take (bits w.toNat 4 4 + r)).zipIdx).map fun (c, i) => ⟨i, c, false, 0, none, s.now, none, []⟩) ∧
    (live.length < bits w.toNat 4 4 →
      ∃ t : State, exec (.sheafSplit id) s = .next t ∧ t.sheafOf id = none)) ∧
  (∀ (s : State) (id : Nat) (x : Sheaf), s.sheafOf id = some x → s.hub.fatal = false → x.phase = .placed →
    x.outer = none → shPod x.desc = false → 0 < x.k → 0 < x.positions → x.returns = [] → x.tiles = [] →
    x.timedOut = false → x.tasks ≠ [] → (∀ u, u ∈ x.tasks → u.ended = none) →
    (x.r = 0 → ∃ (t : State) (y : Sheaf), exec (.sheafSplit id) s = .next t ∧ t.mem = s.mem ∧ t.sheafOf id = some y ∧
      y.phase = .running) ∧
    (x.r ≠ 0 → x.issued = false →
      ∃ (t : State) (y : Sheaf), exec (.sheafSplit id) s = .next t ∧ t.mem = s.mem ∧ t.sheafOf id = some y ∧
        y.phase = .placed ∧ y.issued = true ∧
        ∀ u, u ∈ x.tasks → x.k ≤ u.id → ∃ p b, chipOf p = u.chip ∧ ⟨0, id, u.id, b⟩ ∈ (t.core p).encodes) ∧
    (x.r ≠ 0 → x.issued = true → s.encoding id = false →
      let policy := bits x.set.toNat 14 2
      ((x.fits.all fun f => f.2 == .plain) = true → ∃ (t : State) (y : Sheaf), exec (.sheafSplit id) s = .next t ∧
        t.mem = s.mem ∧ t.sheafOf id = some y ∧ y.phase = .running ∧ y.r = x.r) ∧
      ((x.fits.all fun f => f.2 == .plain) = false →
        (policy = 1 → (∃ u, u ∈ x.tasks ∧ u.id < x.k) → ∃ (t : State) (y : Sheaf), exec (.sheafSplit id) s = .next t ∧
          t.mem = s.mem ∧ t.sheafOf id = some y ∧ y.phase = .running ∧ y.r = 0 ∧ y.uncoded = true) ∧
        (policy = 2 → (x.fits.all fun f => f.2 != .never) = true → ∃ (t : State) (y : Sheaf),
          exec (.sheafSplit id) s = .next t ∧ t.mem = s.mem ∧ t.sheafOf id = some y ∧ y.phase = .running ∧
          y.wide = (x.fits.filter fun f => f.2 == .wide).map Prod.fst) ∧
        (policy = 0 → ∃ t : State, exec (.sheafSplit id) s = .next t ∧ t.sheafOf id = none)))) ∧
  (∀ (s s1 : State) (p q : Nat) (e : HubEncode) (x : Sheaf) (rows : List (List BlockRow)),
    s.dataCommand p q 5 = none → ((s.core p).encodes.find? fun y => y.queue == q) = some e →
    (s.core p).resident = false → s.sheafOf e.sheaf = some x →
    (s.modCore p fun c => { c with encodes := c.encodes.erase e }).codeSources x (List.range x.blockRows) =
      .ok (rows, s1) → s1.sheafOf e.sheaf = some x →
    let j := e.task - x.k
    ∃ (t : State) (y : Sheaf), exec (.encode p q none) s = .next t ∧ t.mem = s1.mem ∧ t.sheafOf e.sheaf = some y ∧
      y.fits = x.fits ++ [(j, parityFit x j rows)]) ∧
  (∀ (s s1 : State) (id task tile p : Nat) (x : Sheaf) (recs : List Nat), s.sheafOf id = some x →
    s.tileCore id task tile = some p → s.taskTile x task tile = .ok (recs, s1) → s1.sheafOf id = some x →
    s1.hub.injectOrder.head? ≠ some id → (s1.core p).markedTile ((s1.team p).bufStart .z) 0 = none →
    recs.any badHead = false → x.phase = .running → x.tiles = [] → x.timedOut = false →
    tile < x.positions → (∀ y, y ∈ x.returns → y.task ≠ task ∨ y.tile ≠ tile) →
    (∀ u, u ∈ x.tasks → u.id ≠ task → u.ended = none → (∀ y, y ∈ x.returns → y.task ≠ u.id) →
      setSure x.set = true →
      ∃ (t : State) (y : Sheaf), exec (.returnArrival id task tile) s = .next t ∧ (t.core p).resident = false ∧
        t.sheafOf id = some y ∧ y.phase = .running ∧ y.returns = x.returns ++ [⟨task, tile, false, recs⟩]) ∧
    (∀ u, x.tasks = [u] → u.id = task → x.outer = none → x.positions = 1 → x.returns = [] →
      ∃ t : State, exec (.returnArrival id task tile) s = .next t ∧ (t.core p).resident = false ∧
        ∀ y, t.sheafOf id = some y → y.phase = .final)) ∧
  (∀ (s : State) (id : Nat) (x : Sheaf), s.sheafOf id = some x →
    (x.phase = .placed ∨ x.phase = .running ∨ x.phase = .complete) →
    x.splitAt + (if shTimeout x.desc = 0 then bits x.set.toNat 48 16 else shTimeout x.desc) * 7200 ≤ s.now →
    ∃ t : State, exec (.sheafTimeout id) s = .next t ∧ ∀ y, t.sheafOf id = some y → y.phase = .final) ∧
  (∀ (s : State) (bs : List Byte), s.hub.fatal = false → s.hub.ready = true → bs.length = 144 →
    ∃ (t : State) (y : Sheaf), exec (.podTaskArrival bs) s = .next t ∧ t.mem = s.mem ∧ t.sheaves = s.sheaves ++ [y] ∧
      y.desc = bs.take 128 ∧ y.remote = true ∧ y.phase = .waiting ∧
      y.outer = some (leNat ((bs.drop 128).take 8), leNat ((bs.drop 136).take 8)))

/-- Invalidation (R247, R248) and migration (R415, R416, R452).  The write-back of host sectors at the drain is log entry 58;
what lets a team move, and the one search at the end of its 200 us, are log entry 60. -/
def Obligations.TranslationsAndTeamsMove : Prop :=
  (∀ (s : State) (port : BitVec 1) (v : W64), s.portUp port.toNat = true → s.ownerNow = port.toNat + 1 →
    bit v.toNat 16 = true →
    (s.hub.inval = none → ∃ t : State, exec (.invalidationStart port v) s = .next t ∧ t.mem = s.mem ∧
      let len := s.hub.invlen.toNat / 65536 * 65536
      let lo := bits s.hub.invva.toNat 16 40 * 65536
      t.hub.inval = some ⟨false, v.toNat % 65536, bit v.toNat 20, if len = 0 then 0 else lo,
        if len = 0 then 2 ^ 56 else lo + len⟩) ∧
    (∀ x, s.hub.inval = some x → ∃ t : State, exec (.invalidationStart port v) s = .next t ∧ t.mem = s.mem ∧
      t.hub.inval = some x ∧ t.lastEvent evDROPWR 0 (srcPort port.toNat) 0x2110 port.toNat)) ∧
  (∀ (s : State) (x : Inval), s.hub.inval = some x → x.delivered = false →
    ∃ t : State, exec .invalidationDelivery s = .next t ∧ t.mem = s.mem ∧
      t.hub.inval = some { x with delivered := true } ∧
      (∀ p, (t.core p).itlb = (s.core p).itlb.filter (fun e => !x.matches e) ∧
        (t.core p).dtlb = (s.core p).dtlb.filter fun e => !x.matches e) ∧
      (∀ c, (t.chip c).stlb = (s.chip c).stlb.filter fun e => !x.matches e)) ∧
  (∀ (s : State) (x : Inval), s.hub.inval = some x → x.delivered = true →
    (s.invDrained x = true → ∃ t : State, exec .invalidationDrain s = .next t ∧
      t.mem = s.writebackHost.1.mem ∧ t.hub.inval = none ∧
      t.hub.invctl.getLsbD 22 = true) ∧
    (s.invDrained x = false → exec .invalidationDrain s = .next s)) ∧
  (∀ (s : State) (p : Nat), (s.core p).resident = true → (s.core p).migration = none →
    (95 ≤ s.sensor p → ∃ t : State, exec (.migrationRequest p) s = .next t ∧ t.mem = s.mem ∧
      t.core p = { s.core p with migration := some ⟨s.now, s.now, false, none⟩ } ∧
      ∀ q, q ≠ p → t.core q = s.core q) ∧
    (s.sensor p < 95 → exec (.migrationRequest p) s = .next s)) ∧
  (∀ (s : State) (p : Nat) (m : MigRequest), (s.core p).resident = true → (s.core p).migration = some m →
    m.target = none →
    (m.lastTry + 10 * 7200 ≤ s.now → ∃ t : State, exec (.migrationRetry p) s = .next t ∧ t.mem = s.mem ∧
      (t.core p).migration = some { m with
        lastTry := s.now
        target := if m.since + 200 * 7200 ≤ s.now then s.migTarget p else none }) ∧
    (m.timedOut = false → m.since + 200 * 7200 ≤ s.now →
      ∃ t : State, exec (.migrationTimeout p) s = .next t ∧ t.mem = s.mem ∧
        (t.core p).migration = some { m with timedOut := true, target := s.migTarget p } ∧
        ∀ q, s.migTarget p = some q → q ∉ (t.chip (chipOf q)).fifo)) ∧
  (∀ (s : State) (p q : Nat) (m : MigRequest), (s.core p).resident = true → (s.core p).migration = some m →
    m.target = some q → (s.team p).preemptDue = false → (s.team p).swapDue = false → q ≠ p →
    let b := if (s.remap (s.logicalOf p)).hold then s else s.beginMove p
    (b.movable p = true → ∃ t : State, exec (.migration p) s = .next t ∧ t.mem = s.mem ∧
      (t.core p).resident = false ∧ (t.core p).hot = true ∧ (t.core q).resident = true ∧
      (t.team q).work = (s.team p).work ∧ (t.team q).age = (s.team p).age ∧ (t.core q).pool = (b.core p).pool ∧
      (t.core q).opmem = (b.core p).opmem ∧
      (b.logicalOf p ≠ b.logicalOf q → (t.remap (b.logicalOf p)).phys = q ∧
        (t.remap (b.logicalOf p)).hold = false ∧ (t.remap (b.logicalOf q)).phys = p)) ∧
    (b.movable p = false → exec (.migration p) s = .next b.noteWaits)) ∧
  (∀ (s : State) (p : Nat), (s.core p).hot = true → s.sensor p < 85 →
    ∃ t : State, exec (.sensorBelow85 p) s = .next t ∧ t.mem = s.mem ∧ (t.core p).hot = false ∧
      ((s.chip (chipOf p)).live = true → (s.core p).resident = false → (s.core p).assign = none →
        p ∈ (t.chip (chipOf p)).fifo))

/-- Power and heat (R417 to R419, R460 to R462, R466).  LEASE's detail is log entry 48; a new entry's TRIALS, what counts as
measured and a rail without a request are log entry 61; the size of the cap's cut is log entry 12; a failed scan is log entry
71. -/
def Obligations.PowerAndHeat : Prop :=
  (∀ (s : State) (seq : BitVec 32) (watts : BitVec 16) (dur : BitVec 32), s.hub.booted = true →
    let newer := ∀ last, s.hub.leaseSeq = some last →
      1 ≤ (seq.toNat + 2 ^ 32 - last % 2 ^ 32) % 2 ^ 32 ∧ (seq.toNat + 2 ^ 32 - last % 2 ^ 32) % 2 ^ 32 < 2 ^ 31
    (newer → ∃ t : State, exec (.lease seq watts dur) s = .next t ∧ t.mem = s.mem ∧
      t.hub.leaseSeq = some seq.toNat ∧
      (dur ≠ 0 → t.hub.leaseWatts = min (max watts.toNat 400) (max s.hub.rated.toNat 400) ∧
        t.hub.leaseUntil = s.now + dur.toNat * 7200000) ∧
      (dur = 0 → t.hub.leaseUntil = 0) ∧ t.lastEvent evLEASE 0 srcHub 0 (seq.toNat * 2 ^ 32)) ∧
    (¬ newer → ∃ t : State, exec (.lease seq watts dur) s = .next t ∧ t.mem = s.mem ∧
      t.hub.leaseSeq = s.hub.leaseSeq ∧ t.hub.leaseWatts = s.hub.leaseWatts ∧
      t.hub.leaseUntil = s.hub.leaseUntil)) ∧
  (∀ (s : State), s.hub.leaseUntil ≠ 0 → s.hub.leaseUntil ≤ s.now →
    exec .leaseLapse s = .next { s with hub := { s.hub with leaseUntil := 0, leaseWatts := 0 } }) ∧
  (∀ (s : State) (rail : BitVec 2),
    (∀ w, s.easeThrottle.wanted rail.toNat = some w → ∃ t : State, exec (.railChange rail) s = .next t ∧
      t.mem = s.mem ∧
      tget 0 t.hub.rails rail.toNat = w - (if (List.range 16).any s.chipHot then
          s.hub.throttle else 0) - Config.capPoints s.capNow rail.toNat s.freeSeed ∧
      ∀ r, r ≠ rail.toNat → tget 0 t.hub.rails r = tget 0 s.hub.rails r) ∧
    (s.easeThrottle.wanted rail.toNat = none → ∃ t : State, exec (.railChange rail) s = .next t ∧ t.mem = s.mem ∧
      tget 0 t.hub.rails rail.toNat =
        tget 0 s.hub.rails rail.toNat - Config.capPoints s.capNow rail.toNat s.freeSeed ∧
      ∀ r, r ≠ rail.toNat → tget 0 t.hub.rails r = tget 0 s.hub.rails r)) ∧
  (∀ (s : State) (kernel : BitVec 16) (phase : BitVec 8) (edp : BitVec 16), kernel ≠ 0 →
    (∀ r, r < 4 → tget 0 s.hub.rails r < 8) →
    (s.measured kernel.toNat phase = false → exec (.optTableLearn kernel phase edp) s = .next s) ∧
    (s.measured kernel.toNat phase = true →
    (∀ i, s.hub.lookup kernel.toNat phase.toNat = none → s.hub.victimEntry = some i →
      ∃ t : State, exec (.optTableLearn kernel phase edp) s = .next t ∧ t.mem = s.mem ∧
        let e := t.hub.opt i
        optValid e = true ∧ optPin e = false ∧ optTrials e = 1 ∧ optKernel e = kernel.toNat ∧
        optPhase e = phase.toNat ∧ optEdp e = edp.toNat ∧ ∀ r, r < 4 → optPoint e r = tget 0 s.hub.rails r) ∧
    (∀ i, s.hub.lookup kernel.toNat phase.toNat = some i → optPin (s.hub.opt i) = false →
      ∃ t : State, exec (.optTableLearn kernel phase edp) s = .next t ∧ t.mem = s.mem ∧
        let e := t.hub.opt i
        let o := s.hub.opt i
        optValid e = true ∧ optTrials e = min (optTrials o + 1) 8 ∧ optKernel e = optKernel o ∧
        optPhase e = optPhase o ∧ optEdp e = min edp.toNat (optEdp o) ∧
        ∀ r, r < 4 → optPoint e r = if edp.toNat < optEdp o then tget 0 s.hub.rails r else optPoint o r) ∧
    (∀ i, s.hub.lookup kernel.toNat phase.toNat = some i → optPin (s.hub.opt i) = true →
      exec (.optTableLearn kernel phase edp) s = .next s))) ∧
  (∀ (s : State) (chip : Nat), chip < 16 →
    (s.chipHot chip = true → (∀ t0, (s.chip chip).throttled = some t0 → t0 + 7200000 ≤ s.now) →
      ∃ t : State, exec (.thermalThrottle chip) s = .next t ∧ t.mem = s.mem ∧
        (t.chip chip).throttled = some s.now ∧ ∀ r, r < 4 → tget 0 t.hub.rails r = tget 0 s.hub.rails r - 1) ∧
    (s.chipHot chip = false → ∃ t : State, exec (.thermalThrottle chip) s = .next t ∧ t.mem = s.mem ∧
      t.hub = s.hub ∧ (t.chip chip).throttled = none)) ∧
  (∀ (s : State) (chip : Nat), chip < 16 → s.hub.fatal = false → (s.chip chip).live = true →
    (∃ c, c < 16 ∧ c ≠ chip ∧ (s.chip c).live = true) →
    (∀ j, (j = Instr.thermalTrip chip ∧ ∃ i, i < 256 ∧ 115 ≤ (s.core (256 * chip + i)).temp) ∨
        (j = Instr.hbmTrip chip ∧ 105 ≤ (s.chip chip).stackTemp) →
      (Config.scanFails s.freeSeed = false → ∃ t : State, exec j s = .next t ∧ (t.chip chip).live = false ∧
        t.hub.fencemask.getLsbD chip = true ∧ t.hub.fatal = false) ∧
      (Config.scanFails s.freeSeed = true → ∃ t : State, exec j s = .next t ∧ t.hub.fatal = true))) ∧
  (∀ (s : State) (chip : Nat), chip < 16 →
    ∃ t : State, exec (.hbmRefresh chip) s = .next t ∧ t.mem = s.mem ∧
      (t.chip chip).refresh = decide (95 ≤ (s.chip chip).stackTemp) ∧ ∀ c, c ≠ chip → t.chip c = s.chip c)

/-- Resets and bring-up (R453, R454), and links (R17, R465).  What each reset keeps is log entry 62, host memory and the
readings at a cold reset are log entry 6, what bring-up finds and leaves are log entries 63 and 64, and the argument of
ROW_NEIGHBOUR_LINK_DOWN is log entry 90. -/
def Obligations.ResetsAndBringUp : Prop :=
  (∀ (s : State), ∃ t : State, exec .coldReset s = .next t ∧ exec (.perst true true) s = .next t ∧
    (∀ a, a < 2 ^ 51 → Mem.byte t.mem a = 0) ∧ (∀ a, 2 ^ 51 ≤ a → Mem.byte t.mem a = Mem.byte s.mem a) ∧
    t.poison = [] ∧ t.locks = [] ∧ t.launches = [] ∧ t.sheaves = [] ∧ t.images = [] ∧ t.now = 0 ∧
    (∀ p, t.core p = Core.reset) ∧ t.hub.owner = 0 ∧ t.hub.agep = 1000 ∧
    t.hub.ready = false ∧ t.hub.fatal = false ∧ t.hub.evcount = 0 ∧ t.hub.banks = [] ∧ t.hub.queues = [] ∧
    t.hub.optable = [] ∧ t.hub.ageCounter = 0) ∧
  (∀ (s : State) (port : BitVec 1) (v : W64), bit v.toNat 0 = true → s.portUp port.toNat = true →
    (s.ownerNow = port.toNat + 1 → ∃ t : State, exec (.warm ⟨port, v⟩) s = .next t ∧
      ((∀ e, e ∈ s.l2 → e.2 = false) → t.mem = s.mem) ∧
      t.now = s.now ∧ t.hub.owner = s.hub.owner ∧ t.hub.agep = s.hub.agep ∧ t.hub.banks = s.hub.banks ∧
      (v = 1 → t.hub.evcount = s.hub.evcount ∧ t.hub.evring = s.hub.evring) ∧ t.hub.optable = s.hub.optable ∧
      t.hub.ready = false ∧ t.hub.fatal = false ∧ t.hub.queues = [] ∧ t.hub.sheafQ = ⟨0, 0, 0, 0, []⟩ ∧
      t.launches = [] ∧ t.sheaves = [] ∧ t.locks = [] ∧ t.images = [] ∧ (∀ p, (t.core p).resident = false) ∧
      ∀ k, k < 33 → tfind t.poison k = tfind s.poison k) ∧
    (s.ownerNow ≠ port.toNat + 1 → ∃ t : State, exec (.warm ⟨port, v⟩) s = .next t ∧ t.mem = s.mem ∧
      t.hub.ready = s.hub.ready ∧ t.launches = s.launches)) ∧
  (∀ (s : State),
    (s.ownerNow = 1 → ∃ t : State, exec (.perst true false) s = .next t ∧ t.hub.ready = false ∧ t.launches = [] ∧
      t.hub.hostLinks.getLsbD 0 = false) ∧
    (s.ownerNow ≠ 2 → ∃ t : State, exec (.perst false true) s = .next t ∧ t.mem = s.mem ∧ t.cores = s.cores ∧
      t.launches = s.launches ∧ t.hub.ready = s.hub.ready ∧ t.hub.queues = s.hub.queues ∧
      t.hub.hostLinks.getLsbD 1 = false ∧ t.hub.hostLinks.getLsbD 0 = s.hub.hostLinks.getLsbD 0) ∧
    exec (.perst false false) s = .next s) ∧
  (∀ (s : State) (port : BitVec 1),
    (s.hub.heldInReset = false → ∃ t : State, exec (.linkUp port) s = .next t ∧ t.mem = s.mem ∧
      t.hub.hostLinks.getLsbD port.toNat = true ∧ ∀ e, e ∈ t.hub.msixPending → e.1 ≠ port.toNat + 1) ∧
    (s.hub.heldInReset = true → exec (.linkUp port) s = .next s)) ∧
  (∀ (s : State) (d : BringUpData), s.hub.ready = false → s.hub.fatal = false →
    ((s.hub.flash d).boot = none → ∃ t : State, exec (.bringUp d) s = .next t ∧ t.mem = s.mem ∧
      t.hub.hostLinks = 0 ∧ t.hub.ready = false ∧ t.hub.heldInReset = true) ∧
    (∀ b, (s.hub.flash d).boot = some b →
      (d.livemask = 0 → ∃ t : State, exec (.bringUp d) s = .next t ∧ t.mem = s.mem ∧ t.hub.fatal = true ∧
        t.hub.ready = false) ∧
      (d.livemask ≠ 0 → ∃ t : State, exec (.bringUp d) s = .next t ∧ t.mem = s.mem ∧ t.hub.ready = true ∧
        t.hub.fatal = false ∧ t.hub.livemask = d.livemask ∧ t.hub.fencemask = ~~~d.livemask ∧
        (∀ c, c < 16 → d.livemask.getLsbD c = true → (t.chip c).live = true) ∧
        (∀ l, l < 4096 → t.remap l = ⟨d.livemask.getLsbD (l / 256), false, l⟩) ∧
        ∀ r, r < 4 → tget 0 t.hub.rails r = 3))) ∧
  (∀ (s : State) (port : Nat) (w : W64), port < 18 → (∀ e, e ∈ s.hub.portst → s.hub.loops e.2 = false) →
    s.hub.loops w = false →
    ∃ t : State, exec (.portRetrain port w) s = .next t ∧ t.mem = s.mem ∧
      tget 0 t.hub.portst port = w &&& (if w.getLsbD 0 = true ∧ (bits w.toNat 2 2 = 1 ∨ bits w.toNat 2 2 = 2) then
        0xFF1F00000000000D else 0xFF1F000000000000) ∧
      ∀ n, n ≠ port → tget 0 t.hub.portst n = tget 0 s.hub.portst n) ∧
  (∀ (s : State) (port other : Nat) (w : W64), port < 18 → other ≠ port →
    s.hub.loops (tget 0 s.hub.portst other) = true → s.hub.loops w = true →
    (bits w.toNat 2 2 = 1 ∨ bits w.toNat 2 2 = 2) →
    ∃ t : State, exec (.portRetrain port w) s = .next t ∧ t.mem = s.mem ∧
      (tget 0 t.hub.portst port).getLsbD 0 = false ∧ (tget 0 t.hub.portst other).getLsbD 0 = false) ∧
  (∀ (s : State) (chip : Nat), exec (.rowNeighbourLinkDown chip) s =
    .next (if chip < 15 ∧ chip ≠ 7 then { s with hub := { s.hub with rowDown := s.hub.rowDown ||| (1#16 <<< chip) } }
      else s))

/-- The management path (R467) and attestation (R457, R458).  The bytes of SPDM messages are log entry 108, the device's key
and certificates log entry 11, the layouts of the other replies log entries 8 and 12. -/
def Obligations.ManagementReplies : Prop :=
  (∀ (s : State), s.hub.booted = true →
    ∃ (t : State) (bs : List Byte), exec .telemetry s = .next t ∧ t.mem = s.mem ∧ t.hub = s.hub ∧
      t.outbox = s.outbox ++ [.reply bs] ∧ bs.take 1 = [0] ∧
      bs.drop (bs.length - 8) = leBytes 8 ((if s.hub.fatal then 2 ^ 17 else 0) + (if s.hub.ready then 2 ^ 16 else 0)
        + s.hub.livemask.toNat)) ∧
  (∀ (s : State) (n : Nat) (image : List Byte), s.hub.booted = true →
    (s.hub.trusted = true →
      exec (.errbank n) s = .next (s.emit (.reply (0 :: (List.range 4).flatMap fun i => leBytes 8 (s.bankRead n i)))) ∧
      exec (.events n) s = .next (s.emit (.reply (0 :: (List.range 4).flatMap fun i =>
        leBytes 8 ((s.eventRec n).dword i)))) ∧
      (∃ t : State, exec .reset s = .next t ∧ t.hub.ready = false ∧ t.launches = [] ∧ t.hub.owner = s.hub.owner ∧
        t.outbox = s.outbox ++ [.reply [0]]) ∧
      (imageOk s.hub.fuseCount image = true →
        ∃ t : State, exec (.fwupdate image) s = .next t ∧ t.mem = s.mem ∧ t.hub.bootSlot = s.hub.bootSlot ∧
          t.hub.slot s.hub.bootSlot = s.hub.slot s.hub.bootSlot ∧
          t.hub.slot (if s.hub.bootSlot = 0 then 1 else 0) = image ∧
          t.hub.nextSlot = some (if s.hub.bootSlot = 0 then 1 else 0) ∧ t.outbox = s.outbox ++ [.reply [0]]) ∧
      (imageOk s.hub.fuseCount image = false →
        ∃ t : State, exec (.fwupdate image) s = .next t ∧ t.mem = s.mem ∧ t.hub = s.hub)) ∧
    (s.hub.trusted = false →
      exec (.errbank n) s = .next (s.emit (.reply [3])) ∧ exec (.events n) s = .next (s.emit (.reply [3])) ∧
      exec (.fwupdate image) s = .next (s.emit (.reply [3])) ∧ exec .reset s = .next (s.emit (.reply [3])))) ∧
  (∀ (s : State), s.hub.booted = true →
    let replies := fun (i : Instr) (bs : List Byte) => ∃ t : State, exec i s = .next t ∧ t.mem = s.mem ∧
      t.hub = s.hub ∧ t.cores = s.cores ∧ t.outbox = s.outbox ++ [.reply bs]
    replies .getVersion [0x10, 4, 0, 0, 0, 1, 0, 0x12] ∧
    (∃ time sizes : List Byte, time.length = 1 ∧ sizes.length = 8 ∧
      replies .getCapabilities ([0x12, 0x61, 0, 0, 0] ++ time ++ [0, 0, 0x16, 0, 0, 0] ++ sizes)) ∧
    replies .negotiateAlgorithms ([0x12, 0x63, 0, 0, 36, 0, 1, 0, 4, 0, 0, 0, 0x80, 0, 0, 0, 2, 0, 0, 0] ++
      List.replicate 16 0) ∧
    replies .getDigests ([0x12, 1, 0, 1] ++ sha384 (Config.certificates 0)) ∧
    replies .getCertificate ([0x12, 2, 0, 0] ++ leBytes 2 (Config.certificates 0).length ++ [0, 0] ++
      Config.certificates 0) ∧
    (∃ nonce : List Byte, nonce.length = 32 ∧
      let ms := (List.range 4).flatMap fun i => leBytes 1 (i + 1) ++ [1] ++ leBytes 2 51 ++ leBytes 1 i ++
        leBytes 2 48 ++ sha384 (s.hub.measured.getD i [])
      replies .getMeasurements ([0x12, 0x60, 0, 0, 4] ++ leBytes 3 ms.length ++ ms ++ nonce ++ [0, 0]))) ∧
  (∀ (s : State) (nonce : List Byte), s.hub.booted = true →
    ∃ (t : State) (x : List Byte), exec (.challenge nonce) s = .next t ∧ t.mem = s.mem ∧ x.length = 32 ∧
      t.hub = s.hub.trust ∧ t.hub.trusted = true ∧
      let body := [0x12, 3, 0, 1] ++ sha384 (Config.certificates 0) ++ x ++ [0, 0]
      t.outbox = s.outbox ++
        [.reply (body ++ signWith Config.deviceKey (Config.signNonce s.freeSeed) (nonce ++ body))]) ∧
  (∀ (s : State) (n : Nat) (image nonce : List Byte), s.hub.booted = false →
    exec .telemetry s = .next s ∧ exec (.errbank n) s = .next s ∧ exec (.events n) s = .next s ∧
    exec (.fwupdate image) s = .next s ∧ exec .reset s = .next s ∧ exec .getVersion s = .next s ∧
    exec (.challenge nonce) s = .next s)

/-- The host's reads and writes (R90 to R97, R441, R447, R450, R455), and arrivals from other packages (R284, R286,
R287): each completes with the effect its rule gives, or with the answer that names the fault.  A write to memory leaves every
byte outside its own but those of host memory, to which modified sectors may go back.  The messages between packages and the
time of their translations are log entry 65. -/
def Obligations.HostAccesses : Prop :=
  (∀ (s : State) (port : BitVec 1) (v : W64), s.hub.hostLinks.getLsbD port.toNat = true →
    (s.ownerNow = port.toNat + 1 →
      (∃ t : State, exec (.registerWrite port 0x20 v) s = .next t ∧ t.mem = s.mem ∧
        t.hub.agep = BitVec.ofNat 32 (min (max (v.toNat % 2 ^ 32) 100) 100000)) ∧
      (∃ t : State, exec (.registerWrite port 0x2028 v) s = .next t ∧ t.mem = s.mem ∧
        t.hub.pkgid = if s.identityFree then BitVec.ofNat 8 v.toNat else s.hub.pkgid) ∧
      (∃ t : State, exec (.registerWrite port 0x2030 v) s = .next t ∧ t.mem = s.mem ∧
        t.hub.floor = BitVec.ofNat 16 (min (max (v.toNat % 2 ^ 16) 400) (max s.hub.rated.toNat 400))) ∧
      (∃ t : State, exec (.registerWrite port 0x2038 v) s = .next t ∧ t.mem = s.mem ∧
        t.hub.optix = BitVec.ofNat 64 (v.toNat % 1024)) ∧
      (∃ t : State, exec (.registerWrite port 0x2040 v) s = .next t ∧ t.mem = s.mem ∧
        t.hub.opt s.hub.optix.toNat = (v &&& 0xFC0FFFFFFFFFFFFF).toNat) ∧
      (∃ t : State, exec (.registerWrite port 0x2100 v) s = .next t ∧ t.mem = s.mem ∧
        t.hub.invva = v &&& 0x00FFFFFFFFFF0000) ∧
      (∃ t : State, exec (.registerWrite port 0x2330 v) s = .next t ∧ t.mem = s.mem ∧
        t.hub.evctl = v &&& 0x7F) ∧
      (∀ q, q < 16 → s.hub.ready = true → s.hub.fatal = false → bit (s.queueReg q).control.toNat 15 = false →
        ∃ t : State, exec (.registerWrite port (0x1000 + 0x40 * q) v) s = .next t ∧ t.mem = s.mem ∧
          t.queueReg q = { s.queueReg q with base := v &&& 0x000FFFFFFFFFF000 })) ∧
    (s.ownerNow ≠ port.toNat + 1 → ∃ t : State, exec (.registerWrite port 0x20 v) s = .next t ∧ t.mem = s.mem ∧
      t.hub.agep = s.hub.agep ∧ t.lastEvent evDROPWR 0 (srcPort port.toNat) 0x20 port.toNat)) ∧
  (∀ (s : State) (port : BitVec 1) (pa : Nat) (bs : List Byte), s.hub.hostLinks.getLsbD port.toNat = true → bs ≠ [] →
    (s.ownerNow = port.toNat + 1 → s.isTableMemory pa = true → s.isTableMemory (pa + bs.length - 1) = true →
      s.writeDropped pa = false → (∀ e ∈ s.redEntries, e.core ≠ none) → s.memWf →
      ∃ t : State, exec (.hostWrite port pa bs) s = .next t ∧
        (∀ i, i < bs.length → Mem.byte t.mem (pa + i) = bs.getD i 0) ∧
        ∀ b, b < pa ∨ pa + bs.length ≤ b → isHost b = false → Mem.byte t.mem b = Mem.byte s.mem b) ∧
    (s.ownerNow = port.toNat + 1 → s.isTableMemory pa = false → ∃ t : State, exec (.hostWrite port pa bs) s = .next t ∧
      t.mem = s.mem ∧ t.lastEvent evDROPWR 0 (srcPort port.toNat) pa port.toNat) ∧
    (s.ownerNow ≠ port.toNat + 1 → ∃ t : State, exec (.hostWrite port pa bs) s = .next t ∧ t.mem = s.mem ∧
      t.lastEvent evDROPWR 0 (srcPort port.toNat) pa port.toNat)) ∧
  (∀ (s : State) (port : BitVec 1) (a n : Nat), s.hub.hostLinks.getLsbD port.toNat = true →
    (s.isTableMemory a = true → s.isTableMemory (a + n - 1) = true → (∀ e ∈ s.redEntries, e.core ≠ none) →
      s.rangePoison a n = false → (∀ x ∈ unitsOf 32 a n, s.judge (x * 32) = .clean) →
      exec (.hostRead port .bar2 a n) s = .next (s.emit (.readData port.toNat (s.physRead a n)))) ∧
    (s.isTableMemory a = false →
      exec (.hostRead port .bar2 a n) s = .next (s.emit (.readData port.toNat (List.replicate n 0xFF)))) ∧
    (∀ v, (a = 0 ∧ v = (if s.ownerNow = port.toNat + 1 then 1 else 0)) ∨ (a = 0x20 ∧ v = s.hub.agep.toNat) ∨
        (a = 0x28 ∧ v = s.now * 5 / 36) ∨ (a = 0x2300 ∧ v = s.hub.evcount) ∨
        (a = 0x2000 ∧ v = (if s.hub.fatal then 2 ^ 17 else 0) + (if s.hub.ready then 2 ^ 16 else 0)
          + s.hub.livemask.toNat) →
      exec (.hostRead port .bar0 a 8) s = .next (s.emit (.readData port.toNat (leBytes 8 v))))) ∧
  (∀ (s : State) (port : BitVec 1) (bank : Nat) (v : W64), s.portUp port.toNat = true →
    s.ownerNow = port.toNat + 1 →
    (∃ t : State, exec (.bankClear port bank) s = .next t ∧ t.mem = s.mem ∧
      ((s.bankCycle bank).events = [] → tfind t.hub.banks bank = none) ∧
      ((s.bankCycle bank).events ≠ [] → tfind t.hub.banks bank =
        some ((s.bankCycle bank).events.foldl ErrBank.apply bankEmpty)) ∧
      ∀ n, n ≠ bank → tfind t.hub.banks n = tfind s.hub.banks n) ∧
    (∃ t : State, exec (.injectionArm port v) s = .next t ∧ t.mem = s.mem ∧
      t.hub.injection = v &&& 0x80FFFF00FFFFFFFF ∧ t.hub.injectOrder = []) ∧
    (∃ t : State, exec (.sensorForce port v) s = .next t ∧ t.mem = s.mem ∧
      ∀ p, t.sensor p = if bit v.toNat 63 = true ∧ bits v.toNat 32 12 = p then ((bits v.toNat 0 8 : Nat) : Int)
        else (s.core p).temp)) ∧
  (∀ (s : State) (pkg id va pa n : Nat) (cl : Client) (cached : Bool) (bs : List Byte),
    (bs ≠ [] → va % 65536 + bs.length ≤ 65536 → s.farAt pkg id va accWrite = .ok (cl, .mem pa cached) →
      pa + bs.length ≤ 2 ^ 51 → s.writeDropped pa = false → (∀ e ∈ s.redEntries, e.core ≠ none) → s.memWf →
      ∃ (t : State) (sent : List Outgoing), exec (.fabricWindowArrival (.write pkg id va bs)) s = .next t ∧
        t.outbox = s.outbox ++ sent ++ [.fabricReply 0 []] ∧
        (∀ i, i < bs.length → Mem.byte t.mem (pa + i) = bs.getD i 0) ∧
        ∀ b, b < pa ∨ pa + bs.length ≤ b → isHost b = false → Mem.byte t.mem b = Mem.byte s.mem b) ∧
    (∀ s1, s.farRead pkg id va n = .ok (bs, s1) →
      exec (.fabricWindowArrival (.read pkg id va n)) s = .next (s1.emit (.fabricReply 0 bs))) ∧
    (s.farAt pkg id va accAtomic = .ok (cl, .mem pa true) → pa + 8 ≤ 2 ^ 51 → s.poison = [] → s.flips = [] →
      s.rangePoison pa 8 = false → (∀ e ∈ s.redEntries, e.core ≠ none) → s.memWf → (s.physRead pa 8 = Mem.read s.mem pa 8) →
      ∃ (t : State) (sent : List Outgoing), exec (.fabricWindowArrival (.cplAdd pkg id va)) s = .next t ∧
        t.outbox = s.outbox ++ sent ++ [.fabricReply 0 []] ∧
        leNat (Mem.read t.mem pa 8) = (leNat (Mem.read s.mem pa 8) + 1) % 2 ^ 64) ∧
    (∀ cause, s.farAt pkg id va accAtomic = .error cause →
      exec (.fabricWindowArrival (.cplAdd pkg id va)) s = .next (s.draw.emit (.fabricReply cause [])))) ∧
  (∀ (s : State) (pkg id : Nat) (asid : BitVec 16) (run : Nat × Nat × Bool),
    (∀ pins, s.farPin asid.toNat run = .ok pins → exec (.fabricWindowArrival (.start pkg id asid [run])) s =
      .next (({ s with farCommands := s.farCommands ++ [⟨pkg, id, asid.toNat, pins.eraseDups, false⟩] } : State).emit
        (.fabricReply 0 []))) ∧
    (∀ cause, s.farPin asid.toNat run = .error cause → exec (.fabricWindowArrival (.start pkg id asid [run])) s =
      .next (s.emit (.fabricReply cause []))) ∧
    exec (.fabricWindowArrival (.finish pkg id)) s =
      .next { s with farCommands := s.farCommands.filter fun c => !(c.pkg == pkg && c.id == id) }) ∧
  (∀ (s : State) (header : BitVec 128) (payload : List Byte), bits header.toNat 24 2 ≠ 0 →
    exec (.fabricWindowArrival (.packet header payload)) s =
      .next { s with messages := s.messages ++ packetMessages header.toNat payload }) ∧
  (∀ (s : State) (p q : Nat) (cause : BitVec 8) (c : Command) (rest : List Command), (s.core p).resident = true →
    ((s.team p).queue q).cmds = c :: rest → c.cplSent = true →
    (cause = 0 → ∃ t : State, exec (.fabricWindowArrival (.completed p q cause)) s = .next t ∧ t.mem = s.mem ∧
      ((t.team p).queue q).cmds = rest) ∧
    (cause ≠ 0 → (s.team p).allHalted = false →
      ∃ t : State, exec (.fabricWindowArrival (.completed p q cause)) s = .next t ∧ t.mem = s.mem ∧
        ((t.team p).queue q).cmds = c :: rest ∧ ((t.team p).queue q).halt = true ∧
        ((t.team p).queue q).fault = BitVec.ofNat 64 (cause.toNat * 2 ^ 56 + cmdCplw c.bytes % 2 ^ 56)))

/-- Reset values the spec gives (R96, R97, R365, R453); that memory lists nothing and that every granule is dead are the
model's choices (log entry 5). -/
def Obligations.ResetValues : Prop :=
  let s := State.reset
  s.ownerNow = 0 ∧ s.hub.agep = 1000 ∧ s.hub.ready = false ∧ s.hub.fatal = false ∧ s.hub.evcount = 0 ∧
  (∀ n, tget bankEmpty s.hub.banks n = bankEmpty) ∧ (∀ k, tfind s.poison k = none) ∧
  (∀ q, bit (s.queueReg q).control.toNat 15 = false ∧ (s.queueReg q).head = 0 ∧ (s.queueReg q).tail = 0) ∧
  bit s.hub.sheafQ.control.toNat 15 = false ∧ s.hub.sheafQ.head = 0 ∧ s.hub.sheafQ.tail = 0 ∧ s.timens = 0 ∧
  s.hub.ageCounter = 0 ∧ (∀ p, (s.core p).resident = false ∧ (s.core p).live = 0) ∧ s.locks = [] ∧
  (∀ d, s.lkmtx d = 0x100450CF) ∧ s.memWf

/-- The memory's canonical form is an invariant of step. -/
def Obligations.StepKeepsMemoryCanonical : Prop :=
  ∀ (s t : State), s.memWf → step s = .next t → t.memWf
end

