-- ==== Sys2Proof/Laws/Act.lean ====
section
/-! SUPPORT. How the computations of meanings evaluate. -/

namespace Sys2Proof.Machine

@[simp] theorem Act.bind_apply {α β : Type} (x : Act α) (f : α → Act β) (s : State) :
    (x >>= f) s = match x s with | .ok (a, t) => f a t | .error e => .error e := by
  simp only [bind, StateT.bind, Except.bind]
  cases x s <;> rfl

@[simp] theorem Act.pure_apply {α : Type} (a : α) (s : State) : (pure a : Act α) s = .ok (a, s) := rfl
@[simp] theorem Act.get_apply (s : State) : (get : Act State) s = .ok (s, s) := rfl
@[simp] theorem Act.set_apply (s t : State) : (set t : Act Unit) s = .ok ((), t) := rfl
@[simp] theorem Act.modify_apply (f : State → State) (s : State) : (modify f : Act Unit) s = .ok ((), f s) := rfl
@[simp] theorem Act.stop_apply {α : Type} (x : Stop) (s : State) : (stop x : Act α) s = .error x := rfl
@[simp] theorem Act.trap_apply {α : Type} (n : Nat) (v : W64) (s : State) :
    (trap n v : Act α) s = .error (.trap n v) := rfl
@[simp] theorem Act.trapIf_apply (b : Bool) (n : Nat) (v : W64) (s : State) :
    trapIf b n v s = if b then .error (.trap n v) else .ok ((), s) := by cases b <;> rfl
@[simp] theorem Act.holdUnless_apply (b : Bool) (s : State) :
    holdUnless b s = if b then .ok ((), s) else .error .hold := by cases b <;> rfl
@[simp] theorem Act.illegal_apply {α : Type} (s : State) :
    (illegal : Act α) s = .error (.trap causeILLEGAL s.issue.word) := rfl
@[simp] theorem Act.getCtx_apply (s : State) : getCtx s = .ok (s.cur, s) := rfl
@[simp] theorem Act.getTeam_apply (s : State) : getTeam s = .ok (s.curTeam, s) := rfl
@[simp] theorem Act.setCtxA_apply (c : Ctx) (s : State) : setCtxA c s = .ok ((), s.setCur c) := rfl
@[simp] theorem Act.modCtxA_apply (f : Ctx → Ctx) (s : State) : modCtxA f s = .ok ((), s.setCur (f s.cur)) := rfl
@[simp] theorem Act.modTeamA_apply (f : Team → Team) (s : State) :
    modTeamA f s = .ok ((), s.modTeam s.issue.core f) := rfl
@[simp] theorem Act.defer_apply (d : Deferred) (s : State) :
    defer d s = .ok ((), { s with issue := { s.issue with writes := s.issue.writes ++ [d] } }) := rfl
@[simp] theorem Act.writeEntry_apply (d : Dst) (e : SEntry) (s : State) :
    writeEntry d e s = .ok ((), { s with issue := { s.issue with
      writes := s.issue.writes ++ [.scalar s.issue.cluster d e] } }) := rfl
@[simp] theorem Act.writeDst_apply (d : Dst) (v : W64) (s : State) :
    writeDst d v s = .ok ((), { s with issue := { s.issue with
      writes := s.issue.writes ++ [.scalar s.issue.cluster d (.ready v false)] } }) := rfl
@[simp] theorem Act.writeVecP_apply (d : VDst) (b : VBits) (m : BitVec 128) (s : State) :
    writeVecP d b m s = .ok ((), { s with issue := { s.issue with
      writes := s.issue.writes ++ [.vector s.issue.cluster d (.ready b m)] } }) := rfl
@[simp] theorem Act.writePred_apply (p : Pred) (b : Bool) (s : State) :
    writePred p b s = .ok ((), { s with issue := { s.issue with
      writes := s.issue.writes ++ [.pred s.issue.cluster p.toNat b] } }) := rfl
@[simp] theorem Act.getPred_apply (p : Pred) (s : State) : getPred p s = .ok (s.pred p.toNat, s) := rfl

end Sys2Proof.Machine
end

