-- ==== Sys2Proof/Laws/Encoding.lean ====
section
/-! SUPPORT. Fields of a syllable read back what was written into them. -/

namespace Sys2Proof.Laws

theorem slice_toNat {n : Nat} (x : BitVec n) (lo len : Nat) :
    (slice x lo len).toNat = x.toNat / 2 ^ lo % 2 ^ len := by
  simp [slice]

@[simp] theorem srcMode_ofCode_code (m : SrcMode) : SrcMode.ofCode m.code = m := by cases m <;> rfl
@[simp] theorem dstMode_ofCode_code (m : DstMode) : DstMode.ofCode m.code = .ok m := by cases m <;> rfl
@[simp] theorem cc_ofCode_code (c : Cc) : Cc.ofCode c.code = .ok c := by cases c <;> rfl
@[simp] theorem scope_ofCode_code (s : Scope) : Scope.ofCode s.code = .ok s := by cases s <;> rfl
@[simp] theorem scalarTy_ofCode_code (t : ScalarTy) : ScalarTy.ofCode t.code = .ok t := by cases t <;> rfl
@[simp] theorem amoTy_ofCode_code (t : AmoTy) : AmoTy.ofCode t.code = .ok t := by cases t <;> rfl
@[simp] theorem fmt_ofCode_code (f : Fmt) : Fmt.ofCode f.code = f := by cases f <;> rfl
@[simp] theorem rnd_ofCode_code (r : Rnd) : Rnd.ofCode r.code = r := by cases r <;> rfl
@[simp] theorem amoOrder_ofCode_code (o : AmoOrder) : AmoOrder.ofCode o.code = o := by cases o <;> rfl
@[simp] theorem redOp_ofCode_code (o : RedOp) : RedOp.ofCode o.code = .ok o := by cases o <;> rfl
@[simp] theorem lockMode_ofCode_code (m : LockMode) : LockMode.ofCode m.code = .ok m := by cases m <;> rfl
@[simp] theorem lockLevel_ofCode_code (l : LockLevel) : LockLevel.ofCode l.code = .ok l := by cases l <;> rfl
@[simp] theorem vredOp_ofCode_code (o : VRedOp) : VRedOp.ofCode o.code = .ok o := by cases o <;> rfl

theorem fmt_code_lt (f : Fmt) : f.code < 16 := by cases f <;> decide
theorem rnd_code_lt (r : Rnd) : r.code < 4 := by cases r <;> decide
theorem srcMode_code_lt (m : SrcMode) : m.code < 4 := by cases m <;> decide
theorem dstMode_code_lt (m : DstMode) : m.code < 2 := by cases m <;> decide
theorem cc_code_lt (c : Cc) : c.code < 11 := by cases c <;> decide
theorem scope_code_lt (s : Scope) : s.code < 6 := by cases s <;> decide
theorem scalarTy_code_lt (t : ScalarTy) : t.code < 8 := by cases t <;> decide
theorem amoTy_code_lt (t : AmoTy) : t.code < 16 := by cases t <;> decide
theorem amoOrder_code_lt (o : AmoOrder) : o.code < 4 := by cases o <;> decide
theorem redOp_code_lt (o : RedOp) : o.code < 16 := by cases o <;> decide
theorem lockMode_code_lt (m : LockMode) : m.code < 8 := by cases m <;> decide
theorem lockLevel_code_lt (l : LockLevel) : l.code < 4 := by cases l <;> decide
theorem vredOp_code_lt (o : VRedOp) : o.code < 6 := by cases o <;> decide

@[simp] theorem src_dec_enc (s : Src) : Src.dec s.enc = s := by
  obtain ⟨m, r⟩ := s
  have hm := srcMode_code_lt m
  have h1 : (slice (Src.enc ⟨m, r⟩) 6 2).toNat = m.code := by
    simp only [slice_toNat, Src.enc, BitVec.toNat_ofNat]; omega
  have h2 : slice (Src.enc ⟨m, r⟩) 0 6 = r := by
    apply BitVec.eq_of_toNat_eq; simp only [slice_toNat, Src.enc, BitVec.toNat_ofNat]; omega
  simp only [Src.dec, h1, h2, srcMode_ofCode_code]

@[simp] theorem vsrc_dec_enc (s : VSrc) : VSrc.dec s.enc = s := by
  obtain ⟨m, r⟩ := s
  have hm := srcMode_code_lt m
  have h1 : (slice (VSrc.enc ⟨m, r⟩) 6 2).toNat = m.code := by
    simp only [slice_toNat, VSrc.enc, BitVec.toNat_ofNat]; omega
  have h2 : slice (VSrc.enc ⟨m, r⟩) 0 4 = r := by
    apply BitVec.eq_of_toNat_eq; simp only [slice_toNat, VSrc.enc, BitVec.toNat_ofNat]; omega
  simp only [VSrc.dec, h1, h2, srcMode_ofCode_code]

@[simp] theorem dst_dec_enc (d : Dst) : Dst.dec d.enc = .ok d := by
  obtain ⟨m, r⟩ := d
  have hm := dstMode_code_lt m
  have h1 : (slice (Dst.enc ⟨m, r⟩) 6 2).toNat = m.code := by
    simp only [slice_toNat, Dst.enc, BitVec.toNat_ofNat]; omega
  have h2 : slice (Dst.enc ⟨m, r⟩) 0 6 = r := by
    apply BitVec.eq_of_toNat_eq; simp only [slice_toNat, Dst.enc, BitVec.toNat_ofNat]; omega
  simp only [Dst.dec, h1, h2, dstMode_ofCode_code]; rfl

@[simp] theorem vdst_dec_enc (d : VDst) : VDst.dec d.enc = .ok d := by
  obtain ⟨m, r⟩ := d
  have hm := dstMode_code_lt m
  have h1 : (slice (VDst.enc ⟨m, r⟩) 6 2).toNat = m.code := by
    simp only [slice_toNat, VDst.enc, BitVec.toNat_ofNat]; omega
  have h2 : slice (VDst.enc ⟨m, r⟩) 0 4 = r := by
    apply BitVec.eq_of_toNat_eq; simp only [slice_toNat, VDst.enc, BitVec.toNat_ofNat]; omega
  simp only [VDst.dec, h1, h2, dstMode_ofCode_code]; rfl

@[simp] theorem numField_slice6 (x : BitVec 6) : slice (numField x) 0 6 = x := by
  apply BitVec.eq_of_toNat_eq; simp only [slice_toNat, numField, BitVec.toNat_ofNat]; omega

@[simp] theorem numField_slice3 (x : BitVec 3) : slice (numField x) 0 3 = x := by
  apply BitVec.eq_of_toNat_eq; simp only [slice_toNat, numField, BitVec.toNat_ofNat]; omega

@[simp] theorem flag_back (b : Bool) : ((BitVec.ofNat 1 (flagNat b)) == 1#1) = b := by cases b <;> rfl

theorem flagNat_lt (b : Bool) : flagNat b < 2 := by cases b <;> decide

/-- A one-bit slice that holds a flag. -/
theorem slice_flag {n : Nat} (x : BitVec n) (lo : Nat) (b : Bool) (h : x.toNat / 2 ^ lo % 2 = flagNat b) :
    (slice x lo 1 == 1#1) = b := by
  have : slice x lo 1 = BitVec.ofNat 1 (flagNat b) := by
    apply BitVec.eq_of_toNat_eq
    have := flagNat_lt b
    simp only [slice_toNat, BitVec.toNat_ofNat]; omega
  rw [this]; exact flag_back b

@[simp] theorem predModifier_neg (neg : Bool) (p : Pred) : (slice (predModifier neg p) 6 1 == 1#1) = neg := by
  apply slice_flag
  have := flagNat_lt neg
  have := p.isLt
  simp only [predModifier, BitVec.toNat_ofNat]; omega

@[simp] theorem predModifier_pred (neg : Bool) (p : Pred) : slice (predModifier neg p) 0 6 = p := by
  apply BitVec.eq_of_toNat_eq
  have := flagNat_lt neg
  have := p.isLt
  simp only [slice_toNat, predModifier, BitVec.toNat_ofNat]; omega

/-! ### The VEC modifier -/

theorem axisBits_lt (mask : Option VSrc) (u s : Bool) : axisBits mask u s < 8 := by
  cases mask <;> cases u <;> cases s <;> simp [axisBits, flagNat]

theorem vecModifier_toNat (f : Fmt) (r : Rnd) (x : Nat) (hx : x < 8) :
    (vecModifier f r x).toNat = f.code * 32 + r.code * 8 + x := by
  have := fmt_code_lt f
  have := rnd_code_lt r
  simp only [vecModifier, BitVec.toNat_ofNat]; omega

@[simp] theorem vecModifier_fmt (f : Fmt) (r : Rnd) (x : Nat) (hx : x < 8) :
    (slice (vecModifier f r x) 5 4).toNat = f.code := by
  have := fmt_code_lt f
  have := rnd_code_lt r
  rw [slice_toNat, vecModifier_toNat f r x hx]; omega

@[simp] theorem vecModifier_rnd (f : Fmt) (r : Rnd) (x : Nat) (hx : x < 8) :
    (slice (vecModifier f r x) 3 2).toNat = r.code := by
  have := fmt_code_lt f
  have := rnd_code_lt r
  rw [slice_toNat, vecModifier_toNat f r x hx]; omega

theorem vecModifier_low (f : Fmt) (r : Rnd) (x : Nat) (hx : x < 8) (k : Nat) (hk : k < 3) :
    (vecModifier f r x).toNat / 2 ^ k % 2 = x / 2 ^ k % 2 := by
  rw [vecModifier_toNat f r x hx]
  rcases (by omega : k = 0 ∨ k = 1 ∨ k = 2) with rfl | rfl | rfl <;> omega

@[simp] theorem vecModifier_uns (f : Fmt) (r : Rnd) (mask : Option VSrc) (u s : Bool) :
    (slice (vecModifier f r (axisBits mask u s)) 1 1 == 1#1) = u := by
  apply slice_flag
  rw [vecModifier_low f r _ (axisBits_lt mask u s) 1 (by decide)]
  cases mask <;> cases u <;> cases s <;> simp [axisBits, flagNat]

@[simp] theorem vecModifier_sat (f : Fmt) (r : Rnd) (mask : Option VSrc) (u s : Bool) :
    (slice (vecModifier f r (axisBits mask u s)) 0 1 == 1#1) = s := by
  apply slice_flag
  rw [vecModifier_low f r _ (axisBits_lt mask u s) 0 (by decide)]
  cases mask <;> cases u <;> cases s <;> simp [axisBits, flagNat]

@[simp] theorem vecModifier_mask (f : Fmt) (r : Rnd) (mask : Option VSrc) (u s : Bool) :
    maskDec (slice (vecModifier f r (axisBits mask u s)) 2 1) (maskEnc mask) = mask := by
  have h := slice_flag (vecModifier f r (axisBits mask u s)) 2 mask.isSome (by
    rw [vecModifier_low f r _ (axisBits_lt mask u s) 2 (by decide)]
    cases mask <;> cases u <;> cases s <;> simp [axisBits, flagNat])
  cases mask with
  | none => simp only [Option.isSome_none, beq_eq_false_iff_ne, ne_eq] at h; exact if_neg h
  | some m => simp only [Option.isSome_some, beq_iff_eq] at h; simp [maskDec, h, maskEnc]

@[simp] theorem vecModifier_axis_fmt (f : Fmt) (r : Rnd) (mask : Option VSrc) (u s : Bool) :
    (slice (vecModifier f r (axisBits mask u s)) 5 4).toNat = f.code :=
  vecModifier_fmt f r _ (axisBits_lt mask u s)

@[simp] theorem vecModifier_axis_rnd (f : Fmt) (r : Rnd) (mask : Option VSrc) (u s : Bool) :
    (slice (vecModifier f r (axisBits mask u s)) 3 2).toNat = r.code :=
  vecModifier_rnd f r _ (axisBits_lt mask u s)

@[simp] theorem vecModifier_part (f : Fmt) (r : Rnd) (p : BitVec 2) :
    slice (vecModifier f r p.toNat) 0 2 = p := by
  have hp := p.isLt
  have := fmt_code_lt f
  have := rnd_code_lt r
  apply BitVec.eq_of_toNat_eq
  rw [slice_toNat, vecModifier_toNat f r _ (by omega)]; omega

@[simp] theorem vecModifier_part_fmt (f : Fmt) (r : Rnd) (p : BitVec 2) :
    (slice (vecModifier f r p.toNat) 5 4).toNat = f.code := vecModifier_fmt f r _ (by omega)

@[simp] theorem vecModifier_part_rnd (f : Fmt) (r : Rnd) (p : BitVec 2) :
    (slice (vecModifier f r p.toNat) 3 2).toNat = r.code := vecModifier_rnd f r _ (by omega)

@[simp] theorem vecModifier_zero_fmt (f : Fmt) (r : Rnd) :
    (slice (vecModifier f r 0) 5 4).toNat = f.code := vecModifier_fmt f r 0 (by decide)

@[simp] theorem vecModifier_zero_rnd (f : Fmt) (r : Rnd) :
    (slice (vecModifier f r 0) 3 2).toNat = r.code := vecModifier_rnd f r 0 (by decide)

@[simp] theorem fmt_field (f : Fmt) : (slice (BitVec.ofNat 8 f.code) 0 4).toNat = f.code := by
  have := fmt_code_lt f
  simp only [slice_toNat, BitVec.toNat_ofNat]; omega

/-! ### The modifiers of RRR syllables -/

@[simp] theorem amoModifier_type (t : AmoTy) (s : Scope) (o : Nat) (ho : o < 4) :
    (slice (amoModifier t s o) 12 4).toNat = t.code := by
  have := amoTy_code_lt t
  have := scope_code_lt s
  simp only [slice_toNat, amoModifier, BitVec.toNat_ofNat]; omega

@[simp] theorem amoModifier_scope (t : AmoTy) (s : Scope) (o : Nat) (ho : o < 4) :
    (slice (amoModifier t s o) 9 3).toNat = s.code := by
  have := amoTy_code_lt t
  have := scope_code_lt s
  simp only [slice_toNat, amoModifier, BitVec.toNat_ofNat]; omega

@[simp] theorem amoModifier_order (t : AmoTy) (s : Scope) (o : Nat) (ho : o < 4) :
    (slice (amoModifier t s o) 7 2).toNat = o := by
  have := amoTy_code_lt t
  have := scope_code_lt s
  simp only [slice_toNat, amoModifier, BitVec.toNat_ofNat]; omega

@[simp] theorem amoModifier_release (t : AmoTy) (s : Scope) (rel : Bool) :
    (slice (amoModifier t s (flagNat rel * 2)) 8 1 == 1#1) = rel := by
  apply slice_flag
  have := amoTy_code_lt t
  have := scope_code_lt s
  have := flagNat_lt rel
  simp only [amoModifier, BitVec.toNat_ofNat]; omega

@[simp] theorem lockModifier_mode (n : Nat) (hn : n < 8) (d : BitVec 2) (l : LockLevel) :
    (slice (lockModifier n d l) 0 3).toNat = n := by
  have := lockLevel_code_lt l
  simp only [slice_toNat, lockModifier, BitVec.toNat_ofNat]; omega

@[simp] theorem lockModifier_domain (n : Nat) (hn : n < 8) (d : BitVec 2) (l : LockLevel) :
    slice (lockModifier n d l) 3 2 = d := by
  have := lockLevel_code_lt l
  apply BitVec.eq_of_toNat_eq
  simp only [slice_toNat, lockModifier, BitVec.toNat_ofNat]; omega

@[simp] theorem lockModifier_level (n : Nat) (hn : n < 8) (d : BitVec 2) (l : LockLevel) :
    (slice (lockModifier n d l) 5 2).toNat = l.code := by
  have := lockLevel_code_lt l
  simp only [slice_toNat, lockModifier, BitVec.toNat_ofNat]; omega

@[simp] theorem slotModifier_first (f : BitVec 6) (n : BitVec 7) : slice (slotModifier f n) 0 6 = f := by
  apply BitVec.eq_of_toNat_eq
  simp only [slice_toNat, slotModifier, BitVec.toNat_ofNat]; omega

@[simp] theorem slotModifier_count (f : BitVec 6) (n : BitVec 7) : slice (slotModifier f n) 6 7 = n := by
  apply BitVec.eq_of_toNat_eq
  simp only [slice_toNat, slotModifier, BitVec.toNat_ofNat]; omega

/-- A number that fits reads back from the bottom of a wider field. -/
@[simp] theorem slice_low {m : Nat} (n : Nat) (x : BitVec m) (h : m ≤ n) :
    slice (BitVec.ofNat n x.toNat) 0 m = x := by
  apply BitVec.eq_of_toNat_eq
  have := x.isLt
  have : x.toNat < 2 ^ n := Nat.lt_of_lt_of_le x.isLt (Nat.pow_le_pow_right (by decide) h)
  rw [slice_toNat, BitVec.toNat_ofNat, Nat.mod_eq_of_lt this]; simp

@[simp] theorem slice_setWidth {m : Nat} (n : Nat) (x : BitVec m) (h : m ≤ n) :
    slice (x.setWidth n) 0 m = x := by
  apply BitVec.eq_of_toNat_eq
  have : x.toNat < 2 ^ n := Nat.lt_of_lt_of_le x.isLt (Nat.pow_le_pow_right (by decide) h)
  rw [slice_toNat, BitVec.toNat_setWidth, Nat.mod_eq_of_lt this]; simp

@[simp] theorem cc_code_mod (c : Cc) : c.code % 512 = c.code := by have := cc_code_lt c; omega
@[simp] theorem cc_code_mod8 (c : Cc) : c.code % 256 = c.code := by have := cc_code_lt c; omega
@[simp] theorem redOp_code_mod (o : RedOp) : o.code % 512 = o.code := by have := redOp_code_lt o; omega
@[simp] theorem amoOp_minor_mod (o : AmoOp) : o.fields.1 % 512 = o.fields.1 := by
  have : o.fields.1 < 16 := by cases o <;> simp [AmoOp.fields]
  omega
@[simp] theorem scalarTy_code_mod (t : ScalarTy) : t.code % 16 = t.code := by have := scalarTy_code_lt t; omega
@[simp] theorem fmt_code_mod (f : Fmt) : f.code % 16 = f.code := by have := fmt_code_lt f; omega
@[simp] theorem fmt_code_mod9 (f : Fmt) : f.code % 512 % 16 = f.code := by have := fmt_code_lt f; omega
@[simp] theorem scope_slice (s : Scope) : (slice (BitVec.ofNat 16 s.code) 0 3).toNat = s.code := by
  have := scope_code_lt s
  simp only [slice_toNat, BitVec.toNat_ofNat]; omega
@[simp] theorem vredOp_code_mod (o : VRedOp) : o.code % 256 % 16 = o.code := by have := vredOp_code_lt o; omega
@[simp] theorem vredOp_code_row (o : VRedOp) : o.code % 256 / 16 = 0 := by have := vredOp_code_lt o; omega
@[simp] theorem vredOp_code_col (o : VRedOp) : (16 + o.code) % 256 % 16 = o.code := by
  have := vredOp_code_lt o; omega
theorem vredOp_code_ne (o : VRedOp) : ¬ (16 + o.code) % 256 / 16 = 0 := by have := vredOp_code_lt o; omega

@[simp] theorem loop_counter (c : BitVec 6) : slice (BitVec.ofNat 8 (64 + c.toNat)) 0 6 = c := by
  apply BitVec.eq_of_toNat_eq; simp only [slice_toNat, BitVec.toNat_ofNat]; omega
@[simp] theorem brq_sense (b : Bool) : (slice (BitVec.ofNat 9 (flagNat b)) 0 1 == 1#1) = b := by
  cases b <;> rfl
@[simp] theorem trap_minor (c : BitVec 8) : (slice (BitVec.ofNat 17 (768 + c.toNat)) 8 9).toNat = 3 := by
  simp only [slice_toNat, BitVec.toNat_ofNat]; omega
@[simp] theorem trap_code (c : BitVec 8) : slice (BitVec.ofNat 17 (768 + c.toNat)) 0 8 = c := by
  apply BitVec.eq_of_toNat_eq; simp only [slice_toNat, BitVec.toNat_ofNat]; omega
@[simp] theorem phase_minor (c : BitVec 8) : (slice (BitVec.ofNat 17 (2048 + c.toNat)) 8 9).toNat = 8 := by
  simp only [slice_toNat, BitVec.toNat_ofNat]; omega
@[simp] theorem phase_code (c : BitVec 8) : slice (BitVec.ofNat 17 (2048 + c.toNat)) 0 8 = c := by
  apply BitVec.eq_of_toNat_eq; simp only [slice_toNat, BitVec.toNat_ofNat]; omega
@[simp] theorem segb_end (i : BitVec 16) : (slice (i.setWidth 17) 16 1 = 1#1) = False := by
  apply eq_false
  intro h
  have := congrArg BitVec.toNat h
  simp only [slice_toNat, BitVec.toNat_setWidth, BitVec.toNat_ofNat] at this; omega
@[simp] theorem sege_end (i : BitVec 16) : slice (BitVec.ofNat 17 (65536 + i.toNat)) 16 1 = 1#1 := by
  apply BitVec.eq_of_toNat_eq; simp only [slice_toNat, BitVec.toNat_ofNat]; omega
@[simp] theorem sege_id (i : BitVec 16) : slice (BitVec.ofNat 17 (65536 + i.toNat)) 0 16 = i := by
  apply BitVec.eq_of_toNat_eq; simp only [slice_toNat, BitVec.toNat_ofNat]; omega
theorem release_lt (b : Bool) : flagNat b * 2 < 4 := by cases b <;> decide

/-! ### Memory operands -/

@[simp] theorem space_dec (s : Space) : Space.dec s.order s.scope = .ok s := by
  cases s with
  | virt => rfl
  | virtOrdered s => cases s <;> rfl
  | own o l b => cases o <;> cases l <;> cases b <;> rfl

@[simp] theorem mem_dec (m : MemOp) : memDec m.base.enc m.index.enc m.disp m.space.scope m.space.order = .ok m := by
  simp only [memDec, src_dec_enc, space_dec]; rfl

@[simp] theorem vmem_dec (m : VMemOp) : vmemDec m.base.enc m.index.enc m.disp m.space.scope m.space.order = .ok m := by
  simp only [vmemDec, src_dec_enc, vsrc_dec_enc, space_dec]; rfl

@[simp] theorem amoOp_dec (o : AmoOp) : AmoOp.dec o.fields.1 o.fields.2 = .ok o := by
  cases o <;> first | rfl | simp [AmoOp.dec, AmoOp.fields]

theorem amoOp_minor_lt (o : AmoOp) : o.fields.1 < 16 := by cases o <;> simp [AmoOp.fields]

/-! ### The six formats -/

/-- A format reads out of a syllable the fields that its layout put there. -/
theorem format_read (y g n major : Nat) (l : Layout) :
    l.format.read (BitVec.ofNat 64 (y * 2 ^ 63 + major * 2 ^ 56 + g * 2 ^ 50 + n * 2 ^ 49 + l.bits)) = l := by
  cases l <;> simp only [Layout.format, Format.read, Layout.bits, Layout.rrr.injEq, Layout.rri.injEq,
    Layout.mem.injEq, Layout.br.injEq, Layout.sys.injEq, Layout.vec.injEq] <;>
    (repeat' apply And.intro) <;> apply BitVec.eq_of_toNat_eq <;>
    simp only [slice_toNat, BitVec.toNat_ofNat] <;> omega

end Sys2Proof.Laws
end

