-- ==== Sys2Proof/Laws/Memory.lean ====
section
/-! SUPPORT. Laws of tables and memories: read after write, and the canonical form kept by every operation. -/

namespace Sys2Proof.Machine

/-! ### Tables -/

@[simp] theorem tfind_tput_same {α : Type} (t : Table α) (n : Nat) (x : α) : tfind (tput t n x) n = some x := by
  induction t with
  | nil => simp [tput, tfind]
  | cons e t ih =>
    obtain ⟨k, v⟩ := e
    simp only [tput]
    split
    · simp [tfind]
    · split
      · simp [tfind]
      · have : ¬ k = n := by omega
        simp [tfind, this, ih]

@[simp] theorem tfind_tput_other {α : Type} (t : Table α) (n m : Nat) (x : α) (h : m ≠ n) :
    tfind (tput t n x) m = tfind t m := by
  induction t with
  | nil => simp [tput, tfind, Ne.symm h]
  | cons e t ih =>
    obtain ⟨k, v⟩ := e
    simp only [tput]
    split
    · simp [tfind, Ne.symm h]
    · split
      · have : ¬ k = m := by omega
        simp [tfind, this, Ne.symm h]
      · simp [tfind, ih]

@[simp] theorem tget_tput_same {α : Type} (d : α) (t : Table α) (n : Nat) (x : α) : tget d (tput t n x) n = x := by
  simp [tget]

@[simp] theorem tget_tput_other {α : Type} (d : α) (t : Table α) (n m : Nat) (x : α) (h : m ≠ n) :
    tget d (tput t n x) m = tget d t m := by
  simp [tget, h]

/-- Writing a table twice at a key leaves the second value. -/
@[simp] theorem tput_tput {α : Type} (t : Table α) (n : Nat) (x y : α) : tput (tput t n x) n y = tput t n y := by
  induction t with
  | nil => simp [tput]
  | cons e t ih =>
    obtain ⟨k, v⟩ := e
    simp only [tput]
    split
    · simp [tput]
    · split
      · simp [tput]
      · rename_i h1 h2
        simp [tput, h1, h2, ih]

/-! ### The canonical form -/

/-- What a bound on addresses says. -/
def Mem.belowKey (lo : Option Nat) (k : Nat) : Prop :=
  match lo with
  | some l => l < k
  | none => True

theorem Mem.above_cons (lo : Option Nat) (k : Nat) (v : Byte) (t : Mem) :
    Mem.above lo ((k, v) :: t) = true ↔ Mem.belowKey lo k ∧ v ≠ 0 ∧ Mem.above (some k) t = true := by
  cases lo <;> simp [Mem.above, Mem.belowKey, and_assoc]

theorem Mem.above_weaken {lo : Option Nat} {l : Nat} {m : Mem} (h : Mem.above (some l) m = true)
    (hl : ∀ k, l < k → Mem.belowKey lo k) : Mem.above lo m = true := by
  cases m with
  | nil => rfl
  | cons e t =>
    obtain ⟨k, v⟩ := e
    rw [Mem.above_cons] at h ⊢
    exact ⟨hl k h.1, h.2⟩

/-- An address below every listed one reads as unlisted. -/
theorem Mem.byte_of_above {l : Nat} {m : Mem} (h : Mem.above (some l) m = true) {a : Nat} (ha : a ≤ l) :
    Mem.byte m a = 0 := by
  induction m generalizing l with
  | nil => rfl
  | cons e t ih =>
    obtain ⟨k, v⟩ := e
    rw [Mem.above_cons] at h
    have hk : l < k := h.1
    have : ¬ k = a := by omega
    have := ih h.2.2 (by omega)
    simpa [Mem.byte, tget, tfind, ‹¬ k = a›] using this

theorem Mem.clear_above {lo : Option Nat} {m : Mem} (n : Nat) (h : Mem.above lo m = true) :
    Mem.above lo (Mem.clear m n) = true := by
  induction m generalizing lo with
  | nil => rfl
  | cons e t ih =>
    obtain ⟨k, v⟩ := e
    have h' := (Mem.above_cons lo k v t).1 h
    simp only [Mem.clear]
    split
    · exact h
    · split
      · refine Mem.above_weaken h'.2.2 fun k' hk' => ?_
        cases lo with
        | none => trivial
        | some l => have := h'.1; simp only [Mem.belowKey] at this ⊢; omega
      · exact (Mem.above_cons ..).2 ⟨h'.1, h'.2.1, ih h'.2.2⟩

theorem Mem.tput_above {lo : Option Nat} {m : Mem} (n : Nat) (b : Byte) (hb : b ≠ 0) (hlo : Mem.belowKey lo n)
    (h : Mem.above lo m = true) : Mem.above lo (tput m n b) = true := by
  induction m generalizing lo with
  | nil => exact (Mem.above_cons ..).2 ⟨hlo, hb, rfl⟩
  | cons e t ih =>
    obtain ⟨k, v⟩ := e
    have h' := (Mem.above_cons lo k v t).1 h
    simp only [tput]
    split
    · exact (Mem.above_cons ..).2 ⟨hlo, hb, (Mem.above_cons ..).2 ⟨by assumption, h'.2.1, h'.2.2⟩⟩
    · split
      · subst n; exact (Mem.above_cons ..).2 ⟨hlo, hb, h'.2.2⟩
      · exact (Mem.above_cons ..).2 ⟨h'.1, h'.2.1, ih (by simp only [Mem.belowKey]; omega) h'.2.2⟩

/-- Writing a byte keeps the canonical form. -/
theorem Mem.set_wf {m : Mem} (a : Nat) (b : Byte) (h : Mem.wf m = true) : Mem.wf (Mem.set m a b) = true := by
  simp only [Mem.set]
  split
  · exact Mem.clear_above a h
  · exact Mem.tput_above a b (by assumption) trivial h

/-- Writing bytes keeps the canonical form. -/
theorem Mem.write_wf {m : Mem} (a : Nat) (bs : List Byte) (h : Mem.wf m = true) :
    Mem.wf (Mem.write m a bs) = true := by
  induction bs generalizing m a with
  | nil => exact h
  | cons b bs ih => exact ih (a + 1) (Mem.set_wf a b h)

/-- Dropping listed bytes keeps the canonical form. -/
theorem Mem.filter_above {lo : Option Nat} {m : Mem} (f : Nat × Byte → Bool) (h : Mem.above lo m = true) :
    Mem.above lo (m.filter f) = true := by
  induction m generalizing lo with
  | nil => rfl
  | cons e t ih =>
    obtain ⟨k, v⟩ := e
    have h' := (Mem.above_cons lo k v t).1 h
    simp only [List.filter]
    split
    · exact (Mem.above_cons ..).2 ⟨h'.1, h'.2.1, ih h'.2.2⟩
    · refine Mem.above_weaken (ih h'.2.2) fun k' hk' => ?_
      cases lo with
      | none => trivial
      | some l => have := h'.1; simp only [Mem.belowKey] at this ⊢; omega

theorem Mem.filter_wf {m : Mem} (f : Nat × Byte → Bool) (h : Mem.wf m = true) : Mem.wf (m.filter f) = true :=
  Mem.filter_above f h

/-! ### Read after write -/

theorem Mem.byte_clear_same {lo : Option Nat} {m : Mem} (h : Mem.above lo m = true) (a : Nat) :
    Mem.byte (Mem.clear m a) a = 0 := by
  induction m generalizing lo with
  | nil => rfl
  | cons e t ih =>
    obtain ⟨k, v⟩ := e
    have h' := (Mem.above_cons lo k v t).1 h
    simp only [Mem.clear]
    split
    · rename_i hk
      exact Mem.byte_of_above (l := k - 1) ((Mem.above_cons ..).2 ⟨by simp only [Mem.belowKey]; omega, h'.2⟩) (by omega)
    · split
      · exact Mem.byte_of_above h'.2.2 (by omega)
      · have : ¬ k = a := by omega
        simpa [Mem.byte, tget, tfind, this] using ih h'.2.2

theorem Mem.byte_clear_other (m : Mem) (n a : Nat) (h : a ≠ n) : Mem.byte (Mem.clear m n) a = Mem.byte m a := by
  induction m with
  | nil => rfl
  | cons e t ih =>
    obtain ⟨k, v⟩ := e
    simp only [Mem.clear]
    split
    · rfl
    · split
      · have : ¬ k = a := by omega
        simp [Mem.byte, tget, tfind, this]
      · by_cases hk : k = a
        · simp [Mem.byte, tget, tfind, hk]
        · simpa [Mem.byte, tget, tfind, hk] using ih

/-- A byte reads back as it was written. -/
theorem Mem.byte_set_same {m : Mem} (h : Mem.wf m = true) (a : Nat) (b : Byte) : Mem.byte (Mem.set m a b) a = b := by
  simp only [Mem.set]
  split
  · subst b; exact Mem.byte_clear_same h a
  · simp [Mem.byte]

/-- Every other byte stays. -/
theorem Mem.byte_set_other (m : Mem) (n a : Nat) (b : Byte) (h : a ≠ n) :
    Mem.byte (Mem.set m n b) a = Mem.byte m a := by
  simp only [Mem.set]
  split
  · exact Mem.byte_clear_other m n a h
  · simp [Mem.byte, h]

/-- Bytes outside a write stay. -/
theorem Mem.byte_write_other (m : Mem) (n : Nat) (bs : List Byte) (a : Nat) (h : a < n ∨ n + bs.length ≤ a) :
    Mem.byte (Mem.write m n bs) a = Mem.byte m a := by
  induction bs generalizing m n with
  | nil => rfl
  | cons b bs ih =>
    simp only [List.length_cons] at h
    rw [Mem.write, ih _ _ (by omega), Mem.byte_set_other _ _ _ _ (by omega)]

/-- Bytes inside a write read back. -/
theorem Mem.byte_write_same {m : Mem} (h : Mem.wf m = true) (n : Nat) (bs : List Byte) (i : Nat)
    (hi : i < bs.length) : Mem.byte (Mem.write m n bs) (n + i) = bs[i] := by
  induction bs generalizing m n i with
  | nil => cases hi
  | cons b bs ih =>
    cases i with
    | zero => rw [Mem.write, Mem.byte_write_other _ _ _ _ (by omega)]; exact Mem.byte_set_same h n b
    | succ i =>
      have := ih (Mem.set_wf n b h) (n + 1) i (by simpa using hi)
      rw [show n + (i + 1) = n + 1 + i by omega]
      simpa [Mem.write] using this

theorem Mem.read_eq_of_bytes (m m' : Mem) (a n : Nat) (h : ∀ i, i < n → Mem.byte m (a + i) = Mem.byte m' (a + i)) :
    Mem.read m a n = Mem.read m' a n := by
  induction n generalizing a with
  | zero => rfl
  | succ n ih =>
    simp only [Mem.read]
    rw [ih (a + 1) fun i hi => by have := h (i + 1) (by omega); rwa [show a + 1 + i = a + (i + 1) by omega]]
    have := h 0 (by omega)
    simp only [Nat.add_zero] at this
    rw [this]

/-- Bytes written read back. -/
theorem Mem.read_write_same {m : Mem} (h : Mem.wf m = true) (a : Nat) (bs : List Byte) :
    Mem.read (Mem.write m a bs) a bs.length = bs := by
  induction bs generalizing m a with
  | nil => rfl
  | cons b bs ih =>
    simp only [List.length_cons, Mem.read, Mem.write]
    rw [ih (Mem.set_wf a b h) (a + 1), Mem.byte_write_other _ _ _ _ (by omega), Mem.byte_set_same h a b]

/-- A read apart from a write is unchanged. -/
theorem Mem.read_write_other (m : Mem) (n : Nat) (bs : List Byte) (a k : Nat) (h : a + k ≤ n ∨ n + bs.length ≤ a) :
    Mem.read (Mem.write m n bs) a k = Mem.read m a k :=
  Mem.read_eq_of_bytes _ _ _ _ fun _ _ => Mem.byte_write_other _ _ _ _ (by omega)

end Sys2Proof.Machine
end

