-- ==== Sys2Proof/Laws/State.lean ====
section
/-! SUPPORT. What each update of the state leaves and sets: one lemma per field per update, and the reads of cores,
teams, contexts and queue registers after their writes. -/

namespace Sys2Proof.Machine

/-! ### setCore -/

@[simp] theorem State.setCore_now (s : State) (p : Nat) (x : Core) : (s.setCore p x).now = s.now := rfl
@[simp] theorem State.setCore_turn (s : State) (p : Nat) (x : Core) : (s.setCore p x).turn = s.turn := rfl
@[simp] theorem State.setCore_cycleAcc (s : State) (p : Nat) (x : Core) : (s.setCore p x).cycleAcc = s.cycleAcc := rfl
@[simp] theorem State.setCore_freeSeed (s : State) (p : Nat) (x : Core) : (s.setCore p x).freeSeed = s.freeSeed := rfl
@[simp] theorem State.setCore_issue (s : State) (p : Nat) (x : Core) : (s.setCore p x).issue = s.issue := rfl
@[simp] theorem State.setCore_mem (s : State) (p : Nat) (x : Core) : (s.setCore p x).mem = s.mem := rfl
@[simp] theorem State.setCore_hostSectors (s : State) (p : Nat) (x : Core) : (s.setCore p x).hostSectors = s.hostSectors := rfl
@[simp] theorem State.setCore_l2 (s : State) (p : Nat) (x : Core) : (s.setCore p x).l2 = s.l2 := rfl
@[simp] theorem State.setCore_l2Tags (s : State) (p : Nat) (x : Core) : (s.setCore p x).l2Tags = s.l2Tags := rfl
@[simp] theorem State.setCore_tensorLines (s : State) (p : Nat) (x : Core) : (s.setCore p x).tensorLines = s.tensorLines := rfl
@[simp] theorem State.setCore_owners (s : State) (p : Nat) (x : Core) : (s.setCore p x).owners = s.owners := rfl
@[simp] theorem State.setCore_redEntries (s : State) (p : Nat) (x : Core) : (s.setCore p x).redEntries = s.redEntries := rfl
@[simp] theorem State.setCore_poison (s : State) (p : Nat) (x : Core) : (s.setCore p x).poison = s.poison := rfl
@[simp] theorem State.setCore_flips (s : State) (p : Nat) (x : Core) : (s.setCore p x).flips = s.flips := rfl
@[simp] theorem State.setCore_locks (s : State) (p : Nat) (x : Core) : (s.setCore p x).locks = s.locks := rfl
@[simp] theorem State.setCore_chips (s : State) (p : Nat) (x : Core) : (s.setCore p x).chips = s.chips := rfl
@[simp] theorem State.setCore_launches (s : State) (p : Nat) (x : Core) : (s.setCore p x).launches = s.launches := rfl
@[simp] theorem State.setCore_sheaves (s : State) (p : Nat) (x : Core) : (s.setCore p x).sheaves = s.sheaves := rfl
@[simp] theorem State.setCore_images (s : State) (p : Nat) (x : Core) : (s.setCore p x).images = s.images := rfl
@[simp] theorem State.setCore_orphans (s : State) (p : Nat) (x : Core) : (s.setCore p x).orphans = s.orphans := rfl
@[simp] theorem State.setCore_messages (s : State) (p : Nat) (x : Core) : (s.setCore p x).messages = s.messages := rfl
@[simp] theorem State.setCore_farCommands (s : State) (p : Nat) (x : Core) : (s.setCore p x).farCommands = s.farCommands := rfl
@[simp] theorem State.setCore_hub (s : State) (p : Nat) (x : Core) : (s.setCore p x).hub = s.hub := rfl
@[simp] theorem State.setCore_outbox (s : State) (p : Nat) (x : Core) : (s.setCore p x).outbox = s.outbox := rfl

/-! ### modCore -/

@[simp] theorem State.modCore_now (s : State) (p : Nat) (f : Core → Core) : (s.modCore p f).now = s.now := rfl
@[simp] theorem State.modCore_turn (s : State) (p : Nat) (f : Core → Core) : (s.modCore p f).turn = s.turn := rfl
@[simp] theorem State.modCore_cycleAcc (s : State) (p : Nat) (f : Core → Core) : (s.modCore p f).cycleAcc = s.cycleAcc := rfl
@[simp] theorem State.modCore_freeSeed (s : State) (p : Nat) (f : Core → Core) : (s.modCore p f).freeSeed = s.freeSeed := rfl
@[simp] theorem State.modCore_issue (s : State) (p : Nat) (f : Core → Core) : (s.modCore p f).issue = s.issue := rfl
@[simp] theorem State.modCore_mem (s : State) (p : Nat) (f : Core → Core) : (s.modCore p f).mem = s.mem := rfl
@[simp] theorem State.modCore_hostSectors (s : State) (p : Nat) (f : Core → Core) : (s.modCore p f).hostSectors = s.hostSectors := rfl
@[simp] theorem State.modCore_l2 (s : State) (p : Nat) (f : Core → Core) : (s.modCore p f).l2 = s.l2 := rfl
@[simp] theorem State.modCore_l2Tags (s : State) (p : Nat) (f : Core → Core) : (s.modCore p f).l2Tags = s.l2Tags := rfl
@[simp] theorem State.modCore_tensorLines (s : State) (p : Nat) (f : Core → Core) : (s.modCore p f).tensorLines = s.tensorLines := rfl
@[simp] theorem State.modCore_owners (s : State) (p : Nat) (f : Core → Core) : (s.modCore p f).owners = s.owners := rfl
@[simp] theorem State.modCore_redEntries (s : State) (p : Nat) (f : Core → Core) : (s.modCore p f).redEntries = s.redEntries := rfl
@[simp] theorem State.modCore_poison (s : State) (p : Nat) (f : Core → Core) : (s.modCore p f).poison = s.poison := rfl
@[simp] theorem State.modCore_flips (s : State) (p : Nat) (f : Core → Core) : (s.modCore p f).flips = s.flips := rfl
@[simp] theorem State.modCore_locks (s : State) (p : Nat) (f : Core → Core) : (s.modCore p f).locks = s.locks := rfl
@[simp] theorem State.modCore_chips (s : State) (p : Nat) (f : Core → Core) : (s.modCore p f).chips = s.chips := rfl
@[simp] theorem State.modCore_launches (s : State) (p : Nat) (f : Core → Core) : (s.modCore p f).launches = s.launches := rfl
@[simp] theorem State.modCore_sheaves (s : State) (p : Nat) (f : Core → Core) : (s.modCore p f).sheaves = s.sheaves := rfl
@[simp] theorem State.modCore_images (s : State) (p : Nat) (f : Core → Core) : (s.modCore p f).images = s.images := rfl
@[simp] theorem State.modCore_orphans (s : State) (p : Nat) (f : Core → Core) : (s.modCore p f).orphans = s.orphans := rfl
@[simp] theorem State.modCore_messages (s : State) (p : Nat) (f : Core → Core) : (s.modCore p f).messages = s.messages := rfl
@[simp] theorem State.modCore_farCommands (s : State) (p : Nat) (f : Core → Core) : (s.modCore p f).farCommands = s.farCommands := rfl
@[simp] theorem State.modCore_hub (s : State) (p : Nat) (f : Core → Core) : (s.modCore p f).hub = s.hub := rfl
@[simp] theorem State.modCore_outbox (s : State) (p : Nat) (f : Core → Core) : (s.modCore p f).outbox = s.outbox := rfl

/-! ### setTeam -/

@[simp] theorem State.setTeam_now (s : State) (p : Nat) (x : Team) : (s.setTeam p x).now = s.now := rfl
@[simp] theorem State.setTeam_turn (s : State) (p : Nat) (x : Team) : (s.setTeam p x).turn = s.turn := rfl
@[simp] theorem State.setTeam_cycleAcc (s : State) (p : Nat) (x : Team) : (s.setTeam p x).cycleAcc = s.cycleAcc := rfl
@[simp] theorem State.setTeam_freeSeed (s : State) (p : Nat) (x : Team) : (s.setTeam p x).freeSeed = s.freeSeed := rfl
@[simp] theorem State.setTeam_issue (s : State) (p : Nat) (x : Team) : (s.setTeam p x).issue = s.issue := rfl
@[simp] theorem State.setTeam_mem (s : State) (p : Nat) (x : Team) : (s.setTeam p x).mem = s.mem := rfl
@[simp] theorem State.setTeam_hostSectors (s : State) (p : Nat) (x : Team) : (s.setTeam p x).hostSectors = s.hostSectors := rfl
@[simp] theorem State.setTeam_l2 (s : State) (p : Nat) (x : Team) : (s.setTeam p x).l2 = s.l2 := rfl
@[simp] theorem State.setTeam_l2Tags (s : State) (p : Nat) (x : Team) : (s.setTeam p x).l2Tags = s.l2Tags := rfl
@[simp] theorem State.setTeam_tensorLines (s : State) (p : Nat) (x : Team) : (s.setTeam p x).tensorLines = s.tensorLines := rfl
@[simp] theorem State.setTeam_owners (s : State) (p : Nat) (x : Team) : (s.setTeam p x).owners = s.owners := rfl
@[simp] theorem State.setTeam_redEntries (s : State) (p : Nat) (x : Team) : (s.setTeam p x).redEntries = s.redEntries := rfl
@[simp] theorem State.setTeam_poison (s : State) (p : Nat) (x : Team) : (s.setTeam p x).poison = s.poison := rfl
@[simp] theorem State.setTeam_flips (s : State) (p : Nat) (x : Team) : (s.setTeam p x).flips = s.flips := rfl
@[simp] theorem State.setTeam_locks (s : State) (p : Nat) (x : Team) : (s.setTeam p x).locks = s.locks := rfl
@[simp] theorem State.setTeam_chips (s : State) (p : Nat) (x : Team) : (s.setTeam p x).chips = s.chips := rfl
@[simp] theorem State.setTeam_launches (s : State) (p : Nat) (x : Team) : (s.setTeam p x).launches = s.launches := rfl
@[simp] theorem State.setTeam_sheaves (s : State) (p : Nat) (x : Team) : (s.setTeam p x).sheaves = s.sheaves := rfl
@[simp] theorem State.setTeam_images (s : State) (p : Nat) (x : Team) : (s.setTeam p x).images = s.images := rfl
@[simp] theorem State.setTeam_orphans (s : State) (p : Nat) (x : Team) : (s.setTeam p x).orphans = s.orphans := rfl
@[simp] theorem State.setTeam_messages (s : State) (p : Nat) (x : Team) : (s.setTeam p x).messages = s.messages := rfl
@[simp] theorem State.setTeam_farCommands (s : State) (p : Nat) (x : Team) : (s.setTeam p x).farCommands = s.farCommands := rfl
@[simp] theorem State.setTeam_hub (s : State) (p : Nat) (x : Team) : (s.setTeam p x).hub = s.hub := rfl
@[simp] theorem State.setTeam_outbox (s : State) (p : Nat) (x : Team) : (s.setTeam p x).outbox = s.outbox := rfl

/-! ### modTeam -/

@[simp] theorem State.modTeam_now (s : State) (p : Nat) (f : Team → Team) : (s.modTeam p f).now = s.now := rfl
@[simp] theorem State.modTeam_turn (s : State) (p : Nat) (f : Team → Team) : (s.modTeam p f).turn = s.turn := rfl
@[simp] theorem State.modTeam_cycleAcc (s : State) (p : Nat) (f : Team → Team) : (s.modTeam p f).cycleAcc = s.cycleAcc := rfl
@[simp] theorem State.modTeam_freeSeed (s : State) (p : Nat) (f : Team → Team) : (s.modTeam p f).freeSeed = s.freeSeed := rfl
@[simp] theorem State.modTeam_issue (s : State) (p : Nat) (f : Team → Team) : (s.modTeam p f).issue = s.issue := rfl
@[simp] theorem State.modTeam_mem (s : State) (p : Nat) (f : Team → Team) : (s.modTeam p f).mem = s.mem := rfl
@[simp] theorem State.modTeam_hostSectors (s : State) (p : Nat) (f : Team → Team) : (s.modTeam p f).hostSectors = s.hostSectors := rfl
@[simp] theorem State.modTeam_l2 (s : State) (p : Nat) (f : Team → Team) : (s.modTeam p f).l2 = s.l2 := rfl
@[simp] theorem State.modTeam_l2Tags (s : State) (p : Nat) (f : Team → Team) : (s.modTeam p f).l2Tags = s.l2Tags := rfl
@[simp] theorem State.modTeam_tensorLines (s : State) (p : Nat) (f : Team → Team) : (s.modTeam p f).tensorLines = s.tensorLines := rfl
@[simp] theorem State.modTeam_owners (s : State) (p : Nat) (f : Team → Team) : (s.modTeam p f).owners = s.owners := rfl
@[simp] theorem State.modTeam_redEntries (s : State) (p : Nat) (f : Team → Team) : (s.modTeam p f).redEntries = s.redEntries := rfl
@[simp] theorem State.modTeam_poison (s : State) (p : Nat) (f : Team → Team) : (s.modTeam p f).poison = s.poison := rfl
@[simp] theorem State.modTeam_flips (s : State) (p : Nat) (f : Team → Team) : (s.modTeam p f).flips = s.flips := rfl
@[simp] theorem State.modTeam_locks (s : State) (p : Nat) (f : Team → Team) : (s.modTeam p f).locks = s.locks := rfl
@[simp] theorem State.modTeam_chips (s : State) (p : Nat) (f : Team → Team) : (s.modTeam p f).chips = s.chips := rfl
@[simp] theorem State.modTeam_launches (s : State) (p : Nat) (f : Team → Team) : (s.modTeam p f).launches = s.launches := rfl
@[simp] theorem State.modTeam_sheaves (s : State) (p : Nat) (f : Team → Team) : (s.modTeam p f).sheaves = s.sheaves := rfl
@[simp] theorem State.modTeam_images (s : State) (p : Nat) (f : Team → Team) : (s.modTeam p f).images = s.images := rfl
@[simp] theorem State.modTeam_orphans (s : State) (p : Nat) (f : Team → Team) : (s.modTeam p f).orphans = s.orphans := rfl
@[simp] theorem State.modTeam_messages (s : State) (p : Nat) (f : Team → Team) : (s.modTeam p f).messages = s.messages := rfl
@[simp] theorem State.modTeam_farCommands (s : State) (p : Nat) (f : Team → Team) : (s.modTeam p f).farCommands = s.farCommands := rfl
@[simp] theorem State.modTeam_hub (s : State) (p : Nat) (f : Team → Team) : (s.modTeam p f).hub = s.hub := rfl
@[simp] theorem State.modTeam_outbox (s : State) (p : Nat) (f : Team → Team) : (s.modTeam p f).outbox = s.outbox := rfl

/-! ### setCtx -/

@[simp] theorem State.setCtx_now (s : State) (p k : Nat) (x : Ctx) : (s.setCtx p k x).now = s.now := rfl
@[simp] theorem State.setCtx_turn (s : State) (p k : Nat) (x : Ctx) : (s.setCtx p k x).turn = s.turn := rfl
@[simp] theorem State.setCtx_cycleAcc (s : State) (p k : Nat) (x : Ctx) : (s.setCtx p k x).cycleAcc = s.cycleAcc := rfl
@[simp] theorem State.setCtx_freeSeed (s : State) (p k : Nat) (x : Ctx) : (s.setCtx p k x).freeSeed = s.freeSeed := rfl
@[simp] theorem State.setCtx_issue (s : State) (p k : Nat) (x : Ctx) : (s.setCtx p k x).issue = s.issue := rfl
@[simp] theorem State.setCtx_mem (s : State) (p k : Nat) (x : Ctx) : (s.setCtx p k x).mem = s.mem := rfl
@[simp] theorem State.setCtx_hostSectors (s : State) (p k : Nat) (x : Ctx) : (s.setCtx p k x).hostSectors = s.hostSectors := rfl
@[simp] theorem State.setCtx_l2 (s : State) (p k : Nat) (x : Ctx) : (s.setCtx p k x).l2 = s.l2 := rfl
@[simp] theorem State.setCtx_l2Tags (s : State) (p k : Nat) (x : Ctx) : (s.setCtx p k x).l2Tags = s.l2Tags := rfl
@[simp] theorem State.setCtx_tensorLines (s : State) (p k : Nat) (x : Ctx) : (s.setCtx p k x).tensorLines = s.tensorLines := rfl
@[simp] theorem State.setCtx_owners (s : State) (p k : Nat) (x : Ctx) : (s.setCtx p k x).owners = s.owners := rfl
@[simp] theorem State.setCtx_redEntries (s : State) (p k : Nat) (x : Ctx) : (s.setCtx p k x).redEntries = s.redEntries := rfl
@[simp] theorem State.setCtx_poison (s : State) (p k : Nat) (x : Ctx) : (s.setCtx p k x).poison = s.poison := rfl
@[simp] theorem State.setCtx_flips (s : State) (p k : Nat) (x : Ctx) : (s.setCtx p k x).flips = s.flips := rfl
@[simp] theorem State.setCtx_locks (s : State) (p k : Nat) (x : Ctx) : (s.setCtx p k x).locks = s.locks := rfl
@[simp] theorem State.setCtx_chips (s : State) (p k : Nat) (x : Ctx) : (s.setCtx p k x).chips = s.chips := rfl
@[simp] theorem State.setCtx_launches (s : State) (p k : Nat) (x : Ctx) : (s.setCtx p k x).launches = s.launches := rfl
@[simp] theorem State.setCtx_sheaves (s : State) (p k : Nat) (x : Ctx) : (s.setCtx p k x).sheaves = s.sheaves := rfl
@[simp] theorem State.setCtx_images (s : State) (p k : Nat) (x : Ctx) : (s.setCtx p k x).images = s.images := rfl
@[simp] theorem State.setCtx_orphans (s : State) (p k : Nat) (x : Ctx) : (s.setCtx p k x).orphans = s.orphans := rfl
@[simp] theorem State.setCtx_messages (s : State) (p k : Nat) (x : Ctx) : (s.setCtx p k x).messages = s.messages := rfl
@[simp] theorem State.setCtx_farCommands (s : State) (p k : Nat) (x : Ctx) : (s.setCtx p k x).farCommands = s.farCommands := rfl
@[simp] theorem State.setCtx_hub (s : State) (p k : Nat) (x : Ctx) : (s.setCtx p k x).hub = s.hub := rfl
@[simp] theorem State.setCtx_outbox (s : State) (p k : Nat) (x : Ctx) : (s.setCtx p k x).outbox = s.outbox := rfl

/-! ### modCtx -/

@[simp] theorem State.modCtx_now (s : State) (p k : Nat) (f : Ctx → Ctx) : (s.modCtx p k f).now = s.now := rfl
@[simp] theorem State.modCtx_turn (s : State) (p k : Nat) (f : Ctx → Ctx) : (s.modCtx p k f).turn = s.turn := rfl
@[simp] theorem State.modCtx_cycleAcc (s : State) (p k : Nat) (f : Ctx → Ctx) : (s.modCtx p k f).cycleAcc = s.cycleAcc := rfl
@[simp] theorem State.modCtx_freeSeed (s : State) (p k : Nat) (f : Ctx → Ctx) : (s.modCtx p k f).freeSeed = s.freeSeed := rfl
@[simp] theorem State.modCtx_issue (s : State) (p k : Nat) (f : Ctx → Ctx) : (s.modCtx p k f).issue = s.issue := rfl
@[simp] theorem State.modCtx_mem (s : State) (p k : Nat) (f : Ctx → Ctx) : (s.modCtx p k f).mem = s.mem := rfl
@[simp] theorem State.modCtx_hostSectors (s : State) (p k : Nat) (f : Ctx → Ctx) : (s.modCtx p k f).hostSectors = s.hostSectors := rfl
@[simp] theorem State.modCtx_l2 (s : State) (p k : Nat) (f : Ctx → Ctx) : (s.modCtx p k f).l2 = s.l2 := rfl
@[simp] theorem State.modCtx_l2Tags (s : State) (p k : Nat) (f : Ctx → Ctx) : (s.modCtx p k f).l2Tags = s.l2Tags := rfl
@[simp] theorem State.modCtx_tensorLines (s : State) (p k : Nat) (f : Ctx → Ctx) : (s.modCtx p k f).tensorLines = s.tensorLines := rfl
@[simp] theorem State.modCtx_owners (s : State) (p k : Nat) (f : Ctx → Ctx) : (s.modCtx p k f).owners = s.owners := rfl
@[simp] theorem State.modCtx_redEntries (s : State) (p k : Nat) (f : Ctx → Ctx) : (s.modCtx p k f).redEntries = s.redEntries := rfl
@[simp] theorem State.modCtx_poison (s : State) (p k : Nat) (f : Ctx → Ctx) : (s.modCtx p k f).poison = s.poison := rfl
@[simp] theorem State.modCtx_flips (s : State) (p k : Nat) (f : Ctx → Ctx) : (s.modCtx p k f).flips = s.flips := rfl
@[simp] theorem State.modCtx_locks (s : State) (p k : Nat) (f : Ctx → Ctx) : (s.modCtx p k f).locks = s.locks := rfl
@[simp] theorem State.modCtx_chips (s : State) (p k : Nat) (f : Ctx → Ctx) : (s.modCtx p k f).chips = s.chips := rfl
@[simp] theorem State.modCtx_launches (s : State) (p k : Nat) (f : Ctx → Ctx) : (s.modCtx p k f).launches = s.launches := rfl
@[simp] theorem State.modCtx_sheaves (s : State) (p k : Nat) (f : Ctx → Ctx) : (s.modCtx p k f).sheaves = s.sheaves := rfl
@[simp] theorem State.modCtx_images (s : State) (p k : Nat) (f : Ctx → Ctx) : (s.modCtx p k f).images = s.images := rfl
@[simp] theorem State.modCtx_orphans (s : State) (p k : Nat) (f : Ctx → Ctx) : (s.modCtx p k f).orphans = s.orphans := rfl
@[simp] theorem State.modCtx_messages (s : State) (p k : Nat) (f : Ctx → Ctx) : (s.modCtx p k f).messages = s.messages := rfl
@[simp] theorem State.modCtx_farCommands (s : State) (p k : Nat) (f : Ctx → Ctx) : (s.modCtx p k f).farCommands = s.farCommands := rfl
@[simp] theorem State.modCtx_hub (s : State) (p k : Nat) (f : Ctx → Ctx) : (s.modCtx p k f).hub = s.hub := rfl
@[simp] theorem State.modCtx_outbox (s : State) (p k : Nat) (f : Ctx → Ctx) : (s.modCtx p k f).outbox = s.outbox := rfl

/-! ### setCur -/

@[simp] theorem State.setCur_now (s : State) (x : Ctx) : (s.setCur x).now = s.now := rfl
@[simp] theorem State.setCur_turn (s : State) (x : Ctx) : (s.setCur x).turn = s.turn := rfl
@[simp] theorem State.setCur_cycleAcc (s : State) (x : Ctx) : (s.setCur x).cycleAcc = s.cycleAcc := rfl
@[simp] theorem State.setCur_freeSeed (s : State) (x : Ctx) : (s.setCur x).freeSeed = s.freeSeed := rfl
@[simp] theorem State.setCur_issue (s : State) (x : Ctx) : (s.setCur x).issue = s.issue := rfl
@[simp] theorem State.setCur_mem (s : State) (x : Ctx) : (s.setCur x).mem = s.mem := rfl
@[simp] theorem State.setCur_hostSectors (s : State) (x : Ctx) : (s.setCur x).hostSectors = s.hostSectors := rfl
@[simp] theorem State.setCur_l2 (s : State) (x : Ctx) : (s.setCur x).l2 = s.l2 := rfl
@[simp] theorem State.setCur_l2Tags (s : State) (x : Ctx) : (s.setCur x).l2Tags = s.l2Tags := rfl
@[simp] theorem State.setCur_tensorLines (s : State) (x : Ctx) : (s.setCur x).tensorLines = s.tensorLines := rfl
@[simp] theorem State.setCur_owners (s : State) (x : Ctx) : (s.setCur x).owners = s.owners := rfl
@[simp] theorem State.setCur_redEntries (s : State) (x : Ctx) : (s.setCur x).redEntries = s.redEntries := rfl
@[simp] theorem State.setCur_poison (s : State) (x : Ctx) : (s.setCur x).poison = s.poison := rfl
@[simp] theorem State.setCur_flips (s : State) (x : Ctx) : (s.setCur x).flips = s.flips := rfl
@[simp] theorem State.setCur_locks (s : State) (x : Ctx) : (s.setCur x).locks = s.locks := rfl
@[simp] theorem State.setCur_chips (s : State) (x : Ctx) : (s.setCur x).chips = s.chips := rfl
@[simp] theorem State.setCur_launches (s : State) (x : Ctx) : (s.setCur x).launches = s.launches := rfl
@[simp] theorem State.setCur_sheaves (s : State) (x : Ctx) : (s.setCur x).sheaves = s.sheaves := rfl
@[simp] theorem State.setCur_images (s : State) (x : Ctx) : (s.setCur x).images = s.images := rfl
@[simp] theorem State.setCur_orphans (s : State) (x : Ctx) : (s.setCur x).orphans = s.orphans := rfl
@[simp] theorem State.setCur_messages (s : State) (x : Ctx) : (s.setCur x).messages = s.messages := rfl
@[simp] theorem State.setCur_farCommands (s : State) (x : Ctx) : (s.setCur x).farCommands = s.farCommands := rfl
@[simp] theorem State.setCur_hub (s : State) (x : Ctx) : (s.setCur x).hub = s.hub := rfl
@[simp] theorem State.setCur_outbox (s : State) (x : Ctx) : (s.setCur x).outbox = s.outbox := rfl

/-! ### setChip -/

@[simp] theorem State.setChip_now (s : State) (n : Nat) (x : Chip) : (s.setChip n x).now = s.now := rfl
@[simp] theorem State.setChip_turn (s : State) (n : Nat) (x : Chip) : (s.setChip n x).turn = s.turn := rfl
@[simp] theorem State.setChip_cycleAcc (s : State) (n : Nat) (x : Chip) : (s.setChip n x).cycleAcc = s.cycleAcc := rfl
@[simp] theorem State.setChip_freeSeed (s : State) (n : Nat) (x : Chip) : (s.setChip n x).freeSeed = s.freeSeed := rfl
@[simp] theorem State.setChip_issue (s : State) (n : Nat) (x : Chip) : (s.setChip n x).issue = s.issue := rfl
@[simp] theorem State.setChip_mem (s : State) (n : Nat) (x : Chip) : (s.setChip n x).mem = s.mem := rfl
@[simp] theorem State.setChip_hostSectors (s : State) (n : Nat) (x : Chip) : (s.setChip n x).hostSectors = s.hostSectors := rfl
@[simp] theorem State.setChip_l2 (s : State) (n : Nat) (x : Chip) : (s.setChip n x).l2 = s.l2 := rfl
@[simp] theorem State.setChip_l2Tags (s : State) (n : Nat) (x : Chip) : (s.setChip n x).l2Tags = s.l2Tags := rfl
@[simp] theorem State.setChip_tensorLines (s : State) (n : Nat) (x : Chip) : (s.setChip n x).tensorLines = s.tensorLines := rfl
@[simp] theorem State.setChip_owners (s : State) (n : Nat) (x : Chip) : (s.setChip n x).owners = s.owners := rfl
@[simp] theorem State.setChip_redEntries (s : State) (n : Nat) (x : Chip) : (s.setChip n x).redEntries = s.redEntries := rfl
@[simp] theorem State.setChip_poison (s : State) (n : Nat) (x : Chip) : (s.setChip n x).poison = s.poison := rfl
@[simp] theorem State.setChip_flips (s : State) (n : Nat) (x : Chip) : (s.setChip n x).flips = s.flips := rfl
@[simp] theorem State.setChip_locks (s : State) (n : Nat) (x : Chip) : (s.setChip n x).locks = s.locks := rfl
@[simp] theorem State.setChip_cores (s : State) (n : Nat) (x : Chip) : (s.setChip n x).cores = s.cores := rfl
@[simp] theorem State.setChip_launches (s : State) (n : Nat) (x : Chip) : (s.setChip n x).launches = s.launches := rfl
@[simp] theorem State.setChip_sheaves (s : State) (n : Nat) (x : Chip) : (s.setChip n x).sheaves = s.sheaves := rfl
@[simp] theorem State.setChip_images (s : State) (n : Nat) (x : Chip) : (s.setChip n x).images = s.images := rfl
@[simp] theorem State.setChip_orphans (s : State) (n : Nat) (x : Chip) : (s.setChip n x).orphans = s.orphans := rfl
@[simp] theorem State.setChip_messages (s : State) (n : Nat) (x : Chip) : (s.setChip n x).messages = s.messages := rfl
@[simp] theorem State.setChip_farCommands (s : State) (n : Nat) (x : Chip) : (s.setChip n x).farCommands = s.farCommands := rfl
@[simp] theorem State.setChip_hub (s : State) (n : Nat) (x : Chip) : (s.setChip n x).hub = s.hub := rfl
@[simp] theorem State.setChip_outbox (s : State) (n : Nat) (x : Chip) : (s.setChip n x).outbox = s.outbox := rfl

/-! ### setLaunch -/

@[simp] theorem State.setLaunch_now (s : State) (n : Nat) (x : Option Launch) : (s.setLaunch n x).now = s.now := rfl
@[simp] theorem State.setLaunch_turn (s : State) (n : Nat) (x : Option Launch) : (s.setLaunch n x).turn = s.turn := rfl
@[simp] theorem State.setLaunch_cycleAcc (s : State) (n : Nat) (x : Option Launch) : (s.setLaunch n x).cycleAcc = s.cycleAcc := rfl
@[simp] theorem State.setLaunch_freeSeed (s : State) (n : Nat) (x : Option Launch) : (s.setLaunch n x).freeSeed = s.freeSeed := rfl
@[simp] theorem State.setLaunch_issue (s : State) (n : Nat) (x : Option Launch) : (s.setLaunch n x).issue = s.issue := rfl
@[simp] theorem State.setLaunch_mem (s : State) (n : Nat) (x : Option Launch) : (s.setLaunch n x).mem = s.mem := rfl
@[simp] theorem State.setLaunch_hostSectors (s : State) (n : Nat) (x : Option Launch) : (s.setLaunch n x).hostSectors = s.hostSectors := rfl
@[simp] theorem State.setLaunch_l2 (s : State) (n : Nat) (x : Option Launch) : (s.setLaunch n x).l2 = s.l2 := rfl
@[simp] theorem State.setLaunch_l2Tags (s : State) (n : Nat) (x : Option Launch) : (s.setLaunch n x).l2Tags = s.l2Tags := rfl
@[simp] theorem State.setLaunch_tensorLines (s : State) (n : Nat) (x : Option Launch) : (s.setLaunch n x).tensorLines = s.tensorLines := rfl
@[simp] theorem State.setLaunch_owners (s : State) (n : Nat) (x : Option Launch) : (s.setLaunch n x).owners = s.owners := rfl
@[simp] theorem State.setLaunch_redEntries (s : State) (n : Nat) (x : Option Launch) : (s.setLaunch n x).redEntries = s.redEntries := rfl
@[simp] theorem State.setLaunch_poison (s : State) (n : Nat) (x : Option Launch) : (s.setLaunch n x).poison = s.poison := rfl
@[simp] theorem State.setLaunch_flips (s : State) (n : Nat) (x : Option Launch) : (s.setLaunch n x).flips = s.flips := rfl
@[simp] theorem State.setLaunch_locks (s : State) (n : Nat) (x : Option Launch) : (s.setLaunch n x).locks = s.locks := rfl
@[simp] theorem State.setLaunch_cores (s : State) (n : Nat) (x : Option Launch) : (s.setLaunch n x).cores = s.cores := rfl
@[simp] theorem State.setLaunch_chips (s : State) (n : Nat) (x : Option Launch) : (s.setLaunch n x).chips = s.chips := rfl
@[simp] theorem State.setLaunch_sheaves (s : State) (n : Nat) (x : Option Launch) : (s.setLaunch n x).sheaves = s.sheaves := rfl
@[simp] theorem State.setLaunch_images (s : State) (n : Nat) (x : Option Launch) : (s.setLaunch n x).images = s.images := rfl
@[simp] theorem State.setLaunch_orphans (s : State) (n : Nat) (x : Option Launch) : (s.setLaunch n x).orphans = s.orphans := rfl
@[simp] theorem State.setLaunch_messages (s : State) (n : Nat) (x : Option Launch) : (s.setLaunch n x).messages = s.messages := rfl
@[simp] theorem State.setLaunch_farCommands (s : State) (n : Nat) (x : Option Launch) : (s.setLaunch n x).farCommands = s.farCommands := rfl
@[simp] theorem State.setLaunch_hub (s : State) (n : Nat) (x : Option Launch) : (s.setLaunch n x).hub = s.hub := rfl
@[simp] theorem State.setLaunch_outbox (s : State) (n : Nat) (x : Option Launch) : (s.setLaunch n x).outbox = s.outbox := rfl

/-! ### setRemap -/

@[simp] theorem State.setRemap_now (s : State) (n : Nat) (x : Remap) : (s.setRemap n x).now = s.now := rfl
@[simp] theorem State.setRemap_turn (s : State) (n : Nat) (x : Remap) : (s.setRemap n x).turn = s.turn := rfl
@[simp] theorem State.setRemap_cycleAcc (s : State) (n : Nat) (x : Remap) : (s.setRemap n x).cycleAcc = s.cycleAcc := rfl
@[simp] theorem State.setRemap_freeSeed (s : State) (n : Nat) (x : Remap) : (s.setRemap n x).freeSeed = s.freeSeed := rfl
@[simp] theorem State.setRemap_issue (s : State) (n : Nat) (x : Remap) : (s.setRemap n x).issue = s.issue := rfl
@[simp] theorem State.setRemap_mem (s : State) (n : Nat) (x : Remap) : (s.setRemap n x).mem = s.mem := rfl
@[simp] theorem State.setRemap_hostSectors (s : State) (n : Nat) (x : Remap) : (s.setRemap n x).hostSectors = s.hostSectors := rfl
@[simp] theorem State.setRemap_l2 (s : State) (n : Nat) (x : Remap) : (s.setRemap n x).l2 = s.l2 := rfl
@[simp] theorem State.setRemap_l2Tags (s : State) (n : Nat) (x : Remap) : (s.setRemap n x).l2Tags = s.l2Tags := rfl
@[simp] theorem State.setRemap_tensorLines (s : State) (n : Nat) (x : Remap) : (s.setRemap n x).tensorLines = s.tensorLines := rfl
@[simp] theorem State.setRemap_owners (s : State) (n : Nat) (x : Remap) : (s.setRemap n x).owners = s.owners := rfl
@[simp] theorem State.setRemap_redEntries (s : State) (n : Nat) (x : Remap) : (s.setRemap n x).redEntries = s.redEntries := rfl
@[simp] theorem State.setRemap_poison (s : State) (n : Nat) (x : Remap) : (s.setRemap n x).poison = s.poison := rfl
@[simp] theorem State.setRemap_flips (s : State) (n : Nat) (x : Remap) : (s.setRemap n x).flips = s.flips := rfl
@[simp] theorem State.setRemap_locks (s : State) (n : Nat) (x : Remap) : (s.setRemap n x).locks = s.locks := rfl
@[simp] theorem State.setRemap_cores (s : State) (n : Nat) (x : Remap) : (s.setRemap n x).cores = s.cores := rfl
@[simp] theorem State.setRemap_chips (s : State) (n : Nat) (x : Remap) : (s.setRemap n x).chips = s.chips := rfl
@[simp] theorem State.setRemap_launches (s : State) (n : Nat) (x : Remap) : (s.setRemap n x).launches = s.launches := rfl
@[simp] theorem State.setRemap_sheaves (s : State) (n : Nat) (x : Remap) : (s.setRemap n x).sheaves = s.sheaves := rfl
@[simp] theorem State.setRemap_images (s : State) (n : Nat) (x : Remap) : (s.setRemap n x).images = s.images := rfl
@[simp] theorem State.setRemap_orphans (s : State) (n : Nat) (x : Remap) : (s.setRemap n x).orphans = s.orphans := rfl
@[simp] theorem State.setRemap_messages (s : State) (n : Nat) (x : Remap) : (s.setRemap n x).messages = s.messages := rfl
@[simp] theorem State.setRemap_farCommands (s : State) (n : Nat) (x : Remap) : (s.setRemap n x).farCommands = s.farCommands := rfl
@[simp] theorem State.setRemap_outbox (s : State) (n : Nat) (x : Remap) : (s.setRemap n x).outbox = s.outbox := rfl

/-! ### setQueueReg -/

@[simp] theorem State.setQueueReg_now (s : State) (n : Nat) (x : LaunchQueue) : (s.setQueueReg n x).now = s.now := rfl
@[simp] theorem State.setQueueReg_turn (s : State) (n : Nat) (x : LaunchQueue) : (s.setQueueReg n x).turn = s.turn := rfl
@[simp] theorem State.setQueueReg_cycleAcc (s : State) (n : Nat) (x : LaunchQueue) : (s.setQueueReg n x).cycleAcc = s.cycleAcc := rfl
@[simp] theorem State.setQueueReg_freeSeed (s : State) (n : Nat) (x : LaunchQueue) : (s.setQueueReg n x).freeSeed = s.freeSeed := rfl
@[simp] theorem State.setQueueReg_issue (s : State) (n : Nat) (x : LaunchQueue) : (s.setQueueReg n x).issue = s.issue := rfl
@[simp] theorem State.setQueueReg_mem (s : State) (n : Nat) (x : LaunchQueue) : (s.setQueueReg n x).mem = s.mem := rfl
@[simp] theorem State.setQueueReg_hostSectors (s : State) (n : Nat) (x : LaunchQueue) : (s.setQueueReg n x).hostSectors = s.hostSectors := rfl
@[simp] theorem State.setQueueReg_l2 (s : State) (n : Nat) (x : LaunchQueue) : (s.setQueueReg n x).l2 = s.l2 := rfl
@[simp] theorem State.setQueueReg_l2Tags (s : State) (n : Nat) (x : LaunchQueue) : (s.setQueueReg n x).l2Tags = s.l2Tags := rfl
@[simp] theorem State.setQueueReg_tensorLines (s : State) (n : Nat) (x : LaunchQueue) : (s.setQueueReg n x).tensorLines = s.tensorLines := rfl
@[simp] theorem State.setQueueReg_owners (s : State) (n : Nat) (x : LaunchQueue) : (s.setQueueReg n x).owners = s.owners := rfl
@[simp] theorem State.setQueueReg_redEntries (s : State) (n : Nat) (x : LaunchQueue) : (s.setQueueReg n x).redEntries = s.redEntries := rfl
@[simp] theorem State.setQueueReg_poison (s : State) (n : Nat) (x : LaunchQueue) : (s.setQueueReg n x).poison = s.poison := rfl
@[simp] theorem State.setQueueReg_flips (s : State) (n : Nat) (x : LaunchQueue) : (s.setQueueReg n x).flips = s.flips := rfl
@[simp] theorem State.setQueueReg_locks (s : State) (n : Nat) (x : LaunchQueue) : (s.setQueueReg n x).locks = s.locks := rfl
@[simp] theorem State.setQueueReg_cores (s : State) (n : Nat) (x : LaunchQueue) : (s.setQueueReg n x).cores = s.cores := rfl
@[simp] theorem State.setQueueReg_chips (s : State) (n : Nat) (x : LaunchQueue) : (s.setQueueReg n x).chips = s.chips := rfl
@[simp] theorem State.setQueueReg_launches (s : State) (n : Nat) (x : LaunchQueue) : (s.setQueueReg n x).launches = s.launches := rfl
@[simp] theorem State.setQueueReg_sheaves (s : State) (n : Nat) (x : LaunchQueue) : (s.setQueueReg n x).sheaves = s.sheaves := rfl
@[simp] theorem State.setQueueReg_images (s : State) (n : Nat) (x : LaunchQueue) : (s.setQueueReg n x).images = s.images := rfl
@[simp] theorem State.setQueueReg_orphans (s : State) (n : Nat) (x : LaunchQueue) : (s.setQueueReg n x).orphans = s.orphans := rfl
@[simp] theorem State.setQueueReg_messages (s : State) (n : Nat) (x : LaunchQueue) : (s.setQueueReg n x).messages = s.messages := rfl
@[simp] theorem State.setQueueReg_farCommands (s : State) (n : Nat) (x : LaunchQueue) : (s.setQueueReg n x).farCommands = s.farCommands := rfl
@[simp] theorem State.setQueueReg_outbox (s : State) (n : Nat) (x : LaunchQueue) : (s.setQueueReg n x).outbox = s.outbox := rfl

/-! ### emit -/

@[simp] theorem State.emit_now (s : State) (o : Outgoing) : (s.emit o).now = s.now := rfl
@[simp] theorem State.emit_turn (s : State) (o : Outgoing) : (s.emit o).turn = s.turn := rfl
@[simp] theorem State.emit_cycleAcc (s : State) (o : Outgoing) : (s.emit o).cycleAcc = s.cycleAcc := rfl
@[simp] theorem State.emit_freeSeed (s : State) (o : Outgoing) : (s.emit o).freeSeed = s.freeSeed := rfl
@[simp] theorem State.emit_issue (s : State) (o : Outgoing) : (s.emit o).issue = s.issue := rfl
@[simp] theorem State.emit_mem (s : State) (o : Outgoing) : (s.emit o).mem = s.mem := rfl
@[simp] theorem State.emit_hostSectors (s : State) (o : Outgoing) : (s.emit o).hostSectors = s.hostSectors := rfl
@[simp] theorem State.emit_l2 (s : State) (o : Outgoing) : (s.emit o).l2 = s.l2 := rfl
@[simp] theorem State.emit_l2Tags (s : State) (o : Outgoing) : (s.emit o).l2Tags = s.l2Tags := rfl
@[simp] theorem State.emit_tensorLines (s : State) (o : Outgoing) : (s.emit o).tensorLines = s.tensorLines := rfl
@[simp] theorem State.emit_owners (s : State) (o : Outgoing) : (s.emit o).owners = s.owners := rfl
@[simp] theorem State.emit_redEntries (s : State) (o : Outgoing) : (s.emit o).redEntries = s.redEntries := rfl
@[simp] theorem State.emit_poison (s : State) (o : Outgoing) : (s.emit o).poison = s.poison := rfl
@[simp] theorem State.emit_flips (s : State) (o : Outgoing) : (s.emit o).flips = s.flips := rfl
@[simp] theorem State.emit_locks (s : State) (o : Outgoing) : (s.emit o).locks = s.locks := rfl
@[simp] theorem State.emit_cores (s : State) (o : Outgoing) : (s.emit o).cores = s.cores := rfl
@[simp] theorem State.emit_chips (s : State) (o : Outgoing) : (s.emit o).chips = s.chips := rfl
@[simp] theorem State.emit_launches (s : State) (o : Outgoing) : (s.emit o).launches = s.launches := rfl
@[simp] theorem State.emit_sheaves (s : State) (o : Outgoing) : (s.emit o).sheaves = s.sheaves := rfl
@[simp] theorem State.emit_images (s : State) (o : Outgoing) : (s.emit o).images = s.images := rfl
@[simp] theorem State.emit_orphans (s : State) (o : Outgoing) : (s.emit o).orphans = s.orphans := rfl
@[simp] theorem State.emit_messages (s : State) (o : Outgoing) : (s.emit o).messages = s.messages := rfl
@[simp] theorem State.emit_farCommands (s : State) (o : Outgoing) : (s.emit o).farCommands = s.farCommands := rfl
@[simp] theorem State.emit_hub (s : State) (o : Outgoing) : (s.emit o).hub = s.hub := rfl

/-! ### tick -/

@[simp] theorem State.tick_turn (s : State) (n : Nat) : (s.tick n).turn = s.turn := rfl
@[simp] theorem State.tick_freeSeed (s : State) (n : Nat) : (s.tick n).freeSeed = s.freeSeed := rfl
@[simp] theorem State.tick_issue (s : State) (n : Nat) : (s.tick n).issue = s.issue := rfl
@[simp] theorem State.tick_mem (s : State) (n : Nat) : (s.tick n).mem = s.mem := rfl
@[simp] theorem State.tick_hostSectors (s : State) (n : Nat) : (s.tick n).hostSectors = s.hostSectors := rfl
@[simp] theorem State.tick_l2 (s : State) (n : Nat) : (s.tick n).l2 = s.l2 := rfl
@[simp] theorem State.tick_l2Tags (s : State) (n : Nat) : (s.tick n).l2Tags = s.l2Tags := rfl
@[simp] theorem State.tick_tensorLines (s : State) (n : Nat) : (s.tick n).tensorLines = s.tensorLines := rfl
@[simp] theorem State.tick_owners (s : State) (n : Nat) : (s.tick n).owners = s.owners := rfl
@[simp] theorem State.tick_redEntries (s : State) (n : Nat) : (s.tick n).redEntries = s.redEntries := rfl
@[simp] theorem State.tick_poison (s : State) (n : Nat) : (s.tick n).poison = s.poison := rfl
@[simp] theorem State.tick_flips (s : State) (n : Nat) : (s.tick n).flips = s.flips := rfl
@[simp] theorem State.tick_locks (s : State) (n : Nat) : (s.tick n).locks = s.locks := rfl
@[simp] theorem State.tick_cores (s : State) (n : Nat) : (s.tick n).cores = s.cores := rfl
@[simp] theorem State.tick_chips (s : State) (n : Nat) : (s.tick n).chips = s.chips := rfl
@[simp] theorem State.tick_launches (s : State) (n : Nat) : (s.tick n).launches = s.launches := rfl
@[simp] theorem State.tick_sheaves (s : State) (n : Nat) : (s.tick n).sheaves = s.sheaves := rfl
@[simp] theorem State.tick_images (s : State) (n : Nat) : (s.tick n).images = s.images := rfl
@[simp] theorem State.tick_orphans (s : State) (n : Nat) : (s.tick n).orphans = s.orphans := rfl
@[simp] theorem State.tick_messages (s : State) (n : Nat) : (s.tick n).messages = s.messages := rfl
@[simp] theorem State.tick_farCommands (s : State) (n : Nat) : (s.tick n).farCommands = s.farCommands := rfl
@[simp] theorem State.tick_hub (s : State) (n : Nat) : (s.tick n).hub = s.hub := rfl
@[simp] theorem State.tick_outbox (s : State) (n : Nat) : (s.tick n).outbox = s.outbox := rfl

/-! ### draw -/

@[simp] theorem State.draw_now (s : State) : (s.draw).now = s.now := rfl
@[simp] theorem State.draw_turn (s : State) : (s.draw).turn = s.turn := rfl
@[simp] theorem State.draw_cycleAcc (s : State) : (s.draw).cycleAcc = s.cycleAcc := rfl
@[simp] theorem State.draw_issue (s : State) : (s.draw).issue = s.issue := rfl
@[simp] theorem State.draw_mem (s : State) : (s.draw).mem = s.mem := rfl
@[simp] theorem State.draw_hostSectors (s : State) : (s.draw).hostSectors = s.hostSectors := rfl
@[simp] theorem State.draw_l2 (s : State) : (s.draw).l2 = s.l2 := rfl
@[simp] theorem State.draw_l2Tags (s : State) : (s.draw).l2Tags = s.l2Tags := rfl
@[simp] theorem State.draw_tensorLines (s : State) : (s.draw).tensorLines = s.tensorLines := rfl
@[simp] theorem State.draw_owners (s : State) : (s.draw).owners = s.owners := rfl
@[simp] theorem State.draw_redEntries (s : State) : (s.draw).redEntries = s.redEntries := rfl
@[simp] theorem State.draw_poison (s : State) : (s.draw).poison = s.poison := rfl
@[simp] theorem State.draw_flips (s : State) : (s.draw).flips = s.flips := rfl
@[simp] theorem State.draw_locks (s : State) : (s.draw).locks = s.locks := rfl
@[simp] theorem State.draw_cores (s : State) : (s.draw).cores = s.cores := rfl
@[simp] theorem State.draw_chips (s : State) : (s.draw).chips = s.chips := rfl
@[simp] theorem State.draw_launches (s : State) : (s.draw).launches = s.launches := rfl
@[simp] theorem State.draw_sheaves (s : State) : (s.draw).sheaves = s.sheaves := rfl
@[simp] theorem State.draw_images (s : State) : (s.draw).images = s.images := rfl
@[simp] theorem State.draw_orphans (s : State) : (s.draw).orphans = s.orphans := rfl
@[simp] theorem State.draw_messages (s : State) : (s.draw).messages = s.messages := rfl
@[simp] theorem State.draw_farCommands (s : State) : (s.draw).farCommands = s.farCommands := rfl
@[simp] theorem State.draw_hub (s : State) : (s.draw).hub = s.hub := rfl
@[simp] theorem State.draw_outbox (s : State) : (s.draw).outbox = s.outbox := rfl

/-! ### Values set -/

@[simp] theorem State.setLaunch_launches (s : State) (n : Nat) (x : Option Launch) :
    (s.setLaunch n x).launches = tput s.launches n x := rfl
@[simp] theorem State.setChip_chips (s : State) (n : Nat) (x : Chip) : (s.setChip n x).chips = tput s.chips n x := rfl
@[simp] theorem State.emit_outbox (s : State) (o : Outgoing) : (s.emit o).outbox = s.outbox ++ [o] := rfl
@[simp] theorem State.tick_now (s : State) (n : Nat) : (s.tick n).now = s.now + n := rfl
@[simp] theorem State.draw_freeSeed (s : State) : s.draw.freeSeed = s.freeSeed + 1 := rfl
@[simp] theorem State.setRemap_hub (s : State) (n : Nat) (x : Remap) :
    (s.setRemap n x).hub = { s.hub with remap := tput s.hub.remap n x } := rfl
@[simp] theorem State.setQueueReg_hub (s : State) (n : Nat) (x : LaunchQueue) :
    (s.setQueueReg n x).hub = { s.hub with queues := tput s.hub.queues n x } := rfl

/-! ### Reads after writes -/

@[simp] theorem State.core_setCore_same (s : State) (p : Nat) (x : Core) : (s.setCore p x).core p = x := by
  simp [State.core, State.setCore]

@[simp] theorem State.core_setCore_other (s : State) (p q : Nat) (x : Core) (h : q ≠ p) :
    (s.setCore p x).core q = s.core q := by simp [State.core, State.setCore, h]

@[simp] theorem State.setCore_setCore (s : State) (p : Nat) (x y : Core) :
    (s.setCore p x).setCore p y = s.setCore p y := by simp [State.setCore]

@[simp] theorem State.team_setTeam_same (s : State) (p : Nat) (x : Team) : (s.setTeam p x).team p = x := by
  simp [State.team, State.setTeam]

@[simp] theorem State.core_setTeam_same (s : State) (p : Nat) (x : Team) :
    (s.setTeam p x).core p = { s.core p with team := x } := by simp [State.setTeam]

@[simp] theorem State.core_setTeam_other (s : State) (p q : Nat) (x : Team) (h : q ≠ p) :
    (s.setTeam p x).core q = s.core q := by simp [State.setTeam, h]

@[simp] theorem State.setTeam_setTeam (s : State) (p : Nat) (x y : Team) :
    (s.setTeam p x).setTeam p y = s.setTeam p y := by simp [State.setTeam]

@[simp] theorem Team.ctx_setCtx_same (t : Team) (k : Nat) (x : Ctx) : (t.setCtx k x).ctx k = x := by
  simp [Team.ctx, Team.setCtx]

@[simp] theorem Team.ctx_setCtx_other (t : Team) (k j : Nat) (x : Ctx) (h : j ≠ k) :
    (t.setCtx k x).ctx j = t.ctx j := by simp [Team.ctx, Team.setCtx, h]

@[simp] theorem Team.setCtx_setCtx (t : Team) (k : Nat) (x y : Ctx) : (t.setCtx k x).setCtx k y = t.setCtx k y := by
  simp [Team.setCtx]

@[simp] theorem State.ctx_setCtx_same (s : State) (p k : Nat) (x : Ctx) : (s.setCtx p k x).ctx p k = x := by
  simp [State.ctx, State.setCtx]

@[simp] theorem State.core_setCtx_same (s : State) (p k : Nat) (x : Ctx) :
    (s.setCtx p k x).core p = { s.core p with team := (s.team p).setCtx k x } := by simp [State.setCtx]

@[simp] theorem State.core_setCtx_other (s : State) (p q k : Nat) (x : Ctx) (h : q ≠ p) :
    (s.setCtx p k x).core q = s.core q := by simp [State.setCtx, h]

@[simp] theorem State.team_setCtx_same (s : State) (p k : Nat) (x : Ctx) :
    (s.setCtx p k x).team p = (s.team p).setCtx k x := by simp [State.setCtx]

@[simp] theorem State.setCtx_setCtx (s : State) (p k : Nat) (x y : Ctx) :
    (s.setCtx p k x).setCtx p k y = s.setCtx p k y := by simp [State.setCtx]

@[simp] theorem State.cur_setCur (s : State) (x : Ctx) : (s.setCur x).cur = x := by simp [State.cur, State.setCur]

@[simp] theorem State.setCur_setCur (s : State) (x y : Ctx) : (s.setCur x).setCur y = s.setCur y := by
  simp [State.setCur]

@[simp] theorem Ctx.squeue_setSqueue_same (c : Ctx) (r : Nat) (q : SQueue) : (c.setSqueue r q).squeue r = q := by
  simp [Ctx.squeue, Ctx.setSqueue]

@[simp] theorem Ctx.squeue_setSqueue_other (c : Ctx) (r n : Nat) (q : SQueue) (h : n ≠ r) :
    (c.setSqueue r q).squeue n = c.squeue n := by simp [Ctx.squeue, Ctx.setSqueue, h]

@[simp] theorem Ctx.vqueue_setVqueue_same (c : Ctx) (r : Nat) (q : VQueue) : (c.setVqueue r q).vqueue r = q := by
  simp [Ctx.vqueue, Ctx.setVqueue]

@[simp] theorem Ctx.vqueue_setVqueue_other (c : Ctx) (r n : Nat) (q : VQueue) (h : n ≠ r) :
    (c.setVqueue r q).vqueue n = c.vqueue n := by simp [Ctx.vqueue, Ctx.setVqueue, h]

@[simp] theorem Ctx.cluster_setCluster_same (c : Ctx) (cl : Cluster) (x : ClusterState) :
    Ctx.cluster (Ctx.setCluster c cl x) cl = x := by cases cl <;> rfl

@[simp] theorem Ctx.cluster_setCluster_other (c : Ctx) (cl cl' : Cluster) (x : ClusterState) (h : cl' ≠ cl) :
    Ctx.cluster (Ctx.setCluster c cl x) cl' = Ctx.cluster c cl' := by
  cases cl <;> cases cl' <;> first | rfl | exact absurd rfl h

@[simp] theorem Team.queue_setQueue_same (t : Team) (n : Nat) (q : EngineQueue) : (t.setQueue n q).queue n = q := by
  simp [Team.queue, Team.setQueue]

@[simp] theorem Team.ring_setRing_same (t : Team) (n : Nat) (r : Ring) : (t.setRing n r).ring n = r := by
  simp [Team.ring, Team.setRing]

@[simp] theorem Team.event_setEvent_same (t : Team) (n x : Nat) : (t.setEvent n x).event n = x := by
  simp [Team.event, Team.setEvent]

@[simp] theorem Team.slot_setSlot_same (t : Team) (n : Nat) (o : OpSlot) : (t.setSlot n o).slot n = o := by
  simp [Team.slot, Team.setSlot]

@[simp] theorem State.chip_setChip_same (s : State) (n : Nat) (x : Chip) : (s.setChip n x).chip n = x := by
  simp [State.chip]

@[simp] theorem State.launch_setLaunch_same (s : State) (n : Nat) (x : Option Launch) :
    (s.setLaunch n x).launch n = x := by simp [State.launch]

@[simp] theorem State.queueReg_setQueueReg_same (s : State) (q : Nat) (x : LaunchQueue) :
    (s.setQueueReg q x).queueReg q = x := by simp [State.queueReg]

@[simp] theorem State.remap_setRemap_same (s : State) (l : Nat) (x : Remap) : (s.setRemap l x).remap l = x := by
  simp [State.remap]

end Sys2Proof.Machine
end

