-- ==== Sys2Proof/Laws/Ops.lean ====
section
/-! SUPPORT. What the shared operations of syllables can do: reading sources, settling a write, concluding. -/

namespace Sys2Proof.Machine

/-! ### What a syllable leaves alone -/

theorem Elsewhere.refl (s : State) : Elsewhere s s := by constructor <;> intros <;> rfl

/-- Setting the context at issue leaves everything else. -/
theorem elsewhere_setCur (s : State) (c : Ctx) (x : Issue) : Elsewhere s { s.setCur c with issue := x } := by
  constructor <;> try rfl
  · intro q hq; exact State.core_setCtx_other _ _ _ _ _ hq
  · show (s.setCtx _ _ c).core _ = _
    simp [State.team, State.core, State.setCur, State.setCtx, State.setTeam, State.setCore]
  · show (s.setCtx _ _ c).team _ = _
    simp [Team.setCtx, State.team, State.core, State.setCur, State.setCtx, State.setTeam, State.setCore]
  · intro j hj
    show (s.setCtx _ _ c).ctx _ j = _
    simp only [State.ctx, State.team_setCtx_same, Team.ctx_setCtx_other _ _ _ _ hj]

theorem Elsewhere.trans {s t u : State} (h : Elsewhere s t) (k : Elsewhere t u)
    (hc : t.issue.core = s.issue.core) (hx : t.issue.ctx = s.issue.ctx) : Elsewhere s u := by
  constructor
  all_goals first
    | exact k.now.trans h.now | exact k.turn.trans h.turn | exact k.cycleAcc.trans h.cycleAcc
    | exact k.freeSeed.trans h.freeSeed | exact k.mem.trans h.mem | exact k.hostSectors.trans h.hostSectors
    | exact k.l2.trans h.l2 | exact k.l2Tags.trans h.l2Tags | exact k.tensorLines.trans h.tensorLines
    | exact k.farCommands.trans h.farCommands | exact k.owners.trans h.owners | exact k.redEntries.trans h.redEntries
    | exact k.poison.trans h.poison | exact k.locks.trans h.locks | exact k.chips.trans h.chips
    | exact k.launches.trans h.launches | exact k.sheaves.trans h.sheaves | exact k.images.trans h.images
    | exact k.messages.trans h.messages | exact k.hub.trans h.hub | exact k.outbox.trans h.outbox
    | exact k.flips.trans h.flips | exact k.orphans.trans h.orphans
    | skip
  · intro q hq; rw [k.cores q (by rw [hc]; exact hq), h.cores q hq]
  · have := k.core; rw [hc] at this; rw [this, h.core]
  · have := k.team; rw [hc] at this; rw [this, h.team]
  · intro j hj; have := k.ctxs j (by rw [hx]; exact hj); rw [hc] at this; rw [this, h.ctxs j hj]

/-! ### Reading a source (R187) -/

/-- A read leaves everything but the register it names, and the note of what it popped. -/
structure ReadFrame (s t : State) : Prop where
  elsewhere : Elsewhere s t
  issue : t.issue = { s.issue with popped := t.issue.popped }
  cur : t.cur = { s.cur with scalars := t.cur.scalars, vectors := t.cur.vectors }

theorem ReadFrame.refl (s : State) : ReadFrame s s := ⟨Elsewhere.refl s, rfl, rfl⟩

theorem ReadFrame.trans {s t u : State} (h : ReadFrame s t) (k : ReadFrame t u) : ReadFrame s u := by
  refine ⟨h.elsewhere.trans k.elsewhere (by rw [h.issue]) (by rw [h.issue]), ?_, ?_⟩
  · rw [k.issue, h.issue]
  · rw [k.cur, h.cur]

theorem ReadFrame.freshIssue {s t : State} (h : ReadFrame s t) : t.freshIssue = s.freshIssue := by
  simp only [State.freshIssue]; rw [h.issue]

theorem ReadFrame.cluster {s t : State} (h : ReadFrame s t) : t.issue.cluster = s.issue.cluster := by rw [h.issue]

theorem readFrame_setCur (s : State) (sc : Table SQueue) (ve : Table VQueue) (po : List Popped) :
    ReadFrame s { s.setCur { s.cur with scalars := sc, vectors := ve } with
      issue := { s.issue with popped := po } } := by
  have hc : (State.cur { s.setCur { s.cur with scalars := sc, vectors := ve } with
      issue := { s.issue with popped := po } }) = { s.cur with scalars := sc, vectors := ve } :=
    State.cur_setCur s _
  exact ⟨elsewhere_setCur s _ _, rfl, by rw [hc]⟩

/-- What a scalar source can do: z and ctx change nothing; another register gives its oldest entry and is left as its
mode says. -/
theorem readSrcP_cases {f : Src} {s t : State} {v : W64} {p : Bool} (h : readSrcP f s = .ok ((v, p), t)) :
    (f.reg.toNat = 63 ∧ v = 0 ∧ p = false ∧ t = s) ∨
    (f.reg.toNat = 62 ∧ v = s.ctxWord s.issue.core s.issue.ctx ∧ p = false ∧ t = s) ∨
    (f.reg.toNat ≠ 63 ∧ f.reg.toNat ≠ 62 ∧ (s.cur.squeue f.reg.toNat).cond ≠ .dead ∧
      (s.cur.squeue f.reg.toNat).entries.head? = some (.ready v p) ∧
      t = s.notePopped (s.cur.setSqueue f.reg.toNat ((s.cur.squeue f.reg.toNat).take f.reg.toNat f.mode))
        (popsEntry f.mode) ⟨f.reg.toNat, .ready v p, (s.cur.squeue f.reg.toNat).drop⟩) := by
  simp only [readSrcP, Act.bind_apply, Act.get_apply] at h
  split at h
  · rename_i h63; cases h; exact .inl ⟨h63, rfl, rfl, rfl⟩
  · split at h
    · rename_i h62; cases h; exact .inr (.inl ⟨h62, rfl, rfl, rfl⟩)
    · rename_i h63 h62
      refine .inr (.inr ⟨h63, h62, ?_⟩)
      split at h
      · cases h
      · rename_i hd
        refine ⟨hd, ?_⟩
        cases he : (s.cur.squeue f.reg.toNat).entries with
        | nil => simp [he] at h
        | cons e es =>
          cases e with
          | pending n => simp [he] at h
          | error c w => simp [he] at h
          | ready w q =>
            simp only [he, Act.bind_apply, Act.set_apply, Act.pure_apply, Except.ok.injEq, Prod.mk.injEq] at h
            obtain ⟨⟨rfl, rfl⟩, rfl⟩ := h
            exact ⟨rfl, rfl⟩

theorem notePopped_frame (s : State) (r : Nat) (q : SQueue) (b : Bool) (x : Popped) :
    ReadFrame s (s.notePopped (s.cur.setSqueue r q) b x) := by
  cases b
  · exact readFrame_setCur s (tput s.cur.scalars r q) s.cur.vectors s.issue.popped
  · exact readFrame_setCur s (tput s.cur.scalars r q) s.cur.vectors (s.issue.popped ++ [x])

theorem readSrcP_frame {f : Src} {s t : State} {x : W64 × Bool} (h : readSrcP f s = .ok (x, t)) : ReadFrame s t := by
  obtain ⟨v, p⟩ := x
  rcases readSrcP_cases h with ⟨-, -, -, rfl⟩ | ⟨-, -, -, rfl⟩ | ⟨-, -, -, -, rfl⟩
  · exact ReadFrame.refl _
  · exact ReadFrame.refl _
  · exact notePopped_frame ..

/-- A source that gives a value gives an unpoisoned one. -/
theorem readSrc_ok {f : Src} {s t : State} {v : W64} : readSrc f s = .ok (v, t) ↔ readSrcP f s = .ok ((v, false), t) := by
  simp only [readSrc, Act.bind_apply]
  cases hr : readSrcP f s with
  | error e => simp
  | ok r =>
    obtain ⟨⟨w, p⟩, u⟩ := r
    cases p <;> simp

theorem readSrc_frame {f : Src} {s t : State} {v : W64} (h : readSrc f s = .ok (v, t)) : ReadFrame s t :=
  readSrcP_frame (readSrc_ok.1 h)

/-! ### Settling one write and passing the syllable -/

theorem settleScalar_put (s : State) (cl : Cluster) (d : Dst) (e : SEntry) (h : s.cur.takes cl d = true) :
    ∃ t, settleScalar s cl d e = .ok t ∧ ((d.reg.toNat = 63 ∧ t = s) ∨ t = s.setCur (s.cur.put cl d e)) := by
  by_cases h63 : d.reg.toNat = 63
  · exact ⟨s, by simp [settleScalar, h63], .inl ⟨h63, rfl⟩⟩
  · have h63' : (d.reg.toNat == 63) = false := by simpa using h63
    simp only [Ctx.takes, h63', Bool.false_or, Bool.and_eq_true] at h
    obtain ⟨hb, hr⟩ := h
    have hb' : bindOk (s.cur.squeue d.reg.toNat).producer cl = true := by
      simp only [Bool.or_eq_true, beq_iff_eq] at hb
      rcases hb with hb | hb <;> simp [bindOk, hb]
    have hn : noRoom d.mode (s.cur.squeue d.reg.toNat).entries.length (queueDepth d.reg.toNat) = false := by
      cases hm : d.mode <;> simp [hm] at hr <;> simp [noRoom]
      · exact hr
      · exact fun h => hr.resolve_right (by omega)
    refine ⟨_, by simp only [settleScalar, h63, ↓reduceIte, hb', hn, Bool.not_true, Bool.false_eq_true]; rfl, .inr ?_⟩
    simp only [Ctx.put, Ctx.writeNow, h63, ↓reduceIte]
    congr 2
    cases hm : d.mode <;> cases hq : (s.cur.squeue d.reg.toNat).entries <;> simp [SQueue.write, *]

/-- Writes that move no counter and raise nothing: the counter of the syllable's cluster moves past it. -/
theorem settle_past {s t : State} {ds : List Deferred} {cl : Cluster} (hw : s.issue.writes = ds)
    (h : settleAll s ds = .ok t) (hx : trapAfterOf ds = none) (hm : ds.any Deferred.moves = false)
    (hwt : t.issue.waits = []) : s.settle [cl] = .ok { t.setCur (t.cur.past cl t.now) with
      issue := { t.issue with writes := [], popped := [], waits := [] } } := by
  simp only [State.settle, hw, h, hx, hm, hwt, List.any_nil, List.foldl_cons, List.foldl_nil, Bool.false_eq_true,
    ↓reduceIte]
  cases cl <;> rfl

/-- A syllable that issues alone ends in what settling its writes gives. -/
theorem conclude_settle {body : Act Unit} {s v t : State} (ha : s.issue.alone = true) (hb : body s = .ok ((), v))
    (hs : v.settle [s.issue.cluster] = .ok t) : concludeSyllable body s = .next t := by
  simp only [concludeSyllable, hb, ha, ↓reduceIte, hs]

/-- A syllable that issues alone and leaves one scalar write: it is settled, and the syllable passed. -/
theorem conclude_scalar {body : Act Unit} {s u : State} {d : Dst} {e : SEntry} (hf : s.freshIssue = true)
    (hu : ReadFrame s u) (hb : body s = .ok ((), { u with issue := { u.issue with
      writes := u.issue.writes ++ [.scalar u.issue.cluster d e] } })) (hr : u.cur.takes s.issue.cluster d = true) :
    ∃ t, concludeSyllable body s = .next t ∧ Elsewhere s t ∧
      t.cur = (u.cur.put s.issue.cluster d e).past s.issue.cluster s.now := by
  have hfu := hu.freshIssue.trans hf
  simp only [State.freshIssue, Bool.and_eq_true, List.isEmpty_iff] at hf hfu
  obtain ⟨⟨ha, hw⟩, hwt⟩ := hf
  obtain ⟨⟨hua, huw⟩, huwt⟩ := hfu
  have hcl := hu.cluster
  rw [huw, List.nil_append] at hb
  obtain ⟨t1, h1, h2⟩ := settleScalar_put { u with issue := { u.issue with
      writes := [.scalar u.issue.cluster d e] } } u.issue.cluster d e (by rw [hcl]; exact hr)
  have hi : t1.issue = { u.issue with writes := [.scalar u.issue.cluster d e] } := by
    rcases h2 with ⟨-, rfl⟩ | rfl <;> rfl
  have hc : t1.cur = u.cur.put u.issue.cluster d e := by
    rcases h2 with ⟨h, rfl⟩ | rfl
    · simp only [Ctx.put, h, ↓reduceIte]; rfl
    · exact State.cur_setCur _ _
  have he : Elsewhere u t1 := by
    rcases h2 with ⟨-, rfl⟩ | rfl
    · have := Elsewhere.refl u
      constructor <;> intros <;> rfl
    · exact elsewhere_setCur u _ _
  have hst := settle_past (cl := s.issue.cluster) (s := { u with issue := { u.issue with
      writes := [.scalar u.issue.cluster d e] } }) rfl (t := t1) (by simp only [settleAll, settleOne, h1]) rfl rfl
      (by rw [hi]; exact huwt)
  refine ⟨_, conclude_settle ha hb hst, ?_, ?_⟩
  · refine (hu.elsewhere.trans he (by rw [hu.issue]) (by rw [hu.issue])).trans (elsewhere_setCur _ _ _)
      (by rw [hi, hu.issue]) (by rw [hi, hu.issue])
  · rw [← hcl, ← hc, ← hu.elsewhere.now, ← he.now]
    exact State.cur_setCur t1 _

end Sys2Proof.Machine
end

