-- ==== Sys2Proof/Laws/PerInstr.lean ====
section
/-! SUPPORT. The family RoundTrip: the fields of each well-formed instruction parse back to it, in the format its
major names (R147 to R176). -/

set_option Elab.async false
set_option linter.unusedSimpArgs false

namespace Sys2Proof.Laws

/-- The layout of a well-formed instruction has the format its major names, and parses back to it. -/
def RoundTrip.Statement (i : Instr) : Prop :=
  i.wf = true → Format.ofMajor i.layout.1 = .ok i.layout.2.format ∧ parseLayout i.layout.1 i.layout.2 = .ok i

/-- A step of the device is no syllable. -/
theorem RoundTrip.of_not_wf {i : Instr} (h : i.wf = false) : RoundTrip.Statement i := by
  intro hw; rw [h] at hw; cases hw

theorem RoundTrip.nop : RoundTrip.Statement (.nop) := by
  exact fun _ => ⟨rfl, by simp [Instr.layout, parseLayout, parseRrr, bind, Except.bind, pure, Except.pure]⟩
theorem RoundTrip.add (d : Dst) (a : Src) (b : Src) : RoundTrip.Statement (.add d a b) := by
  exact fun _ => ⟨rfl, by simp [Instr.layout, parseLayout, parseRrr, parse01, bind, Except.bind, pure, Except.pure]⟩
theorem RoundTrip.sub (d : Dst) (a : Src) (b : Src) : RoundTrip.Statement (.sub d a b) := by
  exact fun _ => ⟨rfl, by simp [Instr.layout, parseLayout, parseRrr, parse01, bind, Except.bind, pure, Except.pure]⟩
theorem RoundTrip.and (d : Dst) (a : Src) (b : Src) : RoundTrip.Statement (.and d a b) := by
  exact fun _ => ⟨rfl, by simp [Instr.layout, parseLayout, parseRrr, parse01, bind, Except.bind, pure, Except.pure]⟩
theorem RoundTrip.or (d : Dst) (a : Src) (b : Src) : RoundTrip.Statement (.or d a b) := by
  exact fun _ => ⟨rfl, by simp [Instr.layout, parseLayout, parseRrr, parse01, bind, Except.bind, pure, Except.pure]⟩
theorem RoundTrip.xor (d : Dst) (a : Src) (b : Src) : RoundTrip.Statement (.xor d a b) := by
  exact fun _ => ⟨rfl, by simp [Instr.layout, parseLayout, parseRrr, parse01, bind, Except.bind, pure, Except.pure]⟩
theorem RoundTrip.andn (d : Dst) (a : Src) (b : Src) : RoundTrip.Statement (.andn d a b) := by
  exact fun _ => ⟨rfl, by simp [Instr.layout, parseLayout, parseRrr, parse01, bind, Except.bind, pure, Except.pure]⟩
theorem RoundTrip.shl (d : Dst) (a : Src) (b : Src) : RoundTrip.Statement (.shl d a b) := by
  exact fun _ => ⟨rfl, by simp [Instr.layout, parseLayout, parseRrr, parse01, bind, Except.bind, pure, Except.pure]⟩
theorem RoundTrip.shr (d : Dst) (a : Src) (b : Src) : RoundTrip.Statement (.shr d a b) := by
  exact fun _ => ⟨rfl, by simp [Instr.layout, parseLayout, parseRrr, parse01, bind, Except.bind, pure, Except.pure]⟩
theorem RoundTrip.sar (d : Dst) (a : Src) (b : Src) : RoundTrip.Statement (.sar d a b) := by
  exact fun _ => ⟨rfl, by simp [Instr.layout, parseLayout, parseRrr, parse01, bind, Except.bind, pure, Except.pure]⟩
theorem RoundTrip.rol (d : Dst) (a : Src) (b : Src) : RoundTrip.Statement (.rol d a b) := by
  exact fun _ => ⟨rfl, by simp [Instr.layout, parseLayout, parseRrr, parse01, bind, Except.bind, pure, Except.pure]⟩
theorem RoundTrip.min (d : Dst) (a : Src) (b : Src) : RoundTrip.Statement (.min d a b) := by
  exact fun _ => ⟨rfl, by simp [Instr.layout, parseLayout, parseRrr, parse01, bind, Except.bind, pure, Except.pure]⟩
theorem RoundTrip.minn (d : Dst) (a : Src) (b : Src) : RoundTrip.Statement (.minn d a b) := by
  exact fun _ => ⟨rfl, by simp [Instr.layout, parseLayout, parseRrr, parse01, bind, Except.bind, pure, Except.pure]⟩
theorem RoundTrip.max (d : Dst) (a : Src) (b : Src) : RoundTrip.Statement (.max d a b) := by
  exact fun _ => ⟨rfl, by simp [Instr.layout, parseLayout, parseRrr, parse01, bind, Except.bind, pure, Except.pure]⟩
theorem RoundTrip.maxn (d : Dst) (a : Src) (b : Src) : RoundTrip.Statement (.maxn d a b) := by
  exact fun _ => ⟨rfl, by simp [Instr.layout, parseLayout, parseRrr, parse01, bind, Except.bind, pure, Except.pure]⟩
theorem RoundTrip.mul (d : Dst) (a : Src) (b : Src) : RoundTrip.Statement (.mul d a b) := by
  exact fun _ => ⟨rfl, by simp [Instr.layout, parseLayout, parseRrr, parse02, bind, Except.bind, pure, Except.pure]⟩
theorem RoundTrip.mulh (d : Dst) (a : Src) (b : Src) : RoundTrip.Statement (.mulh d a b) := by
  exact fun _ => ⟨rfl, by simp [Instr.layout, parseLayout, parseRrr, parse02, bind, Except.bind, pure, Except.pure]⟩
theorem RoundTrip.mulhn (d : Dst) (a : Src) (b : Src) : RoundTrip.Statement (.mulhn d a b) := by
  exact fun _ => ⟨rfl, by simp [Instr.layout, parseLayout, parseRrr, parse02, bind, Except.bind, pure, Except.pure]⟩
theorem RoundTrip.div (d : Dst) (a : Src) (b : Src) : RoundTrip.Statement (.div d a b) := by
  exact fun _ => ⟨rfl, by simp [Instr.layout, parseLayout, parseRrr, parse02, bind, Except.bind, pure, Except.pure]⟩
theorem RoundTrip.divn (d : Dst) (a : Src) (b : Src) : RoundTrip.Statement (.divn d a b) := by
  exact fun _ => ⟨rfl, by simp [Instr.layout, parseLayout, parseRrr, parse02, bind, Except.bind, pure, Except.pure]⟩
theorem RoundTrip.rem (d : Dst) (a : Src) (b : Src) : RoundTrip.Statement (.rem d a b) := by
  exact fun _ => ⟨rfl, by simp [Instr.layout, parseLayout, parseRrr, parse02, bind, Except.bind, pure, Except.pure]⟩
theorem RoundTrip.remn (d : Dst) (a : Src) (b : Src) : RoundTrip.Statement (.remn d a b) := by
  exact fun _ => ⟨rfl, by simp [Instr.layout, parseLayout, parseRrr, parse02, bind, Except.bind, pure, Except.pure]⟩
theorem RoundTrip.mov (d : Dst) (a : Src) : RoundTrip.Statement (.mov d a) := by
  exact fun _ => ⟨rfl, by simp [Instr.layout, parseLayout, parseRrr, parse03, bind, Except.bind, pure, Except.pure]⟩
theorem RoundTrip.abs (d : Dst) (a : Src) : RoundTrip.Statement (.abs d a) := by
  exact fun _ => ⟨rfl, by simp [Instr.layout, parseLayout, parseRrr, parse03, bind, Except.bind, pure, Except.pure]⟩
theorem RoundTrip.clz (d : Dst) (a : Src) : RoundTrip.Statement (.clz d a) := by
  exact fun _ => ⟨rfl, by simp [Instr.layout, parseLayout, parseRrr, parse03, bind, Except.bind, pure, Except.pure]⟩
theorem RoundTrip.ctz (d : Dst) (a : Src) : RoundTrip.Statement (.ctz d a) := by
  exact fun _ => ⟨rfl, by simp [Instr.layout, parseLayout, parseRrr, parse03, bind, Except.bind, pure, Except.pure]⟩
theorem RoundTrip.popc (d : Dst) (a : Src) : RoundTrip.Statement (.popc d a) := by
  exact fun _ => ⟨rfl, by simp [Instr.layout, parseLayout, parseRrr, parse03, bind, Except.bind, pure, Except.pure]⟩
theorem RoundTrip.sel (d : Dst) (a : Src) (b : Src) (neg : Bool) (p : Pred) : RoundTrip.Statement (.sel d a b neg p) := by
  exact fun _ => ⟨rfl, by simp [Instr.layout, parseLayout, parseRrr, parse04, bind, Except.bind, pure, Except.pure]⟩
theorem RoundTrip.lea (d : Dst) (a : Src) (b : Src) (shift : BitVec 2) : RoundTrip.Statement (.lea d a b shift) := by
  exact fun _ => ⟨rfl, by simp [Instr.layout, parseLayout, parseRrr, parse05, bind, Except.bind, pure, Except.pure]⟩
theorem RoundTrip.cmp (cc : Cc) (pd : Pred) (a : Src) (b : Src) : RoundTrip.Statement (.cmp cc pd a b) := by
  exact fun _ => ⟨rfl, by simp [Instr.layout, parseLayout, parseRrr, bind, Except.bind, pure, Except.pure]⟩
theorem RoundTrip.cmpi (cc : Cc) (pd : Pred) (a : Src) (imm : BitVec 24) : RoundTrip.Statement (.cmpi cc pd a imm) := by
  exact fun _ => ⟨rfl, by simp [Instr.layout, parseLayout, parseRri, bind, Except.bind, pure, Except.pure]⟩
theorem RoundTrip.addi (d : Dst) (a : Src) (imm : BitVec 24) : RoundTrip.Statement (.addi d a imm) := by
  exact fun _ => ⟨rfl, by simp [Instr.layout, parseLayout, parseRri, parse08, bind, Except.bind, pure, Except.pure]⟩
theorem RoundTrip.andi (d : Dst) (a : Src) (imm : BitVec 24) : RoundTrip.Statement (.andi d a imm) := by
  exact fun _ => ⟨rfl, by simp [Instr.layout, parseLayout, parseRri, parse08, bind, Except.bind, pure, Except.pure]⟩
theorem RoundTrip.ori (d : Dst) (a : Src) (imm : BitVec 24) : RoundTrip.Statement (.ori d a imm) := by
  exact fun _ => ⟨rfl, by simp [Instr.layout, parseLayout, parseRri, parse08, bind, Except.bind, pure, Except.pure]⟩
theorem RoundTrip.xori (d : Dst) (a : Src) (imm : BitVec 24) : RoundTrip.Statement (.xori d a imm) := by
  exact fun _ => ⟨rfl, by simp [Instr.layout, parseLayout, parseRri, parse08, bind, Except.bind, pure, Except.pure]⟩
theorem RoundTrip.shli (d : Dst) (a : Src) (n : BitVec 6) : RoundTrip.Statement (.shli d a n) := by
  exact fun _ => ⟨rfl, by simp [Instr.layout, parseLayout, parseRri, parse08, bind, Except.bind, pure, Except.pure]⟩
theorem RoundTrip.shri (d : Dst) (a : Src) (n : BitVec 6) : RoundTrip.Statement (.shri d a n) := by
  exact fun _ => ⟨rfl, by simp [Instr.layout, parseLayout, parseRri, parse08, bind, Except.bind, pure, Except.pure]⟩
theorem RoundTrip.sari (d : Dst) (a : Src) (n : BitVec 6) : RoundTrip.Statement (.sari d a n) := by
  exact fun _ => ⟨rfl, by simp [Instr.layout, parseLayout, parseRri, parse08, bind, Except.bind, pure, Except.pure]⟩
theorem RoundTrip.li (d : Dst) (imm : BitVec 24) : RoundTrip.Statement (.li d imm) := by
  exact fun _ => ⟨rfl, by simp [Instr.layout, parseLayout, parseRri, parse08, bind, Except.bind, pure, Except.pure]⟩
theorem RoundTrip.lih (d : Dst) (a : Src) (imm : BitVec 24) : RoundTrip.Statement (.lih d a imm) := by
  exact fun _ => ⟨rfl, by simp [Instr.layout, parseLayout, parseRri, parse08, bind, Except.bind, pure, Except.pure]⟩
theorem RoundTrip.pand (pd : Pred) (pa : Pred) (pb : Pred) : RoundTrip.Statement (.pand pd pa pb) := by
  exact fun _ => ⟨rfl, by simp [Instr.layout, parseLayout, parseRrr, parse10, bind, Except.bind, pure, Except.pure]⟩
theorem RoundTrip.por (pd : Pred) (pa : Pred) (pb : Pred) : RoundTrip.Statement (.por pd pa pb) := by
  exact fun _ => ⟨rfl, by simp [Instr.layout, parseLayout, parseRrr, parse10, bind, Except.bind, pure, Except.pure]⟩
theorem RoundTrip.pxor (pd : Pred) (pa : Pred) (pb : Pred) : RoundTrip.Statement (.pxor pd pa pb) := by
  exact fun _ => ⟨rfl, by simp [Instr.layout, parseLayout, parseRrr, parse10, bind, Except.bind, pure, Except.pure]⟩
theorem RoundTrip.pandn (pd : Pred) (pa : Pred) (pb : Pred) : RoundTrip.Statement (.pandn pd pa pb) := by
  exact fun _ => ⟨rfl, by simp [Instr.layout, parseLayout, parseRrr, parse10, bind, Except.bind, pure, Except.pure]⟩
theorem RoundTrip.pnot (pd : Pred) (pa : Pred) : RoundTrip.Statement (.pnot pd pa) := by
  exact fun _ => ⟨rfl, by simp [Instr.layout, parseLayout, parseRrr, parse10, bind, Except.bind, pure, Except.pure]⟩
theorem RoundTrip.pmov (pd : Pred) (pa : Pred) : RoundTrip.Statement (.pmov pd pa) := by
  exact fun _ => ⟨rfl, by simp [Instr.layout, parseLayout, parseRrr, parse10, bind, Except.bind, pure, Except.pure]⟩
theorem RoundTrip.br (disp : BitVec 32) : RoundTrip.Statement (.br disp) := by
  exact fun _ => ⟨rfl, by simp [Instr.layout, parseLayout, parseBr, bind, Except.bind, pure, Except.pure]⟩
theorem RoundTrip.bri (a : Src) : RoundTrip.Statement (.bri a) := by
  exact fun _ => ⟨rfl, by simp [Instr.layout, parseLayout, parseRrr, bind, Except.bind, pure, Except.pure]⟩
theorem RoundTrip.call (d : Dst) (disp : BitVec 32) : RoundTrip.Statement (.call d disp) := by
  exact fun _ => ⟨rfl, by simp [Instr.layout, parseLayout, parseBr, bind, Except.bind, pure, Except.pure]⟩
theorem RoundTrip.ret (a : Src) : RoundTrip.Statement (.ret a) := by
  exact fun _ => ⟨rfl, by simp [Instr.layout, parseLayout, parseRrr, bind, Except.bind, pure, Except.pure]⟩
theorem RoundTrip.loop (counter : BitVec 6) (disp : BitVec 32) (stages : BitVec 4) : RoundTrip.Statement (.loop counter disp stages) := by
  exact fun _ => ⟨rfl, by simp [Instr.layout, parseLayout, parseBr, bind, Except.bind, pure, Except.pure]⟩
theorem RoundTrip.split (disp : BitVec 32) : RoundTrip.Statement (.split disp) := by
  exact fun _ => ⟨rfl, by simp [Instr.layout, parseLayout, parseBr, bind, Except.bind, pure, Except.pure]⟩
theorem RoundTrip.join (disp : BitVec 32) : RoundTrip.Statement (.join disp) := by
  exact fun _ => ⟨rfl, by simp [Instr.layout, parseLayout, parseBr, bind, Except.bind, pure, Except.pure]⟩
theorem RoundTrip.brq (sense : Bool) (disp : BitVec 32) : RoundTrip.Statement (.brq sense disp) := by
  exact fun _ => ⟨rfl, by simp [Instr.layout, parseLayout, parseBr, bind, Except.bind, pure, Except.pure]⟩
theorem RoundTrip.pushb (neg : Bool) (p : Pred) : RoundTrip.Statement (.pushb neg p) := by
  exact fun _ => ⟨rfl, by simp [Instr.layout, parseLayout, parseRrr, bind, Except.bind, pure, Except.pure]⟩
theorem RoundTrip.csrr (d : Dst) (csr : BitVec 16) : RoundTrip.Statement (.csrr d csr) := by
  exact fun _ => ⟨rfl, by simp [Instr.layout, parseLayout, parseSys, bind, Except.bind, pure, Except.pure]⟩
theorem RoundTrip.csrw (csr : BitVec 16) (a : Src) : RoundTrip.Statement (.csrw csr a) := by
  exact fun _ => ⟨rfl, by simp [Instr.layout, parseLayout, parseSys, bind, Except.bind, pure, Except.pure]⟩
theorem RoundTrip.csrx (d : Dst) (csr : BitVec 16) (a : Src) : RoundTrip.Statement (.csrx d csr a) := by
  exact fun _ => ⟨rfl, by simp [Instr.layout, parseLayout, parseSys, bind, Except.bind, pure, Except.pure]⟩
theorem RoundTrip.halt : RoundTrip.Statement (.halt) := by
  exact fun _ => ⟨rfl, rfl⟩
theorem RoundTrip.waiti : RoundTrip.Statement (.waiti) := by
  exact fun _ => ⟨rfl, rfl⟩
theorem RoundTrip.fencei : RoundTrip.Statement (.fencei) := by
  exact fun _ => ⟨rfl, rfl⟩
theorem RoundTrip.trap (code : BitVec 8) : RoundTrip.Statement (.trap code) := by
  exact fun _ => ⟨rfl, by simp [Instr.layout, parseLayout, parseSys, parse2A, bind, Except.bind, pure, Except.pure]⟩
theorem RoundTrip.eret : RoundTrip.Statement (.eret) := by
  exact fun _ => ⟨rfl, rfl⟩
theorem RoundTrip.commit : RoundTrip.Statement (.commit) := by
  exact fun _ => ⟨rfl, rfl⟩
theorem RoundTrip.yield : RoundTrip.Statement (.yield) := by
  exact fun _ => ⟨rfl, rfl⟩
theorem RoundTrip.rplrel : RoundTrip.Statement (.rplrel) := by
  exact fun _ => ⟨rfl, rfl⟩
theorem RoundTrip.phase (marker : BitVec 8) : RoundTrip.Statement (.phase marker) := by
  exact fun _ => ⟨rfl, by simp [Instr.layout, parseLayout, parseSys, parse2A, bind, Except.bind, pure, Except.pure]⟩
theorem RoundTrip.segb (id : BitVec 16) : RoundTrip.Statement (.segb id) := by
  exact fun _ => ⟨rfl, by simp [Instr.layout, parseLayout, parseSys, bind, Except.bind, pure, Except.pure]⟩
theorem RoundTrip.sege (id : BitVec 16) (a : Src) : RoundTrip.Statement (.sege id a) := by
  exact fun _ => ⟨rfl, by simp [Instr.layout, parseLayout, parseSys, bind, Except.bind, pure, Except.pure]⟩
theorem RoundTrip.ld (ty : ScalarTy) (d : Dst) (m : MemOp) : RoundTrip.Statement (.ld ty d m) := by
  exact fun _ => ⟨rfl, by simp [Instr.layout, parseLayout, MemOp.layout, parseMem, bind, Except.bind, pure, Except.pure]⟩
theorem RoundTrip.st (ty : ScalarTy) (x_s : Src) (m : MemOp) : RoundTrip.Statement (.st ty x_s m) := by
  exact fun _ => ⟨rfl, by simp [Instr.layout, parseLayout, MemOp.layout, parseMem, bind, Except.bind, pure, Except.pure]⟩
theorem RoundTrip.vldr (f : Fmt) (d : VDst) (m : MemOp) : RoundTrip.Statement (.vldr f d m) := by
  exact fun _ => ⟨rfl, by simp [Instr.layout, parseLayout, MemOp.layout, parseMem, bind, Except.bind, pure, Except.pure]⟩
theorem RoundTrip.vstr (f : Fmt) (x_s : VSrc) (m : MemOp) : RoundTrip.Statement (.vstr f x_s m) := by
  exact fun _ => ⟨rfl, by simp [Instr.layout, parseLayout, MemOp.layout, parseMem, bind, Except.bind, pure, Except.pure]⟩
theorem RoundTrip.vldc (f : Fmt) (d : VDst) (m : MemOp) : RoundTrip.Statement (.vldc f d m) := by
  exact fun _ => ⟨rfl, by simp [Instr.layout, parseLayout, MemOp.layout, parseMem, bind, Except.bind, pure, Except.pure]⟩
theorem RoundTrip.vstc (f : Fmt) (x_s : VSrc) (m : MemOp) : RoundTrip.Statement (.vstc f x_s m) := by
  exact fun _ => ⟨rfl, by simp [Instr.layout, parseLayout, MemOp.layout, parseMem, bind, Except.bind, pure, Except.pure]⟩
theorem RoundTrip.vgth (f : Fmt) (d : VDst) (m : VMemOp) : RoundTrip.Statement (.vgth f d m) := by
  exact fun _ => ⟨rfl, by simp [Instr.layout, parseLayout, VMemOp.layout, parseMem, bind, Except.bind, pure, Except.pure]⟩
theorem RoundTrip.vsct (f : Fmt) (x_s : VSrc) (m : VMemOp) : RoundTrip.Statement (.vsct f x_s m) := by
  exact fun _ => ⟨rfl, by simp [Instr.layout, parseLayout, VMemOp.layout, parseMem, bind, Except.bind, pure, Except.pure]⟩
theorem RoundTrip.mark : RoundTrip.Statement (.mark) := by
  exact fun _ => ⟨rfl, by simp [Instr.layout, parseLayout, parseRrr, parse38, bind, Except.bind, pure, Except.pure]⟩
theorem RoundTrip.fence (scope : Scope) : RoundTrip.Statement (.fence scope) := by
  exact fun _ => ⟨rfl, by simp [Instr.layout, parseLayout, parseRrr, parse38, bind, Except.bind, pure, Except.pure]⟩
theorem RoundTrip.amo (op : AmoOp) (ty : AmoTy) (scope : Scope) (order : AmoOrder) (a : Src) (b : Src) : RoundTrip.Statement (.amo op ty scope order a b) := by
  exact fun _ => ⟨rfl, by simp [Instr.layout, parseLayout, parseRrr, bind, Except.bind, pure, Except.pure, amoOrder_code_lt]⟩
theorem RoundTrip.red (op : RedOp) (ty : AmoTy) (scope : Scope) (release : Bool) (a : Src) (b : Src) : RoundTrip.Statement (.red op ty scope release a b) := by
  exact fun _ => ⟨rfl, by simp [Instr.layout, parseLayout, parseRrr, bind, Except.bind, pure, Except.pure, release_lt]⟩
theorem RoundTrip.lock (mode : LockMode) (domain : BitVec 2) (level : LockLevel) (a : Src) : RoundTrip.Statement (.lock mode domain level a) := by
  exact fun _ => ⟨rfl, by simp [Instr.layout, parseLayout, parseRrr, parse3B, bind, Except.bind, pure, Except.pure, lockMode_code_lt]⟩
theorem RoundTrip.unlock (domain : BitVec 2) (level : LockLevel) (a : Src) : RoundTrip.Statement (.unlock domain level a) := by
  exact fun _ => ⟨rfl, by simp [Instr.layout, parseLayout, parseRrr, parse3B, bind, Except.bind, pure, Except.pure]⟩
theorem RoundTrip.bsig (scope : Scope) (a : Src) (b : Src) : RoundTrip.Statement (.bsig scope a b) := by
  exact fun _ => ⟨rfl, by simp [Instr.layout, parseLayout, parseRrr, parse3C, bind, Except.bind, pure, Except.pure]⟩
theorem RoundTrip.bwait (scope : Scope) (a : Src) (b : Src) : RoundTrip.Statement (.bwait scope a b) := by
  exact fun _ => ⟨rfl, by simp [Instr.layout, parseLayout, parseRrr, parse3C, bind, Except.bind, pure, Except.pure]⟩
theorem RoundTrip.rset (ring : BitVec 4) (a : Src) : RoundTrip.Statement (.rset ring a) := by
  exact fun _ => ⟨rfl, by simp [Instr.layout, parseLayout, parseRrr, parse3D, bind, Except.bind, pure, Except.pure]⟩
theorem RoundTrip.rclaim (ring : BitVec 4) (d : Dst) : RoundTrip.Statement (.rclaim ring d) := by
  exact fun _ => ⟨rfl, by simp [Instr.layout, parseLayout, parseRrr, parse3D, bind, Except.bind, pure, Except.pure]⟩
theorem RoundTrip.rpub (ring : BitVec 4) (a : Src) : RoundTrip.Statement (.rpub ring a) := by
  exact fun _ => ⟨rfl, by simp [Instr.layout, parseLayout, parseRrr, parse3D, bind, Except.bind, pure, Except.pure]⟩
theorem RoundTrip.rtake (ring : BitVec 4) (d : Dst) : RoundTrip.Statement (.rtake ring d) := by
  exact fun _ => ⟨rfl, by simp [Instr.layout, parseLayout, parseRrr, parse3D, bind, Except.bind, pure, Except.pure]⟩
theorem RoundTrip.rfree (ring : BitVec 4) (a : Src) : RoundTrip.Statement (.rfree ring a) := by
  exact fun _ => ⟨rfl, by simp [Instr.layout, parseLayout, parseRrr, parse3D, bind, Except.bind, pure, Except.pure]⟩
theorem RoundTrip.rwaitf (ring : BitVec 4) (a : Src) : RoundTrip.Statement (.rwaitf ring a) := by
  exact fun _ => ⟨rfl, by simp [Instr.layout, parseLayout, parseRrr, parse3D, bind, Except.bind, pure, Except.pure]⟩
theorem RoundTrip.rwaite (ring : BitVec 4) (a : Src) : RoundTrip.Statement (.rwaite ring a) := by
  exact fun _ => ⟨rfl, by simp [Instr.layout, parseLayout, parseRrr, parse3D, bind, Except.bind, pure, Except.pure]⟩
theorem RoundTrip.rstat (ring : BitVec 4) (d : Dst) (a : Src) : RoundTrip.Statement (.rstat ring d a) := by
  exact fun _ => ⟨rfl, by simp [Instr.layout, parseLayout, parseRrr, parse3D, bind, Except.bind, pure, Except.pure]⟩
theorem RoundTrip.evsig (ev : BitVec 5) (a : Src) (b : Src) : RoundTrip.Statement (.evsig ev a b) := by
  exact fun _ => ⟨rfl, by simp [Instr.layout, parseLayout, parseRrr, parse3E, bind, Except.bind, pure, Except.pure]⟩
theorem RoundTrip.evwait (ev : BitVec 5) (a : Src) : RoundTrip.Statement (.evwait ev a) := by
  exact fun _ => ⟨rfl, by simp [Instr.layout, parseLayout, parseRrr, parse3E, bind, Except.bind, pure, Except.pure]⟩
theorem RoundTrip.evstat (ev : BitVec 5) (d : Dst) : RoundTrip.Statement (.evstat ev d) := by
  exact fun _ => ⟨rfl, by simp [Instr.layout, parseLayout, parseRrr, parse3E, bind, Except.bind, pure, Except.pure]⟩
theorem RoundTrip.enq (q : BitVec 2) (a : Src) : RoundTrip.Statement (.enq q a) := by
  exact fun _ => ⟨rfl, by simp [Instr.layout, parseLayout, parseRrr, parse3F, bind, Except.bind, pure, Except.pure]⟩
theorem RoundTrip.chlink (q : BitVec 2) (a : Src) : RoundTrip.Statement (.chlink q a) := by
  exact fun _ => ⟨rfl, by simp [Instr.layout, parseLayout, parseRrr, parse3F, bind, Except.bind, pure, Except.pure]⟩
theorem RoundTrip.chkick (q : BitVec 2) (a : Src) : RoundTrip.Statement (.chkick q a) := by
  exact fun _ => ⟨rfl, by simp [Instr.layout, parseLayout, parseRrr, parse3F, bind, Except.bind, pure, Except.pure]⟩
theorem RoundTrip.engstat (q : BitVec 2) (d : Dst) : RoundTrip.Statement (.engstat q d) := by
  exact fun _ => ⟨rfl, by simp [Instr.layout, parseLayout, parseRrr, parse3F, bind, Except.bind, pure, Except.pure]⟩
theorem RoundTrip.sheaf (a : Src) : RoundTrip.Statement (.sheaf a) := by
  exact fun _ => ⟨rfl, by simp [Instr.layout, parseLayout, parseRrr, parse3F, bind, Except.bind, pure, Except.pure]⟩
theorem RoundTrip.vadd (f : Fmt) (r : Rnd) (d : VDst) (a : VSrc) (b : VSrc) (mask : Option VSrc) : RoundTrip.Statement (.vadd f r d a b mask) := by
  exact fun _ => ⟨rfl, by simp [Instr.layout, parseLayout, parseVec, parse50, bind, Except.bind, pure, Except.pure]⟩
theorem RoundTrip.vsub (f : Fmt) (r : Rnd) (d : VDst) (a : VSrc) (b : VSrc) (mask : Option VSrc) : RoundTrip.Statement (.vsub f r d a b mask) := by
  exact fun _ => ⟨rfl, by simp [Instr.layout, parseLayout, parseVec, parse50, bind, Except.bind, pure, Except.pure]⟩
theorem RoundTrip.vmul (f : Fmt) (r : Rnd) (d : VDst) (a : VSrc) (b : VSrc) (mask : Option VSrc) : RoundTrip.Statement (.vmul f r d a b mask) := by
  exact fun _ => ⟨rfl, by simp [Instr.layout, parseLayout, parseVec, parse50, bind, Except.bind, pure, Except.pure]⟩
theorem RoundTrip.vmin (f : Fmt) (d : VDst) (a : VSrc) (b : VSrc) (mask : Option VSrc) : RoundTrip.Statement (.vmin f d a b mask) := by
  exact fun _ => ⟨rfl, by simp [Instr.layout, parseLayout, parseVec, parse50, bind, Except.bind, pure, Except.pure]⟩
theorem RoundTrip.vmax (f : Fmt) (d : VDst) (a : VSrc) (b : VSrc) (mask : Option VSrc) : RoundTrip.Statement (.vmax f d a b mask) := by
  exact fun _ => ⟨rfl, by simp [Instr.layout, parseLayout, parseVec, parse50, bind, Except.bind, pure, Except.pure]⟩
theorem RoundTrip.vfma (f : Fmt) (r : Rnd) (d : VDst) (a : VSrc) (b : VSrc) (c : VSrc) : RoundTrip.Statement (.vfma f r d a b c) := by
  exact fun _ => ⟨rfl, by simp [Instr.layout, parseLayout, parseVec, parse51, bind, Except.bind, pure, Except.pure]⟩
theorem RoundTrip.vfms (f : Fmt) (r : Rnd) (d : VDst) (a : VSrc) (b : VSrc) (c : VSrc) : RoundTrip.Statement (.vfms f r d a b c) := by
  exact fun _ => ⟨rfl, by simp [Instr.layout, parseLayout, parseVec, parse51, bind, Except.bind, pure, Except.pure]⟩
theorem RoundTrip.vabs (f : Fmt) (d : VDst) (a : VSrc) (mask : Option VSrc) : RoundTrip.Statement (.vabs f d a mask) := by
  exact fun _ => ⟨rfl, by simp [Instr.layout, parseLayout, parseVec, parse52, bind, Except.bind, pure, Except.pure]⟩
theorem RoundTrip.vneg (f : Fmt) (d : VDst) (a : VSrc) (mask : Option VSrc) : RoundTrip.Statement (.vneg f d a mask) := by
  exact fun _ => ⟨rfl, by simp [Instr.layout, parseLayout, parseVec, parse52, bind, Except.bind, pure, Except.pure]⟩
theorem RoundTrip.vrcp (f : Fmt) (r : Rnd) (d : VDst) (a : VSrc) (mask : Option VSrc) : RoundTrip.Statement (.vrcp f r d a mask) := by
  exact fun _ => ⟨rfl, by simp [Instr.layout, parseLayout, parseVec, parse52, bind, Except.bind, pure, Except.pure]⟩
theorem RoundTrip.vrsq (f : Fmt) (r : Rnd) (d : VDst) (a : VSrc) (mask : Option VSrc) : RoundTrip.Statement (.vrsq f r d a mask) := by
  exact fun _ => ⟨rfl, by simp [Instr.layout, parseLayout, parseVec, parse52, bind, Except.bind, pure, Except.pure]⟩
theorem RoundTrip.vsqrt (f : Fmt) (r : Rnd) (d : VDst) (a : VSrc) (mask : Option VSrc) : RoundTrip.Statement (.vsqrt f r d a mask) := by
  exact fun _ => ⟨rfl, by simp [Instr.layout, parseLayout, parseVec, parse52, bind, Except.bind, pure, Except.pure]⟩
theorem RoundTrip.vexp2 (f : Fmt) (r : Rnd) (d : VDst) (a : VSrc) (mask : Option VSrc) : RoundTrip.Statement (.vexp2 f r d a mask) := by
  exact fun _ => ⟨rfl, by simp [Instr.layout, parseLayout, parseVec, parse52, bind, Except.bind, pure, Except.pure]⟩
theorem RoundTrip.vlog2 (f : Fmt) (r : Rnd) (d : VDst) (a : VSrc) (mask : Option VSrc) : RoundTrip.Statement (.vlog2 f r d a mask) := by
  exact fun _ => ⟨rfl, by simp [Instr.layout, parseLayout, parseVec, parse52, bind, Except.bind, pure, Except.pure]⟩
theorem RoundTrip.vtanh (f : Fmt) (r : Rnd) (d : VDst) (a : VSrc) (mask : Option VSrc) : RoundTrip.Statement (.vtanh f r d a mask) := by
  exact fun _ => ⟨rfl, by simp [Instr.layout, parseLayout, parseVec, parse52, bind, Except.bind, pure, Except.pure]⟩
theorem RoundTrip.viadd (f : Fmt) (uns : Bool) (sat : Bool) (d : VDst) (a : VSrc) (b : VSrc) (mask : Option VSrc) : RoundTrip.Statement (.viadd f uns sat d a b mask) := by
  exact fun _ => ⟨rfl, by simp [Instr.layout, parseLayout, parseVec, parse53, bind, Except.bind, pure, Except.pure]⟩
theorem RoundTrip.visub (f : Fmt) (uns : Bool) (sat : Bool) (d : VDst) (a : VSrc) (b : VSrc) (mask : Option VSrc) : RoundTrip.Statement (.visub f uns sat d a b mask) := by
  exact fun _ => ⟨rfl, by simp [Instr.layout, parseLayout, parseVec, parse53, bind, Except.bind, pure, Except.pure]⟩
theorem RoundTrip.vimul (f : Fmt) (uns : Bool) (sat : Bool) (d : VDst) (a : VSrc) (b : VSrc) (mask : Option VSrc) : RoundTrip.Statement (.vimul f uns sat d a b mask) := by
  exact fun _ => ⟨rfl, by simp [Instr.layout, parseLayout, parseVec, parse53, bind, Except.bind, pure, Except.pure]⟩
theorem RoundTrip.vimulh (f : Fmt) (uns : Bool) (d : VDst) (a : VSrc) (b : VSrc) (mask : Option VSrc) : RoundTrip.Statement (.vimulh f uns d a b mask) := by
  exact fun _ => ⟨rfl, by simp [Instr.layout, parseLayout, parseVec, parse53, bind, Except.bind, pure, Except.pure]⟩
theorem RoundTrip.vand (f : Fmt) (d : VDst) (a : VSrc) (b : VSrc) (mask : Option VSrc) : RoundTrip.Statement (.vand f d a b mask) := by
  exact fun _ => ⟨rfl, by simp [Instr.layout, parseLayout, parseVec, parse53, bind, Except.bind, pure, Except.pure]⟩
theorem RoundTrip.vor (f : Fmt) (d : VDst) (a : VSrc) (b : VSrc) (mask : Option VSrc) : RoundTrip.Statement (.vor f d a b mask) := by
  exact fun _ => ⟨rfl, by simp [Instr.layout, parseLayout, parseVec, parse53, bind, Except.bind, pure, Except.pure]⟩
theorem RoundTrip.vxor (f : Fmt) (d : VDst) (a : VSrc) (b : VSrc) (mask : Option VSrc) : RoundTrip.Statement (.vxor f d a b mask) := by
  exact fun _ => ⟨rfl, by simp [Instr.layout, parseLayout, parseVec, parse53, bind, Except.bind, pure, Except.pure]⟩
theorem RoundTrip.vshl (f : Fmt) (d : VDst) (a : VSrc) (b : VSrc) (mask : Option VSrc) : RoundTrip.Statement (.vshl f d a b mask) := by
  exact fun _ => ⟨rfl, by simp [Instr.layout, parseLayout, parseVec, parse53, bind, Except.bind, pure, Except.pure]⟩
theorem RoundTrip.vshr (f : Fmt) (d : VDst) (a : VSrc) (b : VSrc) (mask : Option VSrc) : RoundTrip.Statement (.vshr f d a b mask) := by
  exact fun _ => ⟨rfl, by simp [Instr.layout, parseLayout, parseVec, parse53, bind, Except.bind, pure, Except.pure]⟩
theorem RoundTrip.vsar (f : Fmt) (d : VDst) (a : VSrc) (b : VSrc) (mask : Option VSrc) : RoundTrip.Statement (.vsar f d a b mask) := by
  exact fun _ => ⟨rfl, by simp [Instr.layout, parseLayout, parseVec, parse53, bind, Except.bind, pure, Except.pure]⟩
theorem RoundTrip.vimin (f : Fmt) (uns : Bool) (d : VDst) (a : VSrc) (b : VSrc) (mask : Option VSrc) : RoundTrip.Statement (.vimin f uns d a b mask) := by
  exact fun _ => ⟨rfl, by simp [Instr.layout, parseLayout, parseVec, parse53, bind, Except.bind, pure, Except.pure]⟩
theorem RoundTrip.vimax (f : Fmt) (uns : Bool) (d : VDst) (a : VSrc) (b : VSrc) (mask : Option VSrc) : RoundTrip.Statement (.vimax f uns d a b mask) := by
  exact fun _ => ⟨rfl, by simp [Instr.layout, parseLayout, parseVec, parse53, bind, Except.bind, pure, Except.pure]⟩
theorem RoundTrip.vcmp (cc : Cc) (f : Fmt) (d : VDst) (a : VSrc) (b : VSrc) (mask : Option VSrc) : RoundTrip.Statement (.vcmp cc f d a b mask) := by
  exact fun _ => ⟨rfl, by simp [Instr.layout, parseLayout, parseVec, bind, Except.bind, pure, Except.pure]⟩
theorem RoundTrip.vsel (f : Fmt) (d : VDst) (a : VSrc) (b : VSrc) (c : VSrc) : RoundTrip.Statement (.vsel f d a b c) := by
  exact fun _ => ⟨rfl, by simp [Instr.layout, parseLayout, parseVec, bind, Except.bind, pure, Except.pure]⟩
theorem RoundTrip.vcvt (fd : Fmt) (fs : Fmt) (r : Rnd) (part : BitVec 2) (d : VDst) (a : VSrc) : RoundTrip.Statement (.vcvt fd fs r part d a) := by
  exact fun _ => ⟨rfl, by simp [Instr.layout, parseLayout, parseVec, parse56, bind, Except.bind, pure, Except.pure]⟩
theorem RoundTrip.vtobi (fd : Fmt) (fs : Fmt) (r : Rnd) (part : BitVec 2) (d : VDst) (a : VSrc) : RoundTrip.Statement (.vtobi fd fs r part d a) := by
  exact fun _ => ⟨rfl, by simp [Instr.layout, parseLayout, parseVec, parse56, bind, Except.bind, pure, Except.pure]⟩
theorem RoundTrip.vfrombi (fd : Fmt) (fs : Fmt) (r : Rnd) (part : BitVec 2) (d : VDst) (a : VSrc) : RoundTrip.Statement (.vfrombi fd fs r part d a) := by
  exact fun _ => ⟨rfl, by simp [Instr.layout, parseLayout, parseVec, parse56, bind, Except.bind, pure, Except.pure]⟩
theorem RoundTrip.vrotr (d : VDst) (a : VSrc) (b : Src) : RoundTrip.Statement (.vrotr d a b) := by
  exact fun _ => ⟨rfl, by simp [Instr.layout, parseLayout, parseVec, parse57, bind, Except.bind, pure, Except.pure]⟩
theorem RoundTrip.vrotc (d : VDst) (a : VSrc) (b : Src) : RoundTrip.Statement (.vrotc d a b) := by
  exact fun _ => ⟨rfl, by simp [Instr.layout, parseLayout, parseVec, parse57, bind, Except.bind, pure, Except.pure]⟩
theorem RoundTrip.vbcr (d : VDst) (a : VSrc) (b : Src) : RoundTrip.Statement (.vbcr d a b) := by
  exact fun _ => ⟨rfl, by simp [Instr.layout, parseLayout, parseVec, parse57, bind, Except.bind, pure, Except.pure]⟩
theorem RoundTrip.vbcc (d : VDst) (a : VSrc) (b : Src) : RoundTrip.Statement (.vbcc d a b) := by
  exact fun _ => ⟨rfl, by simp [Instr.layout, parseLayout, parseVec, parse57, bind, Except.bind, pure, Except.pure]⟩
theorem RoundTrip.vscanr (f : Fmt) (r : Rnd) (d : VDst) (a : VSrc) (mask : Option VSrc) : RoundTrip.Statement (.vscanr f r d a mask) := by
  exact fun _ => ⟨rfl, by simp [Instr.layout, parseLayout, parseVec, parse57, bind, Except.bind, pure, Except.pure]⟩
theorem RoundTrip.vredr (op : VRedOp) (f : Fmt) (r : Rnd) (uns : Bool) (d : VDst) (a : VSrc) (mask : Option VSrc) : RoundTrip.Statement (.vredr op f r uns d a mask) := by
  exact fun _ => ⟨rfl, by cases op <;> simp [Instr.layout, parseLayout, parseVec, bind, Except.bind, pure, Except.pure, VRedOp.code, VRedOp.ofCode]⟩
theorem RoundTrip.vredc (op : VRedOp) (f : Fmt) (r : Rnd) (uns : Bool) (d : VDst) (a : VSrc) (mask : Option VSrc) : RoundTrip.Statement (.vredc op f r uns d a mask) := by
  exact fun _ => ⟨rfl, by cases op <;> simp [Instr.layout, parseLayout, parseVec, bind, Except.bind, pure, Except.pure, VRedOp.code, VRedOp.ofCode]⟩
theorem RoundTrip.vperm (d : VDst) (a : VSrc) (bw : BitVec 3) : RoundTrip.Statement (.vperm d a bw) := by
  exact fun _ => ⟨rfl, by simp [Instr.layout, parseLayout, parseVec, parse59, bind, Except.bind, pure, Except.pure]⟩
theorem RoundTrip.pset (bw : BitVec 3) (a : VSrc) : RoundTrip.Statement (.pset bw a) := by
  exact fun _ => ⟨rfl, by simp [Instr.layout, parseLayout, parseVec, parse59, bind, Except.bind, pure, Except.pure]⟩
theorem RoundTrip.vtopkr (f : Fmt) (d : VDst) (a : VSrc) (b : Src) (mask : Option VSrc) : RoundTrip.Statement (.vtopkr f d a b mask) := by
  exact fun _ => ⟨rfl, by simp [Instr.layout, parseLayout, parseVec, parse5A, bind, Except.bind, pure, Except.pure]⟩
theorem RoundTrip.vbuck (f : Fmt) (uns : Bool) (d : VDst) (a : VSrc) (b : VSrc) (c : Src) : RoundTrip.Statement (.vbuck f uns d a b c) := by
  exact fun _ => ⟨rfl, by simp [Instr.layout, parseLayout, parseVec, parse5A, bind, Except.bind, pure, Except.pure]⟩
theorem RoundTrip.vmov (d : VDst) (a : VSrc) : RoundTrip.Statement (.vmov d a) := by
  exact fun _ => ⟨rfl, by simp [Instr.layout, parseLayout, parseVec, parse5B, bind, Except.bind, pure, Except.pure]⟩
theorem RoundTrip.vget (f : Fmt) (d : Dst) (a : VSrc) (b : Src) : RoundTrip.Statement (.vget f d a b) := by
  exact fun _ => ⟨rfl, by simp [Instr.layout, parseLayout, parseVec, parse5B, bind, Except.bind, pure, Except.pure]⟩
theorem RoundTrip.vput (f : Fmt) (d : VDst) (a : VSrc) (b : Src) (c : Src) : RoundTrip.Statement (.vput f d a b c) := by
  exact fun _ => ⟨rfl, by simp [Instr.layout, parseLayout, parseVec, parse5B, bind, Except.bind, pure, Except.pure]⟩
theorem RoundTrip.vli (f : Fmt) (d : VDst) (imm : BitVec 24) : RoundTrip.Statement (.vli f d imm) := by
  exact fun _ => ⟨rfl, by simp [Instr.layout, parseLayout, parseRri, bind, Except.bind, pure, Except.pure]⟩
theorem RoundTrip.oclaim (first : BitVec 6) (count : BitVec 7) : RoundTrip.Statement (.oclaim first count) := by
  exact fun _ => ⟨rfl, by simp [Instr.layout, parseLayout, parseRrr, parse70, bind, Except.bind, pure, Except.pure]⟩
theorem RoundTrip.orelease (first : BitVec 6) (count : BitVec 7) : RoundTrip.Statement (.orelease first count) := by
  exact fun _ => ⟨rfl, by simp [Instr.layout, parseLayout, parseRrr, parse70, bind, Except.bind, pure, Except.pure]⟩
theorem RoundTrip.mstr (a : Src) (b : Src) : RoundTrip.Statement (.mstr a b) := by
  exact fun _ => ⟨rfl, by simp [Instr.layout, parseLayout, parseRrr, parse71, bind, Except.bind, pure, Except.pure]⟩
theorem RoundTrip.mwait (n : BitVec 4) : RoundTrip.Statement (.mwait n) := by
  exact fun _ => ⟨rfl, by simp [Instr.layout, parseLayout, parseRrr, parse71, bind, Except.bind, pure, Except.pure]⟩
theorem RoundTrip.mcfg (d : Dst) (a : Src) : RoundTrip.Statement (.mcfg d a) := by
  exact fun _ => ⟨rfl, by simp [Instr.layout, parseLayout, parseRrr, parse71, bind, Except.bind, pure, Except.pure]⟩
theorem RoundTrip.mstat (d : Dst) : RoundTrip.Statement (.mstat d) := by
  exact fun _ => ⟨rfl, by simp [Instr.layout, parseLayout, parseRrr, parse71, bind, Except.bind, pure, Except.pure]⟩
theorem RoundTrip.rwaitEnd (r : CtxRef) : RoundTrip.Statement (.rwaitEnd r) := RoundTrip.of_not_wf rfl
theorem RoundTrip.evwaitEnd (r : CtxRef) : RoundTrip.Statement (.evwaitEnd r) := RoundTrip.of_not_wf rfl
theorem RoundTrip.bwaitEnd (r : CtxRef) : RoundTrip.Statement (.bwaitEnd r) := RoundTrip.of_not_wf rfl
theorem RoundTrip.mwaitEnd (r : CtxRef) : RoundTrip.Statement (.mwaitEnd r) := RoundTrip.of_not_wf rfl
theorem RoundTrip.waitiEnd (r : CtxRef) : RoundTrip.Statement (.waitiEnd r) := RoundTrip.of_not_wf rfl
theorem RoundTrip.wedge (r : CtxRef) : RoundTrip.Statement (.wedge r) := RoundTrip.of_not_wf rfl
theorem RoundTrip.enqAppend (r : CtxRef) : RoundTrip.Statement (.enqAppend r) := RoundTrip.of_not_wf rfl
theorem RoundTrip.commandStart (core : Nat) (q : Nat) : RoundTrip.Statement (.commandStart core q) := RoundTrip.of_not_wf rfl
theorem RoundTrip.copy (core : Nat) (q : Nat) (sel : Option (List Nat)) : RoundTrip.Statement (.copy core q sel) := RoundTrip.of_not_wf rfl
theorem RoundTrip.fill (core : Nat) (q : Nat) (sel : Option (List Nat)) : RoundTrip.Statement (.fill core q sel) := RoundTrip.of_not_wf rfl
theorem RoundTrip.convert (core : Nat) (q : Nat) (sel : Option (List Nat)) : RoundTrip.Statement (.convert core q sel) := RoundTrip.of_not_wf rfl
theorem RoundTrip.gather (core : Nat) (q : Nat) (sel : Option (List Nat)) : RoundTrip.Statement (.gather core q sel) := RoundTrip.of_not_wf rfl
theorem RoundTrip.scatter (core : Nat) (q : Nat) (sel : Option (List Nat)) : RoundTrip.Statement (.scatter core q sel) := RoundTrip.of_not_wf rfl
theorem RoundTrip.encode (core : Nat) (q : Nat) (sel : Option (List Nat)) : RoundTrip.Statement (.encode core q sel) := RoundTrip.of_not_wf rfl
theorem RoundTrip.a2a (core : Nat) (q : Nat) : RoundTrip.Statement (.a2a core q) := RoundTrip.of_not_wf rfl
theorem RoundTrip.a2aDelivery (index : Nat) : RoundTrip.Statement (.a2aDelivery index) := RoundTrip.of_not_wf rfl
theorem RoundTrip.commandRetire (core : Nat) (q : Nat) : RoundTrip.Statement (.commandRetire core q) := RoundTrip.of_not_wf rfl
theorem RoundTrip.chainFetch (core : Nat) (q : Nat) : RoundTrip.Statement (.chainFetch core q) := RoundTrip.of_not_wf rfl
theorem RoundTrip.streamAppend (r : CtxRef) : RoundTrip.Statement (.streamAppend r) := RoundTrip.of_not_wf rfl
theorem RoundTrip.streamStart (core : Nat) : RoundTrip.Statement (.streamStart core) := RoundTrip.of_not_wf rfl
theorem RoundTrip.recordFetch (core : Nat) : RoundTrip.Statement (.recordFetch core) := RoundTrip.of_not_wf rfl
theorem RoundTrip.mma (core : Nat) : RoundTrip.Statement (.mma core) := RoundTrip.of_not_wf rfl
theorem RoundTrip.mmaz (core : Nat) : RoundTrip.Statement (.mmaz core) := RoundTrip.of_not_wf rfl
theorem RoundTrip.maddz (core : Nat) : RoundTrip.Statement (.maddz core) := RoundTrip.of_not_wf rfl
theorem RoundTrip.mscl (core : Nat) : RoundTrip.Statement (.mscl core) := RoundTrip.of_not_wf rfl
theorem RoundTrip.mconv (core : Nat) : RoundTrip.Statement (.mconv core) := RoundTrip.of_not_wf rfl
theorem RoundTrip.streamComplete (core : Nat) : RoundTrip.Statement (.streamComplete core) := RoundTrip.of_not_wf rfl
theorem RoundTrip.sequencerTrap (r : CtxRef) : RoundTrip.Statement (.sequencerTrap r) := RoundTrip.of_not_wf rfl
theorem RoundTrip.accessPerform (r : CtxRef) (q : QueueSel) (fill : Bool) (ecc : Ecc) : RoundTrip.Statement (.accessPerform r q fill ecc) := RoundTrip.of_not_wf rfl
theorem RoundTrip.redEntryPerform (index : Nat) : RoundTrip.Statement (.redEntryPerform index) := RoundTrip.of_not_wf rfl
theorem RoundTrip.lineWriteback (line : LineSel) : RoundTrip.Statement (.lineWriteback line) := RoundTrip.of_not_wf rfl
theorem RoundTrip.storeFaultReport (r : CtxRef) : RoundTrip.Statement (.storeFaultReport r) := RoundTrip.of_not_wf rfl
theorem RoundTrip.bankRetention (core : Nat) (bank : Nat) : RoundTrip.Statement (.bankRetention core bank) := RoundTrip.of_not_wf rfl
theorem RoundTrip.bsigArrival (who : List CtxRef) : RoundTrip.Statement (.bsigArrival who) := RoundTrip.of_not_wf rfl
theorem RoundTrip.evsigArrival (r : CtxRef) : RoundTrip.Statement (.evsigArrival r) := RoundTrip.of_not_wf rfl
theorem RoundTrip.lockRequest (r : CtxRef) : RoundTrip.Statement (.lockRequest r) := RoundTrip.of_not_wf rfl
theorem RoundTrip.lockRelease (r : CtxRef) : RoundTrip.Statement (.lockRelease r) := RoundTrip.of_not_wf rfl
theorem RoundTrip.wound (core : Nat) (choice : DiscardChoice) : RoundTrip.Statement (.wound core choice) := RoundTrip.of_not_wf rfl
theorem RoundTrip.trapEntry (r : CtxRef) : RoundTrip.Statement (.trapEntry r) := RoundTrip.of_not_wf rfl
theorem RoundTrip.tctlRequeue (r : CtxRef) (choice : DiscardChoice) : RoundTrip.Statement (.tctlRequeue r choice) := RoundTrip.of_not_wf rfl
theorem RoundTrip.tctlFatal (r : CtxRef) (cause : BitVec 8) : RoundTrip.Statement (.tctlFatal r cause) := RoundTrip.of_not_wf rfl
theorem RoundTrip.codesetWrite (r : CtxRef) (value : W64) : RoundTrip.Statement (.codesetWrite r value) := RoundTrip.of_not_wf rfl
theorem RoundTrip.lkmtxWrite (r : CtxRef) (domain : BitVec 2) (value : W64) : RoundTrip.Statement (.lkmtxWrite r domain value) := RoundTrip.of_not_wf rfl
theorem RoundTrip.commitWindowExpiry (core : Nat) : RoundTrip.Statement (.commitWindowExpiry core) := RoundTrip.of_not_wf rfl
theorem RoundTrip.plotRetire (core : Nat) : RoundTrip.Statement (.plotRetire core) := RoundTrip.of_not_wf rfl
theorem RoundTrip.pairCompare (slot : Nat) (plot : Nat) : RoundTrip.Statement (.pairCompare slot plot) := RoundTrip.of_not_wf rfl
theorem RoundTrip.claim (w : PortWrite) : RoundTrip.Statement (.claim w) := RoundTrip.of_not_wf rfl
theorem RoundTrip.leaseRenew (port : BitVec 1) (value : W64) : RoundTrip.Statement (.leaseRenew port value) := RoundTrip.of_not_wf rfl
theorem RoundTrip.ownershipLapse : RoundTrip.Statement (.ownershipLapse) := RoundTrip.of_not_wf rfl
theorem RoundTrip.handover (w : PortWrite) : RoundTrip.Statement (.handover w) := RoundTrip.of_not_wf rfl
theorem RoundTrip.queueEnable (port : BitVec 1) (q : Nat) (value : W64) : RoundTrip.Statement (.queueEnable port q value) := RoundTrip.of_not_wf rfl
theorem RoundTrip.queueDisable (port : BitVec 1) (q : Nat) (value : W64) : RoundTrip.Statement (.queueDisable port q value) := RoundTrip.of_not_wf rfl
theorem RoundTrip.abort (port : BitVec 1) (q : Nat) : RoundTrip.Statement (.abort port q) := RoundTrip.of_not_wf rfl
theorem RoundTrip.poke (port : BitVec 1) (q : Nat) : RoundTrip.Statement (.poke port q) := RoundTrip.of_not_wf rfl
theorem RoundTrip.qtail (port : BitVec 1) (q : Nat) (value : W64) : RoundTrip.Statement (.qtail port q value) := RoundTrip.of_not_wf rfl
theorem RoundTrip.sqEnable (port : BitVec 1) (value : W64) : RoundTrip.Statement (.sqEnable port value) := RoundTrip.of_not_wf rfl
theorem RoundTrip.sqDisable (port : BitVec 1) (value : W64) : RoundTrip.Statement (.sqDisable port value) := RoundTrip.of_not_wf rfl
theorem RoundTrip.sqtail (port : BitVec 1) (value : W64) : RoundTrip.Statement (.sqtail port value) := RoundTrip.of_not_wf rfl
theorem RoundTrip.launchCheck (q : Nat) : RoundTrip.Statement (.launchCheck q) := RoundTrip.of_not_wf rfl
theorem RoundTrip.waitdepRecheck : RoundTrip.Statement (.waitdepRecheck) := RoundTrip.of_not_wf rfl
theorem RoundTrip.dispatch : RoundTrip.Statement (.dispatch) := RoundTrip.of_not_wf rfl
theorem RoundTrip.costSort (slot : Nat) (segment : Nat) : RoundTrip.Statement (.costSort slot segment) := RoundTrip.of_not_wf rfl
theorem RoundTrip.launchComplete (slot : Nat) : RoundTrip.Statement (.launchComplete slot) := RoundTrip.of_not_wf rfl
theorem RoundTrip.steal (thief : Nat) (slot : Nat) : RoundTrip.Statement (.steal thief slot) := RoundTrip.of_not_wf rfl
theorem RoundTrip.coreHandout (chip : Nat) : RoundTrip.Statement (.coreHandout chip) := RoundTrip.of_not_wf rfl
theorem RoundTrip.plotStart (core : Nat) : RoundTrip.Statement (.plotStart core) := RoundTrip.of_not_wf rfl
theorem RoundTrip.walkerPreempt (chip : Nat) (choice : DiscardChoice) : RoundTrip.Statement (.walkerPreempt chip choice) := RoundTrip.of_not_wf rfl
theorem RoundTrip.persistentSwap (core : Nat) : RoundTrip.Statement (.persistentSwap core) := RoundTrip.of_not_wf rfl
theorem RoundTrip.teamResume (core : Nat) : RoundTrip.Statement (.teamResume core) := RoundTrip.of_not_wf rfl
theorem RoundTrip.election (slot : Nat) : RoundTrip.Statement (.election slot) := RoundTrip.of_not_wf rfl
theorem RoundTrip.gleaner (chip : Nat) : RoundTrip.Statement (.gleaner chip) := RoundTrip.of_not_wf rfl
theorem RoundTrip.chipletFatal (chip : Nat) (cause : BitVec 8) (scanFails : Bool) : RoundTrip.Statement (.chipletFatal chip cause scanFails) := RoundTrip.of_not_wf rfl
theorem RoundTrip.deviceFatal (cause : BitVec 8) : RoundTrip.Statement (.deviceFatal cause) := RoundTrip.of_not_wf rfl
theorem RoundTrip.sheafSubmit (r : CtxRef) : RoundTrip.Statement (.sheafSubmit r) := RoundTrip.of_not_wf rfl
theorem RoundTrip.sheafTake : RoundTrip.Statement (.sheafTake) := RoundTrip.of_not_wf rfl
theorem RoundTrip.sheafSplit (id : Nat) : RoundTrip.Statement (.sheafSplit id) := RoundTrip.of_not_wf rfl
theorem RoundTrip.returnArrival (id : Nat) (task : Nat) (tile : Nat) : RoundTrip.Statement (.returnArrival id task tile) := RoundTrip.of_not_wf rfl
theorem RoundTrip.sheafTimeout (id : Nat) : RoundTrip.Statement (.sheafTimeout id) := RoundTrip.of_not_wf rfl
theorem RoundTrip.invalidationStart (port : BitVec 1) (value : W64) : RoundTrip.Statement (.invalidationStart port value) := RoundTrip.of_not_wf rfl
theorem RoundTrip.invalidationDelivery : RoundTrip.Statement (.invalidationDelivery) := RoundTrip.of_not_wf rfl
theorem RoundTrip.invalidationDrain : RoundTrip.Statement (.invalidationDrain) := RoundTrip.of_not_wf rfl
theorem RoundTrip.warm (w : PortWrite) : RoundTrip.Statement (.warm w) := RoundTrip.of_not_wf rfl
theorem RoundTrip.fencectlFence (port : BitVec 1) (value : W64) : RoundTrip.Statement (.fencectlFence port value) := RoundTrip.of_not_wf rfl
theorem RoundTrip.unfence (port : BitVec 1) (value : W64) : RoundTrip.Statement (.unfence port value) := RoundTrip.of_not_wf rfl
theorem RoundTrip.unfenceComplete (chip : Nat) (passed : Bool) : RoundTrip.Statement (.unfenceComplete chip passed) := RoundTrip.of_not_wf rfl
theorem RoundTrip.bankClear (port : BitVec 1) (bank : Nat) : RoundTrip.Statement (.bankClear port bank) := RoundTrip.of_not_wf rfl
theorem RoundTrip.injectionArm (port : BitVec 1) (value : W64) : RoundTrip.Statement (.injectionArm port value) := RoundTrip.of_not_wf rfl
theorem RoundTrip.sensorForce (port : BitVec 1) (value : W64) : RoundTrip.Statement (.sensorForce port value) := RoundTrip.of_not_wf rfl
theorem RoundTrip.registerWrite (port : BitVec 1) (off : Nat) (value : W64) : RoundTrip.Statement (.registerWrite port off value) := RoundTrip.of_not_wf rfl
theorem RoundTrip.hostWrite (port : BitVec 1) (pa : Nat) (bytes : List Byte) : RoundTrip.Statement (.hostWrite port pa bytes) := RoundTrip.of_not_wf rfl
theorem RoundTrip.hostRead (port : BitVec 1) (bar : Bar) (addr : Nat) (n : Nat) : RoundTrip.Statement (.hostRead port bar addr n) := RoundTrip.of_not_wf rfl
theorem RoundTrip.migrationRequest (core : Nat) : RoundTrip.Statement (.migrationRequest core) := RoundTrip.of_not_wf rfl
theorem RoundTrip.migrationRetry (core : Nat) : RoundTrip.Statement (.migrationRetry core) := RoundTrip.of_not_wf rfl
theorem RoundTrip.migrationTimeout (core : Nat) : RoundTrip.Statement (.migrationTimeout core) := RoundTrip.of_not_wf rfl
theorem RoundTrip.migration (core : Nat) : RoundTrip.Statement (.migration core) := RoundTrip.of_not_wf rfl
theorem RoundTrip.lease (seq : BitVec 32) (watts : BitVec 16) (durms : BitVec 32) : RoundTrip.Statement (.lease seq watts durms) := RoundTrip.of_not_wf rfl
theorem RoundTrip.leaseLapse : RoundTrip.Statement (.leaseLapse) := RoundTrip.of_not_wf rfl
theorem RoundTrip.railChange (rail : BitVec 2) : RoundTrip.Statement (.railChange rail) := RoundTrip.of_not_wf rfl
theorem RoundTrip.optTableLearn (kernel : BitVec 16) (phase : BitVec 8) (edp : BitVec 16) : RoundTrip.Statement (.optTableLearn kernel phase edp) := RoundTrip.of_not_wf rfl
theorem RoundTrip.thermalThrottle (chip : Nat) : RoundTrip.Statement (.thermalThrottle chip) := RoundTrip.of_not_wf rfl
theorem RoundTrip.thermalTrip (chip : Nat) : RoundTrip.Statement (.thermalTrip chip) := RoundTrip.of_not_wf rfl
theorem RoundTrip.hbmRefresh (chip : Nat) : RoundTrip.Statement (.hbmRefresh chip) := RoundTrip.of_not_wf rfl
theorem RoundTrip.hbmTrip (chip : Nat) : RoundTrip.Statement (.hbmTrip chip) := RoundTrip.of_not_wf rfl
theorem RoundTrip.portRetrain (port : Nat) (status : W64) : RoundTrip.Statement (.portRetrain port status) := RoundTrip.of_not_wf rfl
theorem RoundTrip.coldReset : RoundTrip.Statement (.coldReset) := RoundTrip.of_not_wf rfl
theorem RoundTrip.perst (port0 : Bool) (port1 : Bool) : RoundTrip.Statement (.perst port0 port1) := RoundTrip.of_not_wf rfl
theorem RoundTrip.bringUp (data : BringUpData) : RoundTrip.Statement (.bringUp data) := RoundTrip.of_not_wf rfl
theorem RoundTrip.telemetry : RoundTrip.Statement (.telemetry) := RoundTrip.of_not_wf rfl
theorem RoundTrip.errbank (n : Nat) : RoundTrip.Statement (.errbank n) := RoundTrip.of_not_wf rfl
theorem RoundTrip.events (index : Nat) : RoundTrip.Statement (.events index) := RoundTrip.of_not_wf rfl
theorem RoundTrip.fwupdate (image : List Byte) : RoundTrip.Statement (.fwupdate image) := RoundTrip.of_not_wf rfl
theorem RoundTrip.reset : RoundTrip.Statement (.reset) := RoundTrip.of_not_wf rfl
theorem RoundTrip.getVersion : RoundTrip.Statement (.getVersion) := RoundTrip.of_not_wf rfl
theorem RoundTrip.getCapabilities : RoundTrip.Statement (.getCapabilities) := RoundTrip.of_not_wf rfl
theorem RoundTrip.negotiateAlgorithms : RoundTrip.Statement (.negotiateAlgorithms) := RoundTrip.of_not_wf rfl
theorem RoundTrip.getDigests : RoundTrip.Statement (.getDigests) := RoundTrip.of_not_wf rfl
theorem RoundTrip.getCertificate : RoundTrip.Statement (.getCertificate) := RoundTrip.of_not_wf rfl
theorem RoundTrip.challenge (nonce : List Byte) : RoundTrip.Statement (.challenge nonce) := RoundTrip.of_not_wf rfl
theorem RoundTrip.getMeasurements : RoundTrip.Statement (.getMeasurements) := RoundTrip.of_not_wf rfl
theorem RoundTrip.sensorBelow85 (core : Nat) : RoundTrip.Statement (.sensorBelow85 core) := RoundTrip.of_not_wf rfl
theorem RoundTrip.linkUp (port : BitVec 1) : RoundTrip.Statement (.linkUp port) := RoundTrip.of_not_wf rfl
theorem RoundTrip.rowNeighbourLinkDown (chip : Nat) : RoundTrip.Statement (.rowNeighbourLinkDown chip) := RoundTrip.of_not_wf rfl
theorem RoundTrip.fabricWindowArrival (op : FabricOp) : RoundTrip.Statement (.fabricWindowArrival op) := RoundTrip.of_not_wf rfl
theorem RoundTrip.podTaskArrival (descriptor : List Byte) : RoundTrip.Statement (.podTaskArrival descriptor) := RoundTrip.of_not_wf rfl

end Sys2Proof.Laws
end

