-- ==== Sys2Proof/Tests/Slice0.lean ====
section
/-! SUPPORT. Tests: words from the encoding tables, ill-formed syllables, and for each statement with hypotheses a state
and operands that meet them, clause by clause. -/

set_option Elab.async false

namespace Sys2Proof.Tests

open Sys2Proof.Machine

/-! ### Words of the encoding tables, field by field -/

/-- A word from its fields: each a place of its lowest bit and a value. -/
def fields (fs : List (Nat × Nat)) : W64 := BitVec.ofNat 64 ((fs.map fun f => f.2 * 2 ^ f.1).sum)

/-- What a word decodes to. -/
def reads (fs : List (Nat × Nat)) (i : Instr) : Bool :=
  match decodeWord (fields fs) with
  | .ok y => y == ⟨false, 0, false, i⟩
  | .error _ => false

/-- A syllable is refused: it is ill-formed, and its encoding decodes to nothing. -/
def refused (i : Instr) : Bool :=
  !(Syllable.mk false 0 false i).wf && match decodeWord (Syllable.mk false 0 false i).encode with
    | .ok _ => false
    | .error _ => true

/-! ### A small machine -/

/-- A result of a meaning's part, and a question about it. -/
def via {α : Type} (r : Except Stop (α × State)) (f : α → State → Bool) : Bool :=
  match r with
  | .ok (x, s) => f x s
  | .error _ => false

/-- The state that exec answers, and a question about it. -/
def after (o : Host.Outcome State Fault Refusal) (f : State → Bool) : Bool :=
  match o with
  | .next t => f t
  | _ => false

/-- Page tables in HBM that map the first GB of ASID 0 onto itself with C = 0, and R, W, X and U set; behind them the
records that tests place. -/
def tmem : Mem :=
  Mem.write (Mem.write (Mem.write [] 0 (leBytes 8 0x100001)) 0x100000 (leBytes 8 0x300001)) 0x300000 (leBytes 8 0x3F)

def tpage : TlbEntry := ⟨0, 0, 30, 0, 15⟩

/-- A context with values in g0 to g7, a bit in bq, and images in v0 to v3. -/
def tctx : Ctx := { Ctx.start with
  halted := false
  scalars := [(0, oneEntry 12), (1, oneEntry 5), (2, oneEntry 4096), (3, oneEntry 64), (4, oneEntry 0), (5, oneEntry 1),
    (6, oneEntry 32), (7, oneEntry 3), (61, oneEntry 1)]
  vectors := [(0, ⟨[.ready 7 0], false, false, .live, none⟩), (1, ⟨[.ready 9 0], false, false, .live, none⟩),
    (2, ⟨[.ready 1 0], false, false, .live, none⟩), (3, ⟨[.ready 0 0], false, false, .live, none⟩)] }

def tteam : Team := { Team.none with
  age := 4
  vregs := 16
  regTop := 132
  wTop := 164
  yTop := 228
  spadTop := 292
  l1Top := 320
  ctxs := [(0, tctx)] }

def tcore : Core := { Core.reset with resident := true, team := tteam, live := BitVec.allOnes 512, itlb := [tpage], dtlb := [tpage] }

def tchip : Chip := { Chip.reset with live := true }

def thub : Hub := { Hub.reset with
  owner := 1
  ready := true
  booted := true
  challenged := [0]
  livemask := 3
  tvec := 64
  rated := 900 }

/-- Core 0 runs one context on chiplet 0, beside the live chiplet 1; port 0 owns the device. -/
def ts : State := { State.reset with
  now := 100000000
  mem := tmem
  cores := [(0, tcore)]
  chips := [(0, tchip), (1, tchip)]
  hub := thub }

/-- The machine with its context, its team, its core or its hub changed, and with a cluster that issues. -/
def tsCtx (f : Ctx → Ctx) : State := ts.modCtx 0 0 f
def tsTeam (f : Team → Team) : State := ts.modTeam 0 f
def tsHub (f : Hub → Hub) : State := { ts with hub := f ts.hub }
def onCl (cl : Cluster) (s : State) : State := { s with issue := { Issue.idle with cluster := cl } }

/-- The machine with bytes at an address. -/
def tsBytes (a : Nat) (bs : List Byte) : State := { ts with mem := Mem.write tmem a bs }

def r0 : Src := ⟨.pop, 0⟩
def r1 : Src := ⟨.pop, 1⟩
def d9 : Dst := ⟨.push, 9⟩

/-! ### Decoding -/

theorem test_decode_nop : decodeWord 0 = .ok ⟨false, 0, false, .nop⟩ := by decide +kernel
theorem test_decode_add : reads [(56, 1), (41, 3), (33, 64 + 1), (25, 2)] (.add ⟨.push, 3⟩ ⟨.keep, 1⟩ ⟨.pop, 2⟩) = true := by
  decide +kernel
theorem test_decode_lih : decodeWord 0x08008283579BDE08 =
    .ok ⟨false, 0, false, .lih ⟨.replace, 1⟩ ⟨.keep, 1⟩ 0xABCDEF⟩ := by decide +kernel
theorem test_decode_br : reads [(56, 0x20), (9, 0xFFFFFFFF)] (.br 0xFFFFFFFF) = true := by decide +kernel
theorem test_decode_csrr : reads [(56, 0x29), (41, 4), (17, 0x80)] (.csrr ⟨.push, 4⟩ 0x80) = true := by decide +kernel
theorem test_decode_ld : reads [(56, 0x30), (41, 5), (33, 64 + 2), (25, 63), (9, 0), (6, 2), (4, 2), (0, 2)]
    (.ld .n32 ⟨.push, 5⟩ ⟨⟨.keep, 2⟩, ⟨.pop, 63⟩, 0, .own false false .y⟩) = true := by decide +kernel
theorem test_decode_vadd : reads [(56, 0x50), (41, 1), (33, 2), (25, 3), (17, 64 + 4), (0, 4)]
    (.vadd .fp32 .rne ⟨.push, 1⟩ ⟨.pop, 2⟩ ⟨.pop, 3⟩ (some ⟨.keep, 4⟩)) = true := by decide +kernel
theorem test_decode_amo : reads [(56, 0x39), (33, 1), (25, 2), (12, 3), (9, 4), (7, 3)]
    (.amo .add .n64 .pkg .acqRel ⟨.pop, 1⟩ ⟨.pop, 2⟩) = true := by decide +kernel
theorem test_decode_lock : reads [(56, 0x3B), (33, 7), (5, 2), (3, 1), (0, 5)] (.lock .x 1 .line ⟨.pop, 7⟩) = true := by
  decide +kernel

/-! ### Ill-formed syllables -/

theorem test_refuse_lq_destination : refused (.add ⟨.push, 60⟩ r0 r1) = true := by decide +kernel
theorem test_refuse_hold_of_ctx : refused (.add d9 ⟨.hold, 62⟩ r1) = true := by decide +kernel
theorem test_refuse_cc_un : refused (.cmp .un 1 r0 r1) = true := by decide +kernel
theorem test_refuse_loop_register : refused (.loop 56 0 0) = true := by decide +kernel
theorem test_refuse_loop_stages : refused (.loop 0 0 9) = true := by decide +kernel
theorem test_refuse_csr : refused (.csrr d9 0x05) = true := by decide +kernel
theorem test_refuse_vldr_bi4 : refused (.vldr .bi4 ⟨.push, 0⟩ ⟨r0, r1, 0, .virt⟩) = true := by decide +kernel
theorem test_refuse_amo_float_add : refused (.amo .add .f32 .ctx .relaxed r0 r1) = true := by decide +kernel
theorem test_refuse_red_type : refused (.red .fadd .n32 .ctx false r0 r1) = true := by decide +kernel
theorem test_refuse_vadd_integer : refused (.vadd .i32 .rne ⟨.push, 0⟩ ⟨.pop, 1⟩ ⟨.pop, 2⟩ none) = true := by
  decide +kernel
theorem test_refuse_unsigned_wrap : refused (.viadd .i32 true false ⟨.push, 0⟩ ⟨.pop, 1⟩ ⟨.pop, 2⟩ none) = true := by
  decide +kernel
theorem test_refuse_vcmp_code : refused (.vcmp .ltn .fp32 ⟨.push, 0⟩ ⟨.pop, 1⟩ ⟨.pop, 2⟩ none) = true := by decide +kernel
theorem test_refuse_vsel_format : refused (.vsel .bi6 ⟨.push, 0⟩ ⟨.pop, 1⟩ ⟨.pop, 2⟩ ⟨.pop, 3⟩) = true := by decide +kernel
theorem test_refuse_vcvt_part : refused (.vcvt .fp32 .fp32 .rne 1 ⟨.push, 0⟩ ⟨.pop, 1⟩) = true := by decide +kernel
theorem test_refuse_vtobi_part : refused (.vtobi .bi8 .fp32 .rne 1 ⟨.push, 0⟩ ⟨.pop, 1⟩) = true := by decide +kernel
theorem test_refuse_vscanr_rounding : refused (.vscanr .i32 .rup ⟨.push, 0⟩ ⟨.pop, 1⟩ none) = true := by decide +kernel
theorem test_refuse_vredr_unsigned_sum : refused (.vredr .add .i32 .rne true ⟨.push, 0⟩ ⟨.pop, 1⟩ none) = true := by
  decide +kernel
theorem test_refuse_vtopkr_format : refused (.vtopkr .fp16 ⟨.push, 0⟩ ⟨.pop, 1⟩ r0 none) = true := by decide +kernel
theorem test_refuse_vbuck_unsigned : refused (.vbuck .fp32 true ⟨.push, 0⟩ ⟨.pop, 1⟩ ⟨.pop, 2⟩ r0) = true := by
  decide +kernel
theorem test_refuse_vli_wide : refused (.vli .bf16 ⟨.push, 0⟩ 0x10000) = true := by decide +kernel
theorem test_refuse_oclaim_none : refused (.oclaim 0 0) = true := by decide +kernel
theorem test_refuse_oclaim_many : refused (.oclaim 0 65) = true := by decide +kernel
theorem test_refuse_mwait : refused (.mwait 9) = true := by decide +kernel
theorem test_device_step_is_no_syllable : (Syllable.mk false 0 false .dispatch).wf = false := by decide +kernel
theorem test_refuse_major : (decodeWord (fields [(56, 0x09)])).toOption = none := by decide +kernel
theorem test_refuse_impure_nop : (decodeWord 1).toOption = none := by decide +kernel

/-! ### Placing a syllable -/

theorem test_first_step_adds : after (step (State.reset.withFetchWord 64 0)) (fun t => (t.ctx 0 0).issued == 1) = true := by
  decide +kernel

/-! ### Issue and operands -/

/-- ADD r9 := g0 + g1 in slot C of the bundle at 0, NOPs beside it. -/
def addWord : W64 := fields [(56, 1), (41, 9), (33, 0), (25, 1)]
def bundle (y : Bool) (w : W64) : List Byte :=
  leBytes 8 (w.toNat + if y then 2 ^ 63 else 0) ++ leBytes 8 0 ++ leBytes 8 0 ++ leBytes 8 0
def tsCode (bs : List Byte) (apart : Bool) : State :=
  { tsCtx (fun c => { c with code := Mem.write [] 0 bs, apart := apart }) with turn := [.issue 0 0 .c] }

/-- The common hypotheses of a step of issue: the context may issue, and its counter's bytes are fetched. -/
def mayMove (s : State) : Bool :=
  let c := s.ctx 0 0
  s.turn == [.issue 0 0 .c] && (s.core 0).resident && !(s.core 0).stopping && !c.halted && c.trapDue.isNone
    && (c.dueCause .c).isNone && c.finishing.isNone && !c.csrWaits && c.c.ready && !beyondReach { s with turn := [] } 0 0 .c
def mayIssue (s : State) : Bool :=
  let c := s.ctx 0 0
  mayMove s && match State.fetchAt { s with turn := [] } 0 0 c.c.pc with
    | (.ok pa _, s1) => Cluster.all.all (fun x => Ctx.cluster (s1.ctx 0 0) x == Ctx.cluster c x)
        && !(s1.ctx 0 0).debugs c.c.pc && (debugSlots (s1.ctx 0 0) c.c.pc).isEmpty
        && (decodeWord (codeWord (s1.ctx 0 0) pa)).toOption.isSome
    | _ => false

theorem wit_stream_step : (mayIssue (tsCode (bundle false addWord) true) && ((tsCode (bundle false addWord) true).ctx 0 0).apart
    && streamOk 16 .c (Syllable.mk false 0 false (.add d9 r0 r1))) = true := by decide +kernel
theorem wit_loose_step : (mayIssue (tsCode (bundle false addWord) false)
    && (badSlots 16 (fetchSlots ((tsCode (bundle false addWord) false).ctx 0 0) 0)).isEmpty
    && ((tsCode (bundle false addWord) false).pushClash 0 0 .c
      (fetchSlots ((tsCode (bundle false addWord) false).ctx 0 0) 0)).isNone) = true := by decide +kernel
theorem test_loose_step_adds : after (step (tsCode (bundle false addWord) false)) (fun t =>
    ((t.ctx 0 0).squeue 9).entries == [.ready 17 false] && (t.ctx 0 0).c.pc == 32 && (t.ctx 0 0).a.pc == 0) = true := by
  decide +kernel
theorem wit_sync_bundle : via (readSrc r0 ((onCl .c ts).beginSlot 0 0 .c 0 addWord false)) (fun x s1 =>
    via (readSrc r1 s1) fun y s2 =>
      let t := State.beginSlot { s2 with issue := { s2.issue with writes := [.scalar .c d9 (.ready (x + y) false)] } }
        0 0 .a 8 0 false
      via (readSrc ⟨.pop, 3⟩ t) fun v s3 => via (readSrc ⟨.pop, 6⟩ s3) fun w s4 =>
        x + y == 17 && v + w == 96 && (s4.cur.unbind).takes .c d9
          && ((s4.cur.unbind).put .c d9 (.ready 17 false)).takes .a ⟨.push, 10⟩) = true := by decide +kernel
def tsIllegal : State := tsCode (leBytes 8 addWord.toNat ++ leBytes 8 1) false
theorem wit_illegal_slot : (mayIssue tsIllegal && badSlots 16 (fetchSlots (tsIllegal.ctx 0 0) 0) == [1]
    && Cluster.all.all fun x => decide ((Ctx.cluster (tsIllegal.ctx 0 0) x).front ≤ (tsIllegal.ctx 0 0).c.front)) = true := by
  decide +kernel
theorem test_illegal_slot : after (step tsIllegal) (fun t => (t.ctx 0 0).tval == 1
    && (t.ctx 0 0).tcause == BitVec.ofNat 16 (0xF * 2 ^ 12 + 1 * 2 ^ 8 + causeILLEGAL) && (t.ctx 0 0).issued == 0) = true := by
  decide +kernel
/-- Cluster C has gone a bundle ahead, to one whose slot A is illegal. -/
def tsBehind : State := (tsCode (bundle false 0 ++ leBytes 8 addWord.toNat ++ leBytes 8 1) false).modCtx 0 0 fun c =>
  { c with c := { c.c with pc := 32 } }
theorem wit_illegal_slot_waits : (mayIssue tsBehind && !(tsBehind.ctx 0 0).atBundle .c .a
    && badSlots 16 (fetchSlots (tsBehind.ctx 0 0) 32) == [1]
    && Cluster.all.all fun x => decide ((Ctx.cluster (tsBehind.ctx 0 0) x).front ≤ (tsBehind.ctx 0 0).c.front)) = true := by
  decide +kernel
theorem test_illegal_slot_waits : after (step tsBehind) (fun t => (t.ctx 0 0).trapDue.isNone && !(t.ctx 0 0).sup
    && (t.ctx 0 0).issued == 0) = true := by decide +kernel
def tsNoPage : State := { (tsCode [] false) with cores := [(0, { tcore with itlb := [] })], mem := [] }
theorem wit_fetch_fault : (mayMove tsNoPage && match State.fetchAt { tsNoPage with turn := [] } 0 0 0 with
    | (.bad c, s1) => c == causeXLATE && Cluster.all.all fun x => Ctx.cluster (s1.ctx 0 0) x == Ctx.cluster (tsNoPage.ctx 0 0) x
    | _ => false) = true := by decide +kernel

theorem wit_source_z : (⟨.pop, 63⟩ : Src).reg.toNat = 63 := by decide
theorem wit_source_ready : ((ts.cur.squeue 0).cond == .live && (ts.cur.squeue 0).entries == [.ready 12 false]) = true := by
  decide +kernel
theorem wit_source_dead : (((tsCtx fun c => c.setSqueue 8 ⟨[], true, false, .dead, none⟩).cur.squeue 8).cond == .dead) = true := by
  decide +kernel
theorem wit_source_poisoned : (((tsCtx fun c => c.setSqueue 8 ⟨[.ready 3 true], false, false, .live, none⟩).cur.squeue 8).entries
    == [.ready 3 true]) = true := by decide +kernel
theorem wit_source_empty : ((ts.cur.squeue 20).entries.isEmpty && (ts.cur.squeue 20).cond != .dead) = true := by decide +kernel
theorem wit_destination_bound : via (readSrc r0 ((tsCtx fun c => c.setSqueue 9 ⟨[], false, false, .idle, some .m⟩))) (fun _ s1 =>
    via (readSrc r1 s1) fun _ s2 => (s2.cur.squeue 9).producer == some .m && ts.issue.cluster == .c) = true := by
  decide +kernel
def fullG9 : State := tsCtx fun c => c.setSqueue 9 ⟨List.replicate (queueDepth 9) (.ready 0 false), false, false, .live, none⟩
theorem wit_destination_full : via (readSrc r0 fullG9) (fun _ s1 => via (readSrc r1 s1) fun _ s2 =>
    (s2.cur.squeue 9).producer.isNone && queueDepth 9 ≤ (s2.cur.squeue 9).entries.length) = true := by decide +kernel

/-! ### Scalar and control -/

theorem wit_binary : (ts.freshIssue && via (readSrc r0 ts) (fun x s1 => via (readSrc r1 s1) fun y s2 =>
    x == 12 && y == 5 && s2.cur.takes .c d9)) = true := by decide +kernel
theorem wit_binary_rule : ∃ f, BinaryRule (.sub d9 r0 r1) d9 r0 r1 f := ⟨_, .sub d9 r0 r1⟩
theorem wit_unary : (via (readSrc r0 ts) (fun _ s1 => s1.cur.takes .c d9) && ts.cur.takes .c d9
    && via (readSrcP r0 ts) (fun x s1 => !x.2 && s1.cur.takes .c d9)) = true := by decide +kernel
theorem wit_unary_rule : UnaryRule (.addi d9 r0 5) d9 r0 fun x => x + BitVec.ofInt 64 (5 : BitVec 24).toInt := .addi d9 r0 5
theorem test_sub : after (exec (.sub d9 r0 r1) ts) (fun t => (t.cur.squeue 9).entries == [.ready 7 false]
    && (t.cur.squeue 0).entries.isEmpty) = true := by decide +kernel
theorem test_mulh_negative : after (exec (.mulh d9 r0 r1) (tsCtx fun c => c.setSqueue 0 (oneEntry (2 ^ 64 - 1)))) (fun t =>
    (t.cur.squeue 9).entries == [.ready (BitVec.ofInt 64 (-1)) false]) = true := by decide +kernel
theorem test_div_by_zero : after (exec (.div d9 r0 ⟨.pop, 4⟩) ts) (fun t =>
    (t.cur.squeue 9).entries == [.ready (BitVec.ofInt 64 (-1)) false]) = true := by decide +kernel
theorem wit_sel : via (readSrcP r0 ts) (fun _ s1 => via (readSrcP r1 s1) fun _ s2 => s2.cur.takes .c d9) = true := by
  decide +kernel
theorem wit_cmp : (Cc.lt != Cc.un && via (readSrc r0 ts) (fun _ s1 => via (readSrc r1 s1) fun _ _ => true)) = true := by
  decide +kernel
theorem wit_pred_rule : PredRule (.pnot 1 2) 1 fun s => !s.pred 2 := .pnot 1 2
theorem test_cmp_signed : after (exec (.cmp .lt 3 r0 r1) (tsCtx fun c => c.setSqueue 0 (oneEntry (2 ^ 64 - 1)))) (fun t =>
    t.cur.c.preds.getLsbD 3) = true := by decide +kernel
theorem wit_branch_aligned : (ts.cur.targetOk (ts.brTarget 4) && !ts.cur.targetOk (ts.brTarget 1)) = true := by decide +kernel
theorem wit_bri : (via (readSrc ⟨.pop, 2⟩ ts) (fun x _ => ts.cur.targetOk x)
    && via (readSrc r0 ts) (fun x _ => !ts.cur.targetOk x)) = true := by decide +kernel
theorem test_br : after (exec (.br 4) ts) (fun t => t.cur.c.pc == 32 && t.cur.m.pc == 32) = true := by decide +kernel
theorem wit_loop : ((ts.cur.squeue 0).entries == [.ready 12 false] && (ts.cur.squeue 0).producer.isNone
    && ts.cur.targetOk (ts.brTarget 4) && (ts.cur.squeue 0).cond == .live) = true := by decide +kernel
theorem test_loop_ends : after (exec (.loop 5 4 0) ts) (fun t => (t.cur.squeue 5).entries == [.ready 0 false]
    && t.cur.c.pc == 32) = true := by decide +kernel
def tsJoin (st : ClusterStatus) : State := onCl .a (tsCtx fun c => { c with
  apart := true, joins := 1, c := { c.c with status := .joined 64 0 0 }, v := { c.v with status := .resting }, m := { c.m with status := st } })
theorem wit_join_waits : (tsJoin .running).freshIssue = true := by decide +kernel
theorem wit_join_meets : ((tsJoin .resting).brTarget 8 == 64) = true := by decide +kernel
theorem wit_join_differs : ((tsJoin .resting).brTarget 12 != 64 && ((tsJoin .resting).brTarget 12).toNat % 32 == 0) = true := by
  decide +kernel
theorem wit_join_misaligned : ((ts.brTarget 1).toNat % 32 != 0) = true := by decide +kernel
theorem test_join_meets : after (exec (.join 8) (tsJoin .resting)) (fun t => !t.cur.apart && t.cur.v.pc == 64) = true := by
  decide +kernel
theorem wit_brq : via (readSrc ⟨.pop, 61⟩ ts) (fun b _ => b == 1 && ((b != 0) ^^ false) && !((b != 0) ^^ true)
    && ts.cur.targetOk (ts.brTarget 4) && !ts.cur.targetOk (ts.brTarget 1)) = true := by decide +kernel
theorem wit_pushb : ts.cur.takes .c ⟨.push, 61⟩ = true := by decide +kernel


/-! ### Memory -/

/-- A memory operand: base, index g4 = 0, displacement 0. -/
def mAt (base : Src) (sp : Space) : MemOp := ⟨base, ⟨.pop, 4⟩, 0, sp⟩
def r2 : Src := ⟨.pop, 2⟩
def v9 : VDst := ⟨.push, 9⟩
def w0 : VSrc := ⟨.pop, 0⟩
def w1 : VSrc := ⟨.pop, 1⟩
def w2 : VSrc := ⟨.pop, 2⟩
def w3 : VSrc := ⟨.pop, 3⟩

/-- The Y buffer's first 1,024 bytes are live. -/
def tsLive : State := ts.modCore 0 fun c => { c with live := BitVec.allOnes 512 }
def poolOf (sp : Space) : Place := match sp with | .own _ _ b => .pool (ts.curTeam.bufStart b + 64) | _ => .pool 0

theorem wit_address : via (readSrc r2 ts) (fun b s1 => via (readSrc ⟨.pop, 7⟩ s1) fun x s2 => b == 4096 && x == 3
    && via (memAddress ⟨r2, ⟨.pop, 7⟩, -1, .virt⟩ 8 ts) fun ea t => ea == 4112 && t == s2) = true := by decide +kernel
theorem wit_misaligned : (ts.issue.alone
    && via (memAddress (mAt r0 .virt) 8 ts) (fun ea s1 => ea.toNat % 8 != 0 && via (readSrcP r1 s1) fun _ _ => true)
    && via (memAddress (mAt r0 .virt) 64 ts) (fun ea s1 => ea.toNat % 64 != 0 && via (readVecP w0 s1) fun _ _ => true)) = true := by
  decide +kernel
theorem wit_load_virtual : via (memAddress (mAt r2 .virt) 8 ts) (fun ea s1 => ts.freshIssue && ea.toNat % 8 == 0
    && via (resolveVirtual .load ea accRead s1) fun pl s2 => pl == .phys 4096 false && s2.cur.takes .c d9) = true := by
  decide +kernel
theorem test_load_virtual : after (exec (.ld .n64 d9 (mAt r2 .virt)) ts) (fun t =>
    (t.cur.squeue 9).entries == [.pending 0] && t.cur.loadQ.length == 1) = true := by decide +kernel
def ownHyp (s : State) (b : Buf) (n : Nat) : Bool :=
  via (memAddress (mAt ⟨.pop, 3⟩ (.own false true b)) n s) fun ea s1 => ea.toNat % n == 0
    && decide (ea.toNat + n ≤ s1.curTeam.bufSize b) && s1.cur.accesses.isEmpty && s1.redEntries.isEmpty && s1.cur.takes .c d9
theorem wit_load_own : (ownHyp ts .y 8 && !(ts.core 0).isDead (ts.curTeam.bufStart .y + 64) 8) = true := by decide +kernel
theorem test_load_own : after (exec (.ld .n64 d9 (mAt ⟨.pop, 3⟩ (.own false true .y))) ts) (fun t =>
    (t.cur.squeue 9).entries == [.ready 0 false] && (t.core 0).isDead (ts.curTeam.bufStart .y + 64) 8) = true := by
  decide +kernel
def tsDead : State := ts.modCore 0 fun c => { c with live := 0 }
theorem wit_load_dead : (ownHyp tsDead .w 8 && (tsDead.core 0).isDead (tsDead.curTeam.bufStart .w + 64) 8) = true := by
  decide +kernel
def tsFar : State := tsCtx fun c => c.setSqueue 2 (oneEntry (2 ^ 20))
theorem wit_load_past : via (memAddress (mAt r2 (.own false false .y)) 8 tsFar) (fun ea s1 =>
    decide (s1.curTeam.bufSize .y < ea.toNat + 8)) = true := by decide +kernel
theorem wit_load_z : (ts.freshIssue && via (memAddress (mAt r2 (.own false false .z)) 8 ts) fun ea _ => ea.toNat % 8 == 0) = true := by
  decide +kernel
theorem wit_store_virtual : via (memAddress (mAt r2 (.virtOrdered .pkg)) 4 ts) (fun ea s1 => ts.freshIssue && ea.toNat % 4 == 0
    && via (readSrcP r0 s1) fun v s2 => v.1 == 12 && !v.2 && via (resolveVirtual .store ea accWrite s2) fun pl s3 =>
      pl == .phys 4096 false && s3.cur.storeFaults.isEmpty) = true := by decide +kernel
theorem wit_store_own : via (memAddress (mAt r2 (.own true false .y)) 4 ts) (fun ea s1 =>
    via (readSrcP r0 s1) fun _ s2 => decide (ea.toNat + 4 ≤ s2.curTeam.bufSize .y) && s2.cur.storeFaults.isEmpty) = true := by
  decide +kernel
theorem wit_store_past : via (memAddress (mAt r2 (.own false false .y)) 4 tsFar) (fun ea s1 => ea.toNat % 4 == 0
    && via (readSrcP r0 s1) fun _ s2 => decide (s2.curTeam.bufSize .y < ea.toNat + 4)) = true := by decide +kernel
theorem wit_store_not_y : via (memAddress (mAt r2 (.own true false .w)) 4 ts) (fun ea s1 => ea.toNat % 4 == 0
    && via (readSrcP r0 s1) fun _ _ => Buf.w != .y) = true := by decide +kernel
theorem test_store_queues : after (exec (.st .n32 r0 (mAt r2 (.virtOrdered .pkg))) ts) (fun t =>
    t.cur.storeQ == [⟨0, .store [12, 0, 0, 0], none, some .pkg, [⟨4096, some (.phys 4096 false), 0, 0, 4⟩], false, [],
      [], false, false⟩]) = true := by decide +kernel

theorem wit_vector_load_rule : via (memAddress (mAt r2 .virt) 64 ts) (fun ea _ => ea == 4096) = true := by decide +kernel
theorem wit_vldr : ∃ ea s1, memAddress (mAt r2 .virt) 64 ts = .ok (ea, s1) ∧
    VLoadRule ts s1 (.vldr .i32 v9 (mAt r2 .virt)) .vload .i32 false v9 .virt [(ea, 0, 4096)] := by
  have h : ∃ ea s1, memAddress (mAt r2 .virt) 64 ts = .ok (ea, s1) ∧ ea.toNat % 64 = 0 := ⟨_, _, rfl, by decide +kernel⟩
  obtain ⟨ea, s1, h1, h2⟩ := h
  exact ⟨ea, s1, h1, .vldr _ _ _ _ _ h1 h2 (by decide)⟩
def vloadHyp (s : State) : Bool :=
  via (memAddress (mAt r2 .virt) 64 s) fun ea s1 =>
    via (resolveVector .vload accRead (sectorsFrom ea 0 4096) s1) fun ps s2 => s2.cur.vtakes .c v9 && ps.1.length == 128
theorem wit_vector_load : vloadHyp ts = true := by decide +kernel
/-- A machine whose second 64 KiB is unmapped; g2 points 2,048 bytes below it. -/
def tsHole : State := { tsCtx (fun c => c.setSqueue 2 (oneEntry 63488)) with mem := [] }
def tsHole2 : State := tsHole.modCore 0 fun c => { c with dtlb := [⟨0, 0, 16, 0, 15⟩] }
theorem wit_vector_load_parks : via (memAddress (mAt r2 .virt) 64 tsHole2) (fun ea s1 =>
    via (resolveVector .vload accRead (sectorsFrom ea 0 4096) s1) fun ps s2 => s2.cur.vtakes .c v9 && ps.1.length == 64
      && ps.2.length == 64) = true := by decide +kernel
theorem wit_vector_load_own : via (memAddress (mAt r2 (.own false true .y)) 64 ts) (fun ea s1 =>
    via (ownPieces .vload .y [(ea, 0, 4096)] s1) fun ps s2 => s1.cur.accesses.isEmpty && s1.redEntries.isEmpty
      && via (checkLive ea ps s2) fun _ _ =>
        let y := s2.readPieces 0 0 .i32 false .clean (ownSpots 0 ps) [] []
        y.2.2.issue == s1.issue && y.2.2.cur == s1.cur && s1.cur.vtakes .c v9
          && match vectorResult .i32 ea.toNat y.1 y.2.1 with | .ok _ => true | .error _ => false) = true := by decide +kernel
theorem wit_vector_store : via (memAddress (mAt r2 .virt) 64 ts) (fun ea s1 => via (readVecP w0 s1) fun _ s2 =>
    via (resolveVector .vstore accWrite (sectorsFrom ea 0 4096) s2) fun ps s3 => ps.2.isEmpty
      && s3.cur.storeFaults.isEmpty && (s3.team 0).pairRun == 0) = true := by decide +kernel
theorem wit_vector_store_own : via (memAddress (mAt r2 (.own true false .y)) 64 ts) (fun ea s1 => via (readVecP w0 s1) fun _ s2 =>
    via (ownPieces .vstore .y [(ea, 0, 4096)] s2) fun _ s3 => s3.cur.storeFaults.isEmpty) = true := by decide +kernel
theorem wit_vector_store_parks : via (memAddress (mAt r2 .virt) 64 tsHole2) (fun ea s1 => via (readVecP w0 s1) fun _ s2 =>
    via (resolveVector .vstore accWrite (sectorsFrom ea 0 4096) s2) fun ps s3 => ps.1.length == 64 && ps.2.length == 64
      && (s3.team 0).pairRun == 0) = true := by decide +kernel
theorem wit_buffer_refused : admits .vload .w = false := by decide
theorem wit_gather_rows : via (readSrc r2 ts) (fun b s1 => via (readVecOf w3 (rowReads 0 4) s1) fun idx _ => (List.range 16).all fun i =>
    (b + (0 : BitVec 16).signExtend 64 * 64 + (idx.extractLsb' (2048 * i) 32).signExtend 64).toNat % 64 == 0) = true := by
  decide +kernel

/-! ### Synchronising -/

theorem wit_fence : (ts.freshIssue && ts.cur.drained && ts.cur.drainedCtx && ts.cur.storeFaults.isEmpty
    && ((ts.releaseAt 0 0 (some .pkg)).acquireAt 0 (some .pkg)).issue == ts.issue) = true := by decide +kernel
def oneStore (kind : AccKind) (rel : Option Scope) (pl : Place) (len : Nat) : Access :=
  ⟨0, kind, none, rel, [⟨4096, some pl, 0, 0, len⟩], false, [], [], false, false⟩
def tsQueued (a : Access) : State := tsCtx fun c => { c with storeQ := [a] }
theorem wit_mark_waits : (tsQueued (oneStore (.store [1]) none (.phys 4096 false) 1)).cur.drained = false := by decide +kernel
theorem wit_store_fault : (let s := tsCtx fun c => { c with storeFaults := [⟨causePROT, 5, .a, true⟩] }
    s.cur.drained && s.cur.storeFaults == [⟨causePROT, 5, .a, true⟩]) = true := by decide +kernel

/-- A counter at 4,096 of HBM that holds 5, on a cached page. -/
def tsCounter : State := { tsBytes 4096 (leBytes 8 5) with cores := [(0, { tcore with
  team := { tteam with commit := .done 0 }
  dtlb := [⟨0, 0, 30, 0, 31⟩] })] }
def counterHyp (n : Src) (f : W64 → Nat → Bool) : Bool :=
  via (readSrc r2 tsCounter) fun x s1 => via (readSrc n s1) fun y s2 => x.toNat % 8 == 0
    && via (resolveVirtual .atomic x accRead s2) fun pl s3 => via (checkCounter x pl s3) fun _ s4 => s4 == s3
      && match s3.readCounter 0 0 ⟨x.toNat, some pl, 0, 0, 8⟩ with | .ok (v, _) => f y v | _ => false
theorem wit_bwait_met : counterHyp r1 (fun y v => decide (y.toNat ≤ v)) = true := by decide +kernel
theorem wit_bwait_waits : counterHyp r0 (fun y v => y != 0 && decide (v < y.toNat)) = true := by decide +kernel
theorem wit_bwait_end : (let s := tsCounter.modCtx 0 0 fun c => { c with
      a := { c.a with status := .waiting (.barrier .pkg 4096 (.phys 4096 true) 5) [] } }
    match s.readCounter 0 0 ⟨4096, some (.phys 4096 true), 0, 0, 8⟩ with | .ok (v, _) => decide (5 ≤ v) | _ => false) = true := by
  decide +kernel
/-- A pool of core 0 with the value 5 at 270,336. -/
def tsPool (a : Access) : State := (tsQueued a).modCore 0 fun c => { c with pool := Mem.write [] 270336 (leBytes 8 5) }
def headMay (s : State) : Bool := (s.core 0).resident && match (s.ctx 0 0).storeQ with
  | a :: _ => !a.sent && s.mayPerform 0 (s.ctx 0 0) a
  | [] => false
def liveWord (s : State) (a n : Nat) : Bool := s.redEntries.isEmpty && !(s.core 0).isDead a n && !(s.core 0).poolPoison a n
  && Mem.wf (s.core 0).pool
theorem wit_bsig_arrival : (let s := tsPool (oneStore (.bsig 7) (some .ctx) (.pool 270336) 8)
    headMay s && liveWord s 270336 8) = true := by decide +kernel
theorem test_bsig_arrival : after (exec (.bsigArrival [⟨0, 0⟩]) (tsPool (oneStore (.bsig 7) (some .ctx) (.pool 270336) 8)))
    (fun t => leNat ((t.core 0).poolRead 270336 8) == 12) = true := by decide +kernel

def loadOf (pa : Nat) : Access := ⟨0, .loadScalar 9 3 .i8, none, none, [⟨4096, some (.phys pa false), 0, 0, 1⟩], false, [], [],
  false, false⟩
def tsLoad : State := (tsBytes 4096 [0xFE]).modCtx 0 0 fun c =>
  ({ c with loadQ := [loadOf 4096] } : Ctx).setSqueue 9 ⟨[.pending 3], false, false, .live, none⟩
theorem wit_load_performs : ((tsLoad.core 0).resident && tsLoad.mayPerform 0 (tsLoad.ctx 0 0) (loadOf 4096) && isHbm 4096) = true := by
  decide +kernel
theorem test_load_sign : after (exec (.accessPerform ⟨0, 0⟩ .load false .clean) tsLoad) (fun t =>
    ((t.ctx 0 0).squeue 9).entries == [.ready (BitVec.ofInt 64 (-2)) false]) = true := by decide +kernel
theorem wit_store_performs : (let s := tsQueued (oneStore (.store [1, 2]) none (.phys 4096 false) 2)
    headMay s && isHbm 4096 && !s.writeDropped 4096 && Mem.wf s.mem) = true := by decide +kernel
theorem test_store_performs : after (exec (.accessPerform ⟨0, 0⟩ .store false .clean)
    (tsQueued (oneStore (.store [1, 2]) none (.phys 4096 false) 2))) (fun t => Mem.byte t.mem 4096 == 1
      && Mem.byte t.mem 4097 == 2 && (t.ctx 0 0).storeQ.isEmpty) = true := by decide +kernel

theorem wit_amo : via (readSrc r2 tsCounter) (fun x s1 => via (readSrc r1 s1) fun _ s2 =>
    via (readSrc r0 s2) (fun _ s3 => via (routeAtomic x 8 s3) fun _ s4 => s4.cur.storeFaults.isEmpty)
    && via (routeAtomic x 8 s2) fun pl s4 => s4.cur.storeFaults.isEmpty && !(rootPlace pl && !rootSupportsRed .add)
      && decide ((s4.cur.squeue 60).entries.length < 32)) = true := by decide +kernel
theorem wit_bsig : via (readSrc r2 tsCounter) (fun x s1 => via (readSrc r1 s1) fun _ s2 => x.toNat % 8 == 0
    && via (resolveVirtual .atomic x accAtomic s2) fun pl s3 => via (checkCounter x pl s3) fun _ s4 => s4 == s3
      && !s3.curTeam.uncommitted && s3.cur.storeFaults.isEmpty) = true := by decide +kernel
theorem wit_atomic_misaligned : (ts.issue.alone && via (readSrc r0 ts) fun x s1 => x.toNat % 8 != 0
    && via (readSrc r1 s1) fun _ s2 => via (readSrc ⟨.pop, 7⟩ s2) fun _ _ => true) = true := by decide +kernel
def tsAmo (op : AmoOp) (b c : W64) : State := tsPool (oneStore (.amo op .i64 b c 3 true) none (.pool 270336) 8)
theorem wit_amo_performs : (headMay (tsAmo (.cas r0) 5 9) && liveWord (tsAmo (.cas r0) 5 9) 270336 8
    && ((tsAmo (.cas r0) 5 9).team 0).pairRun == 0 && (AmoOp.cas r0).accepts .i64) = true := by decide +kernel
theorem test_amo_min_signed : after (exec (.accessPerform ⟨0, 0⟩ .store false .clean) (tsAmo .min (BitVec.ofInt 64 (-1)) 0))
    (fun t => leNat ((t.core 0).poolRead 270336 8) == 2 ^ 64 - 1) = true := by decide +kernel
theorem test_amo_cas_misses : after (exec (.accessPerform ⟨0, 0⟩ .store false .clean) (tsAmo (.cas r0) 4 9))
    (fun t => leNat ((t.core 0).poolRead 270336 8) == 5) = true := by decide +kernel

theorem wit_evsig : via (readSrc ⟨.pop, 4⟩ ts) (fun t0 s1 => via (readSrc r1 s1) fun n s2 => decide (t0.toNat < 4096)
    && s2.cur.drained && s2.cur.savedParked.isEmpty && s2.cur.storeFaults.isEmpty
    && decide (s2.curTeam.event 3 + n.toNat ≤ 65535)) = true := by decide +kernel
def tsEv (n : Nat) : State := tsTeam fun t => { t with events := [(3, n)] }
theorem wit_evsig_overflow : via (readSrc ⟨.pop, 4⟩ (tsEv 65535)) (fun _ s1 => via (readSrc r1 s1) fun n s2 =>
    decide (65535 < s2.curTeam.event 3 + n.toNat)) = true := by decide +kernel
/-- Core 1 holds another team of the launch; g0 names it as an EVSIG target. -/
def tsTwo : State := { ts with
  cores := [(0, { tcore with team := { tteam with commit := .done 0, ctxs := [(0, tctx.setSqueue 0 (oneEntry 0x1001))] } }),
    (1, { tcore with team := { tteam with age := 5 } })]
  hub := { thub with remap := [(1, ⟨true, false, 1⟩)] } }
theorem wit_evsig_remote : via (readSrc r0 tsTwo) (fun t0 s1 => via (readSrc r1 s1) fun _ s2 => evRemote t0
    && via (checkSignal t0 s2) fun _ s3 => s3 == s2 && s2.cur.storeFaults.isEmpty) = true := by decide +kernel
theorem wit_evwait : via (readSrc r1 (tsEv 5)) (fun n s1 => decide (n.toNat ≤ s1.curTeam.event 3)
    && !s1.curTeam.earlierWaiter (s1.curTeam.waits + 1) [3]) = true := by decide +kernel
theorem wit_evwait_waits : via (readSrc r0 (tsEv 5)) (fun n s1 => n.toNat != 0 && decide (n.toNat ≤ 65535)
    && decide (s1.curTeam.event 3 < n.toNat)) = true := by decide +kernel
theorem wit_evwait_end : (let s := (tsEv 5).modCtx 0 0 fun c => { c with a := { c.a with status := .waiting (.event 3 5 1) [] } }
    (s.ctx 0 0).a.status == .waiting (.event 3 5 1) [] && !(s.team 0).earlierWaiter 1 [3]) = true := by decide +kernel
def tsSignal : State := tsTwo.modCtx 0 0 fun c => { c with
  storeQ := [⟨0, .evsig 3 0x1001 6, none, some .pkg, [], false, [], [], false, false⟩] }
theorem wit_evsig_arrival : (headMay tsSignal && tsSignal.targetOf (tsSignal.team 0).persistentSlot (evTf 0x1001)
    (evTarget 0x1001) == .core 1 && tsSignal.sameAsid 1 0) = true := by decide +kernel
theorem test_evsig_arrival : after (exec (.evsigArrival ⟨0, 0⟩) tsSignal) (fun t => (t.team 1).event 3 == 6) = true := by
  decide +kernel

/-! ### Rings and locks -/

/-- Ring 2 is set: 4 slots of 1,024 bytes from the start of Y, as word 2 of RSTAT gives them. -/
def ringWord : W64 := BitVec.ofNat 64 (4 * 2 ^ 48 + 64 * 2 ^ 32)
def ring4 : Ring := { Ring.unset with config := ringWord, free := 4 }
def tsRing (r : Ring) (g0 : W64) : State :=
  (tsTeam fun t => t.setRing 2 r).modCtx 0 0 fun c => c.setSqueue 0 (oneEntry g0.toNat)
theorem wit_rset : via (readSrc r0 (tsRing Ring.unset ringWord)) (fun w s1 => s1.cur.drained && s1.cur.savedParked.isEmpty
    && s1.cur.storeFaults.isEmpty && !ringRefuses s1.curTeam (s1.curTeam.ring 2) w) = true := by decide +kernel
theorem wit_rclaim : ((tsRing ring4 0).freshIssue && ((tsRing ring4 0).curTeam.ring 2).isSet && (tsRing ring4 0).cur.takes .c d9) = true := by
  decide +kernel
theorem test_rclaim : after (exec (.rclaim 2 d9) (tsRing { ring4 with tail := 3, free := 1, taken := 3 } 0)) (fun t =>
    (t.cur.squeue 9).entries == [.ready (BitVec.ofNat 64 (3 * 2 ^ 32 + 3072)) false] && (t.curTeam.ring 2).tail == 0) = true := by
  decide +kernel
def index1 : W64 := BitVec.ofNat 64 (2 ^ 32)
theorem wit_rpub : (((tsRing { ring4 with slots := [(1, .claimed)], free := 3, claimed := 1, pub := 1 } index1).curTeam.ring 2).slotState 1
    == .claimed) = true := by decide +kernel
theorem wit_rfree : (((tsRing { ring4 with slots := [(1, .taken)], free := 3, taken := 1, freep := 1 } index1).curTeam.ring 2).slotState 1
    == .taken) = true := by decide +kernel
theorem test_rpub : after (exec (.rpub 2 r0) (tsRing { ring4 with slots := [(1, .claimed)], free := 3, claimed := 1, pub := 1 } index1))
    (fun t => (t.curTeam.ring 2).filled == 1 && (t.curTeam.ring 2).claimed == 0) = true := by decide +kernel
theorem wit_rwait : via (readSrc r0 (tsRing ring4 4)) (fun n s1 => decide (n.toNat ≤ (s1.curTeam.ring 2).nslot)
    && decide (n.toNat ≤ (s1.curTeam.ring 2).free) && decide ((s1.curTeam.ring 2).filled < n.toNat)) = true := by decide +kernel
theorem wit_rwaitf_met : (let r := (tsRing { ring4 with free := 3, filled := 1 } 1).curTeam.ring 2
    decide (1 ≤ r.filled) && decide (r.free < 4)) = true := by decide +kernel
theorem wit_rstat : via (readSrc ⟨.pop, 4⟩ ts) (fun x s1 => x == 0 && s1.cur.takes .c d9) = true := by decide +kernel
theorem wit_rwait_end : (let s := (tsRing ring4 0).modCtx 0 0 fun c => { c with a := { c.a with status := .waiting (.ringFree 2 4) [] } }
    (s.ctx 0 0).a.status == .waiting (.ringFree 2 4) [] && decide (4 ≤ ((s.team 0).ring 2).free)) = true := by decide +kernel
theorem wit_ring_unset : (ts.issue.alone && !(ts.curTeam.ring 2).isSet) = true := by decide +kernel

/-- Lock words and the machine with one in the store queue. -/
def lockWord : W64 := 0x10000
def lockAcc (k : AccKind) : Access := ⟨0, k, some .pkg, none, [], false, [], [], false, false⟩
def tsLock (w : W64) : State := tsQueued (lockAcc (.lock .x 0 .tensor w 3))
def lockNameOf (s : State) (w : W64) : LockName := lockName (s.team 0) 0 .tensor w
theorem wit_lock : via (readSrc r0 ts) (fun _ s1 => decide ((s1.cur.squeue 60).entries.length < 32) && s1.cur.storeFaults.isEmpty) = true := by
  decide +kernel
theorem wit_lock_granted : (let s := tsLock 0
    let n := lockNameOf s 0
    headMay s && (s.team 0).pairRun == 0 && (s.chip n.home.1).live && n.parent.isNone && s.lockEntry n == ⟨n, [], []⟩
      && decide (s.managerUse n.home < 4096)) = true := by decide +kernel
/-- A lock of a line: the tensor is held with IX by the team, and the line shared by team 2, for which team 9 waits. -/
def tsLine : State :=
  let s := tsQueued (lockAcc (.lock .s 0 .line 0 3))
  let n := lockName (s.team 0) 0 .line 0
  { s with locks := [⟨n, [⟨2, .s⟩], [⟨9, .x, false, []⟩]⟩] ++ (n.parent.map fun q => (⟨q, [⟨4, .ix⟩], []⟩ : LockEntry)).toList }
theorem wit_line_granted : (let s := tsLine
    let n := lockName (s.team 0) 0 .line 0
    headMay s && (n.parent.any fun q => ((s.lockEntry q).heldBy 4).any (parentAdmits .s)) && (s.lockEntry n).holders == [⟨2, .s⟩] && s.compatible 0 .s .s && s.coreOfAge 9 != some 0
      && decide (s.managerUse n.home < 4096)) = true := by decide +kernel
theorem wit_lock_not_live : (let s := tsLock 0x5000000000000000
    headMay s && !(s.chip (lockNameOf s 0x5000000000000000).home.1).live) = true := by decide +kernel
theorem test_lock_granted : after (exec (.lockRequest ⟨0, 0⟩) ((tsLock 0).modCtx 0 0 fun c => c.setSqueue 60
    ⟨[.pending 3], false, false, .live, none⟩)) (fun t => ((t.ctx 0 0).squeue 60).entries == [.ready (2048 + 5 * 256) false]) = true := by
  decide +kernel
def tsUnlock : State :=
  let s := tsQueued ⟨0, .unlock 0 .tensor 0, none, some .pkg, [], false, [], [], false, false⟩
  { s with locks := [⟨lockNameOf s 0, [⟨4, .x⟩], []⟩] }
theorem wit_unlock : (let s := tsUnlock
    let n := lockNameOf s 0
    headMay s && (s.team 0).pairRun == 0 && (s.chip n.home.1).live && s.lockEntry n == ⟨n, [⟨(s.team 0).age, .x⟩], []⟩
      && !s.holdsChild (s.team 0).age n && (s.lockEntry n).waiters.isEmpty) = true := by decide +kernel
theorem test_unlock : after (exec (.lockRelease ⟨0, 0⟩) tsUnlock) (fun t => (t.lockEntry (lockNameOf tsUnlock 0)).holders.isEmpty
    && (t.ctx 0 0).storeQ.isEmpty) = true := by decide +kernel

/-! ### The system -/

def tsWide : State := tsTeam fun t => { t with width := 2, ctxs := [(0, tctx), (1, tctx)] }
theorem wit_halt : (tsWide.cur.accesses.isEmpty && !tsWide.cur.reserved && tsWide.cur.faultReports.isEmpty
    && tsWide.curTeam.outstanding 0 == 0 && tsWide.cur.storeFaults.isEmpty && !(tsWide.ctx 0 1).halted) = true := by
  decide +kernel
def tsBundle (s : State) : State := { s with issue := { Issue.idle with alone := false } }
theorem wit_halt_in_bundle : (tsBundle ts).issue.alone = false := by decide +kernel
/-- HALT has issued in a bundle: C waits to finish it. -/
def tsHalting : State := { tsCtx (fun c => { c with c := { c.c with status := .waiting .halt [] } }) with turn := [.issue 0 0 .c] }
theorem wit_halt_finishes : ((tsHalting.core 0).resident && !(tsHalting.core 0).stopping && !(tsHalting.ctx 0 0).halted
    && (tsHalting.ctx 0 0).trapDue.isNone && ((tsHalting.ctx 0 0).dueCause .c).isNone
    && (tsHalting.ctx 0 0).finishing == some .halt) = true := by decide +kernel
def tsSup : State := tsCtx fun c => { c with sup := true }
theorem wit_waiti : (tsSup.freshIssue && tsSup.cur.sup && !tsSup.requestPending 0 0) = true := by decide +kernel
def tsAsk : State := tsCtx fun c => { c with sup := true, pending := [⟨causeWOUND, 0, .c, true⟩], saved := some ⟨[], [], [], [], 0, 0, [], none⟩, c := { c.c with status := .waiting .interrupt [] } }
theorem wit_waiti_end : (tsAsk.requestPending 0 0 && (tsAsk.ctx 0 0).requestCause.isNone) = true := by decide +kernel
theorem wit_waiti_pending : (tsAsk.freshIssue && tsAsk.cur.sup && tsAsk.cur.requestCause.isNone) = true := by decide +kernel
theorem wit_waiti_end_raises : (let s := tsCtx fun c => { c with pending := [⟨causeWOUND, 0, .c, true⟩], c := { c.c with status := .waiting .interrupt [] } }
    s.requestPending 0 0 && (s.ctx 0 0).requestCause.isSome) = true := by decide +kernel
theorem wit_fencei : ((tsQueued (lockAcc (.lock .x 0 .tensor 0 3))).cur.storeQ.length == 1
    && ((tsQueued (lockAcc (.lock .x 0 .tensor 0 3))).cur.storeQ ++ ts.cur.replay).all fun a => !a.changesMemory) = true := by
  decide +kernel
theorem wit_commit : (ts.curTeam.commit == .none && !ts.logBusy ts.curTeam && ts.curTeam.woundsDue.isEmpty && !ts.curTeam.tctlWaits) = true := by
  decide +kernel
theorem wit_commit_again : (tsCounter.freshIssue && tsCounter.curTeam.commit != .none) = true := by decide +kernel
theorem wit_yield : ((tsTeam fun t => { t with persist := true }).freshIssue && !ts.curTeam.persist && ts.cur.requestCause.isNone) = true := by
  decide +kernel
theorem wit_rplrel : (tsSup.freshIssue && tsSup.cur.saved.isNone) = true := by decide +kernel
def tsStall (why : Option (Bool × Nat)) : State := tsCtx fun c => { c with
  lastIssue := 0
  apart := true
  c := { c.c with status := .resting }, v := { c.v with status := .resting }, m := { c.m with status := .resting }
  a := { c.a with status := match why with | some (b, r) => .stalled b r 0 | none => .running } }
theorem wit_wedge : ((tsStall (some (false, 9))).wedged 0 0 == some .a) = true := by decide +kernel

theorem wit_trap : (ts.freshIssue && ts.hub.tvec != 0 && !ts.cur.sup && !(ts.cur.past .c ts.now).stopClusters.reserved
    && ts.cur.c.next.isNone) = true := by decide +kernel
theorem test_trap : after (exec (.trap 7) ts) (fun t => t.cur.tval == 7 && tget 0 t.cur.epc 0 == 32 && t.cur.sup) = true := by
  decide +kernel
def tsDue (f : Ctx → Ctx) : State := tsCtx fun c => f { c with trapDue := some ⟨causePROT, 5, .a, false⟩ }
theorem wit_trap_waits : ((tsDue fun c => c.setSqueue 9 ⟨[.pending 3], false, false, .live, none⟩).ctx 0 0).reserved = true := by
  decide +kernel
theorem wit_trap_entry : ((tsDue id).core 0).resident && !((tsDue id).ctx 0 0).reserved && (tsDue id).hub.tvec != 0
    && !((tsDue id).ctx 0 0).sup = true := by decide +kernel
def launchRec : Rec := List.replicate 256 0
def aLaunch : Launch := { record := launchRec, queue := 0, count := 0, time := 0, master := 0, deputy := some 1, chips := 3, plots := 4, log := [(0, .started 4 0)], ranges := [⟨0, 1, 1, 3, []⟩], segments := [], retiredCount := 0, tensors := [], lastGot := [], waitSince := [], asked := [], costs := [], lost := 0, ended := none, toGlean := 0, electing := false, code := [] }
def withLaunch (l : Launch) (s : State) : State := { s with launches := [(0, some l)] }
theorem wit_trap_ends : (let s := withLaunch aLaunch (tsDue fun c => { c with sup := true })
    (s.core 0).resident && (s.team 0).work == .launch 0 0 0 && s.launch 0 == some aLaunch && (s.ctx 0 0).sup) = true := by
  decide +kernel
theorem test_trap_ends : after (exec (.trapEntry ⟨0, 0⟩) (withLaunch aLaunch (tsDue fun c => { c with sup := true })))
    (fun t => !(t.core 0).resident && (t.launch 0).map Launch.ended == some (some (3, causePROT, 0))) = true := by decide +kernel
def tsSaved (f : Section → Section) : State := tsCtx fun c => { c with
  sup := true
  saved := some (f (makeSection tteam 0 0)) }
theorem wit_eret : ((tsSaved id).cur.saved.map fun x => x.ok && epcAligned (tsSaved id).cur x && x.parked.isEmpty
    && (tsSaved id).cur.pending.isEmpty) = some true := by
  decide +kernel
def tsOwed : State := (tsSaved id).modCtx 0 0 fun c => { c with pending := [⟨causePROT, 0, .a, true⟩, ⟨causeWOUND, 7, .c, true⟩] }
theorem wit_eret_pending : (tsOwed.issue.alone && tsOwed.cur.loadQ.isEmpty && tsOwed.cur.storeQ.isEmpty
    && (tsOwed.cur.saved.any fun x => x.ok && epcAligned tsOwed.cur x && x.parked.isEmpty)
    && ({ tsOwed.cur with saved := none } : Ctx).requestCause == some ⟨causeWOUND, 7, .c, true⟩) = true := by decide +kernel
theorem wit_rplrel_section : ((tsSaved id).freshIssue && (tsSaved id).cur.sup
    && (tsSaved id).cur.saved.any fun x => x.parked.isEmpty) = true := by decide +kernel
theorem wit_eret_in_bundle : ((tsBundle (tsSaved id)).cur.sup && (tsBundle (tsSaved id)).cur.saved.isSome
    && !(tsBundle (tsSaved id)).issue.alone) = true := by decide +kernel
theorem wit_eret_refused : ((tsSaved fun x => { x with dwords := x.dwords.set 0 (BitVec.ofNat 64 (2 ^ 64 - 1)) }).cur.saved.map fun x =>
    x.ok) = some false := by decide +kernel
theorem wit_eret_misaligned : (let s := (tsSaved id).modCtx 0 0 fun c => { c with epc := [(0, 4)] }
    s.cur.saved.map fun x => x.ok && !epcAligned s.cur x) = some true := by decide +kernel
theorem wit_eret_no_section : (tsSup.issue.alone && tsSup.cur.sup && tsSup.cur.saved.isNone) = true := by decide +kernel
theorem wit_section_context : ((List.range 62).all fun r => decide ((tctx.squeue r).entries.length ≤ queueDepth r)
    && (tctx.squeue r).entries.all fun e => !e.isPending) && ((List.range 16).all fun r =>
      decide ((tctx.vqueue r).entries.length ≤ 2) && (tctx.vqueue r).entries.all fun e => !e.isPending) = true := by
  decide +kernel
theorem wit_priv : (ts.issue.alone && !ts.cur.sup && csrSupervisor 0x90 && csrWritable 0x103 && csrSupervisor 0x103) = true := by
  decide +kernel
theorem wit_csr_read_only : csrWritable 0 = false := by decide +kernel
theorem wit_csrr : (csrDefined 0x90 && tsSup.cur.quiet && tsSup.flagsSettled 0 0 0x90 && tsSup.flagsSettled 0 0 0x40
    && tsSup.flagsSettled 0 0 0x148 && (csrSupervisor 0x90 && tsSup.cur.sup) && tsSup.cur.drained
    && tsSup.cur.storeFaults.isEmpty && tsSup.cur.takes .c d9) = true := by decide +kernel
theorem wit_csrw : via (readSrc r1 tsSup) (fun v s1 => csrWritable 0x91 && csrMbz 0x91 v.toNat && !s1.csrRefused 0 0 0x91 v.toNat
    && !csrRemote 0x91 v.toNat && s1.cur.takes .c d9) = true := by decide +kernel
theorem wit_csrw_remote : via (readSrc ⟨.pop, 4⟩ tsSup) (fun v s1 => csrMbz 0x1C0 v.toNat && !s1.csrRefused 0 0 0x1C0 v.toNat
    && csrRemote 0x1C0 v.toNat && csrWritable 0x1C0 && s1.cur.takes .c d9) = true := by decide +kernel
def tsOnes : State := tsSup.modCtx 0 0 fun c => c.setSqueue 0 (oneEntry (2 ^ 64 - 1))
theorem wit_csrw_mbz : via (readSrc r0 tsOnes) (fun v _ => csrDefined 0x91 && csrWritable 0x91 && tsOnes.cur.sup && tsOnes.cur.quiet
    && tsOnes.flagsSettled 0 0 0x91 && !csrMbz 0x91 v.toNat && tsOnes.issue.alone) = true := by decide +kernel
theorem wit_codeset_write : ((tsSup.modCtx 0 0 fun c => { c with c := { c.c with status := .waiting (.csr 0x103 5 none) [] } }).csrWaiting
    ⟨0, 0⟩ 0x103 5).isSome = true := by decide +kernel
theorem wit_lkmtx_write : ((tsSup.modCtx 0 0 fun c => { c with c := { c.c with status := .waiting (.csr 0x1C1 5 (some d9)) [] } }).csrWaiting
    ⟨0, 0⟩ 0x1C1 5) = some (some d9) := by decide +kernel

/-! ### Engines -/

/-- A record of n bytes with fields: byte offset, length, value. -/
def recOf (n : Nat) (fs : List (Nat × Nat × Nat)) : Rec :=
  fs.foldl (fun r f => r.take f.1 ++ leBytes f.2.1 f.2.2 ++ r.drop (f.1 + f.2.1)) (List.replicate n 0)

/-- A command of a kind over one row of `n` elements from 4,096 to 8,192, its formats as given. -/
def cmdOf (kind n sf df : Nat) (more : List (Nat × Nat × Nat)) : Rec :=
  recOf 128 ([(0, 1, kind), (0x10, 8, 4096), (0x18, 8, 8192), (0x20, 4, n), (0x24, 4, 1), (0x28, 4, 1), (0x2C, 4, 1),
    (0x3C, 1, sf + 16 * df)] ++ more)
def queuedCmd (r : Rec) : Command := ⟨r, 0, [tpage], false, 0, none, false, false, false, none, [], 0, 0, true, 0, false, 0, false,
  none, none, [], false⟩
/-- Queue q holds a command, in the state given, of a committed team. -/
def tsCmd (q : Nat) (c : Command) (data : List Byte) : State :=
  (tsBytes 4096 data).modTeam 0 fun t => { t with
    commit := .done 0
    queues := [(q, { EngineQueue.empty with cmds := [c] })] }
def started (c : Command) : Command := { c with started := true }
/-- FILL of 8 i32 elements. -/
def fillRec : Rec := cmdOf 1 8 0 12 [(0x60, 8, 0x11223344)]

def tsEnq : State := (tsBytes 4096 fillRec).modTeam 0 fun t => { t with commit := .done 0 }
def enqHyp (s : State) (n : Nat) : Bool :=
  via (readSrc r2 s) fun x s1 => x.toNat % 128 == 0 && via (readRecord x 128 s1) fun r s2 =>
    (checkCommand r 0 (s2.factsOf s2.curTeam)).isNone && (s2.checkAgents 0 r).isNone && !s2.curTeam.uncommitted
      && match s2.pinFootprint 0 0 s2.cur.user r with
        | (.ok pins, s3) => s3.pinsFit 0 pins && decide ((s3.curTeam.queue 0).occ = n)
        | _ => false
theorem wit_enq : enqHyp tsEnq 0 = true := by decide +kernel
theorem wit_enq_waits : enqHyp (tsEnq.modTeam 0 fun t => { t with
    queues := [(0, { EngineQueue.empty with cmds := List.replicate 16 (queuedCmd fillRec) })] }) 16 = true := by decide +kernel
theorem wit_enq_misaligned : via (readSrc r0 ts) (fun x _ => x.toNat % 128 != 0) = true := by decide +kernel
theorem wit_enq_append : (let s := tsEnq.modCtx 0 0 fun c => { c with a := { c.a with status := .waiting (.enqRoom 0 (queuedCmd fillRec)) [] } }
    (s.core 0).resident && decide (((s.team 0).queue 0).occ < 16)) = true := by decide +kernel
theorem wit_chlink : via (readSrc r2 ts) (fun x _ => x.toNat % 128 == 0) = true := by decide +kernel
def tsChain (e : EngineQueue) : State := (tsBytes 4096 fillRec).modTeam 0 fun t => { t with commit := .done 0, queues := [(0, e)] }
theorem wit_chkick : (((tsChain { EngineQueue.empty with halt := true }).curTeam.queue 0).halt
    && ((tsChain { EngineQueue.empty with link := 4096 }).curTeam.queue 0).link != 0) = true := by decide +kernel
/-- A queue halted at the first of its two commands. -/
def tsHalted : State := tsChain { EngineQueue.empty with halt := true, haltAt := 1, cmds := [{ queuedCmd fillRec with serial := 1 }, { queuedCmd fillRec with serial := 2 }] }
theorem test_chkick_removes : after (exec (.chkick 0 ⟨.pop, 5⟩) tsHalted) (fun t => !(t.curTeam.queue 0).halt
    && (t.curTeam.queue 0).cmds.map Command.serial == [2]) = true := by decide +kernel
theorem test_chkick : after (exec (.chkick 0 r0) (tsChain { EngineQueue.empty with link := 4096 })) (fun t =>
    (t.curTeam.queue 0).act && (t.curTeam.queue 0).next == 4096) = true := by decide +kernel

def startHyp (s : State) : Option (Nat × Command) :=
  if (s.core 0).resident && !((s.team 0).queue 0).halt then EngineQueue.nextStart ((s.team 0).queue 0).cmds 0 else none
def waitFill : Rec := cmdOf 1 8 0 12 [(4, 4, 8)]
def tsWaitFill : State := (tsCmd 0 (queuedCmd waitFill) []).modTeam 0 fun t => { t with events := [(3, 1)] }
theorem wit_command_start : ((startHyp tsWaitFill).map fun e => e.2.fail.isNone && !e.2.refetches && !(tsWaitFill.core 0).encodesAhead 0 e.2.serial && cmdRact e.2.bytes == 0
    && cmdReady (tsWaitFill.team 0) e.2.bytes && decide (0 ≤ tsWaitFill.now)
    && !(tsWaitFill.team 0).earlierWaiter e.2.waitSince (maskBits (cmdWaitMask e.2.bytes))
    && (tsWaitFill.fabricStart e.2.bytes).isNone) = some true := by decide +kernel
theorem test_command_start : after (exec (.commandStart 0 0) tsWaitFill) (fun t => (t.team 0).event 3 == 0
    && ((t.team 0).queue 0).cmds.map Command.started == [true]) = true := by decide +kernel
/-- A command that claims a slot of ring 2 before it starts and publishes it when it retires (RACT 5). -/
def claimFill : Rec := cmdOf 1 8 0 12 [(1, 1, 5 + 2 * 16)]
def tsClaim (c : Command) (g : Ring) : State := (tsCmd 0 c []).modTeam 0 fun t => t.setRing 2 g
theorem wit_command_claims : ((startHyp (tsClaim (queuedCmd claimFill) ring4)).map fun e => cmdRact e.2.bytes == 5
    && (((tsClaim (queuedCmd claimFill) ring4).team 0).ring (cmdRing e.2.bytes)).isSet
    && cmdReady ((tsClaim (queuedCmd claimFill) ring4).team 0) e.2.bytes) = some true := by decide +kernel
def claimed : Command := { queuedCmd claimFill with started := true, dataDone := true, slot := some 1 }
theorem wit_command_publishes : (let s := tsClaim claimed { ring4 with slots := [(1, .claimed)], free := 3, claimed := 1, pub := 1 }
    (postRetire (s.team 0) 0 claimed).isSome) = true := by decide +kernel
theorem wit_command_halts : (let s := tsCmd 0 { queuedCmd fillRec with fail := some (causeILLEGAL, 4096) } []
    (startHyp s).map (fun e => e.1 == 0 && e.2.fail == some (causeILLEGAL, 4096) && !(s.team 0).allHalted)) = some true := by
  decide +kernel
def retiring : Command := { queuedCmd (cmdOf 1 8 0 12 [(8, 4, 8)]) with started := true, dataDone := true }
theorem wit_command_retire : ((postRetire ((tsCmd 0 retiring []).team 0) 0 retiring).isSome && cmdCplw retiring.bytes == 0 && retiring.kickClear ((tsCmd 0 retiring []).team 0) && retiring.away.isEmpty && (List.range 32).all fun n =>
    decide (((tsCmd 0 retiring []).team 0).event n < 0xFFFF)) = true := by decide +kernel
theorem test_command_retire : after (exec (.commandRetire 0 0) (tsCmd 0 retiring [])) (fun t => (t.team 0).event 3 == 1
    && ((t.team 0).queue 0).cmds.isEmpty) = true := by decide +kernel
def tsFetch : State := tsChain { EngineQueue.empty with link := 4096, act := true, next := 4096 }
theorem wit_chain_fetch : (let e := (tsFetch.team 0).queue 0
    e.act && decide (e.occ < 16) && (e.cmds.all fun c => c.fail.isNone && !c.refetches) && !(tsFetch.team 0).enqWaits 0
      && ((tsFetch.team 0).ctx e.kicker).storesBefore e.kickSeq
      && match tsFetch.fetchCommand 0 e.kicker e.next with
        | .ok (r, s1) => (match s1.checkFetched 0 e.kicker 0 e.next r with
          | (.ok pins, s2) => s2.pinsFit 0 pins
          | _ => false)
        | _ => false) = true := by decide +kernel

/-- The data of an engine read. -/
def got (r : Got (Snap × State)) (f : Snap → State → Bool) : Bool := match r with | .ok (m, s) => f m s | _ => false
def wrote {α : Type} (r : Got α) : Bool := match r with | .ok _ => true | _ => false

theorem wit_fill : (let s := tsCmd 0 (started (queuedCmd fillRec)) []
    match s.dataCommand 0 0 1 with
    | some (i, c) =>
        let d := dstSide c.bytes (s.dstAddr 0 c)
        i == 0 && c.doneSectors.isEmpty && wrote (s.engineWrite 0 c (regionBytes d fun _ =>
          ⟨if d.fmt = .ra then 0 else cmdKarg0 c.bytes, cmdKarg1 c.bytes, false⟩) (regionSectors d))
    | none => false) = true := by decide +kernel
theorem test_fill : after (exec (.fill 0 0 none) (tsCmd 0 (started (queuedCmd fillRec)) [])) (fun t =>
    Mem.read t.mem 8192 4 == [0x44, 0x33, 0x22, 0x11] && Mem.byte t.mem 8224 == 0) = true := by decide +kernel
def tsCopy : State := tsCmd 0 (started (queuedCmd (cmdOf 0 8 12 12 []))) [5, 6]
theorem wit_copy : (match tsCopy.dataCommand 0 0 0 with
    | some (_, c) =>
        let x := srcSide c.bytes (tsCopy.srcAddr 0 c)
        let d := dstSide c.bytes (tsCopy.dstAddr 0 c)
        x.fmt == d.fmt && got (tsCopy.engineRead 0 c (cmdStid c.bytes) (sideReads x d.rows)) fun m s1 => wrote (s1.engineWrite 0 c
          (regionBytes d fun j => ⟨x.elem m.bytes j, if x.scl = 0 then 127 else x.scale m.bytes j,
            if m.marks.isEmpty then false else x.marked m.marks j⟩) (regionSectors d))
    | none => false) = true := by decide +kernel
theorem test_copy : after (exec (.copy 0 0 none) tsCopy) (fun t => Mem.read t.mem 8192 2 == [5, 6]) = true := by decide +kernel
/-- CONVERT of −2 from i32 to fp32. -/
def tsConvert : State := tsCmd 0 (started (queuedCmd (cmdOf 2 1 12 0 []))) [0xFE, 0xFF, 0xFF, 0xFF]
theorem wit_convert : (match tsConvert.dataCommand 0 0 2 with
    | some (_, c) =>
        let r := c.bytes
        let x := srcSide r (tsConvert.srcAddr 0 c)
        let d := dstSide r (tsConvert.dstAddr 0 c)
        x.fmt != d.fmt && got (tsConvert.engineRead 0 c (cmdStid r) (sideReads x (rowsWithBlocks x
            (if d.fmt.isBlock then d.axis else if x.scl != 0 then x.axis else 0) d.rows))) fun m s1 =>
          wrote (s1.engineWrite 0 c (regionBytes d fun j => ⟨(convertAt x d (cmdRnd r) m.bytes j).1,
            (convertAt x d (cmdRnd r) m.bytes j).2.1, convertMarked x d m.marks j⟩) (regionSectors d))
    | none => false) = true := by decide +kernel
theorem test_convert : after (exec (.convert 0 0 none) tsConvert) (fun t => Mem.read t.mem 8192 4 == [0, 0, 0, 0xC0]) = true := by
  decide +kernel
/-- GATHER and SCATTER of one row through the index at 12,288, of 4 rows. -/
def moveRec (kind : Nat) (n : Nat := 4) : Rec := cmdOf kind n 12 12 [(0x60, 8, 12288), (0x68, 4, 4), (0x30, 4, 16), (0x40, 4, 16)]
def tsMove (kind : Nat) (n : Nat := 4) : State :=
  let s := tsCmd 2 (started (queuedCmd (moveRec kind n))) [7]
  { s with mem := Mem.write s.mem 12288 [3] }
def moveHyp (kind : Nat) : Bool :=
  let s := tsMove kind
  match s.dataCommand 0 2 kind with
  | some (_, c) =>
      let r := c.bytes
      let x := srcSide r (s.srcAddr 0 c)
      let d := dstSide r (s.dstAddr 0 c)
      c.doneSectors.isEmpty && !cmdEmpty r && got (s.indexArray 0 c) fun ix s1 =>
        let c := { c with early := some (ix.bytes, ix.marks) }
        let now := (moveSectors d (gatherMoves r ix.bytes)).map Prod.snd
        let moves := movesOver d (gatherMoves r ix.bytes) now
        got (s1.engineRead 0 c (cmdStid r) (moves.flatMap fun mv => sideReads x mv.2.toList)) fun m s2 =>
          moves.length == 1 && wrote (s2.engineWrite 0 c (movesOut x d m moves now) now)
  | none => false
theorem wit_gather : moveHyp 3 = true := by decide +kernel
theorem wit_scatter : moveHyp 4 = true := by decide +kernel
/-- EXT0 = 0 with an index array that no page maps. -/
theorem wit_move_empty : ((tsMove 3 0).dataCommand 0 2 3).map (fun e => cmdEmpty e.2.bytes) = some true
    ∧ ((tsMove 4 0).dataCommand 0 2 4).map (fun e => cmdEmpty e.2.bytes) = some true := by decide +kernel
theorem test_scatter : after (exec (.scatter 0 2 none) (tsMove 4)) (fun t => Mem.read t.mem 8240 1 == [7]
    && Mem.byte t.mem 8192 == 0) = true := by decide +kernel
/-- ENCODE of two bi8 blocks of 32 elements, their scale codes at 12,288, into bi16. -/
def encRec (mode : Nat) : Rec := cmdOf 5 32 10 11 [(0x3D, 1, 5), (0x50, 8, 12288), (0x58, 8, 16384), (0x60, 8, 2 + mode * 256),
  (0x68, 4, 64), (0x6C, 4, 1)]
def tsEnc (mode : Nat) (scale2 : Nat) : State :=
  let s := tsCmd 0 (started (queuedCmd (encRec mode))) ((List.replicate 64 0) ++ [100])
  { s with mem := Mem.write s.mem 12288 [127, BitVec.ofNat 8 scale2] }
def encHyp (mode scale2 : Nat) (f : Nat → List Bool → State → Bool) : Bool :=
  let s := tsEnc mode scale2
  match s.dataCommand 0 0 5 with
  | some (i, c) =>
      let r := c.bytes
      let d := dstSide r (s.dstAddr 0 c)
      c.doneSectors.isEmpty && got (s.encodeScales 0 c) fun sc s1 =>
        let c := { c with early := some (sc.bytes, sc.marks) }
        let e := dstSide r (s1.dstAddr 0 c)
        let fits := (blockStarts d).map fun b => fitsPlain (encodeBlock r (s.srcAddr 0 c) sc.bytes [] b)
        f i fits s1 && (fits.contains false || got (s1.engineRead 0 c (cmdStid r) ((List.range (bits (cmdKarg0 r) 0 4)).flatMap fun j =>
          e.rows.map fun w => ((encodeSource r (s1.srcAddr 0 c) j).rowAddr w, (encodeSource r (s1.srcAddr 0 c) j).rowBytes))) fun m s2 =>
            wrote (s2.engineWrite 0 c ((e.rows.flatMap fun w => rowOut d (encodeCell r (s1.srcAddr 0 c) e .single sc m) w).filter fun o =>
              (e.rows.flatMap fun w => rowSectors d w).eraseDups.contains (o.va / 32)) (e.rows.flatMap fun w => rowSectors d w).eraseDups))
  | none => false
theorem wit_encode : encHyp 0 127 (fun i fits _ => i == 0 && fits == [true]) = true := by decide +kernel
theorem wit_encode_unfit : encHyp 1 140 (fun i fits s => i == 0 && fits == [false] && bits (cmdKarg0 (encRec 1)) 8 2 == 1
    && bits (cmdKarg0 (encRec 0)) 8 2 == 0 && !(s.team 0).allHalted) = true := by decide +kernel
theorem test_encode_halts : after (exec (.encode 0 0 none) (tsEnc 0 140)) (fun t => ((t.team 0).queue 0).halt
    && ((t.team 0).queue 0).fault.toNat / 2 ^ 56 == causeACCRANGE && Mem.byte t.mem 8192 == 0) = true := by decide +kernel
theorem test_encode_unfit : after (exec (.encode 0 0 none) (tsEnc 1 140)) (fun t =>
    ((t.team 0).queue 0).cmds.all fun c => c.dataDone && c.flags.getLsbD 7) = true := by decide +kernel
/-- An A2A of one 16-byte message to ring 2 of core 1. -/
def a2aRec (n : Nat) : Rec := cmdOf 6 n 0 0 [(0x60, 8, 256 + 2 * 2 ^ 20)]
def ringTeam : Team := { tteam with age := 5, rings := [(2, ring4)] }
def tsA2a (n : Nat) : State :=
  let s := tsCmd 3 (started (queuedCmd (a2aRec n))) [9, 8]
  { s with cores := s.cores ++ [(1, { tcore with team := ringTeam })], hub := { s.hub with remap := [(1, ⟨true, false, 1⟩)] } }
theorem wit_a2a : (match (tsA2a 16).dataCommand 0 3 6 with
    | some (_, c) => (tsA2a 16).messages.isEmpty && (nextMessage c.bytes c.doneSectors.length).isSome
        && match (tsA2a 16).readParcels 0 c c.doneSectors.length (packetRoom (cmdExt c.bytes 0)) with
        | .ok ([x], _) => ((tsA2a 16).team 0).pairRun == 0 && x.dest.pkg == (tsA2a 16).hub.pkgid.toNat && x.bytes.length == 16
        | _ => false
    | none => false) = true := by decide +kernel
/-- A package whose number is not the message's: whether a route leads there is a free value of Config (log entry 16), so
the witness takes it as a hypothesis. -/
def tsA2aFar : State := let s := tsA2a 16; { s with hub := { s.hub with pkgid := 7 } }
theorem wit_a2a_far (h : Config.fabricRoute 0 = true) : (match tsA2aFar.dataCommand 0 3 6 with
    | some (_, c) => (match tsA2aFar.readParcels 0 c c.doneSectors.length (packetRoom (cmdExt c.bytes 0)) with
        | .ok ([x], _) => x.dest.pkg == 0 && x.dest.pkg != tsA2aFar.hub.pkgid.toNat && !x.dest.tf
        | _ => false)
    | none => false) = true ∧ Config.fabricRoute 0 = true := ⟨by decide +kernel, h⟩
theorem wit_a2a_ends : (((tsA2a 0).dataCommand 0 3 6).map fun e => (a2aRows e.2.bytes).isEmpty) = some true := by decide +kernel
def tsMsg (n : Nat) : State := { tsA2a 16 with messages := [⟨256 + 2 * 2 ^ 20, 4, 0, none, List.replicate n 7, 0, none, []⟩] }
theorem wit_a2a_leaves : ((tsMsg 16).messages.all fun m => !m.leaves (tsMsg 16)) = true := by decide +kernel
theorem wit_a2a_delivery : (match (tsMsg 16).messages[0]? with
    | some m => (match (tsMsg 16).arrival m.launch m.asid (destOf (bit m.target 32) m.target) m.bytes.length with
      | .slot q _ => q == 1 && (tsMsg 16).redEntries.isEmpty && Mem.wf ((tsMsg 16).core 1).pool
      | _ => false)
    | none => false) = true := by decide +kernel
theorem wit_a2a_drop : (match (tsMsg 2048).arrival none 0 (destOf false (256 + 2 * 2 ^ 20)) 2048 with
    | .drop r _ => r == 3
    | _ => false) = true := by decide +kernel
theorem test_a2a_delivery : after (exec (.a2aDelivery 0) (tsMsg 16)) (fun t => t.messages.isEmpty
    && ((t.team 1).ring 2).filled == 1 && (t.core 1).poolRead ((t.team 1).bufStart .y) 2 == [7, 7]) = true := by decide +kernel

/-! ### Vectors -/

theorem wit_vector_binary : (ts.freshIssue && via (readVec w0 ts) (fun x s1 => via (readVec w1 s1) fun y s2 =>
    via (readMask .i32 (some w2) s2) fun en s3 => x == 7 && y == 9 && en.length == 1024 && s3.cur.vtakes .c v9)) = true := by
  decide +kernel
theorem wit_vector_rule : ∃ g, VBinRule (.viadd .i32 false false v9 w0 w1 none) .i32 v9 w0 w1 none g := ⟨_, .viadd ..⟩
theorem wit_vector_un_rule : ∃ g, VUnRule (.vneg .i32 v9 w0 none) .i32 v9 w0 none g := ⟨_, .vneg ..⟩
def readV (t : State) (r : Nat) (f : VBits → Bool) : Bool := match (t.cur.vqueue r).entries with
  | [.ready z _] => f z
  | _ => false
theorem test_viadd_masked : after (exec (.viadd .i32 false false v9 w0 w1 (some w2)) ts) (fun t => readV t 9 fun z =>
    elemOf 32 z 0 == 16 && elemOf 32 z 1 == 0) = true := by decide +kernel
theorem wit_vector_three : via (readVec w0 ts) (fun _ s1 => via (readVec w1 s1) fun _ s2 => via (readVec w2 s2) fun _ s3 =>
    s3.cur.vtakes .c v9) = true := by decide +kernel
theorem wit_vsel : via (readVecP w0 ts) (fun a s1 => via (readVecP w1 s1) fun b s2 => via (readVec w2 s2) fun c s3 =>
    a.2 == 0 && b.2 == 0 && elemOf 32 c 0 != 0 && elemOf 32 c 1 == 0 && s3.cur.vtakes .c v9) = true := by decide +kernel
theorem wit_vector_move : via (readVecP w0 ts) (fun x s1 => via (readSrc r1 s1) fun _ s2 => x.2 == 0 && s2.cur.vtakes .c v9
    && s2.cur.takes .c d9) = true := by decide +kernel
theorem wit_vput : via (readVecP w0 ts) (fun _ s1 => via (readSrcP r0 s1) fun v s2 => !v.2 && via (readSrc r1 s2) fun _ s3 =>
    s3.cur.vtakes .c v9) = true := by decide +kernel
theorem wit_vli : (ts.freshIssue && ts.cur.vtakes .c v9) = true := by decide +kernel
theorem wit_vmove_rule : ∃ g, VMoveRule (.vrotr v9 w0 r1) v9 w0 r1 g := ⟨_, .vrotr ..⟩
theorem test_vget : after (exec (.vget .i32 d9 w1 ⟨.pop, 4⟩) ts) (fun t => (t.cur.squeue 9).entries == [.ready 9 false]) = true := by
  decide +kernel
theorem wit_vector_lanes : via (readVec w0 ts) (fun _ s1 => s1.cur.vtakes .c v9
    && via (readMask .i32 none s1) (fun _ s2 => s2.cur.vtakes .c v9)
    && via (readSrc r1 s1) (fun _ s2 => via (readMask .i32 none s2) fun _ s3 => s3.cur.vtakes .c v9)
    && via (readVec w1 s1) fun _ s2 => via (readSrc r1 s2) fun _ s3 => s3.cur.vtakes .c v9) = true := by decide +kernel
theorem test_vcvt_fp32 : after (exec (.vcvt .fp32 .i32 .rne 0 v9 w0) ts) (fun t => readV t 9 fun z =>
    elemOf 32 z 0 == 0x40E00000) = true := by decide +kernel
theorem test_vredr_add : after (exec (.vredr .add .i32 .rne false v9 w0 none) ts) (fun t => readV t 9 fun z =>
    elemOf 32 z 63 == 7 && elemOf 32 z 64 == 0) = true := by decide +kernel

/-! ### The matrix cluster -/

def zeroStream (count : Nat) (rec : Option Rec) : Stream :=
  ⟨0, 4096, count, [tpage], false, 0, true, 0, rec, 0, false, false, 0, false, 0⟩
/-- A record of one tile: operation, formats, and Z at 0. -/
def tileRec (op : Nat) (more : List (Nat × Nat × Nat)) : Rec := recOf 64 ([(0, 1, op), (0x08, 2, 1)] ++ more)
def tsSlots (o : Option Nat) : State := tsTeam fun t => { t with opslots := (List.range 64).map fun i => (i, ⟨o, none⟩) }
theorem wit_oclaim : (ts.freshIssue && (slotRun 3 2).all fun i => (ts.curTeam.slot i).owner.isNone) = true := by decide +kernel
theorem wit_oclaim_foreign : ((slotRun 3 2).find? fun j => ((tsSlots (some 1)).curTeam.slot j).owner.isSome
    && ((tsSlots (some 1)).curTeam.slot j).owner != some 0) = some 3 := by decide +kernel
theorem test_orelease : after (exec (.orelease 3 2) (tsSlots (some 0))) (fun t => (t.curTeam.slot 4).owner.isNone
    && (t.curTeam.slot 5).owner == some 0) = true := by decide +kernel
theorem wit_orelease_pending : (let s := tsTeam fun t => { t with opslots := [(3, ⟨some 0, some 2⟩)] }
    (s.curTeam.slot 3).owner == some 0 && (s.curTeam.slot 3).release == some 2) = true := by decide +kernel
theorem test_orelease_keeps : after (exec (.orelease 3 1) (tsTeam fun t => { t with opslots := [(3, ⟨some 0, some 2⟩)] }))
    (fun t => t.curTeam.slot 3 == ⟨some 0, some 2⟩) = true := by decide +kernel
def mstrHyp (s : State) (n : Src) (f : Nat → Bool) (g : State → Bool) : Bool :=
  via (readSrc r2 s) fun x s1 => via (readSrc n s1) fun n s2 => f n.toNat && x.toNat % 64 == 0 && !s.cur.mctl.getLsbD 1
    && (n == 0 || 4096 < n.toNat || via (pinRecords x (64 * n.toNat) s2) fun _ s3 => g s3)
theorem wit_mstr_none : mstrHyp ts ⟨.pop, 4⟩ (· == 0) (fun _ => true) = true := by decide +kernel
theorem wit_mstr_many : mstrHyp (tsCtx fun c => c.setSqueue 0 (oneEntry 4097)) r0 (4096 < ·) (fun _ => true) = true := by decide +kernel
theorem wit_mstr_misaligned : via (readSrc r0 ts) (fun x s1 => x.toNat % 64 != 0 && via (readSrc r1 s1) fun n _ => n == 5) = true := by
  decide +kernel
theorem wit_mstr_segment : via (readSrc r2 (tsCtx fun c => { c with mctl := 2 })) (fun x s1 => x.toNat % 64 == 0
    && s1.cur.mctl.getLsbD 1 && !s1.cur.segOpen && via (readSrc r1 s1) fun n _ => n == 5) = true := by decide +kernel
theorem wit_mstr : mstrHyp ts r1 (· == 5) (fun s => decide (s.curTeam.streams.length < 8)) = true := by decide +kernel
def tsEight : State := tsTeam fun t => { t with streams := List.replicate 8 (zeroStream 1 none) }
theorem wit_mstr_waits : mstrHyp tsEight r1 (· == 5) (fun s => decide (8 ≤ s.curTeam.streams.length)) = true := by decide +kernel
theorem wit_stream_append : (let s := tsCtx fun c => { c with m := { c.m with status := .waiting (.streamRoom (zeroStream 1 none)) [] } }
    (s.core 0).resident && decide ((s.team 0).streams.length < 8)) = true := by decide +kernel
theorem wit_mwait : (decide (ts.curTeam.outstanding 0 ≤ 0) && decide (0 < tsEight.curTeam.outstanding 0)) = true := by decide +kernel
theorem wit_mwait_end : (let s := tsCtx fun c => { c with m := { c.m with status := .waiting (.streams 0) [] } }
    decide ((s.team 0).outstanding 0 ≤ 0)) = true := by decide +kernel
theorem wit_mcfg : via (readSrc ⟨.pop, 5⟩ ts) (fun v s1 => decide (v.toNat < 4) && s1.cur.takes .c d9) = true := by decide +kernel
theorem wit_mcfg_bad : via (readSrc r1 ts) (fun v _ => decide (4 ≤ v.toNat)) = true := by decide +kernel
theorem wit_segb : (ts.cur.segOpen = false ∧ (tsCtx fun c => { c with segOpen := true }).cur.segOpen = true) := by decide +kernel
/-- An open segment 7 without cycles or issues; its word stands in g0. -/
def tsSeg : State := tsCtx fun c => ({ c with segOpen := true, segId := 7 } : Ctx).setSqueue 0 (oneEntry 0)
theorem wit_sege : via (readSrc r0 tsSeg) (fun w s1 => tsSeg.cur.segOpen && s1.curTeam.segmentIssued 0
    && w == BitVec.ofNat 64 ((~~~tsSeg.cur.segCrc).toNat * 2 ^ 32 + tsSeg.cur.segCyc.toNat)) = true := by decide +kernel
theorem wit_sege_mismatch : tsSeg.cur.segId ≠ 8 := by decide +kernel
def tsStream (x : Stream) : State := (tsBytes 4096 (tileRec 4 [])).modTeam 0 fun t => { t with
  streams := [x]
  opslots := (List.range 2).map fun i => (i, ⟨some 0, none⟩) }
theorem wit_stream_start : (let s := tsStream { zeroStream 1 none with started := false }
    ((s.team 0).current.map fun e => !e.2.started && (s.ctx 0 e.2.ctx).forkClear e.2.forkSeq
      && !(s.ctx 0 e.2.ctx).enqBefore e.2.forkSeq)) = some true := by decide +kernel
theorem wit_record_fetch : (let s := tsStream (zeroStream 1 none)
    match (s.team 0).current with
    | some (_, x) => x.started && x.record.isNone && (match s.fetchRecord 0 { x with tile := 0 } with
      | .ok (r, _) => (checkNest r).isNone
      | _ => false)
    | none => false) = true := by decide +kernel
theorem wit_record_fault : (checkNest (tileRec 9 [])).isSome = true := by decide +kernel
theorem wit_record_fetch_fault : (let s := (tsStream (zeroStream 1 none)).modCore 0 fun c => { c with dtlb := [] }
    let s := s.modTeam 0 fun t => { t with streams := [{ zeroStream 1 none with pins := [] }] }
    match ({ s with mem := [] } : State).fetchRecord 0 { zeroStream 1 none with pins := [] } with
    | .halt c _ => c == causeXLATE
    | _ => false) = true := by decide +kernel
def tsTile (op : Nat) (more : List (Nat × Nat × Nat)) : State := tsStream (zeroStream 1 (some (tileRec op more)))
def tileHyp (s : State) (f : Stream → Rec → Bool) : Bool :=
  match (s.team 0).current with
  | some (_, x) => (match x.record with
    | some r => (s.core 0).resident && s.redEntries.isEmpty && (checkNest r).isNone && decide (0 ≤ tileZ r 0)
        && decide ((tileZ r 0).toNat + 16384 ≤ (s.team 0).bufSize .z) && Mem.wf (s.core 0).pool && f x r
    | none => false)
  | none => false
theorem wit_mscl : (let s := tsTile 4 []
    let start := (s.team 0).bufStart .z
    let c := (s.core 0).reviveRange s.cycles start tileBytes
    tileHyp s fun _ r => recOp r == 4 && (c.markedTile start 0).isNone
      && ((c.tileAt start).map fun e => shiftRec e (recImm r)).all Option.isSome) = true := by decide +kernel
theorem wit_mma_unclaimed : (let s := (tsTile 0 [(0, 1, 8 * 16), (1, 1, 8)]).modTeam 0 fun t => { t with opslots := [] }
    tileHyp s fun x r => recOp r == 0 && ((s.team 0).slot (tileA r 0)).owner != some x.ctx) = true := by decide +kernel
def prodHyp (s : State) (op fused : Nat) : Bool :=
  let start := (s.team 0).bufStart .z
  let c := (s.core 0).reviveRange s.cycles start tileBytes
  tileHyp s fun x r => recOp r == op && ((s.team 0).slot (tileA r 0)).owner == some x.ctx
    && ((s.team 0).slot (tileB r 0)).owner == some x.ctx && (s.team 0).pend (tileA r 0) == 0
    && (s.team 0).pend (tileB r 0) == 0 && (c.markedProduct r 0 start 0).isNone && (badScale c.opmem (tileA r 0)).isNone
    && (badScale c.opmem (tileB r 0)).isNone
    && let g := fuseMore (s.team 0) c x.ctx r start 0 (fuseLimit x r - 1) 0 (productChunks r 0 c.opmem)
      g.1 == fused && (productRecords r 0 g.2 (c.tileAt start)).all Option.isSome
theorem wit_mma : prodHyp (tsTile 0 [(0, 1, 8 * 16), (1, 1, 8)]) 0 0 = true := by decide +kernel
/-- Four issues of one record run, FUSE 1: the first two make one write. -/
def tsFused : State := tsTile 0 [(0, 1, 8 * 16), (1, 1, 8 + 16), (0x08, 2, 4)]
theorem wit_mma_fuses : prodHyp tsFused 0 1 = true := by decide +kernel
theorem test_mma_fuses : after (exec (.mma 0) tsFused) (fun t => (t.team 0).streams.map Stream.tile == [2]) = true := by
  decide +kernel
theorem wit_mmaz : prodHyp (tsTile 1 [(0, 1, 8 * 16 + 1), (1, 1, 8)]) 1 0 = true := by decide +kernel
theorem wit_maddz : (let s := tsTile 3 [(0x30, 4, 16384)]
    let start := (s.team 0).bufStart .z
    let c := (s.core 0).reviveRange s.cycles start tileBytes
    tileHyp s fun _ r => recOp r == 3 && decide ((tileX r 0).toNat + 16384 ≤ (s.team 0).bufSize .z) && tileX r 0 == 16384
      && ((s.core 0).deadByte (start + 16384) tileBytes).isNone && (c.markedTile start 0).isNone
      && (c.markedTile start 16384).isNone && (((c.tileAt start).zip (c.tileAt (start + 16384))).map fun e =>
        if 96 ≤ e.1.head || 96 ≤ e.2.head then none else e.1.add e.2).all Option.isSome) = true := by decide +kernel
theorem wit_mconv : (let s := tsTile 2 [(2, 1, 12 * 16)]
    let start := (s.team 0).bufStart .z
    let c := (s.core 0).wake s.cycles start tileBytes
    tileHyp s fun _ r => recOp r == 2 && tileX r 0 == 0 && decide (convBytes (recCfmt r) ≤ (s.team 0).bufSize .y)
      && (c.deadByte start tileBytes).isNone && (c.markedTile start 0).isNone
      && (c.tileAt start).all fun e => decide (e.head < 96)) = true := by decide +kernel
theorem wit_stream_complete : (let s := tsStream { zeroStream 1 none with index := 1 }
    match (s.team 0).streams with
    | [x] => decide (x.count ≤ x.index) && (s.ctx 0 x.ctx).saved.isNone
    | _ => false) = true := by decide +kernel
def tsSeqTrap : State := tsCtx fun c => { c with pending := [⟨causePROT, 5, .m, true⟩] }
theorem wit_sequencer_trap : (!(tsSeqTrap.ctx 0 0).halted && (tsSeqTrap.ctx 0 0).trapDue.isNone
    && ((tsSeqTrap.ctx 0 0).dueCause .m).isSome) = true := by decide +kernel

/-! ### The memory system and the ends of work -/

theorem wit_red_entry : (let e : RedEntry := ⟨some 0, 1056, .add, .n64, 0, [(270336, 7, [0])], [], false, []⟩
    let s := { tsPool (oneStore (.store [1]) none (.phys 4096 false) 1) with redEntries := [e] }
    s.redEntries[0]? == some e && e.core == some 0 && !(s.core 0).isDead 270336 8 && !(s.core 0).poolPoison 270336 8
      && Mem.wf (s.core 0).pool) = true := by decide +kernel
theorem wit_fault_report : ((tsCtx fun c => { c with faultReports := [⟨causePROT, 5, .a, true⟩] }).ctx 0 0).faultReports
    = [⟨causePROT, 5, .a, true⟩] := by decide +kernel
theorem wit_bank_retention : ((ts.core 0).mayRetain 31 && decide (tget 0 (ts.core 0).bankUse 31 + 512 ≤ (ts.tick 4096).cycles)
    && ((ts.tick 4096).core 0).mayRetain 31) = true := by decide +kernel
def aTensorLine : TensorLine := ⟨⟨0, 3, 0, 0, 0, 0⟩, 0, 0, [(0, ⟨4096, 7, true, false⟩)]⟩
theorem wit_tensor_line : (let s := { ts with tensorLines := [aTensorLine] }
    s.tensorLines[0]? == some aTensorLine && aTensorLine.bytes.all fun b => !isHost b.2.pa) = true := by decide +kernel
theorem test_tensor_line : after (exec (.lineWriteback (.tensor 0)) { ts with tensorLines := [aTensorLine] }) (fun t =>
    t.tensorLines.isEmpty) = true := by decide +kernel
theorem wit_plot_retire : (let s := withLaunch aLaunch (tsCtx fun c => { c with halted := true, scalars := [], vectors := [] })
    (s.team 0).work == .launch 0 0 0 && (s.team 0).pairRun == 0 && s.drained 0 && !aLaunch.electing) = true := by decide +kernel
/-- Two drained runs of a paired plot on cores 0 and 1. -/
def pairTeam (n : Nat) : Team := { tteam with pairRun := BitVec.ofNat 2 n, ctxs := [(0, { tctx with halted := true, scalars := [], vectors := [] })] }
def tsPair : State := withLaunch aLaunch { ts with cores := [(0, { tcore with team := pairTeam 1 }), (1, { tcore with team := pairTeam 2 })] }
theorem wit_pair_compare : (tsPair.runCore 0 0 1 == some 0 && tsPair.runCore 0 0 2 == some 1 && tsPair.drained 0
    && tsPair.drained 1 && (tsPair.team 0).pairSig == (tsPair.team 1).pairSig) = true := by decide +kernel
theorem test_pair_compare : after (exec (.pairCompare 0 0) tsPair) (fun t => !(t.core 0).resident && !(t.core 1).resident
    && (t.launch 0).map Launch.retiredCount == some 1) = true := by decide +kernel
def tsWound (save : Bool) : State := withLaunch aLaunch (tsTeam fun t => { t with save := save, woundsDue := [(2, 5)] })
theorem wit_wound : ((tsWound true).team 0).woundsDue = [(2, 5)] ∧ ((tsWound false).team 0).save = false
    ∧ ((tsWound false).team 0).work = .launch 0 0 0 ∧ (tsWound true).locks = [] := by decide +kernel
theorem test_wound_discards : after (exec (.wound 0 ⟨[]⟩) (tsWound false)) (fun t => !(t.core 0).resident
    && match t.launch 0 with | some m => m.ranges.any fun r => r.returned.contains 0 | none => false) = true := by decide +kernel
def tsTctl (v : Nat) : State := withLaunch aLaunch (tsCtx fun c => { c with
  sup := true
  saved := some (makeSection tteam 0 0)
  c := { c.c with status := .waiting (.csr 0x209 (BitVec.ofNat 64 v) none) [] } })
theorem wit_tctl : ((tsTctl 256).tctlValue ⟨0, 0⟩ == some 256 && (tsTctl 3).tctlValue ⟨0, 0⟩ == some 3 && aLaunch.ended.isNone) = true := by
  decide +kernel
theorem test_tctl_fatal : after (exec (.tctlFatal ⟨0, 0⟩ 3) (tsTctl 3)) (fun t => !(t.core 0).resident
    && (t.launch 0).map Launch.ended == some (some (3, 3, 0))) = true := by decide +kernel
theorem wit_commit_window : (let s := { withLaunch aLaunch (tsTeam fun t => { t with commit := .done 0 }) with cycleAcc := 2 ^ 27 }
    decide (0 + 256 * 4096 ≤ s.cycles) && launchCommitWin aLaunch.record == 0) = true := by decide +kernel

/-! ### Queues, launches, cores -/

theorem wit_claim : (let s : State := tsHub fun h => { h with owner := 0 }
    s.ownerNow == 0 && s.portUp 0 && s.portUp 1 && ts.ownerNow != 0 && ts.ownerNow == 1 && bit (1 : W64).toNat 0
      && !({ ts with hub := { thub with hostLinks := 2 } } : State).portUp 0) = true := by decide +kernel
/-- Both ports claim in one fabric cycle, port 1 first: port 0 becomes the owner (R93). -/
def tsTie : State := tsHub fun h => { h with owner := 2, claimAt := some 100000000 }
theorem wit_claim_tie : (tsTie.ownerNow == 2 && tsTie.claimTie 0 && !tsTie.claimTie 1) = true := by decide +kernel
theorem test_claim_tie : after (exec (.claim ⟨0, 1⟩) tsTie) (fun t => t.hub.owner == 1) = true := by decide +kernel
theorem wit_lease_over : (tsHub fun h => { h with leaseMs := 1, leaseStart := 0 }).leaseOver = true := by decide +kernel
def qcontrol : W64 := 0x58004
theorem wit_queue_enable : (ts.ownerNow == 1 && ts.hub.ready && !ts.hub.fatal && !bit (ts.queueReg 3).control.toNat 15
    && bits qcontrol.toNat 0 4 == 4 && bit qcontrol.toNat 15 && decide (bits qcontrol.toNat 16 8 < 64)
    && ts.ringInMemory (bits (ts.queueReg 3).base.toNat 12 40 * 4096) 16 256) = true := by decide +kernel
def tsQueue (x : LaunchQueue) : State := tsHub fun h => { h with queues := [(3, x)] }
/-- An enabled queue of 16 records at 5 MB. -/
def qOn : LaunchQueue := { LaunchQueue.reset with base := 0x500000, control := 0x8004 }
theorem wit_queue_disable : (bit ((tsQueue qOn).queueReg 3).control.toNat 15 && qOn.head == qOn.tail) = true := by decide +kernel
theorem wit_qtail : tailOk 4 qOn.tail qOn.head 3 = true := by decide +kernel
theorem test_qtail : after (exec (.qtail 0 3 3) (tsQueue qOn)) (fun t => (t.queueReg 3).tail == 3
    && (t.queueReg 3).front == .check) = true := by decide +kernel
theorem wit_abort : (decide ((3 : BitVec 32).toNat ≤ 4096) && qOn.front == .empty) = true := by decide +kernel
def qWait : LaunchQueue := { qOn with tail := 1, front := .waitdep, record := launchRec }
def waitHyp (s : State) : Bool := match s.waitMet launchRec false with
  | (some true, s1) => (match s1.waitMet launchRec true with
    | (some true, s2) => !s2.tableHeld launchRec && s2.queueReg 3 == qWait && s2.hub.queues == s.hub.queues
    | _ => false)
  | _ => false
theorem wit_poke : waitHyp (tsQueue qWait) = true := by decide +kernel
theorem wit_recheck : (((List.range 16).all fun n => n == 3 || ((tsQueue qWait).queueReg n).front != .waitdep)
    && decide ((tsQueue qWait).hub.rechecked < gridOf ts.now) && decide (gridOf qWait.t0 < gridOf ts.now)
    && waitHyp { tsQueue qWait with hub := { (tsQueue qWait).hub with rechecked := gridOf ts.now } }) = true := by
  decide +kernel
theorem test_recheck_waits : after (exec .waitdepRecheck (tsHub fun h => { h with queues := [(3, qWait)], rechecked := gridOf ts.now }))
    (fun t => (t.queueReg 3).front == .waitdep) = true := by decide +kernel
def tsSq (on : Bool) : State := tsHub fun h => { h with sheafQ := ⟨0x100000, if on then 0x8004 else 0, 0, 0, []⟩ }
theorem wit_sq_enable : (tsSq false).ringInMemory 0x100000 16 128 = true := by decide +kernel
theorem wit_sqtail : (bit (tsSq true).hub.sheafQ.control.toNat 15 && tailOk 4 0 0 3) = true := by decide +kernel

/-- A launch record that R71 to R73 admit: four plots in one dimension, walked as the code says, one context. -/
def recWalk (walk : Nat) (more : List (Nat × Nat × Nat)) : Rec := recOf 256 ([(0x20, 4, 4), (0x30, 1, 4 * walk),
  (0x38, 8, 132 + 164 * 2 ^ 10 + 228 * 2 ^ 20 + 292 * 2 ^ 30 + 320 * 2 ^ 40)] ++ more)
def goodRec : Rec := recWalk 0 []
def tsCheck (r : Rec) : State :=
  let s := tsQueue { qOn with tail := 2, front := .check }
  { s with mem := Mem.write s.mem 0x500000 r }
def checkHyp (r : Rec) : Rec := (tsCheck r).physRead (((tsCheck r).queueReg 3).slotAddr ((tsCheck r).queueReg 3).fseq.toNat) 256
theorem wit_launch_check : (checkHyp goodRec == goodRec && (checkLaunch goodRec).isNone && launchWait goodRec false == 0
    && launchWait goodRec true == 0 && !(tsCheck goodRec).tableHeld goodRec) = true := by decide +kernel
theorem test_launch_check : after (exec (.launchCheck 3) (tsCheck goodRec)) (fun t => (t.queueReg 3).front == .ready) = true := by
  decide +kernel
theorem wit_launch_waits : ((checkLaunch (recWalk 0 [(0x48, 2, 4096)])).isNone && launchWait (recWalk 0 [(0x48, 2, 4096)]) false != 0) = true := by
  decide +kernel
theorem wit_launch_refused : checkLaunch (checkHyp (recWalk 0 [(0x48, 2, 4097)])) = some 0x48 := by decide +kernel
def tsReady (r : Rec) : State := tsQueue { qOn with tail := 1, front := .ready, record := r }
theorem wit_dispatch : ((tsReady goodRec).freeEntry == some 0 && (tsReady goodRec).chosenFront == some 3
    && (tsReady goodRec).members goodRec == [0, 1] && match (tsReady goodRec).tensorTable goodRec with
      | .ok (_, s1) => s1.hub.queues == (tsReady goodRec).hub.queues
      | .error _ => false) = true := by decide +kernel
theorem test_dispatch_deals : after (exec .dispatch (tsReady goodRec)) (fun t => match t.launch 0 with
    | some l => l.ranges == [⟨0, 0, 1, 2, []⟩, ⟨1, 2, 1, 2, []⟩] && l.deputy == some 1
    | none => false) = true := by decide +kernel
def costRec : Rec := recWalk 3 [(0x40, 4, 8192)]
def tsCost : State :=
  let s := withLaunch { aLaunch with record := costRec, ranges := [], log := [] } ts
  { s with mem := Mem.write s.mem 8192 [1, 0, 3, 0, 2, 0, 3, 0] }
theorem wit_cost_sort : (launchWalk costRec == 3 && !launchPersist costRec
    && match tsCost.launch 0 with
      | some l => l.segments.isEmpty && (match tsCost.readCosts l with | .ok (bs, _) => bs.length == 8 | .error _ => false)
      | none => false) = true := by decide +kernel
theorem test_cost_sort : after (exec (.costSort 0 0) tsCost) (fun t => (t.launch 0).map Launch.segments == some [(0, [1, 3, 2, 0])]) = true := by
  decide +kernel
def goodLaunch : Launch := { aLaunch with record := goodRec }
def tsSteal : State :=
  let s := withLaunch goodLaunch ts
  { s with chips := [(0, tchip), (1, { tchip with fifo := [256] })] }
theorem wit_steal : (let s := tsSteal.noteWaits
    match s.launch 0 with
    | some l => s.mayStealFor 0 l 1 && !s.outAsked 0 l 1
        && largestRange (l.ranges.filter fun x => l.inS x.chip && (s.chip x.chip).live) == some ⟨0, 1, 1, 3, []⟩
    | none => false) = true := by decide +kernel
theorem test_steal : after (exec (.steal 1 0) tsSteal) (fun t => match t.launch 0 with
    | some m => m.ranges.map (fun r => (r.chip, r.first, r.count)) == [(0, 1, 2), (1, 3, 1)]
    | none => false) = true := by decide +kernel
theorem wit_complete : (let l := { aLaunch with retiredCount := 4 }
    (withLaunch l ts).launch 0 == some l && decide (l.plots ≤ l.retiredCount)) = true := by decide +kernel
def tsIdle : State :=
  let s := withLaunch goodLaunch ts
  { s with chips := [(0, { tchip with fifo := [1] }), (1, tchip)] }
theorem wit_handout : ((tsIdle.secondCore 0).isNone && match bestClaimant (tsIdle.claimants 0) with
    | some c => c.task.isNone && tsIdle.launch c.id == some goodLaunch && (tsIdle.launchGives c.id goodLaunch 0).isSome
    | none => false) = true := by decide +kernel
theorem test_handout : after (exec (.coreHandout 0) tsIdle) (fun t => (t.core 1).assign == some ⟨.launch 0 1 1, 0, false⟩
    && (t.chip 0).fifo.isEmpty) = true := by decide +kernel
def pairLaunch : Launch := { goodLaunch with record := recWalk 0 [(0x30, 1, 128)] }
def tsHalf : State := { tsIdle with
  cores := [(1, { Core.reset with assign := some ⟨.launch 0 1 1, 1, false⟩ })]
  launches := [(0, some pairLaunch)]
  chips := [(0, { tchip with fifo := [32] }), (1, tchip)] }
theorem wit_second_core : (tsHalf.secondCore 0).map Prod.fst = some 32 := by decide +kernel
def tsStart (a : Assign) : State := { withLaunch goodLaunch ts with cores := [(1, { Core.reset with assign := some a })] }
theorem wit_plot_start : (let s := tsStart ⟨.launch 0 1 1, 0, false⟩
    (s.core 1).assign == some ⟨.launch 0 1 1, 0, false⟩ && s.pairReady 0 1 0 && (tfind goodLaunch.log 1).isNone) = true := by
  decide +kernel
theorem test_plot_start : after (exec (.plotStart 1) (tsStart ⟨.launch 0 1 1, 0, false⟩)) (fun t => (t.core 1).resident
    && ((t.ctx 1 0).squeue 0).entries == [.ready 1 false] && (t.ctx 1 0).c.preds == 1) = true := by decide +kernel
def anImage : Image := ⟨0, none, { tteam with work := .launch 0 1 1, age := 6 }, [], 0, [], [], 0⟩
def tsImage : State := { tsStart ⟨.launch 0 1 1, 0, true⟩ with images := [anImage] }
theorem wit_team_resume : tsImage.owedImage 1 = some anImage ∧ anImage.team.queues = [] ∧ anImage.team.allHalted = false := by
  decide +kernel
theorem test_team_resume : after (exec (.teamResume 1) tsImage) (fun t => (t.core 1).resident && (t.team 1).age == 6
    && t.images.isEmpty) = true := by decide +kernel
/-- A launch of a higher priority waits 20 µs for a core that the resident team of launch 0 holds. -/
def tsPress (save : Bool) : State := { tsTeam (fun t => { t with save := save, spadTop := 292 }) with
  launches := [(0, some { goodLaunch with lastGot := [(0, 100000000)] }), (1, some { goodLaunch with lastGot := [(0, 100000000)], record := recWalk 0 [(0x31, 1, 5)], ranges := [⟨0, 0, 1, 4, []⟩], log := [], waitSince := [(0, 0)] })] }
def pressHyp (save : Bool) : Bool :=
  let s := (tsPress save).noteWaits
  (s.residents.find? fun e => chipOf e.1 == 0 && e.2.team.preemptDue).isNone && match s.pressing 0 with
  | some c => s.victim 0 c.prio == some 0 && s.discards (s.team 0) == !save
      && (((s.stopTeam 0).modTeam 0 fun t => { t with preemptDue := true }).withdrawOwn 0).settled 0
  | none => false
theorem wit_walker : (pressHyp true && pressHyp false) = true := by decide +kernel
theorem test_walker_saves : after (exec (.walkerPreempt 0 ⟨[]⟩) (tsPress true)) (fun t => !(t.core 0).resident
    && t.images.map (fun i => i.team.age) == [4]) = true := by decide +kernel
def tsSwap : State := withLaunch goodLaunch (tsTeam fun t => { t with persist := true, swapDue := true })
theorem wit_swap : (!tsSwap.electing 0 && (tsSwap.team 0).persist && !(tsSwap.team 0).preemptDue && (tsSwap.withdrawOwn 0).settled 0 && !(tsSwap.withdrawOwn 0).electing 0) = true := by decide +kernel

/-! ### Fences and sheaves -/

theorem wit_fatal : (!ts.hub.fatal && (ts.chip 1).live && (ts.chip 0).live) = true := by decide
theorem wit_fenced_launch : (let s := withLaunch aLaunch ts
    s.launch 0 == some aLaunch && aLaunch.inS 1 && aLaunch.ended.isNone) = true := by decide +kernel
theorem wit_fencectl : (ts.ownerNow == 1 && ts.ownerNow != 2 && (3 : W64).toNat % 2 ^ 16 != 0) = true := by decide
theorem test_unfence : after (exec (.unfence 0 (6 * 2 ^ 16)) (tsHub fun h => { h with fencemask := 4 })) (fun t =>
    t.hub.unfencing == 4) = true := by decide +kernel
theorem wit_unfence : (tsHub fun h => { h with fencemask := 4, unfencing := 4 }).hub.unfencing.getLsbD 2 = true := by decide
def electing (l : Launch) : Launch := { l with electing := true }
theorem wit_election : (let s := withLaunch (electing aLaunch) ts
    let u := withLaunch (electing { aLaunch with master := 5, deputy := some 6 }) ts
    aLaunch.inS aLaunch.master && (s.chip aLaunch.master).live && !(u.chip 5).live && !(u.chip 6).live
      && (electing aLaunch).electing) = true := by decide +kernel
/-- Chiplet 0, the master, has been fenced and brought back: it is no member of S any more (R464). -/
theorem test_election_skips : after (exec (.election 0) (withLaunch (electing { aLaunch with lost := 1 }) ts)) (fun t =>
    (t.launch 0).map Launch.master == some 1) = true := by decide +kernel
/-- Chiplet 2, fenced, ran plot 1 of a launch and held the position 3. -/
def gleanLaunch (st : PlotState) : Launch := { goodLaunch with
  chips := 7
  toGlean := 4
  log := [(0, .started 4 0), (1, st)]
  ranges := [⟨0, 2, 1, 1, []⟩, ⟨2, 3, 1, 1, []⟩] }
theorem wit_gleaner : (let l := gleanLaunch (.started 5 512)
    let s := withLaunch l ts
    s.launches == [(0, some l)] && l.toGlean.getLsbD 2 && (l.lostPlot 2).isNone && !launchPersist l.record
      && !(s.chip 2).live && (s.chip 0).live && l.inS 0) = true := by decide +kernel
theorem test_gleaner : after (exec (.gleaner 2) (withLaunch (gleanLaunch (.started 5 512)) ts)) (fun t => match t.launch 0 with
    | some m => m.ended.isNone && m.ranges.all (fun r => r.chip != 2) && tfind m.log 1 == some (.returned 5)
    | none => false) = true := by decide +kernel
theorem wit_gleaner_lost : (gleanLaunch (.committed 5 512)).lostPlot 2 = some 1 := by decide +kernel

/-- A sheaf of operation 1 over one tile: A at 8,192, B at 16,384, C (fp32) at 32,768, STAT at 65,536. -/
def sheafRec : Rec := recOf 128 [(0, 1, 1), (1, 1, 0x88), (0x08, 4, 32), (0x0C, 4, 32), (0x10, 4, 32), (0x18, 4, 8192),
  (0x20, 4, 12288), (0x28, 4, 16), (0x30, 4, 16384), (0x38, 4, 20480), (0x40, 4, 16), (0x48, 4, 32768), (0x58, 4, 128),
  (0x68, 4, 65536)]
/-- Set 1: one information task, r parity tasks, a timeout of 5 µs. -/
def setWord (r : Nat) : W64 := BitVec.ofNat 64 (1 + 16 + r * 256 + 5 * 2 ^ 48)
def tsSheaf (r : Nat) : State :=
  let s := tsBytes 4096 sheafRec
  { s with hub := { s.hub with codesets := [(1, setWord r)] }, cores := [(0, { tcore with team := { tteam with commit := .done 0 } })] }
def sheafHyp (s : State) : Bool := via (readSrc r2 s) fun x s1 => x.toNat % 128 == 0 && via (readRecord x 128 s1) fun d s2 =>
  d == sheafRec && (checkSheaf d (tget 0 s2.hub.codesets (shOpid d))).isNone && !s2.curTeam.uncommitted
    && s2.cur.storeFaults.isEmpty && !s2.curTeam.suppressed
theorem wit_sheaf : (sheafHyp (tsSheaf 1) && decide ((tsSheaf 1).heldSheaves < 64) && (tsSheaf 1).sheafWaits.isEmpty
    && (tsSheaf 1).hub.sheafQ.posts.isEmpty) = true := by decide +kernel
def aSheaf (id : Nat) (phase : SheafPhase) : Sheaf := { Sheaf.fresh id sheafRec 0 0 0 0 with
  set := setWord 0, phase := phase, k := 1, splitAt := 0 }
def tsFull : State := { tsSheaf 1 with sheaves := (List.range 64).map fun i => aSheaf i .running }
theorem wit_sheaf_waits : (sheafHyp tsFull && decide (64 ≤ tsFull.heldSheaves)) = true := by decide +kernel
theorem wit_sheaf_refused : checkSheaf sheafRec 0 = some (causeILLEGAL, 0) := by decide +kernel
theorem wit_sheaf_misaligned : via (readSrc r0 ts) (fun x _ => x.toNat % 128 != 0) = true := by decide +kernel
theorem wit_sheaf_submit : (let s := tsCtx fun c => { c with a := { c.a with status := .waiting (.sheafRoom sheafRec 0) [] } }
    (s.core 0).resident && s.mayTake 0) = true := by decide +kernel
def tsPost : State :=
  let s := tsHub fun h => { h with sheafQ := ⟨0x500000, 0x8004, 1, 0, [0]⟩ }
  { s with mem := Mem.write s.mem 0x500000 sheafRec }
theorem wit_sheaf_take : (!tsPost.hub.fatal && tsPost.hub.ready && tsPost.mayTake 0) = true := by decide +kernel
theorem test_sheaf_take : after (exec .sheafTake tsPost) (fun t => t.sheaves.map (fun x => x.desc == sheafRec) == [true]) = true := by
  decide +kernel
def tsSplit (r : Nat) (x : Sheaf) : State := { tsSheaf r with sheaves := [x] }
def splitHyp (s : State) (x : Sheaf) : Bool := s.sheafOf x.id == some x && s.forkDone x && !s.earlierPost x && x.outer.isNone
  && !shPod x.desc && (checkSheaf x.desc (tget 0 s.hub.codesets (shOpid x.desc))).isNone && (s.operandFault x).isNone
theorem wit_sheaf_split : splitHyp (tsSplit 1 (aSheaf 0 .waiting)) (aSheaf 0 .waiting) = true := by decide +kernel
theorem test_sheaf_split : after (exec (.sheafSplit 0) (tsSplit 1 (aSheaf 0 .waiting))) (fun t => match t.sheafOf 0 with
    | some y => y.tasks.map (fun u => u.chip) == [0, 1] && y.r == 1
    | none => false) = true := by decide +kernel
def tsNoChip : State := { tsSplit 1 (aSheaf 0 .waiting) with chips := [] }
theorem wit_sheaf_no_chip : (splitHyp tsNoChip (aSheaf 0 .waiting) && !(tsNoChip.chip 0).live) = true := by decide +kernel
def oneTask : Task := ⟨0, 0, false, 0, none, 0, none, []⟩
def placed : Sheaf := { aSheaf 0 .placed with tasks := [oneTask] }
theorem wit_sheaf_starts : ((tsSplit 0 placed).sheafOf 0 == some placed && decide (0 < placed.positions) && placed.r == 0
    && decide (0 < placed.k) && placed.tasks.all fun u => u.ended.isNone) = true := by decide +kernel
theorem test_sheaf_starts : after (exec (.sheafSplit 0) (tsSplit 0 placed)) (fun t => (t.sheafOf 0).map Sheaf.phase == some .running) = true := by
  decide +kernel
/-- A sheaf with a parity task on chiplet 1, whose SPREAD is as given; its rows of zeros fit plain. -/
def placedParity (spread : Nat) : Sheaf := { placed with
  r := 1
  set := BitVec.ofNat 64 ((setWord 1).toNat + spread * 2 ^ 14)
  tasks := [oneTask, { oneTask with id := 1, chip := 1 }] }
theorem wit_parity_issues : ((placedParity 0).r != 0 && !(placedParity 0).issued && (placedParity 0).outer.isNone) = true := by
  decide +kernel
theorem test_parity_issues : after (exec (.sheafSplit 0) (tsSplit 1 (placedParity 0))) (fun t =>
    (t.core 256).encodes.map HubEncode.task == [1]) = true := by decide +kernel
def fitted (spread : Nat) (f : Fit) : Sheaf := { placedParity spread with issued := true, fits := [(0, f)] }
theorem wit_parity_goes_on : (!(tsSplit 1 (fitted 0 .plain)).encoding 0 && ((fitted 0 .plain).fits.all fun f => f.2 == .plain)
    && [0, 1, 2].all fun k => bits (fitted k .wide).set.toNat 14 2 == k && !(fitted k .wide).fits.all fun f => f.2 == .plain) = true := by
  decide +kernel
theorem test_parity_uncoded : after (exec (.sheafSplit 0) (tsSplit 1 (fitted 1 .wide))) (fun t => match t.sheafOf 0 with
    | some y => y.phase == .running && y.uncoded && y.r == 0
    | none => false) = true := by decide +kernel
def encWork : HubEncode := ⟨0, 0, 1, none⟩
def tsHubEnc : State := let s := tsSplit 1 { placedParity 0 with issued := true }
  { s with cores := s.cores ++ [(256, { Core.reset with encodes := [encWork] })] }
theorem wit_hub_encode : (let x : Sheaf := { placedParity 0 with issued := true }
    let s := tsHubEnc.modCore 256 fun c => { c with encodes := c.encodes.erase encWork }
    (tsHubEnc.dataCommand 256 0 5).isNone && ((tsHubEnc.core 256).encodes.find? fun y => y.queue == 0) == some encWork
      && !(tsHubEnc.core 256).resident && tsHubEnc.sheafOf 0 == some x
      && match s.codeSources x (List.range x.blockRows) with
        | .ok (rows, s1) => s1.sheafOf 0 == some x && parityFit x 0 rows == .plain
        | .error _ => false) = true := by decide +kernel
/-- A core of the FIFO goes to a task of a sheaf that runs. -/
def tsTask : State := { tsSplit 0 { placed with phase := .running, statOk := true } with
  chips := [(0, { tchip with fifo := [1] }), (1, tchip)] }
theorem wit_task_handout : ((tsTask.secondCore 0).isNone && match bestClaimant (tsTask.claimants 0) with
    | some c => c.task == some 0 && c.id == 0 && (tsTask.sheafOf 0).any fun x => x.tasks.any fun t => t.id == 0
    | none => false) = true := by decide +kernel
/-- Core 1 computes the only tile of the sheaf's only task. -/
def running : Sheaf := { aSheaf 0 .running with tasks := [{ oneTask with next := 1 }], statOk := true }
def tsReturn (x : Sheaf) : State := { tsSplit 0 x with
  cores := (tsSplit 0 x).cores ++ [(1, { tcore with team := { tteam with age := 5, work := .sheaf 0 0 0 } })] }
def returnHyp (x : Sheaf) : Bool := (tsReturn x).sheafOf 0 == some x && (tsReturn x).tileCore 0 0 0 == some 1
  && match (tsReturn x).taskTile x 0 0 with
    | .ok (recs, s1) => recs.length == 1024 && s1.sheafOf 0 == some x && !recs.any badHead && s1.hub.injectOrder.isEmpty
        && ((s1.core 1).markedTile ((s1.team 1).bufStart .z) 0).isNone && x.tiles.isEmpty
        && !x.timedOut && decide (0 < x.positions) && x.returns.isEmpty
    | .error _ => false
theorem wit_return_last : returnHyp running = true := by decide +kernel
def twoTasks : Sheaf := { running with k := 1, r := 1, set := BitVec.ofNat 64 (1 + 16 + 256 + 2 ^ 16 + 5 * 2 ^ 48), tasks := [{ oneTask with next := 1 }, { oneTask with id := 1, chip := 1 }] }
theorem wit_return : (returnHyp twoTasks && setSure twoTasks.set) = true := by decide +kernel
theorem wit_sheaf_timeout : (let s := tsSplit 0 running
    s.sheafOf 0 == some running && decide (running.splitAt + bits running.set.toNat 48 16 * 7200 ≤ s.now)) = true := by
  decide +kernel
theorem wit_pod_task : (!ts.hub.fatal && ts.hub.ready && (recOf 144 []).length == 144) = true := by decide +kernel

/-! ### Invalidation and migration -/

theorem wit_inval : (ts.ownerNow == 1 && ts.hub.inval.isNone && bit 0x10005 16) = true := by decide +kernel
def tsInval (d : Bool) : State := tsHub fun h => { h with inval := some ⟨d, 0, false, 0, 2 ^ 56⟩ }
theorem wit_inval_busy : (tsInval false).hub.inval = some ⟨false, 0, false, 0, 2 ^ 56⟩ := by decide +kernel
theorem test_inval_delivery : after (exec .invalidationDelivery (tsInval false)) (fun t => (t.core 0).dtlb.isEmpty) = true := by
  decide +kernel
theorem wit_inval_drained : (tsInval true).invDrained ⟨true, 0, false, 0, 2 ^ 56⟩ = true := by decide +kernel
theorem wit_inval_waits : (let s := (tsInval true).modCtx 0 0 fun c => { c with storeQ := [{ oneStore (.store [1]) none (.phys 4096 false) 1 with awaited := true }] }
    s.invDrained ⟨true, 0, false, 0, 2 ^ 56⟩) = false := by decide +kernel
def tsHot (t : Int) : State := ts.modCore 0 fun c => { c with temp := t }
theorem wit_migration_request : (decide (95 ≤ (tsHot 96).sensor 0) && decide ((tsHot 94).sensor 0 < 95)) = true := by decide +kernel
def tsMig (m : MigRequest) : State :=
  let s := (tsHot 96).modCore 0 fun c => { c with migration := some m }
  { s with chips := [(0, { tchip with fifo := [1] }), (1, tchip)] }
def aMig : MigRequest := ⟨0, 0, false, none⟩
theorem wit_migration_retry : (decide (aMig.lastTry + 10 * 7200 ≤ (tsMig aMig).now) && decide (aMig.since + 200 * 7200 ≤ (tsMig aMig).now)
    && (tsMig aMig).migTarget 0 == some 1) = true := by decide +kernel
def takenMig : MigRequest := { aMig with target := some 1 }
theorem wit_migration : (let s := tsMig takenMig
    !(s.team 0).preemptDue && !(s.team 0).swapDue && !(s.remap (s.logicalOf 0)).hold && (s.beginMove 0).movable 0) = true := by decide +kernel
theorem test_migration : after (exec (.migration 0) (tsMig takenMig)) (fun t => !(t.core 0).resident && (t.core 1).resident
    && (t.core 0).hot && (t.team 1).age == 4) = true := by decide +kernel
def tsCool : State := { ts with cores := [(1, { Core.reset with hot := true })] }
theorem wit_cool : ((tsCool.core 1).hot && decide (tsCool.sensor 1 < 85) && (tsCool.chip 0).live && !(tsCool.core 1).resident) = true := by
  decide +kernel
theorem test_cool : after (exec (.sensorBelow85 1) tsCool) (fun t => (t.chip 0).fifo == [1]) = true := by decide +kernel

/-! ### Power, resets, management -/

theorem wit_lease : (thub.booted && thub.leaseSeq.isNone) = true := by decide
theorem test_lease_clamps : after (exec (.lease 3 200 5) ts) (fun t => t.hub.leaseWatts == 400 && t.hub.leaseSeq == some 3) = true := by
  decide +kernel
theorem wit_lease_lapse : (let h : Hub := { thub with leaseUntil := 5 }
    h.leaseUntil != 0 && decide (h.leaseUntil ≤ ts.now)) = true := by decide +kernel
def tsRail : State := withLaunch goodLaunch ts
theorem wit_rail : ((tsRail.easeThrottle.wanted 1).isSome && (ts.easeThrottle.wanted 1).isNone) = true := by decide +kernel
/-- A launch of KERNELID 5 is in phase 2, which it entered long ago. -/
def optTeam : State :=
  let s := tsCtx fun c => { c with phase := 2, asked := some ⟨0, []⟩ }
  withLaunch { aLaunch with record := recWalk 0 [(0x1C, 2, 5)] } { s with hub := { thub with rails := [(0, 3), (1, 3), (2, 3), (3, 3)] } }
theorem wit_opt_measured : (optTeam.measured 5 2 && !optTeam.measured 5 3) = true := by decide +kernel
theorem wit_opt_new : (optTeam.hub.lookup 5 2).isNone && optTeam.hub.victimEntry.isSome
    && (List.range 4).all fun r => decide (tget 0 optTeam.hub.rails r < 8) = true := by decide +kernel
theorem wit_opt_known : after (exec (.optTableLearn 5 2 100) optTeam) (fun t => match t.hub.lookup 5 2 with
    | some i => !optPin (t.hub.opt i)
    | none => false) = true := by decide +kernel
def tsPinned : State := tsHub fun h => { h with optable := [(0, optWord true 3 5 2 [1, 2, 3, 4] 50)] }
theorem wit_opt_pinned : (tsPinned.hub.lookup 5 2 == some 0 && optPin (tsPinned.hub.opt 0)) = true := by decide +kernel
def tsWarm (t : Int) : State := { tsHot t with chips := [(0, { tchip with stackTemp := t }), (1, tchip)] }
theorem wit_thermal : ((tsWarm 110).chipHot 0 && ((tsWarm 110).chip 0).throttled.isNone && !(tsWarm 90).chipHot 0) = true := by
  decide +kernel
theorem wit_trips : (decide (115 ≤ ((tsWarm 116).core (256 * 0 + 0)).temp) && decide (105 ≤ ((tsWarm 110).chip 0).stackTemp)
    && ((tsWarm 116).chip 1).live && !(tsWarm 116).hub.fatal) = true := by decide +kernel
theorem wit_link_up : (ts.hub.heldInReset || !({ thub with heldInReset := true } : Hub).heldInReset) = false := by decide
theorem wit_warm : (ts.ownerNow == 1 && ts.l2.all (fun e => !e.2) && ts.ownerNow != 2) = true := by decide
theorem wit_perst : (ts.ownerNow == 1 && ts.ownerNow != 2) = true := by decide
def noImages : BringUpData := ⟨3, 0, 0, 900, 400, 0, [], [], []⟩
theorem wit_bring_up_stays : (let s := State.reset
    !s.hub.ready && !s.hub.fatal && (s.hub.flash noImages).boot.isNone) = true := by decide +kernel
theorem wit_bring_up : (let s := tsHub fun h => { h with ready := false }
    !s.hub.fatal && ((s.hub.flash noImages).boot).isSome && noImages.livemask != 0) = true := by decide
/-- An image is accepted where its header, its two digests and its signature agree; the digest of its key is to be the fused
one, which is a free value (log entry 11). -/
theorem wit_image_accepted (i : List Byte) (h : (256 ≤ i.length && fieldOf i 0 4 == 0x5A584657 && fieldOf i 8 8 == (imageBody i).length) = true)
    (h1 : (sha384 ((i.drop 160).take 96) == Config.fusedKeyHash) = true)
    (h2 : signatureOk ((i.drop 160).take 96) ((i.drop 64).take 96) (i.take 64) = true)
    (h3 : (sha384 (imageBody i) == (i.drop 16).take 48) = true) : imageOk 0 i = true := by
  unfold imageOk
  simp only [h, h1, h2, h3, Bool.true_and, Nat.zero_le, decide_true]
/-- A signed firmware image of version 5. -/
def anImageFile : List Byte := beBytes 52 0x5746585a0500000004000000000000005a667d62430a8c253ebae433333904dc6e1d41dcdc479704773159b905a3ad82d2bad776 ++
  beBytes 52 0x2d81a366cc46fbb2e2327f5c62ebeb1ccdb4ce177738c5feb725e18768b87e92ab33003dc67e7ddd76ce21b20449c6ca8d1d61b5 ++
  beBytes 52 0xf5881bfd3d020cf497bf7af12a9639dd613d95018e111187e42c33085935e207ee4d927c7a07d4598cd4a1b8fa4ecf70d0e74411 ++
  beBytes 52 0x87bab4d6e1aabcdb1b3582b5299da5b78cf6615d6782599bc9980bdbbe9449ca78bc505e22a2eea4ff6c07b103a314b200f17cd3 ++
  beBytes 52 0x2ac0577e8026a45755ac6371de393eda654fc8772a89106d9e4e9b1d88552f2f3cfad400aa5782b309b5cdac3578047901020304
/-- It is accepted where the fused digest is its key's; what is fused is a free value (log entry 11). -/
theorem wit_image_file (h : (sha384 ((anImageFile.drop 160).take 96) == Config.fusedKeyHash) = true) :
    imageOk thub.fuseCount anImageFile = true := by
  unfold imageOk
  rw [h]
  decide +kernel
/-- The example of FIPS 180-4: "abc". -/
theorem test_sha384 : beNat (sha384 [0x61, 0x62, 0x63]) =
    0xcb00753f45a35e8bb5a03d699ac65007272c32ab0eded1631a8b605a43ff5bed8086072ba1e7cc2358baeca134c825a7 := by decide +kernel
/-- The example of RFC 6979 for P-384 with SHA-384: "sample". -/
theorem test_ecdsa : beNat (signWith 0x6B9D3DAD2E1B8C1C05B19875B6659F4DE23C3B667BF297BA9AA47740787137D896D5724E4C70A825F872C9EA60D2EDF5
    0x94ED910D1A099DAD3254E9242AE85ABDE4BA15168EAF0CA87A555FD56D10FBCA2907E3E83BA95368623B8C4686915CF9
    [0x73, 0x61, 0x6D, 0x70, 0x6C, 0x65]) =
    0x94EDBB92A5ECB8AAD4736E56C691916B3F88140666CE9FA73D64C4EA95AD133C81A648152E44ACF96E36DD1E80FABE46 * 2 ^ 384 +
    0x99EF4AEB15F178CEA1FE40DB2603138F130E740A19624526203B6351D0A3A94FA329C145786E679E7B82C71A38628AC8 := by decide +kernel
theorem test_row_links : after (exec (.rowNeighbourLinkDown 3) ts) (fun t => t.hub.rowDown == 8) = true
    ∧ after (exec (.rowNeighbourLinkDown 7) ts) (fun t => t.hub.rowDown == 0) = true := by decide +kernel
theorem wit_retrain : (!ts.hub.loops (0 : W64) && ts.hub.portst.all fun e => !ts.hub.loops e.2) = true := by decide
/-- Ports 1 and 2 report this package's own id, 0. -/
def tsLoop : State := tsHub fun h => { h with portst := [(1, 5)] }
theorem wit_retrain_loops : (tsLoop.hub.loops (tget 0 tsLoop.hub.portst 1) && tsLoop.hub.loops 5 && bits (5 : W64).toNat 2 2 == 1) = true := by
  decide
theorem test_retrain_loops : after (exec (.portRetrain 2 5) tsLoop) (fun t =>
    t.hub.portst.all (fun e => !e.2.getLsbD 0) && t.hub.looped == [1, 2]) = true := by decide +kernel +kernel
theorem wit_managed : (thub.booted && thub.trusted) = true := by decide
theorem wit_unmanaged : (Hub.reset.booted || ({ thub with requester := 1 } : Hub).trusted) = false := by decide
theorem wit_image_refused : imageOk thub.fuseCount [] = false := by decide +kernel

/-! ### Host accesses, reset -/

/-- R442: a UE of the same fabric cycle goes before a CE, and the lower ADDR is kept; a clear comes before both. -/
def tsBank : State := ((ts.bankEvent 3 false evCE 64 1).bankEvent 3 true evUE 160 2).bankEvent 3 true evUE 96 3
theorem test_bank_order : (let b := tget bankEmpty tsBank.hub.banks 3
    b.addr == 96 && b.status.getLsbD 62 && b.status.getLsbD 61 && bankField b 16 16 == 2 && bankField b 32 16 == 1) = true := by
  decide +kernel
theorem test_bank_clear : after (exec (.bankClear 0 3) tsBank) (fun t => (tget bankEmpty t.hub.banks 3).addr == 96) = true := by
  decide +kernel
theorem wit_bank_clear : ((ts.bankCycle 3).events.isEmpty && !(tsBank.bankCycle 3).events.isEmpty) = true := by decide +kernel

theorem wit_register_write : (ts.hub.hostLinks.getLsbD 0 && ts.ownerNow == 1 && ts.ownerNow != 2 && ts.hub.hostLinks.getLsbD 1) = true := by
  decide
theorem test_agep : after (exec (.registerWrite 0 0x20 50) ts) (fun t => t.hub.agep == 100) = true := by decide +kernel
theorem wit_host_write : (ts.redEntries.isEmpty && Mem.wf ts.mem && !ts.writeDropped 8192 && ts.isTableMemory 8192
    && ts.isTableMemory 8193 && !ts.isTableMemory (64 * 10 ^ 9)) = true := by decide +kernel
theorem wit_mem_wf : ts.memWf := by unfold State.memWf; decide +kernel
theorem test_host_write : after (exec (.hostWrite 0 8192 [1, 2]) ts) (fun t => Mem.byte t.mem 8193 == 2) = true := by decide +kernel
theorem wit_host_read : (ts.isTableMemory 8192 && ts.isTableMemory 8193 && !ts.rangePoison 8192 2 && ts.flips.isEmpty && !ts.isTableMemory (2 ^ 45)) = true := by
  decide +kernel
/-- Command 5 of package 7 has been told of; its pages are translated as they are met. -/
def withFar (s : State) : State := { s with farCommands := [⟨7, 5, 0, [], false⟩] }
theorem wit_fabric : (match (withFar ts).farAt 7 5 8192 accWrite with
    | .ok (_, .mem pa false) => pa == 8192 && !ts.writeDropped pa && decide (pa + 2 ≤ 2 ^ 51)
    | _ => false) = true := by decide +kernel
theorem wit_fabric_read : (match (withFar ts).farRead 7 5 8192 4 with | .ok (bs, _) => bs.length == 4 | .error _ => false) = true := by
  decide +kernel
theorem wit_fabric_add_refused : (match ts.farAt 7 5 8192 accAtomic, (withFar ts).farAt 7 5 8192 accAtomic with
    | .error c, .error e => c == causeXLATE && e == causePROT
    | _, _ => false) = true := by decide +kernel
theorem wit_fabric_start : (match ts.farPin 0 (8192, 64, true), ({ ts with mem := [] } : State).farPin 0 (8192, 64, true) with
    | .ok pins, .error c => pins.length == 1 && c == causeXLATE
    | _, _ => false) = true := by decide +kernel
/-- A packet of one message of 16 bytes to core 1, ring 2. -/
def aPacket : BitVec 128 := BitVec.ofNat 128 (2 ^ 24 + 2 ^ 48 + 2 * 2 ^ 60 + 2 ^ 64)
theorem test_packet : after (exec (.fabricWindowArrival (.packet aPacket (List.replicate 16 7))) ts) (fun t =>
    t.messages.map (fun m => m.bytes) == [List.replicate 16 7]) = true := by decide +kernel
theorem wit_packet : bits aPacket.toNat 24 2 ≠ 0 := by decide +kernel
theorem wit_completed : (let s := tsCmd 0 { started (queuedCmd fillRec) with cplSent := true } []
    (s.core 0).resident && !(s.team 0).allHalted && match ((s.team 0).queue 0).cmds with | c :: _ => c.cplSent | [] => false) = true := by
  decide +kernel
/-- The same tables with C = 1. -/
def tsCached : State := { ts with mem := Mem.write (Mem.write (Mem.write [] 0 (leBytes 8 0x100001)) 0x100000 (leBytes 8 0x300001)) 0x300000 (leBytes 8 0x7F) }
theorem wit_fabric_add : (match (withFar tsCached).farAt 7 5 8192 accAtomic with
    | .ok (_, .mem pa true) => pa == 8192 && !tsCached.rangePoison 8192 8 && tsCached.poison.isEmpty && tsCached.flips.isEmpty && Mem.wf tsCached.mem
        && tsCached.physRead 8192 8 == Mem.read tsCached.mem 8192 8
    | _ => false) = true := by decide +kernel
theorem test_fabric_add : after (exec (.fabricWindowArrival (.cplAdd 7 5 8192)) (withFar tsCached)) (fun t =>
    Mem.byte t.mem 8192 == 1) = true := by decide +kernel
/-! ### Bundles in full, and accesses of every kind -/

/-- A TRAP in slot C of a loose bundle, whose other slots have not issued. -/
def tsTrapBundle : State := tsCode (bundle false (fields [(56, 0x2A), (8, 3), (0, 7)])) false
theorem wit_trap_held : (mayIssue tsTrapBundle
    && tsTrapBundle.trapHeld 0 0 .c (fetchSlots (tsTrapBundle.ctx 0 0) 0).head?) = true := by decide +kernel
def tsSync : State := tsCode (bundle true addWord) false
theorem wit_sync_step : (mayIssue tsSync && (badSlots 16 (fetchSlots (tsSync.ctx 0 0) 0)).isEmpty
    && (Cluster.all.all fun q => (tsSync.ctx 0 0).atBundle .c q && (Ctx.cluster (tsSync.ctx 0 0) q).ready)
    && ((tsSync.ctx 0 0).dueAmong Cluster.all).isNone
    && (fetchSlots (tsSync.ctx 0 0) 0).head?.any fun x => x.syl.any fun y => y.y && !isLate y.op) = true := by decide +kernel
def guarded (i : Instr) : List (Cluster × Slot) := Cluster.all.map fun q => (q, ⟨0, some ⟨false, 5, false, i⟩⟩)
theorem wit_guards_false : (ts.issue == Issue.idle && (guarded (.add d9 r0 r1)).map Prod.fst == Cluster.all
    && (guarded (.add d9 r0 r1)).all fun e => !(ts.beginSlot 0 0 e.1 0 0 false).pred 5) = true := by decide +kernel
theorem test_guards_false : after (issueTogether exec ts 0 0 0 (guarded (.add d9 r0 r1)) false true) (fun u =>
    (u.ctx 0 0).squeue 9 == ts.cur.squeue 9 && (u.ctx 0 0).issued == 4 && (u.ctx 0 0).m.pc == 32) = true := by decide +kernel
def inC (i : Instr) : Out := issueTogether exec ts 0 0 0 (bundleOf (inSlots i .nop .nop .nop) fun _ => 0) false true
theorem wit_bundle_transfers : (ts.issue == Issue.idle && !ts.cur.apart && ts.cur.targetOk (slotTarget 0 .c 4)
    && !ts.cur.targetOk (slotTarget 0 .c 1) && ts.cur.unbind.takes .c d9
    && via (readSrc r2 (ts.beginSlot 0 0 .c 0 0 false)) (fun x _ => ts.cur.targetOk x)
    && via (readSrc ⟨.pop, 61⟩ (ts.beginSlot 0 0 .c 0 0 false)) (fun b _ => b == 1)
    && (ts.cur.squeue 0).entries == [.ready 12 false] && (ts.cur.squeue 0).cond != .dead
    && (ts.team 0).commit == .none && !ts.logBusy (ts.team 0) && (ts.team 0).woundsDue.isEmpty
    && !(ts.team 0).tctlWaits) = true := by decide +kernel
theorem test_bundle_br : after (inC (.br 4)) (fun u => Cluster.all.all fun q => (Ctx.cluster (u.ctx 0 0) q).pc == 32) = true := by
  decide +kernel
theorem test_bundle_misaligned : after (inC (.br 1)) (fun u => (u.ctx 0 0).tval == 8 && (u.ctx 0 0).sup) = true := by decide +kernel
theorem test_bundle_call : after (inC (.call d9 4)) (fun u => ((u.ctx 0 0).squeue 9).entries == [.ready 32 false]) = true := by
  decide +kernel
theorem test_bundle_loop : after (inC (.loop 0 8 1)) (fun u => ((u.ctx 0 0).squeue 0).entries == [.ready 11 false]
    && (u.ctx 0 0).v.preds.getLsbD 56 && (u.ctx 0 0).v.pc == 64) = true := by decide +kernel
theorem test_bundle_halt : after (inC .halt) (fun u => (u.ctx 0 0).waitOf .c == some .halt && (u.ctx 0 0).c.pc == 0
    && (u.ctx 0 0).a.pc == 32) = true := by decide +kernel
theorem test_bundle_split : after (issueTogether exec ts 0 0 0
    (bundleOf (inSlots (.split 4) .nop (.split 8) .nop) fun _ => 0) true true) (fun u => (u.ctx 0 0).apart
      && (u.ctx 0 0).c.pc == 32 && (u.ctx 0 0).v.pc == 80 && (u.ctx 0 0).a.status == .resting) = true := by decide +kernel
/-- g8 is DEAD, g20 empty, g12 poisoned. -/
def tsStops : State := tsCtx fun c => (c.setSqueue 8 ⟨[], true, false, .dead, none⟩).setSqueue 12 ⟨[.ready 3 true], false, false, .live, none⟩
def stopHyp (a f : Src) : Bool :=
  match readSrc a (tsStops.beginSlot 0 0 .c 0 0 false) with
  | .error (.trap cause v) => match readSrc f (State.beginSlot { tsStops.beginSlot 0 0 .c 0 0 false with
      issue := { (tsStops.beginSlot 0 0 .c 0 0 false).issue with raised := some ⟨cause, v, .c, false⟩ } } 0 0 .a 8 0 false) with
    | .error (.trap _ _) => true
    | _ => false
  | .ok (x, s1) => via (readSrc r1 s1) fun y s2 => s2.cur.unbind.takes .c d9
      && match readSrc f (State.beginSlot { s2 with issue := { s2.issue with writes := [.scalar .c d9 (.ready (x + y) false)] } }
        0 0 .a 8 0 false) with | .error (.trap _ _) => true | .error (.stall _ _) => true | _ => false
  | _ => false
theorem wit_slot_traps : (stopHyp r0 ⟨.pop, 8⟩ && stopHyp r0 ⟨.pop, 20⟩ && stopHyp ⟨.pop, 8⟩ ⟨.pop, 12⟩) = true := by decide +kernel
def twoAdds (a f : Src) : Out :=
  issueTogether exec tsStops 0 0 0 (bundleOf (inSlots (.add d9 a r1) (.add ⟨.push, 10⟩ f r2) .nop .nop) fun _ => 0) false true
theorem test_slot_traps : after (twoAdds r0 ⟨.pop, 8⟩) (fun u => (u.ctx 0 0).tval == 8 && ((u.ctx 0 0).tcause.toNat / 256 % 4 == 1)
    && (u.ctx 0 0).issued == 0) = true := by decide +kernel
theorem test_lowest_trap : after (twoAdds ⟨.pop, 12⟩ ⟨.pop, 8⟩) (fun u => (u.ctx 0 0).tval == 12 && ((u.ctx 0 0).tcause.toNat / 256 % 4 == 0)) = true := by
  decide +kernel
theorem test_slot_stalls : after (twoAdds r0 ⟨.pop, 20⟩) (fun u => ((u.ctx 0 0).squeue 0).entries == [.ready 12 false]
    && (u.ctx 0 0).issued == 0) = true := by decide +kernel

/-- A load and a store of four bytes at a place, over bytes of memory. -/
def tsLd (pl : Place) (bs : List Byte) : State := (tsBytes 4096 bs).modCtx 0 0 fun c =>
  ({ c with loadQ := [⟨0, .loadScalar 9 3 .n32, none, none, [⟨4096, some pl, 0, 0, 4⟩], false, [], [], false, false⟩] } : Ctx).setSqueue 9
    ⟨[.pending 3], false, false, .live, none⟩
def tsSt (pl : Place) : State := tsQueued (oneStore (.store [1, 2, 3, 4]) none pl 4)
def mayLoad (s : State) : Bool := (s.core 0).resident && match (s.ctx 0 0).loadQ with
  | a :: _ => s.mayPerform 0 (s.ctx 0 0) a
  | [] => false
def loads (s : State) (f : State → SEntry → Bool) : Bool :=
  after (exec (.accessPerform ⟨0, 0⟩ .load false .clean) s) fun t => match ((t.ctx 0 0).squeue 9).entries with
    | [e] => f t e
    | _ => false
def stores (s : State) (f : State → Bool) : Bool :=
  after (exec (.accessPerform ⟨0, 0⟩ .store false .clean) s) fun t => (t.ctx 0 0).storeQ.isEmpty && f t
theorem wit_load_clean : (mayLoad (tsLd (.phys 4096 false) [9]) && !isHost 4096
    && (unitsOf 32 4096 4).all fun y => (tsLd (.phys 4096 false) [9]).judge (y * 32) == .clean) = true := by decide +kernel
def hostPlace : Place := .phys (2 ^ 51) false
def tsNoHost (s : State) : State := { s with hub := { s.hub with hostLinks := 0 } }
theorem wit_load_host : (mayLoad (tsLd hostPlace []) && isHost (2 ^ 51) && (tsLd hostPlace []).hostUp (2 ^ 51)
    && mayLoad (tsNoHost (tsLd hostPlace [])) && !(tsNoHost (tsLd hostPlace [])).hostUp (2 ^ 51)) = true := by decide +kernel
theorem test_load_host : (loads { tsLd hostPlace [] with mem := Mem.write tmem (2 ^ 51) [6] } (fun _ e => e == .ready 6 false)
    && loads (tsNoHost (tsLd hostPlace [])) fun _ e => match e with | .ready _ bad => bad | _ => false) = true := by decide +kernel
/-- The sector of 4,096 is in its slice, and in core 0's L1 where asked. -/
def cached (s : State) (l1 : Bool) : State :=
  let s := { s with l2 := [(128, false)], l2Tags := [(128, [0])] }
  if l1 then s.modCore 0 fun c => { c with l1 := [(1024, ⟨8, false, false⟩)] } else s
theorem wit_load_l1 : (let s := cached (tsLd (.phys 4096 true) [9]) true
    mayLoad s && s.redEntries.isEmpty && (s.team 0).hasL1 && ((s.core 0).l1Bytes 4096 4).isSome) = true := by decide +kernel
theorem test_load_l1 : loads (cached (tsLd (.phys 4096 true) [9]) true) (fun _ e => e == .ready 8 false) = true := by decide +kernel
theorem wit_load_slice : (let s := cached (tsLd (.phys 4096 true) [9]) false
    mayLoad s && ((s.core 0).l1Bytes 4096 4).isNone && (unitsOf 32 4096 4).all fun y => s.lineHas 0 (y * 32)) = true := by
  decide +kernel
theorem test_load_slice : (loads (cached (tsLd (.phys 4096 true) [9]) false) (fun t e => e == .ready 9 false && (tfind (t.core 0).l1 1024).isNone)
    && after (exec (.accessPerform ⟨0, 0⟩ .load true .clean) (cached (tsLd (.phys 4096 true) [9]) false))
      fun t => (tfind (t.core 0).l1 1024).map L1Word.value == some 9) = true := by decide +kernel
/-- Core 1 holds a team of the same ASID, whose Y buffer the window names. -/
def tsWindow (s : State) : State := { s with
  cores := s.cores ++ [(1, { tcore with pool := Mem.write [] (tteam.bufStart .y) [3], team := { tteam with age := 5 } })]
  hub := { s.hub with remap := [(1, ⟨true, false, 1⟩)] } }
def yOfOne : Place := .window (2 ^ 32 + 2 ^ 22)
theorem wit_load_window : (let s := tsWindow (tsLd yOfOne [])
    mayLoad s && s.findPiece 0 ⟨4096, some yOfOne, 0, 0, 4⟩ == .ok (.pool 1 (tteam.bufStart .y)) && !(s.core 1).isDead (tteam.bufStart .y) 4
      && ((s.modCore 1 fun c => { c with live := 0 }).core 1).isDead (tteam.bufStart .y) 4) = true := by decide +kernel
theorem test_load_window : (loads (tsWindow (tsLd yOfOne [])) (fun _ e => e == .ready 3 false)
    && loads ((tsWindow (tsLd yOfOne [])).modCore 1 fun c => { c with live := 0 }) fun _ e => match e with
      | .error c _ => c == causeBANKDROP
      | _ => false) = true := by decide +kernel
theorem wit_store_host : (headMay (tsSt hostPlace) && (tsSt hostPlace).hostUp (2 ^ 51) && headMay (tsNoHost (tsSt hostPlace))
    && !(tsNoHost (tsSt hostPlace)).hostUp (2 ^ 51) && Mem.wf (tsSt hostPlace).mem) = true := by decide +kernel
theorem test_store_host : (stores (tsSt hostPlace) (fun t => Mem.read t.mem (2 ^ 51) 4 == [1, 2, 3, 4])
    && stores (tsNoHost (tsSt hostPlace)) fun t => Mem.byte t.mem (2 ^ 51) == 0 && t.hub.evcount == 1) = true := by decide +kernel
def tsStCached : State := (cached (tsSt (.phys 4096 true)) true).modCore 1 fun c => { c with l1 := [(1024, ⟨8, true, false⟩)] }
def tsOwned : State := { tsStCached with owners := [(1024, 1)] }
theorem wit_store_cached : (headMay tsOwned && isHbm 4096 && !tsOwned.stackFenced 4096 && tsOwned.redEntries.isEmpty
    && ((unitsOf 32 4096 4).all fun y => tsOwned.lineHas 0 (y * 32)) && tfind tsOwned.owners 1024 == some 1
    && (tsOwned.core 0).l1Holds 128) = true := by decide +kernel
theorem test_store_cached : stores tsOwned (fun t => Mem.read t.mem 4096 4 == [1, 2, 3, 4] && tfind t.owners 1024 == some 0
    && (tfind (t.core 1).l1 1024).isNone && (tfind (t.core 0).l1 1024).any fun w => w.owned && w.value == 0x04030201) = true := by
  decide +kernel
theorem wit_store_window : (let s := tsWindow (tsSt yOfOne)
    headMay s && s.findPiece 0 ⟨4096, some yOfOne, 0, 0, 4⟩ == .ok (.pool 1 (tteam.bufStart .y))
      && !(s.core 1).isDead (tteam.bufStart .y) 4 && Mem.wf (s.core 1).pool) = true := by decide +kernel
theorem test_store_window : stores (tsWindow (tsSt yOfOne)) (fun t => (t.core 1).poolRead (tteam.bufStart .y) 4 == [1, 2, 3, 4]) = true := by
  decide +kernel
def tilePieces : List Piece := (List.range 128).map fun i => ⟨8192 + 32 * i, some (.phys (8192 + 32 * i) false), 0, 32 * i, 32⟩
def tileLoad : Access := ⟨0, .loadVector 9 3 .i32 false, none, none, tilePieces, false, [], [], false, false⟩
def tsTileLoad : State := { (tsCtx fun c => ({ c with loadQ := [tileLoad] } : Ctx).setVqueue 9 ⟨[.pending 3], false, false, .live, none⟩) with
  mem := Mem.write tmem 8192 [1, 2, 3, 4] }
theorem wit_tile_load : (mayLoad tsTileLoad && (List.range 128).all fun i => !tsTileLoad.storedPoison (8192 + 32 * i)
    && tsTileLoad.judge (8192 + 32 * i) == .clean) = true := by decide +kernel
def tileStore : Access := ⟨0, .store (5 :: List.replicate 4095 0), none, none, tilePieces, false, [], [], false, false⟩
theorem wit_tile_store : (headMay (tsQueued tileStore) && (List.range 128).all fun i =>
    !(tsQueued tileStore).writeDropped (8192 + 32 * i)) = true := by decide +kernel
/-- AMO.add of 3: to core 1 through the window, to HBM at the home, and to a host page whose root complex takes none. -/
def tsAdd (pl : Place) : State := tsQueued (oneStore (.amo .add .n64 3 0 3 true) none pl 8)
def amoHome : State := cached { tsAdd (.phys 4096 true) with mem := Mem.write tmem 4096 [9] } false
theorem wit_amo_places : (headMay (tsWindow (tsAdd yOfOne))
    && (tsWindow (tsAdd yOfOne)).findPiece 0 ⟨4096, some yOfOne, 0, 0, 8⟩ == .ok (.pool 1 (tteam.bufStart .y))
    && headMay amoHome && !amoHome.rangePoison 4096 8 && amoHome.lineHas 0 4096 && !amoHome.stackFenced 4096
    && headMay (tsNoHost (tsAdd hostPlace)) && !(tsNoHost (tsAdd hostPlace)).rootWorks (2 ^ 51)) = true := by decide +kernel
theorem test_amo_places : (stores (tsWindow (tsAdd yOfOne)) (fun t => (t.core 1).poolRead (tteam.bufStart .y) 1 == [6])
    && stores amoHome fun t => Mem.byte t.mem 4096 == 12) = true := by decide +kernel
def tsAddHost : State := (tsNoHost (tsAdd hostPlace)).modCtx 0 0 fun c => c.setSqueue 60 ⟨[.pending 3], false, false, .live, none⟩
theorem test_amo_no_root : stores tsAddHost (fun t => match ((t.ctx 0 0).squeue 60).entries with
    | [.error c _] => c == causeAMOTGT
    | _ => false) = true := by decide +kernel

/-- A FENCEI whose store has not performed, and one behind cluster A. -/
theorem wit_fencei_waits : ((tsQueued (oneStore (.store [1]) none (.phys 4096 false) 1)).cur.storeQ.any (fun a => a.changesMemory)
    && (tsCtx fun c => { c with c := { c.c with pc := 32 } }).cur.aBehind) = true := by decide +kernel
/-- A section that still holds a parked store. -/
theorem wit_eret_replay : ((tsSaved fun x => x.reparked [oneStore (.store [1]) none (.phys 4096 false) 1]).cur.saved.map fun x =>
    x.ok && epcAligned (tsSaved id).cur x && (x.parkedNow.flatMap Access.pieces).length == 1) = some true := by decide +kernel
theorem wit_migration_held : (let s := (tsMig takenMig).modCtx 0 0 fun c => { c with
      storeQ := [oneStore (.store [1]) none (.phys 4096 false) 1] }
    (s.beginMove 0).movable 0) = false := by decide +kernel
theorem reset_mem_wf : State.reset.memWf := by unfold State.memWf; decide +kernel
theorem wit_invariant : (match step ts with | .next _ => true | _ => false) = true := by decide +kernel
theorem test_section_head : (sectionHead tteam 0 0).length = 235 := by decide +kernel
theorem test_fetch_word : decodeTableWord 64 addWord.toNat = some (.add d9 r0 r1) := by decide +kernel
end Sys2Proof.Tests
end

/-! SUPPORT. Proofs about the scope of the package: the encoding, the CSRs and the accesses of hosts and other packages. -/

section
namespace Sys2Proof.Laws

/-- The decoder's last step decides: a word decodes to a syllable where its fields parse to it, it is well formed and it
encodes back to the word (R148, R176). -/
theorem decodeWord_eq_ok_iff (w : W64) (y : Syllable) :
    decodeWord w = .ok y ↔ parseWord w = .ok y ∧ y.wf = true ∧ y.encode = w := by
  simp only [decodeWord, bind, Except.bind]
  cases hp : parseWord w with
  | error r => simp
  | ok x =>
    by_cases hx : x.wf = true ∧ x.encode = w
    · simp only [hx.1, hx.2, beq_self_eq_true, Bool.and_self, ↓reduceIte, pure, Except.pure, Except.ok.injEq]
      constructor
      · rintro rfl; exact ⟨rfl, hx⟩
      · exact fun h => h.1
    · have hc : (x.wf && x.encode == w) = false := by simpa using hx
      simp only [hc, Bool.false_eq_true, ↓reduceIte, Except.ok.injEq, reduceCtorEq, false_iff, not_and]
      rintro rfl hw he
      exact hx ⟨hw, he⟩

/-- Settles O2: the decoder encodes what it has parsed and compares it with the word, so a word that decodes is the
encoding of its syllable, and one syllable has one word. -/
theorem decodedWordIsEncoding : Obligations.DecodedWordIsEncoding := by
  unfold Obligations.DecodedWordIsEncoding
  refine ⟨fun w y h => ((decodeWord_eq_ok_iff w y).1 h).2, fun v w y hv hw => ?_⟩
  obtain ⟨-, -, rfl⟩ := (decodeWord_eq_ok_iff v y).1 hv
  obtain ⟨-, -, rfl⟩ := (decodeWord_eq_ok_iff w y).1 hw
  rfl

end Sys2Proof.Laws
end

section
namespace Sys2Proof.Machine

/-! ### Clusters and registers of a context -/

@[simp] theorem Ctx.setCluster_scalars (c : Ctx) (cl : Cluster) (x : ClusterState) :
    (Ctx.setCluster c cl x).scalars = c.scalars := by cases cl <;> rfl

@[simp] theorem Ctx.setCluster_apart (c : Ctx) (cl : Cluster) (x : ClusterState) :
    (Ctx.setCluster c cl x).apart = c.apart := by cases cl <;> rfl

@[simp] theorem Ctx.setCluster_setCluster (c : Ctx) (cl : Cluster) (x y : ClusterState) :
    Ctx.setCluster (Ctx.setCluster c cl x) cl y = Ctx.setCluster c cl y := by cases cl <;> rfl

theorem Ctx.takes_congr {c e : Ctx} (h : c.scalars = e.scalars) (cl : Cluster) (d : Dst) :
    c.takes cl d = e.takes cl d := by
  unfold Ctx.takes Ctx.squeue; rw [h]

/-- The write of the hub's step and WriteDst of R187 are one. -/
theorem Ctx.writeNow_eq_put (c : Ctx) (cl : Cluster) (d : Dst) (e : SEntry) : c.writeNow cl d e = c.put cl d e := by
  unfold Ctx.writeNow Ctx.put
  by_cases h63 : d.reg.toNat = 63
  · simp [h63]
  · simp only [h63, ↓reduceIte]
    cases hm : d.mode <;> cases hq : (c.squeue d.reg.toNat).entries <;> simp [SQueue.write, *]

/-- The end of a wait runs on as R161 says. -/
theorem Ctx.endWait_eq_resumed (c : Ctx) (cl : Cluster) : c.endWait cl = c.resumed cl := by
  simp only [Ctx.endWait, Ctx.advance, Ctx.resumed, Ctx.cluster_setCluster_same, Ctx.setCluster_setCluster,
    Ctx.setCluster_apart, ClusterState.resume]
  cases (Ctx.cluster c cl).next <;> rfl

/-! ### A syllable that issues alone, after its body has changed more than its own context -/

theorem elsewhere_issue (s : State) (x : Issue) : Elsewhere s { s with issue := x } := by
  constructor <;> intros <;> rfl

/-- A scalar write that its destination takes is put, and nothing else changes. -/
theorem settleScalar_takes (s : State) (cl : Cluster) (d : Dst) (e : SEntry) (h : s.cur.takes cl d = true) :
    ∃ t, settleScalar s cl d e = .ok t ∧ t.issue = s.issue ∧ t.cur = s.cur.put cl d e ∧ Elsewhere s t := by
  obtain ⟨t, ht, ⟨h63, rfl⟩ | rfl⟩ := settleScalar_put s cl d e h
  · exact ⟨t, ht, rfl, by simp only [Ctx.put, h63, ↓reduceIte], Elsewhere.refl t⟩
  · exact ⟨_, ht, rfl, State.cur_setCur _ _, elsewhere_setCur s _ s.issue⟩

section
variable {body : Act Unit} {s u : State} (hf : s.freshIssue = true)
  (hi : u.issue = { s.issue with popped := u.issue.popped })
include hf hi

/-- At a fresh issue that has at most noted what it popped, the syllable stands alone, and nothing is written. -/
theorem fresh_after : s.issue.alone = true ∧ u.issue.writes = [] ∧ u.issue.waits = [] ∧
    u.issue.cluster = s.issue.cluster := by
  simp only [State.freshIssue, Bool.and_eq_true, List.isEmpty_iff] at hf
  obtain ⟨⟨ha, hw⟩, hwt⟩ := hf
  rw [hi]
  exact ⟨ha, hw, hwt, rfl⟩

/-- A syllable whose body leaves no write and no wait is passed. -/
theorem conclude_done (hn : u.now = s.now) (hb : body s = .ok ((), u)) :
    ∃ t, concludeSyllable body s = .next t ∧ Elsewhere u t ∧ t.cur = u.cur.past s.issue.cluster s.now := by
  obtain ⟨ha, hw, hwt, -⟩ := fresh_after hf hi
  have hst := settle_past (cl := s.issue.cluster) hw rfl rfl rfl hwt
  refine ⟨_, conclude_settle ha hb hst, elsewhere_setCur _ _ _, ?_⟩
  rw [← hn]
  exact State.cur_setCur u _

/-- A syllable whose body leaves one scalar write: it is settled, and the syllable passed. -/
theorem conclude_write {d : Dst} {e : SEntry} (hn : u.now = s.now)
    (hb : body s = .ok ((), { u with issue := { u.issue with
      writes := u.issue.writes ++ [.scalar u.issue.cluster d e] } })) (hr : u.cur.takes s.issue.cluster d = true) :
    ∃ t, concludeSyllable body s = .next t ∧ Elsewhere u t ∧
      t.cur = (u.cur.put s.issue.cluster d e).past s.issue.cluster s.now := by
  obtain ⟨ha, hw, hwt, hcl⟩ := fresh_after hf hi
  rw [hw, hcl, List.nil_append] at hb
  obtain ⟨t, ht, hti, htc, hte⟩ := settleScalar_takes
    { u with issue := { u.issue with writes := [.scalar s.issue.cluster d e] } } s.issue.cluster d e hr
  have hut : Elsewhere u t := (elsewhere_issue u _).trans hte rfl rfl
  have hst := settle_past (cl := s.issue.cluster) (s := { u with issue := { u.issue with
    writes := [.scalar s.issue.cluster d e] } }) rfl (t := t) (by simp only [settleAll, settleOne, ht]) rfl rfl
    (by rw [hti]; exact hwt)
  refine ⟨_, conclude_settle ha hb hst, hut.trans (elsewhere_setCur _ _ _) (by rw [hti]) (by rw [hti]), ?_⟩
  rw [← hn, ← hut.now]
  exact (State.cur_setCur t _).trans (by rw [htc]; rfl)

/-- A syllable whose body leaves a wait: its cluster stands in it, and nothing is written. -/
theorem conclude_wait {w : WaitFor} {po : List Popped}
    (hb : body s = .ok ((), { u with issue := { u.issue with
      waits := u.issue.waits ++ [(u.issue.cluster, w, po)] } })) :
    ∃ t, concludeSyllable body s = .next t ∧ Elsewhere u t ∧ t.cur.waitsFor s.issue.cluster w ∧
      t.cur.scalars = u.cur.scalars := by
  obtain ⟨ha, hw, hwt, hcl⟩ := fresh_after hf hi
  have hst : ({ u with issue := { u.issue with waits := u.issue.waits ++ [(u.issue.cluster, w, po)] } } : State).settle
      [s.issue.cluster] = .ok { u.setCur { Ctx.setCluster u.cur s.issue.cluster
        { Ctx.cluster u.cur s.issue.cluster with status := .waiting w po } with
          issued := (Ctx.setCluster u.cur s.issue.cluster
            { Ctx.cluster u.cur s.issue.cluster with status := .waiting w po }).issued + 1, lastIssue := u.now } with
        issue := { u.issue with writes := [], popped := [], waits := [] } } := by
    simp only [State.settle, hw, hwt, hcl, settleAll, trapAfterOf, List.nil_append, List.findSome?_nil, List.any_nil,
      List.any_cons, List.foldl_cons, List.foldl_nil, beq_self_eq_true, Bool.or_false, Bool.false_eq_true, ↓reduceIte,
      Ctx.enterWait]
    rfl
  refine ⟨_, conclude_settle ha hb hst, elsewhere_setCur _ _ _, ⟨po, ?_⟩, ?_⟩
  · refine (congrArg (fun c => (Ctx.cluster c s.issue.cluster).status) (State.cur_setCur u _)).trans ?_
    cases s.issue.cluster <;> rfl
  · exact (congrArg Ctx.scalars (State.cur_setCur u _)).trans (Ctx.setCluster_scalars _ _ _)

end

end Sys2Proof.Machine
end

section
namespace Sys2Proof.Machine

/-! ### The CSRs with a writable field (R208, R209) -/

/-- The numbers of the CSRs with a writable field. -/
def writableCsrs : List Nat :=
  [0x40, 0x91, 0x100, 0x102, 0x103, 0x140, 0x141, 0x142, 0x143, 0x148, 0x149, 0x14A, 0x14B, 0x180,
    0x1C0, 0x1C1, 0x1C2, 0x1C3, 0x200, 0x203, 0x204, 0x205, 0x206, 0x207, 0x208, 0x209, 0x20A]

theorem mem_writableCsrs {n : Nat} (h : csrWritable n = true) : n ∈ writableCsrs := by
  simp only [csrWritable, Bool.or_eq_true, Bool.and_eq_true, beq_iff_eq, decide_eq_true_eq] at h
  simp only [writableCsrs, List.mem_cons, List.not_mem_nil, or_false]
  omega

theorem csrFence_writable {n : Nat} (h : csrWritable n = true) : csrFence n = false :=
  (by decide : ∀ n ∈ writableCsrs, csrFence n = false) n (mem_writableCsrs h)

/-- The CSRs with a writable field show nothing of a context's queue registers. -/
theorem csrValue_writable_congr {s t : State} {p k : Nat} {sc : Table SQueue} {ve : Table VQueue} {cs : Table Ctx}
    (hc : t.ctx p k = { s.ctx p k with scalars := sc, vectors := ve }) (ht : t.team p = { s.team p with ctxs := cs })
    (hh : t.hub = s.hub) : ∀ n ∈ writableCsrs, t.csrValue p k n = s.csrValue p k n := by
  simp only [writableCsrs, List.forall_mem_cons, List.not_mem_nil, false_imp_iff, implies_true, and_true]
  simp [State.csrValue, State.csrLow, State.csrMid, State.csrHigh, State.lkmtx, Team.queue, hc, ht, hh]

theorem ReadFrame.ctx_eq {s t : State} (h : ReadFrame s t) : t.ctx s.issue.core s.issue.ctx = t.cur := by
  unfold State.cur; rw [h.issue]

/-- A read of a source changes no CSR with a writable field. -/
theorem ReadFrame.csrValue_eq {s t : State} (h : ReadFrame s t) {n : Nat} (hn : csrWritable n = true) :
    t.csrValue s.issue.core s.issue.ctx n = s.csrValue s.issue.core s.issue.ctx n :=
  csrValue_writable_congr (h.ctx_eq.trans h.cur) h.elsewhere.team h.elsewhere.hub n (mem_writableCsrs hn)

end Sys2Proof.Machine
end

section
namespace Sys2Proof.Machine

/-! ### A CSR write that takes effect at once -/

/-- A team after a write of a CSR of one of its engine queues. -/
def Team.csrSet (t : Team) (n x : Nat) : Team :=
  let i := (n - 0x140) % 4
  let q := t.queue i
  if n < 0x144 then t.setQueue i { q with pace := BitVec.ofNat 16 x }
  else if 0x148 ≤ n then t.setQueue i { q with flag := BitVec.ofNat 8 x }
  else t

/-- A context after a write of one of its own CSRs. -/
def Ctx.csrSet (c : Ctx) (n x : Nat) : Ctx :=
  if n = 0x40 then { c with fpstat := BitVec.ofNat 5 x }
  else if n = 0x91 then { c with rplix := BitVec.ofNat 6 x }
  else if n = 0x100 then { c with remapix := BitVec.ofNat 12 x }
  else if n = 0x102 then { c with codeix := BitVec.ofNat 6 x }
  else if n = 0x180 then { c with mctl := BitVec.ofNat 2 x }
  else if 0x203 ≤ n && n ≤ 0x206 then { c with epc := tput c.epc (n - 0x203) (BitVec.ofNat 56 x) }
  else if n = 0x207 then { c with timgix := BitVec.ofNat 17 x }
  else if n = 0x20A then { c with dbgpc := BitVec.ofNat 56 x }
  else c

/-- A context after a write of the dword of its section that TIMGIX names (R398). -/
def Ctx.editSaved (c : Ctx) (v : W64) (seed : Nat) : Ctx :=
  { c with saved := c.saved.map fun y => y.edit c.timgix.toNat v seed }

/-- What a CSR write can do: set TVEC, edit the section, change a register of the team's engine queues, or a field of the
context. -/
theorem csrWrite_cases (s : State) (p k n : Nat) (v : W64) :
    (n = 0x200 ∧ s.csrWrite p k n v = { s with hub := { s.hub with tvec := BitVec.ofNat 56 v.toNat } }) ∨
    (n = 0x208 ∧ ∃ seed, s.csrWrite p k n v =
      ({ s with freeSeed := seed } : State).setCtx p k ((s.ctx p k).editSaved v seed)) ∨
    ((0x140 ≤ n ∧ n ≤ 0x14B) ∧ s.csrWrite p k n v = s.modTeam p fun t => t.csrSet n v.toNat) ∨
    (n ≠ 0x200 ∧ n ≠ 0x208 ∧ ¬(0x140 ≤ n ∧ n ≤ 0x14B) ∧
      s.csrWrite p k n v = s.modCtx p k fun c => c.csrSet n v.toNat) := by
  by_cases h1 : n = 0x200
  · exact .inl ⟨h1, by subst h1; rfl⟩
  by_cases h2 : n = 0x208
  · refine .inr (.inl ⟨h2, ?_⟩)
    subst h2
    by_cases h0 : (s.ctx p k).timgix = 0
    · exact ⟨s.freeSeed + 2 ^ 17, by unfold State.csrWrite; rw [if_neg h1, if_pos rfl]; dsimp only; rw [if_pos h0]; rfl⟩
    · exact ⟨s.freeSeed, by unfold State.csrWrite; rw [if_neg h1, if_pos rfl]; dsimp only; rw [if_neg h0]; rfl⟩
  by_cases h3 : 0x140 ≤ n ∧ n ≤ 0x14B
  · refine .inr (.inr (.inl ⟨h3, ?_⟩))
    unfold State.csrWrite
    rw [if_neg h1, if_neg h2, if_pos (by simpa using h3)]
    rfl
  · refine .inr (.inr (.inr ⟨h1, h2, h3, ?_⟩))
    unfold State.csrWrite
    rw [if_neg h1, if_neg h2, if_neg (by simpa using h3)]
    rfl

@[simp] theorem Team.csrSet_ctxs (t : Team) (n x : Nat) : (t.csrSet n x).ctxs = t.ctxs := by
  unfold Team.csrSet; dsimp only; split_ifs <;> rfl

theorem Ctx.csrSet_registers (c : Ctx) (n x : Nat) :
    (c.csrSet n x).scalars = c.scalars ∧ (c.csrSet n x).vectors = c.vectors := by
  unfold Ctx.csrSet; split_ifs <;> exact ⟨rfl, rfl⟩

/-- What a CSR write leaves: memory, the syllable at issue, every other core and context, and the queue registers. -/
structure CsrFrame (s u : State) (p k : Nat) : Prop where
  now : u.now = s.now
  mem : u.mem = s.mem
  issue : u.issue = s.issue
  cores : ∀ q, q ≠ p → u.core q = s.core q
  ctxs : ∀ j, j ≠ k → u.ctx p j = s.ctx p j
  scalars : (u.ctx p k).scalars = (s.ctx p k).scalars
  vectors : (u.ctx p k).vectors = (s.ctx p k).vectors

/-- A context set anew, its queue registers as before. -/
theorem csrFrame_setCtx (s : State) (seed p k : Nat) (c : Ctx) (hs : c.scalars = (s.ctx p k).scalars)
    (hv : c.vectors = (s.ctx p k).vectors) : CsrFrame s (({ s with freeSeed := seed } : State).setCtx p k c) p k := by
  refine ⟨rfl, rfl, rfl, fun q hq => State.core_setCtx_other _ _ _ _ _ hq, fun j hj => ?_, ?_, ?_⟩
  · simp only [State.ctx, State.team_setCtx_same, Team.ctx_setCtx_other _ _ _ _ hj]; rfl
  · rw [State.ctx_setCtx_same, hs]
  · rw [State.ctx_setCtx_same, hv]

theorem csrWrite_frame (s : State) (p k n : Nat) (v : W64) : CsrFrame s (s.csrWrite p k n v) p k := by
  rcases csrWrite_cases s p k n v with ⟨-, h⟩ | ⟨-, seed, h⟩ | ⟨-, h⟩ | ⟨-, -, -, h⟩ <;> rw [h]
  · constructor <;> intros <;> rfl
  · exact csrFrame_setCtx s seed p k _ rfl rfl
  · have hx : ∀ j, (s.modTeam p fun t => t.csrSet n v.toNat).ctx p j = s.ctx p j := fun j => by
      simp only [State.ctx, State.modTeam, State.team_setTeam_same, Team.ctx, Team.csrSet_ctxs]
    exact ⟨rfl, rfl, rfl, fun q hq => State.core_setTeam_other _ _ _ _ hq, fun j _ => hx j, by rw [hx], by rw [hx]⟩
  · obtain ⟨hs, hv⟩ := Ctx.csrSet_registers (s.ctx p k) n v.toNat
    exact csrFrame_setCtx s s.freeSeed p k _ hs hv

theorem csrWrite_hub (s : State) (p k n : Nat) (v : W64) (hn : n ≠ 0x200) : (s.csrWrite p k n v).hub = s.hub := by
  rcases csrWrite_cases s p k n v with ⟨h, -⟩ | ⟨-, seed, h⟩ | ⟨-, h⟩ | ⟨-, -, -, h⟩
  · exact absurd h hn
  all_goals rw [h]; rfl

/-- A value that fits a field reads back from it. -/
theorem ofNat_field {w : Nat} {v : W64} (h : v.toNat < 2 ^ w) : BitVec.ofNat 64 (BitVec.ofNat w v.toNat).toNat = v := by
  rw [BitVec.toNat_ofNat, Nat.mod_eq_of_lt h, BitVec.ofNat_toNat, BitVec.setWidth_eq]

/-- A dword of a section reads back as a handler wrote it (R398). -/
theorem Section.dword_edit (x : Section) (i : Nat) (v : W64) (seed : Nat) : (x.edit i v seed).dword i = v.toNat := by
  have hi : i < (x.dwords ++ (List.range (max (i + 1)
      (if i = 0 then min (bits v.toNat 32 32) (2 ^ 17) else 0) - x.dwords.length)).map
        fun j => Config.freeWord (seed + j)).length := by
    simp only [List.length_append, List.length_map, List.length_range]; omega
  simp only [Section.dword, Section.edit, List.getD_eq_getElem?_getD, List.getElem?_set_self hi, Option.getD_some]

end Sys2Proof.Machine
end

section
namespace Sys2Proof.Machine

/-! ### What a CSR reads after a write -/

/-- The CSRs that are registers of the context. -/
def contextCsrs : List Nat := [0x40, 0x91, 0x100, 0x102, 0x180, 0x203, 0x204, 0x205, 0x206, 0x207, 0x20A]

/-- The writable CSRs of the team's engine queues. -/
def queueCsrs : List Nat := [0x140, 0x141, 0x142, 0x143, 0x148, 0x149, 0x14A, 0x14B]

/-- A CSR with a writable field that no later step applies belongs to the context, an engine queue or the hub, or is one of
the dwords of a section and its command. -/
theorem writableCsrs_kinds {n v : Nat} (hn : csrWritable n = true) (hr : csrRemote n v = false) :
    n ∈ contextCsrs ∨ n ∈ queueCsrs ∨ n = 0x200 ∨ n = 0x208 ∨ n = 0x209 ∧ v = 0 := by
  simp only [csrRemote, Bool.or_eq_false_iff, Bool.and_eq_false_iff, beq_eq_false_iff_ne, decide_eq_false_iff_not,
    bne_eq_false_iff_eq] at hr
  have h := mem_writableCsrs hn
  simp only [writableCsrs, contextCsrs, queueCsrs, List.mem_cons, List.not_mem_nil, or_false] at h ⊢
  omega

theorem csrValue_csrSet (s : State) (p k : Nat) (v : W64) : ∀ n ∈ contextCsrs, csrMbz n v.toNat = true →
    (s.modCtx p k fun c => c.csrSet n v.toNat).csrValue p k n = v := by
  simp only [contextCsrs, List.forall_mem_cons, List.not_mem_nil, false_imp_iff, implies_true, and_true]
  simp only [csrMbz, State.csrValue, State.csrLow, State.csrMid, State.csrHigh, State.modCtx, State.ctx_setCtx_same,
    Ctx.csrSet, Nat.reduceEqDiff, Nat.reduceLeDiff, Nat.reduceLT, Nat.reduceSub, ↓reduceIte, decide_true, decide_false,
    Bool.and_true, Bool.and_false, Bool.false_eq_true, Bool.and_eq_true, decide_eq_true_eq, tget_tput_same]
  exact ⟨ofNat_field, ofNat_field, ofNat_field, ofNat_field, ofNat_field, ofNat_field, ofNat_field, ofNat_field,
    ofNat_field, ofNat_field, fun h => ofNat_field h.1⟩

theorem csrValue_queueSet (s : State) (p k : Nat) (v : W64) : ∀ n ∈ queueCsrs, csrMbz n v.toNat = true →
    (s.modTeam p fun t => t.csrSet n v.toNat).csrValue p k n = v := by
  simp only [queueCsrs, List.forall_mem_cons, List.not_mem_nil, false_imp_iff, implies_true, and_true]
  simp only [csrMbz, State.csrValue, State.csrMid, State.modTeam, State.team_setTeam_same, Team.csrSet,
    Team.queue_setQueue_same, Nat.reduceMod,
    Nat.reduceEqDiff, Nat.reduceLeDiff, Nat.reduceLT, Nat.reduceSub, ↓reduceIte, decide_true, decide_false,
    Bool.and_true, Bool.and_false, Bool.false_eq_true, decide_eq_true_eq]
  exact ⟨ofNat_field, ofNat_field, ofNat_field, ofNat_field, ofNat_field, ofNat_field, ofNat_field, ofNat_field⟩

/-- A CSR reads what was written to it (R208). -/
theorem csrValue_csrWrite {s : State} {p k n : Nat} {v : W64} (hn : csrWritable n = true)
    (hm : csrMbz n v.toNat = true) (hf : s.csrRefused p k n v.toNat = false) (hr : csrRemote n v.toNat = false) :
    (s.csrWrite p k n v).csrValue p k n = v := by
  have hk := writableCsrs_kinds hn hr
  rcases csrWrite_cases s p k n v with ⟨rfl, h⟩ | ⟨rfl, seed, h⟩ | ⟨hq, h⟩ | ⟨h1, h2, h3, h⟩
  · obtain ⟨h56, -⟩ : v.toNat < 2 ^ 56 ∧ v.toNat % 32 = 0 := by simpa [csrMbz] using hm
    rw [h]
    exact ofNat_field h56
  · obtain ⟨x, hx⟩ : ∃ x, (s.ctx p k).saved = some x := by
      cases hs : (s.ctx p k).saved with
      | none => simp [State.csrRefused, hs] at hf
      | some x => exact ⟨x, rfl⟩
    rw [h]
    simp [State.csrValue, State.csrHigh, Ctx.editSaved, hx, Section.dword_edit]
  · rw [h]
    refine csrValue_queueSet s p k v n ?_ hm
    simp only [contextCsrs, queueCsrs, List.mem_cons, List.not_mem_nil, or_false] at hk ⊢
    omega
  · rw [h]
    rcases hk with hc | hc | hc | hc | ⟨rfl, hv⟩
    · exact csrValue_csrSet s p k v n hc hm
    · exact absurd (by simp [queueCsrs] at hc; omega) h3
    · exact absurd hc h1
    · exact absurd hc h2
    · have h0 : v = 0 := BitVec.eq_of_toNat_eq hv
      rw [h0]; rfl

end Sys2Proof.Machine
end

section
namespace Sys2Proof.Machine

/-! ### The parts of a CSR syllable (R208) -/

/-- A CSR syllable that may access its CSR begins and changes nothing. -/
theorem csrBegin_ok {s : State} {n : Nat} {write : Bool} (hq : s.cur.quiet = true)
    (hg : s.flagsSettled s.issue.core s.issue.ctx n = true)
    (hf : csrFence n = true → s.cur.performedAll = true ∧ s.cur.storeFaults = [])
    (hs : csrSupervisor n = true ∨ write = true ∧ csrWriteSupervisor n = true → s.cur.sup = true)
    (hw : write = true → csrWritable n = true) : csrBegin n write s = .ok ((), s) := by
  have hc : csrCheck n write s = .ok ((), s) := by
    have h1 : (!s.cur.sup && (csrSupervisor n || (write && csrWriteSupervisor n))) = false := by
      cases hx : csrSupervisor n || (write && csrWriteSupervisor n)
      · simp
      · simp [hs (by simpa using hx)]
    have h2 : (write && !csrWritable n) = false := by cases write <;> simp_all
    simp only [csrCheck, Act.bind_apply, Act.getCtx_apply, Act.pure_apply, h1, h2, Bool.false_eq_true, ↓reduceIte]
  cases hx : csrFence n
  · simp [csrBegin, hq, hg, hx, hc]
  · obtain ⟨hp, hsf⟩ := hf hx
    simp [csrBegin, hq, hg, hx, hc, hp, hsf, raisePending]

variable {s : State} {n : Nat} {v : W64}

/-- An admissible write that takes effect at once, of a CSRW. -/
theorem writeCsr_none (hm : csrMbz n v.toNat = true)
    (hf : s.csrRefused s.issue.core s.issue.ctx n v.toNat = false) (hr : csrRemote n v.toNat = false) :
    writeCsr n v none s = .ok ((), s.csrWrite s.issue.core s.issue.ctx n v) := by
  simp [writeCsr, hm, hf, hr]

/-- An admissible write that takes effect at once, of a CSRX: the old value goes to its destination. -/
theorem writeCsr_some {d : Dst} (hm : csrMbz n v.toNat = true)
    (hf : s.csrRefused s.issue.core s.issue.ctx n v.toNat = false) (hr : csrRemote n v.toNat = false) :
    let u := s.csrWrite s.issue.core s.issue.ctx n v
    writeCsr n v (some d) s = .ok ((), { u with issue := { u.issue with
      writes := u.issue.writes ++ [.scalar u.issue.cluster d (.ready (s.csrValue s.issue.core s.issue.ctx n) false)] } }) := by
  simp [writeCsr, hm, hf, hr]

/-- An admissible write that the hub applies waits for it, where a CSRX's destination takes a write. -/
theorem writeCsr_remote {dst : Option Dst} (hm : csrMbz n v.toNat = true)
    (hf : s.csrRefused s.issue.core s.issue.ctx n v.toNat = false) (hr : csrRemote n v.toNat = true)
    (ht : ∀ d, dst = some d → s.cur.takes s.issue.cluster d = true) :
    writeCsr n v dst s = .ok ((), { s with issue := { s.issue with
      waits := s.issue.waits ++ [(s.issue.cluster, .csr n v dst, s.issue.popped)] } }) := by
  have hw : writeCsr n v dst s = waitRemote n v dst s := by simp [writeCsr, hm, hf, hr]
  rw [hw]
  cases dst with
  | none => rfl
  | some d =>
    obtain ⟨t, h, -⟩ := settleScalar_takes s s.issue.cluster d (.ready 0 false) (ht d rfl)
    simp only [waitRemote, h]

/-- A value with an MBZ bit raises ILLEGAL with the syllable (R9, R208). -/
theorem writeCsr_mbz (dst : Option Dst) (hm : csrMbz n v.toNat = false) :
    writeCsr n v dst s = .error (.trap causeILLEGAL s.issue.word) := by
  simp [writeCsr, hm]

/-- A trap of a syllable that issues alone is taken at it, but for JOINX. -/
theorem conclude_trapHere {body : Act Unit} {cause : Nat} {w : W64} (ha : s.issue.alone = true)
    (hj : cause ≠ causeJOINX) (hb : body s = .error (.trap cause w)) :
    concludeSyllable body s = .next (s.trapHere cause w) := by
  have hj' : (cause != causeJOINX) = true := by simpa using hj
  simp only [concludeSyllable, hb, ha, ↓reduceIte, State.stopped, State.joinSwap, hj', Bool.true_or, State.trapHere]

end Sys2Proof.Machine
end

section
namespace Sys2Proof.Machine

/-! ### The hub applies a write (R141, R367) -/

/-- The state in which the hub has applied a write that a CSRW or CSRX waits for: the waiter goes on, and a CSRX has the
value read before the write. -/
theorem applyCsr_waiting {s : State} {r : CtxRef} {n : Nat} {v : W64} {dst : Option Dst} (write : State → State)
    (hw : s.csrWaiting r n v = some dst) (hx : (write s).ctx r.core r.ctx = s.ctx r.core r.ctx) :
    let t := s.applyCsr r n v write
    t.hub = (write s).hub ∧ t.mem = (write s).mem ∧
      t.ctx r.core r.ctx = ((s.ctx r.core r.ctx).resumed .c).oldTo dst (s.csrValue r.core r.ctx n) := by
  cases dst with
  | none =>
    simp only [State.applyCsr, hw, State.modCtx, Ctx.oldTo, hx, Ctx.endWait_eq_resumed]
    exact ⟨rfl, rfl, State.ctx_setCtx_same _ _ _ _⟩
  | some d =>
    simp only [State.applyCsr, hw, State.modCtx, Ctx.oldTo, hx, Ctx.endWait_eq_resumed, Ctx.writeNow_eq_put,
      State.ctx_setCtx_same]
    exact ⟨rfl, rfl, trivial⟩

/-! ### The syllables -/

section
variable {s s1 : State} {n : BitVec 16} {a : Src} {v : W64}

theorem execCsrw_begun (hb : csrBegin n.toNat true s = .ok ((), s)) (ha : readSrc a s = .ok (v, s1)) :
    (do csrBegin n.toNat true; writeCsr n.toNat (← readSrc a) none : Act Unit) s = writeCsr n.toNat v none s1 := by
  simp [hb, ha]

theorem execCsrx_begun {d : Dst} (hb : csrBegin n.toNat true s = .ok ((), s)) (ha : readSrc a s = .ok (v, s1)) :
    (do csrBegin n.toNat true; writeCsr n.toNat (← readSrc a) (some d) : Act Unit) s =
      writeCsr n.toNat v (some d) s1 := by
  simp [hb, ha]

/-- A scalar source leaves the vector queues. -/
theorem readSrc_vectors (ha : readSrc a s = .ok (v, s1)) : s1.cur.vectors = s.cur.vectors := by
  rcases readSrcP_cases (readSrc_ok.1 ha) with ⟨-, -, -, rfl⟩ | ⟨-, -, -, rfl⟩ | ⟨-, -, -, -, rfl⟩
  · rfl
  · rfl
  · cases popsEntry a.mode <;> exact (congrArg Ctx.vectors (State.cur_setCur s _)).trans rfl

end

theorem ReadFrame.core_eq {s t : State} (h : ReadFrame s t) : t.issue.core = s.issue.core := by rw [h.issue]

theorem ReadFrame.ctxId_eq {s t : State} (h : ReadFrame s t) : t.issue.ctx = s.issue.ctx := by rw [h.issue]

/-- CSRR pushes the value of its CSR (R208). -/
theorem csrr_value {s : State} {n : BitVec 16} {d : Dst} (hf : s.freshIssue = true)
    (hb : csrBegin n.toNat false s = .ok ((), s)) (ht : s.cur.takes s.issue.cluster d = true) :
    ∃ t, exec (.csrr d n) s = .next t ∧ Elsewhere s t ∧
      t.cur = (s.cur.put s.issue.cluster d
        (.ready (s.csrValue s.issue.core s.issue.ctx n.toNat) false)).past s.issue.cluster s.now := by
  refine conclude_scalar hf (ReadFrame.refl s) ?_ ht
  simp [hb, readCsr]

section
variable {s s1 : State} {n : BitVec 16} {d : Dst} {a : Src} {v : W64} (hf : s.freshIssue = true)
  (hb : csrBegin n.toNat true s = .ok ((), s)) (ha : readSrc a s = .ok (v, s1))
  (hm : csrMbz n.toNat v.toNat = true) (hr : s1.csrRefused s.issue.core s.issue.ctx n.toNat v.toNat = false)
include hf hb ha hm hr

/-- CSRW and CSRX of a CSR that takes effect at once (R208). -/
theorem csrWrite_local (hn : csrWritable n.toNat = true) (hl : csrRemote n.toNat v.toNat = false) :
    let u := s1.csrWrite s.issue.core s.issue.ctx n.toNat v
    (∃ t, exec (.csrw n a) s = .next t ∧ Elsewhere u t ∧ t.cur = u.cur.past s.issue.cluster s.now) ∧
    (s1.cur.takes s.issue.cluster d = true → ∃ t, exec (.csrx d n a) s = .next t ∧ Elsewhere u t ∧
      t.cur = (u.cur.put s.issue.cluster d
        (.ready (s.csrValue s.issue.core s.issue.ctx n.toNat) false)).past s.issue.cluster s.now) := by
  intro u
  have hread := readSrc_frame ha
  have hfr : CsrFrame s1 u s.issue.core s.issue.ctx := csrWrite_frame s1 s.issue.core s.issue.ctx n.toNat v
  have hui : u.issue = { s.issue with popped := u.issue.popped } := by rw [hfr.issue]; exact hread.issue
  have hun : u.now = s.now := hfr.now.trans hread.elsewhere.now
  rw [← hread.core_eq, ← hread.ctxId_eq] at hr
  have hu : u = s1.csrWrite s1.issue.core s1.issue.ctx n.toNat v := by rw [hread.core_eq, hread.ctxId_eq]
  constructor
  · refine conclude_done hf hui hun ((execCsrw_begun hb ha).trans ?_)
    rw [hu]; exact writeCsr_none hm hr hl
  · intro ht
    have hsc : u.cur.scalars = s1.cur.scalars := by
      have h := hfr.scalars
      rwa [hread.ctx_eq, ← hread.core_eq, ← hread.ctxId_eq, ← hfr.issue] at h
    refine conclude_write hf hui hun ((execCsrx_begun hb ha).trans ?_) (by rwa [Ctx.takes_congr hsc])
    rw [← hread.csrValue_eq hn, hu, writeCsr_some hm hr hl, hread.core_eq, hread.ctxId_eq]

/-- CSRW and CSRX of a CSR that the hub writes pop their source and wait on C (R141, R367). -/
theorem csrWrite_remote (hl : csrRemote n.toNat v.toNat = true) :
    (∃ t, exec (.csrw n a) s = .next t ∧ Elsewhere s t ∧ t.cur.waitsFor s.issue.cluster (.csr n.toNat v none) ∧
      t.cur.scalars = s1.cur.scalars) ∧
    (s1.cur.takes s.issue.cluster d = true → ∃ t, exec (.csrx d n a) s = .next t ∧ Elsewhere s t ∧
      t.cur.waitsFor s.issue.cluster (.csr n.toNat v (some d)) ∧ t.cur.scalars = s1.cur.scalars) := by
  have hread := readSrc_frame ha
  rw [← hread.core_eq, ← hread.ctxId_eq] at hr
  have widen : ∀ {t}, Elsewhere s1 t → Elsewhere s t := fun h => hread.elsewhere.trans h hread.core_eq hread.ctxId_eq
  constructor
  · obtain ⟨t, ht, he, hx⟩ := conclude_wait hf hread.issue ((execCsrw_begun hb ha).trans
      (writeCsr_remote hm hr hl (dst := none) (by simp)))
    exact ⟨t, ht, widen he, hx⟩
  · intro hd
    obtain ⟨t, ht, he, hx⟩ := conclude_wait hf hread.issue ((execCsrx_begun hb ha).trans
      (writeCsr_remote hm hr hl (dst := some d) (by rintro _ ⟨⟩; rwa [hread.cluster])))
    exact ⟨t, ht, widen he, hx⟩

end

end Sys2Proof.Machine

namespace Sys2Proof.Laws
open Machine

/-- Settles O36: a syllable that may access its CSR begins and changes nothing; its write then changes one register, or
leaves a wait that the hub's step ends with the value read at that step. -/
theorem csrAccess : Obligations.CsrAccess := by
  unfold Obligations.CsrAccess
  refine ⟨?_, ?_, ?_, ?_, ?_⟩
  · intro s n d hf _ hs hq hg hx ht
    exact csrr_value hf (csrBegin_ok hq hg hx (by simpa using hs) (by simp)) ht
  · intro s s1 n d a v hf _ hn hs hq hg ha hm hr p k old u
    have hb : csrBegin n.toNat true s = .ok ((), s) :=
      csrBegin_ok hq hg (by simp [csrFence_writable hn]) (by simpa using hs) fun _ => hn
    have hread := readSrc_frame ha
    have hfr : CsrFrame s1 u p k := csrWrite_frame s1 p k n.toNat v
    have hcur : u.cur = u.ctx p k := by unfold State.cur; rw [hfr.issue, hread.core_eq, hread.ctxId_eq]
    refine ⟨fun hl => ⟨csrValue_csrWrite hn hm hr hl, hfr.mem.trans hread.elsewhere.mem,
      fun h => (csrWrite_hub s1 p k n.toNat v h).trans hread.elsewhere.hub,
      fun q h => (hfr.cores q h).trans (hread.elsewhere.cores q h),
      fun j h => (hfr.ctxs j h).trans (hread.elsewhere.ctxs j h), ?_, ?_, csrWrite_local hf hb ha hm hr hn hl⟩,
      csrWrite_remote hf hb ha hm hr⟩
    · rw [hcur, hfr.scalars, hread.ctx_eq]
    · rw [hcur, hfr.vectors, hread.ctx_eq, readSrc_vectors ha]
  · intro s p k v dst hw
    obtain ⟨hh, hm, hc⟩ := applyCsr_waiting (fun s => { s with hub := { s.hub with
      codesets := tput s.hub.codesets (s.ctx p k).codeix.toNat v } }) hw rfl
    refine ⟨_, rfl, ?_, fun i hi => ?_, hm, hc⟩ <;> rw [hh]
    · exact tget_tput_same _ _ _ _
    · exact tget_tput_other _ _ _ _ _ hi
  · intro s p k dom v dst hw
    obtain ⟨hh, hm, hc⟩ := applyCsr_waiting (fun s => { s with hub := { s.hub with
      lkmtx := tput s.hub.lkmtx dom.toNat (BitVec.ofNat 36 v.toNat) } }) hw rfl
    refine ⟨_, rfl, ?_, fun i hi => ?_, hm, hc⟩ <;> unfold State.lkmtx <;> rw [hh]
    · exact tget_tput_same _ _ _ _
    · exact tget_tput_other _ _ _ _ _ hi
  · intro s s1 n d a v hal _ hn hs hq hg ha hm
    have hb : csrBegin n.toNat true s = .ok ((), s) :=
      csrBegin_ok hq hg (by simp [csrFence_writable hn]) (fun _ => hs) fun _ => hn
    have hword : s1.issue.word = s.issue.word := by rw [(readSrc_frame ha).issue]
    rw [← hword]
    exact ⟨conclude_trapHere hal (by decide) ((execCsrw_begun hb ha).trans (writeCsr_mbz none hm)),
      conclude_trapHere hal (by decide) ((execCsrx_begun hb ha).trans (writeCsr_mbz (some d) hm))⟩

end Sys2Proof.Laws
end

section
namespace Sys2Proof.Machine

/-! ### Writes of the host's registers (R8, R9, R92, R445) -/

/-- A state with another count and ring of events. -/
def State.relogged (s : State) (n : Nat) (r : Table EventRec) : State :=
  { s with hub := { s.hub with evcount := n, evring := r } }

/-- A dropped write changes the event recorder alone: DROPWR asks for no interrupt (R445, R446). -/
theorem dropWrite_eq (s : State) (port target : Nat) : ∃ n r, s.dropWrite port target = s.relogged n r := by
  simp only [State.dropWrite, State.post, evDROPWR, Nat.reduceLeDiff, decide_false, Bool.and_false,
    Bool.false_eq_true, ↓reduceIte]
  exact ⟨_, _, rfl⟩

theorem dropWrite_lastEvent (s : State) (port target : Nat) :
    (s.dropWrite port target).lastEvent evDROPWR 0 (srcPort port) target port := by
  refine ⟨s.hub.evcount, BitVec.ofNat 64 s.timens, ?_, ?_⟩
  · simp [State.dropWrite, State.post, evDROPWR]
  · simp [State.dropWrite, State.post, evDROPWR]

/-- Must-be-zero bits change the event recorder at most (R9). -/
theorem checkMbz_eq (s : State) (port target value mask : Nat) : ∃ n r, s.checkMbz port target value mask =
    s.relogged n r := by
  unfold State.checkMbz
  split
  · exact ⟨s.hub.evcount, s.hub.evring, rfl⟩
  · exact dropWrite_eq s port target

theorem byOwner_owner {s : State} {port : BitVec 1} (hl : s.hub.hostLinks.getLsbD port.toNat = true)
    (ho : s.ownerNow = port.toNat + 1) (target : Nat) (f : State → State) : s.byOwner port.toNat target f = f s := by
  simp only [State.byOwner, State.portUp, hl, ho, Bool.not_true, Bool.false_eq_true, ↓reduceIte]

theorem byOwner_other {s : State} {port : BitVec 1} (hl : s.hub.hostLinks.getLsbD port.toNat = true)
    (ho : s.ownerNow ≠ port.toNat + 1) (target : Nat) (f : State → State) :
    s.byOwner port.toNat target f = s.dropWrite port.toNat target := by
  simp only [State.byOwner, State.portUp, hl, ho, Bool.not_true, Bool.false_eq_true, ↓reduceIte]

/-- The owner's write of a register with no step of its own sets its field, beside what the event recorder has (R8). -/
theorem registerWrite_owner {s : State} {port : BitVec 1} {off : Nat} (v : W64)
    (hl : s.hub.hostLinks.getLsbD port.toNat = true) (ho : s.ownerNow = port.toNat + 1)
    (hs : ownStep off v.toNat = false) (hq : isQueueReg off = true → s.hub.ready = true ∧ s.hub.fatal = false) :
    ∃ n r, exec (.registerWrite port off v) s =
      .next ((s.relogged n r).regSet port.toNat off v.toNat) := by
  obtain ⟨n, r, h⟩ := checkMbz_eq s port.toNat off v.toNat (regMbz off)
  refine ⟨n, r, congrArg Host.Outcome.next ?_⟩
  rw [← h]
  simp only [hl, hs, Bool.not_true, Bool.or_self, Bool.false_eq_true, ↓reduceIte, State.byReady, byOwner_owner hl ho]
  by_cases hx : isQueueReg off = true
  · obtain ⟨hr, hf⟩ := hq hx
    simp only [hx, hr, hf, Bool.not_false, Bool.and_self, ↓reduceIte]
  · simp only [hx, ↓reduceIte, Bool.false_eq_true]

/-- A field kept by its mask. -/
theorem ofNat_and_mask (v : W64) (m : Nat) : BitVec.ofNat 64 (v.toNat &&& m) = v &&& BitVec.ofNat 64 m := by
  rw [BitVec.ofNat_and, BitVec.ofNat_toNat, BitVec.setWidth_eq]

section
variable {s : State} {port : BitVec 1} (hl : s.hub.hostLinks.getLsbD port.toNat = true)
  (ho : s.ownerNow = port.toNat + 1) (v : W64)
include hl ho

theorem agep_write : ∃ t : State, exec (.registerWrite port 0x20 v) s = .next t ∧ t.mem = s.mem ∧
    t.hub.agep = BitVec.ofNat 32 (min (max (v.toNat % 2 ^ 32) 100) 100000) := by
  obtain ⟨n, r, h⟩ := registerWrite_owner v hl ho (off := 0x20) rfl nofun
  refine ⟨_, h, rfl, ?_⟩
  rw [← Nat.and_two_pow_sub_one_eq_mod]
  rfl

theorem pkgid_write : ∃ t : State, exec (.registerWrite port 0x2028 v) s = .next t ∧ t.mem = s.mem ∧
    t.hub.pkgid = if s.identityFree then BitVec.ofNat 8 v.toNat else s.hub.pkgid := by
  obtain ⟨n, r, h⟩ := registerWrite_owner v hl ho (off := 0x2028) rfl nofun
  refine ⟨_, h, ?_⟩
  have hset : (s.relogged n r).regSet port.toNat 0x2028 v.toNat =
      if s.identityFree then { s.relogged n r with hub := { (s.relogged n r).hub with
        pkgid := BitVec.ofNat 8 (v.toNat &&& (2 ^ 8 - 1)) } }
      else (s.relogged n r).dropWrite port.toNat 0x2028 := rfl
  rw [hset]
  split
  · refine ⟨rfl, ?_⟩
    rw [Nat.and_two_pow_sub_one_eq_mod]
    exact BitVec.eq_of_toNat_eq (by simp)
  · obtain ⟨n', r', h'⟩ := dropWrite_eq (s.relogged n r) port.toNat 0x2028
    rw [h']
    exact ⟨rfl, rfl⟩

theorem floor_write : ∃ t : State, exec (.registerWrite port 0x2030 v) s = .next t ∧ t.mem = s.mem ∧
    t.hub.floor = BitVec.ofNat 16 (min (max (v.toNat % 2 ^ 16) 400) (max s.hub.rated.toNat 400)) := by
  obtain ⟨n, r, h⟩ := registerWrite_owner v hl ho (off := 0x2030) rfl nofun
  refine ⟨_, h, rfl, ?_⟩
  have hset : ((s.relogged n r).regSet port.toNat 0x2030 v.toNat).hub.floor =
      BitVec.ofNat 16 (min (max ((v.toNat &&& (2 ^ 32 - 1)) % 2 ^ 16) 400) (max s.hub.rated.toNat 400)) := rfl
  rw [hset, Nat.and_two_pow_sub_one_eq_mod, Nat.mod_mod_of_dvd _ (by decide)]

theorem optix_write : ∃ t : State, exec (.registerWrite port 0x2038 v) s = .next t ∧ t.mem = s.mem ∧
    t.hub.optix = BitVec.ofNat 64 (v.toNat % 1024) := by
  obtain ⟨n, r, h⟩ := registerWrite_owner v hl ho (off := 0x2038) rfl nofun
  refine ⟨_, h, rfl, ?_⟩
  rw [show (1024 : Nat) = 2 ^ 10 from rfl, ← Nat.and_two_pow_sub_one_eq_mod]
  rfl

theorem optable_write : ∃ t : State, exec (.registerWrite port 0x2040 v) s = .next t ∧ t.mem = s.mem ∧
    t.hub.opt s.hub.optix.toNat = (v &&& 0xFC0FFFFFFFFFFFFF).toNat := by
  obtain ⟨n, r, h⟩ := registerWrite_owner v hl ho (off := 0x2040) rfl nofun
  refine ⟨_, h, rfl, (congrArg BitVec.toNat (tget_tput_same _ _ _ _)).trans ?_⟩
  exact congrArg BitVec.toNat (ofNat_and_mask v _)

theorem invva_write : ∃ t : State, exec (.registerWrite port 0x2100 v) s = .next t ∧ t.mem = s.mem ∧
    t.hub.invva = v &&& 0x00FFFFFFFFFF0000 := by
  obtain ⟨n, r, h⟩ := registerWrite_owner v hl ho (off := 0x2100) rfl nofun
  exact ⟨_, h, rfl, ofNat_and_mask v _⟩

theorem queueBase_write {q : Nat} (hq : q < 16) (hr : s.hub.ready = true) (hf : s.hub.fatal = false)
    (he : bit (s.queueReg q).control.toNat 15 = false) :
    ∃ t : State, exec (.registerWrite port (0x1000 + 0x40 * q) v) s = .next t ∧ t.mem = s.mem ∧
      t.queueReg q = { s.queueReg q with base := v &&& 0x000FFFFFFFFFF000 } := by
  have hs : ownStep (0x1000 + 0x40 * q) v.toNat = false := by interval_cases q <;> rfl
  obtain ⟨n, r, h⟩ := registerWrite_owner v hl ho hs fun _ => ⟨hr, hf⟩
  have hset : (s.relogged n r).regSet port.toNat (0x1000 + 0x40 * q) v.toNat =
      if ctlEn (s.queueReg q).control.toNat then (s.relogged n r).dropWrite port.toNat (0x1000 + 0x40 * q)
      else (s.relogged n r).setQueueReg q { s.queueReg q with
        base := BitVec.ofNat 64 (v.toNat &&& 0x000FFFFFFFFFF000) } := by interval_cases q <;> rfl
  refine ⟨_, h, ?_⟩
  rw [hset, if_neg (by rw [ctlEn, he]; exact Bool.false_ne_true), ofNat_and_mask]
  exact ⟨rfl, State.queueReg_setQueueReg_same _ _ _⟩

theorem evctl_write : ∃ t : State, exec (.registerWrite port 0x2330 v) s = .next t ∧ t.mem = s.mem ∧
    t.hub.evctl = v &&& 0x7F := by
  obtain ⟨n, r, h⟩ := registerWrite_owner v hl ho (off := 0x2330) rfl nofun
  exact ⟨_, h, rfl, ofNat_and_mask v _⟩

end

/-! ### Bits of a masked value -/

theorem bits_and (x y lo len : Nat) : bits (x &&& y) lo len = bits x lo len &&& bits y lo len := by
  simp only [bits, ← Nat.shiftRight_eq_div_pow, Nat.shiftRight_and_distrib, Nat.and_mod_two_pow]

/-- A field that a mask keeps whole. -/
theorem bits_and_ones {x y lo len : Nat} (h : bits y lo len = 2 ^ len - 1) : bits (x &&& y) lo len = bits x lo len := by
  rw [bits_and, h, Nat.and_two_pow_sub_one_eq_mod, bits, Nat.mod_mod]

theorem bit_eq_bits (x n : Nat) : bit x n = (bits x n 1 == 1) := by simp [bit, bits]

/-! ### Banks, injection and sensors (R441, R447, R450) -/

theorem tfind_tdel_same {α : Type} (t : Table α) (n : Nat) : tfind (tdel t n) n = none := by
  induction t with
  | nil => rfl
  | cons e t ih =>
    obtain ⟨k, x⟩ := e
    by_cases h : k = n
    · simpa [tdel, h] using ih
    · simpa [tdel, h, tfind] using ih

theorem tfind_tdel_other {α : Type} (t : Table α) {n m : Nat} (hm : m ≠ n) : tfind (tdel t n) m = tfind t m := by
  induction t with
  | nil => rfl
  | cons e t ih =>
    obtain ⟨k, x⟩ := e
    by_cases h : k = n
    · simpa [tdel, h, tfind, hm.symm] using ih
    · by_cases hk : k = m
      · simp [tdel, tfind, hk, hm]
      · simpa [tdel, h, tfind, hk] using ih

section
variable {s : State} {port : BitVec 1} (hl : s.hub.hostLinks.getLsbD port.toNat = true)
  (ho : s.ownerNow = port.toNat + 1)
include hl ho

theorem bankClear_owner (bank : Nat) : ∃ t : State, exec (.bankClear port bank) s = .next t ∧ t.mem = s.mem ∧
    ((s.bankCycle bank).events = [] → tfind t.hub.banks bank = none) ∧
    ((s.bankCycle bank).events ≠ [] → tfind t.hub.banks bank =
      some ((s.bankCycle bank).events.foldl ErrBank.apply bankEmpty)) ∧
    ∀ n, n ≠ bank → tfind t.hub.banks n = tfind s.hub.banks n := by
  refine ⟨s.clearBank bank, congrArg Host.Outcome.next (byOwner_owner hl ho _ _), rfl, ?_⟩
  cases he : (s.bankCycle bank).events with
  | nil =>
    have hb : (s.clearBank bank).hub.banks = tdel s.hub.banks bank := by simp [State.clearBank, he]
    rw [hb]
    exact ⟨fun _ => tfind_tdel_same _ _, fun h => absurd rfl h, fun n hn => tfind_tdel_other _ hn⟩
  | cons e es =>
    have hb : (s.clearBank bank).hub.banks =
        tput s.hub.banks bank ((e :: es).foldl ErrBank.apply bankEmpty) := by simp [State.clearBank, he]
    rw [hb]
    exact ⟨nofun, fun _ => tfind_tput_same _ _ _, fun n hn => tfind_tput_other _ _ _ _ hn⟩

theorem injectionArm_owner (v : W64) : ∃ t : State, exec (.injectionArm port v) s = .next t ∧ t.mem = s.mem ∧
    t.hub.injection = v &&& 0x80FFFF00FFFFFFFF ∧ t.hub.injectOrder = [] := by
  obtain ⟨n, r, h⟩ := checkMbz_eq s port.toNat 0x2400 v.toNat (0x7F * 2 ^ 56 + 0xFF * 2 ^ 32)
  refine ⟨_, congrArg Host.Outcome.next (byOwner_owner hl ho _ _), ?_, rfl, rfl⟩
  dsimp only
  rw [h]; rfl

theorem sensorForce_owner (v : W64) : ∃ t : State, exec (.sensorForce port v) s = .next t ∧ t.mem = s.mem ∧
    ∀ p, t.sensor p = if bit v.toNat 63 = true ∧ bits v.toNat 32 12 = p then ((bits v.toNat 0 8 : Nat) : Int)
      else (s.core p).temp := by
  obtain ⟨n, r, h⟩ := checkMbz_eq s port.toNat 0x2500 v.toNat (0x7FFFF * 2 ^ 44 + 0xFFFFFF * 2 ^ 8)
  refine ⟨_, congrArg Host.Outcome.next (byOwner_owner hl ho _ _), ?_, fun p => ?_⟩
  · dsimp only
    rw [h]; rfl
  · dsimp only
    rw [h]
    have hw : (v &&& 0x80000FFF000000FF).toNat = v.toNat &&& 0x80000FFF000000FF := BitVec.toNat_and ..
    simp only [State.sensor, tget_tput_same, hw, bit_eq_bits]
    rw [bits_and_ones (len := 1) rfl, bits_and_ones (lo := 32) rfl, bits_and_ones (lo := 0) rfl]
    simp only [Bool.and_eq_true, beq_iff_eq]
    rfl

end

/-! ### Writes and reads that do nothing to memory (R91, R92, R390) -/

section
variable {s : State} {port : BitVec 1} (hl : s.hub.hostLinks.getLsbD port.toNat = true)
include hl

theorem registerWrite_other (v : W64) (ho : s.ownerNow ≠ port.toNat + 1) :
    ∃ t : State, exec (.registerWrite port 0x20 v) s = .next t ∧ t.mem = s.mem ∧ t.hub.agep = s.hub.agep ∧
      t.lastEvent evDROPWR 0 (srcPort port.toNat) 0x20 port.toNat := by
  obtain ⟨n, r, h⟩ := dropWrite_eq s port.toNat 0x20
  refine ⟨s.dropWrite port.toNat 0x20, congrArg Host.Outcome.next ?_, by rw [h]; rfl, by rw [h]; rfl,
    dropWrite_lastEvent _ _ _⟩
  simp only [hl, Bool.not_true, Bool.false_or, isQueueReg, Nat.reduceLeDiff, decide_false, Bool.false_and,
    byOwner_other hl ho]
  rfl

/-- A host write that does not reach memory is dropped and logged. -/
theorem hostWrite_dropped {pa : Nat} {bs : List Byte} (hb : bs ≠ [])
    (h : s.ownerNow = port.toNat + 1 → s.isTableMemory pa = false) :
    ∃ t : State, exec (.hostWrite port pa bs) s = .next t ∧ t.mem = s.mem ∧
      t.lastEvent evDROPWR 0 (srcPort port.toNat) pa port.toNat := by
  have he : bs.isEmpty = false := by simpa using hb
  have hx : exec (.hostWrite port pa bs) s = .next (s.dropWrite port.toNat pa) := by
    refine congrArg Host.Outcome.next ?_
    simp only [hl, he, Bool.not_true, Bool.or_self, Bool.false_eq_true, ↓reduceIte]
    by_cases ho : s.ownerNow = port.toNat + 1
    · simp only [byOwner_owner hl ho, h ho, Bool.false_and, Bool.false_eq_true, ↓reduceIte]
    · exact byOwner_other hl ho _ _
  obtain ⟨n, r, hd⟩ := dropWrite_eq s port.toNat pa
  exact ⟨_, hx, by rw [hd]; rfl, dropWrite_lastEvent _ _ _⟩

end

end Sys2Proof.Machine
end

section
namespace Sys2Proof.Machine

/-! ### What the upkeep of the slices leaves (R234, R390, R439, R440)

To make room for a line a slice gives up others: their host sectors go back to memory, poison moves with them and events are
logged.  Bytes of HBM and of the second tier stay where they are. -/

/-- No sector is listed as poisoned, and no bit of HBM has flipped. -/
def State.unspoilt (s : State) : Prop := s.poison = [] ∧ s.flips = []

/-- Two states hold the same bytes outside host memory, fence the same stacks, and differ in host sectors at host addresses
only, but for what has left; the later one has sent no less. -/
structure Kept (s t : State) : Prop where
  byte : ∀ b, isHost b = false → Mem.byte t.mem b = Mem.byte s.mem b
  wf : s.memWf → t.memWf
  fence : t.hub.fencemask = s.hub.fencemask
  outbox : s.outbox <+: t.outbox
  host : ∀ x, isHost (32 * x) = false → tfind t.hostSectors x = none ∨ tfind t.hostSectors x = tfind s.hostSectors x

/-- Such a change also brings no poison where there is none. -/
structure Upkeep (s t : State) : Prop where
  kept : Kept s t
  clean : s.unspoilt → t.unspoilt

theorem Kept.trans {s t u : State} (h : Kept s t) (k : Kept t u) : Kept s u where
  byte b hb := (k.byte b hb).trans (h.byte b hb)
  wf hw := k.wf (h.wf hw)
  fence := k.fence.trans h.fence
  outbox := h.outbox.trans k.outbox
  host x hx := by
    rcases k.host x hx with hk | hk
    · exact .inl hk
    · rw [hk]; exact h.host x hx

/-- Two states that agree on memory, the fences and the host sectors. -/
theorem Kept.of_eq {s t : State} (hm : t.mem = s.mem := by rfl) (hf : t.hub.fencemask = s.hub.fencemask := by rfl)
    (ho : s.outbox <+: t.outbox := by rfl) (hh : t.hostSectors = s.hostSectors := by rfl) : Kept s t :=
  ⟨fun _ _ => by rw [hm], fun h => by rwa [State.memWf, hm], hf, ho, fun _ _ => .inr (by rw [hh])⟩

theorem Upkeep.of_eq {s t : State} (hm : t.mem = s.mem := by rfl) (hf : t.hub.fencemask = s.hub.fencemask := by rfl)
    (ho : s.outbox <+: t.outbox := by rfl) (hh : t.hostSectors = s.hostSectors := by rfl)
    (hp : t.poison = s.poison := by rfl) (hl : t.flips = s.flips := by rfl) : Upkeep s t :=
  ⟨Kept.of_eq hm hf ho hh, fun h => by rwa [State.unspoilt, hp, hl]⟩

theorem Upkeep.refl (s : State) : Upkeep s s := .of_eq

theorem Upkeep.trans {s t u : State} (h : Upkeep s t) (k : Upkeep t u) : Upkeep s u :=
  ⟨h.kept.trans k.kept, fun c => k.clean (h.clean c)⟩

theorem Kept.foldl {α : Type} {f : State → α → State} (h : ∀ s x, Kept s (f s x)) (l : List α) (s : State) :
    Kept s (l.foldl f s) := by
  induction l generalizing s with
  | nil => exact (Upkeep.refl s).kept
  | cons x l ih => exact (h s x).trans (ih _)

theorem Upkeep.foldl {α : Type} {f : State → α → State} (h : ∀ s x, Upkeep s (f s x)) (l : List α) (s : State) :
    Upkeep s (l.foldl f s) := by
  induction l generalizing s with
  | nil => exact .refl s
  | cons x l ih => exact (h s x).trans (ih _)

/-! ### The recorder and the counters -/

theorem sendVector_upkeep (s : State) (v : Nat) : Upkeep s (s.sendVector v) := by
  unfold State.sendVector
  dsimp only
  split
  · exact .of_eq
  · split
    · exact .of_eq (ho := List.prefix_append _ _)
    · exact .of_eq

theorem post_upkeep (s : State) (ty cause source addr detail : Nat) :
    Upkeep s (s.post ty cause source addr detail) := by
  unfold State.post
  dsimp only
  split
  · refine Upkeep.trans ?_ (sendVector_upkeep _ _)
    exact .of_eq
  · exact .of_eq

theorem countTo_upkeep (s : State) (cl : Client) (ix n : Nat) : Upkeep s (s.countTo cl ix n) := by
  unfold State.countTo
  split
  · split <;> exact .of_eq
  · exact .refl s

/-! ### Poison and marks -/

/-- A change of the record of poison. -/
theorem kept_setPoison (s : State) (p : Table PoisonRec) : Kept s { s with poison := p } :=
  .of_eq

theorem tget_poison_unspoilt {s : State} (h : s.unspoilt) (k : Nat) : tget poisonNone s.poison k = poisonNone := by
  rw [h.1]; rfl

theorem sliceMarked_unspoilt {s : State} (h : s.unspoilt) (pa : Nat) : s.sliceMarked pa = false := by
  rw [State.sliceMarked, tget_poison_unspoilt h]; rfl

theorem recPoison_unspoilt {s : State} (h : s.unspoilt) (pa : Nat) : s.recPoison pa = false := by
  simp only [State.recPoison, tget_poison_unspoilt h]
  simp [poisonNone]

theorem judge_unspoilt {s : State} (h : s.unspoilt) (pa : Nat) : s.judge pa = .clean := by
  rw [State.judge, h.2]; rfl

theorem addPoison_kept (s : State) (pa : Nat) : Kept s (s.addPoison pa) := by
  unfold State.addPoison
  dsimp only
  split
  · exact (Upkeep.refl s).kept
  · split
    · exact kept_setPoison s _
    · exact (kept_setPoison s _).trans (post_upkeep _ _ _ _ _ _).kept

theorem unmarkSlice_upkeep (s : State) (pa : Nat) : Upkeep s (s.unmarkSlice pa) := by
  unfold State.unmarkSlice
  split
  · rename_i r hr
    refine ⟨kept_setPoison s _, fun h => ?_⟩
    rw [h.1] at hr; cases hr
  · exact .refl s

theorem clearPoison_upkeep (s : State) (pa : Nat) : Upkeep s (s.clearPoison pa) := by
  refine Upkeep.foldl (fun s k => ?_) _ s
  split
  · rename_i r hr
    split
    · refine ⟨kept_setPoison s _, fun h => ?_⟩
      rw [h.1] at hr; cases hr
    · exact .refl s
  · exact .refl s

theorem enterMark_upkeep (s : State) (pa : Nat) : Upkeep s (s.enterMark pa) := by
  unfold State.enterMark
  split
  · exact .refl s
  · split
    · rename_i h
      exact ⟨kept_setPoison s _, fun hc => absurd h (by simp [recPoison_unspoilt hc])⟩
    · exact unmarkSlice_upkeep s pa

theorem dropFlips_upkeep (s : State) (x : Nat) : Upkeep s { s with flips := tdel s.flips x } :=
  ⟨.of_eq, fun hc => ⟨hc.1, by show tdel s.flips x = []; rw [hc.2]; rfl⟩⟩

/-- A store into memory, whose data is poisoned only where something is. -/
theorem storeMarks_upkeep (s : State) (pa n : Nat) (poisoned : Bool) (h : s.unspoilt → poisoned = false) :
    Upkeep s (s.storeMarks pa n poisoned) := by
  unfold State.storeMarks
  cases poisoned with
  | false =>
    refine Upkeep.foldl (fun s i => (dropFlips_upkeep s (pa / 32 + i)).trans ?_) _ s
    dsimp only
    rw [if_neg Bool.false_ne_true]
    split
    · exact clearPoison_upkeep _ _
    · exact .refl _
  | true =>
    exact ⟨Kept.foldl (fun s i => (dropFlips_upkeep s (pa / 32 + i)).kept.trans (addPoison_kept _ _)) _ s,
      fun hc => nomatch h hc⟩

end Sys2Proof.Machine
end

section
namespace Sys2Proof.Machine

/-! ### Sectors and lines leave their slices (R234, R390) -/

theorem isHost_of_lt {pa : Nat} (h : pa < 2 ^ 51) : isHost pa = false := by
  simp only [isHost, Bool.and_eq_false_iff, decide_eq_false_iff_not]; omega

/-- Host memory begins and ends at a sector. -/
theorem isHost_of_sector {a b : Nat} (h : a / 32 = b / 32) : isHost a = isHost b := by
  unfold isHost
  rw [Bool.eq_iff_iff]
  simp only [Bool.and_eq_true, decide_eq_true_eq]
  omega

theorem ne_sector {a x : Nat} (ha : isHost a = true) (hx : isHost (32 * x) = false) : x ≠ sectorOf a := by
  rintro rfl
  rw [isHost_of_sector (show (32 * sectorOf a) / 32 = a / 32 by simp [sectorOf])] at hx
  simp [hx] at ha

/-- Host sectors set or dropped at a host address. -/
theorem kept_setHost (s : State) {pa : Nat} (hp : isHost pa = true) (h : HostSector) :
    Kept s { s with hostSectors := tput s.hostSectors (sectorOf pa) h } :=
  ⟨fun _ _ => rfl, id, rfl, List.prefix_refl _, fun _ hx => .inr (tfind_tput_other _ _ _ _ (ne_sector hp hx))⟩

/-- Bytes of host memory written one by one. -/
theorem kept_setHostBytes (s : State) (l : List Nat) (place : Nat → Nat) (on : Nat → Bool) (value : Nat → Byte)
    (h : ∀ i ∈ l, isHost (place i) = true) :
    Kept s { s with mem := l.foldl (fun m i => if on i then Mem.set m (place i) (value i) else m) s.mem } := by
  suffices hm : ∀ m : Mem,
      let m' := l.foldl (fun m i => if on i then Mem.set m (place i) (value i) else m) m
      (∀ b, isHost b = false → Mem.byte m' b = Mem.byte m b) ∧ (Mem.wf m = true → Mem.wf m' = true) from
    ⟨(hm s.mem).1, (hm s.mem).2, rfl, List.prefix_refl _, fun _ _ => .inr rfl⟩
  induction l with
  | nil => exact fun m => ⟨fun _ _ => rfl, id⟩
  | cons i l ih =>
    intro m
    have hi := h i (List.mem_cons_self ..)
    obtain ⟨hb, hw⟩ := ih (fun j hj => h j (List.mem_cons_of_mem _ hj))
      (if on i then Mem.set m (place i) (value i) else m)
    refine ⟨fun b hn => (hb b hn).trans ?_, fun hm => hw ?_⟩
    · split
      · exact Mem.byte_set_other _ _ _ _ (by rintro rfl; simp [hn] at hi)
      · rfl
    · split
      · exact Mem.set_wf _ _ hm
      · exact hm

/-- The modified bytes of a host sector reach memory. -/
theorem kept_hostBytes (s : State) {pa : Nat} (hp : isHost pa = true) (h : HostSector) : Kept s { s with
    mem := (List.range 32).foldl (fun m i =>
      if h.dirty.getLsbD i then Mem.set m (pa / 32 * 32 + i) (h.data.getD i 0) else m) s.mem
    hostSectors := tput s.hostSectors (sectorOf pa) { h with dirty := 0 } } := by
  refine (kept_setHostBytes s (List.range 32) (pa / 32 * 32 + ·) h.dirty.getLsbD (h.data.getD · 0)
    fun i hi => ?_).trans (kept_setHost _ hp _)
  rw [isHost_of_sector (b := pa) (by have := List.mem_range.1 hi; omega), hp]

theorem writebackSector_upkeep (s : State) (pa : Nat) : Upkeep s (s.writebackSector pa).1 := by
  unfold State.writebackSector
  split
  · rename_i hp
    split
    · exact .refl s
    · rename_i h _
      split
      · exact .refl s
      · split
        · have hk := kept_hostBytes s hp h
          dsimp only
          split
          · rename_i hm
            refine ⟨(hk.trans (addPoison_kept _ pa)).trans ?_, fun hc => ?_⟩
            · exact .of_eq (ho := List.prefix_append _ _)
            · exact absurd ((sliceMarked_unspoilt (s := s) hc pa).symm.trans hm) Bool.false_ne_true
          · exact Upkeep.trans ⟨hk, id⟩ (clearPoison_upkeep _ pa)
        · exact Upkeep.trans ⟨kept_setHost s hp _, id⟩ (post_upkeep _ _ _ _ _ _)
  · split
    · have hu : Upkeep s { s with l2 := tput s.l2 (sectorOf pa) false } :=
        .of_eq
      dsimp only
      split
      · exact hu.trans (post_upkeep _ _ _ _ _ _)
      · exact hu.trans (storeMarks_upkeep _ _ _ _ fun hc => sliceMarked_unspoilt hc pa)
    · exact .refl s

theorem evictSector_upkeep (s : State) (pa : Nat) : Upkeep s (s.evictSector pa) := by
  refine ((writebackSector_upkeep s pa).trans (unmarkSlice_upkeep _ pa)).trans
    ⟨⟨fun _ _ => rfl, id, rfl, List.prefix_refl _, fun x _ => ?_⟩, id⟩
  by_cases h : x = sectorOf pa
  · exact .inl (by rw [h]; exact tfind_tdel_same _ _)
  · exact .inr (tfind_tdel_other _ h)

theorem writebackByte_upkeep (s : State) (b : TensorByte) : Upkeep s (s.writebackByte b) := by
  unfold State.writebackByte
  split
  · rename_i h
    have hp : isHost b.pa = true := by simp at h; exact h.2
    split
    · exact ⟨⟨fun x hx => Mem.byte_set_other _ _ _ _ (by rintro rfl; simp [hx] at hp), Mem.set_wf _ _, rfl,
        List.prefix_refl _, fun _ _ => .inr rfl⟩, id⟩
    · exact post_upkeep _ _ _ _ _ _
  · exact .refl s

theorem evictTensor_upkeep (s : State) (l : TensorLine) : Upkeep s (s.evictTensor l) := by
  refine (Upkeep.foldl (fun s (e : Nat × TensorByte) => writebackByte_upkeep s e.2) l.bytes s).trans ?_
  exact .of_eq

theorem untag_upkeep (s : State) (asid pa : Nat) : Upkeep s (s.untag asid pa).1 := by
  unfold State.untag
  dsimp only
  split
  · exact evictSector_upkeep s pa
  · refine Upkeep.trans (t := (if (tget [] s.l2Tags (sectorOf pa)).head? = some asid then s.writebackSector pa
      else (s, false)).1) ?_ .of_eq
    split
    · exact writebackSector_upkeep s pa
    · exact .refl s

theorem evictFlplaceupkeep (s : State) (asid line : Nat) : Upkeep s (s.evictFlat asid line).1 := by
  unfold State.evictFlat
  generalize List.range 8 = l
  suffices h : ∀ acc : State × Nat, Upkeep s acc.1 → Upkeep s (l.foldl (fun acc i =>
      let pa := line * 256 + 32 * i
      if acc.1.lineHas asid pa then
        let r := acc.1.untag asid pa
        (r.1, if r.2 then acc.2 + 1 else acc.2)
      else acc) acc).1 from h _ (.refl s)
  induction l with
  | nil => exact fun acc h => h
  | cons i l ih =>
    intro acc h
    refine ih _ ?_
    dsimp only
    split
    · exact h.trans (untag_upkeep _ _ _)
    · exact h

theorem makeRoom_upkeep (s : State) (cl : Client) (home : Nat × Nat) : Upkeep s (s.makeRoom cl home) := by
  unfold State.makeRoom
  dsimp only
  split
  · exact .refl s
  · have hs : Upkeep s { s with freeSeed := s.freeSeed + 1 } := .of_eq
    split
    · exact (hs.trans (evictFlplaceupkeep _ _ _)).trans (countTo_upkeep _ _ _ _)
    · exact (hs.trans (evictTensor_upkeep _ _)).trans (countTo_upkeep _ _ _ _)
    · exact hs

/-! ### Sectors enter slices -/

theorem tagSector_upkeep (s : State) (cl : Client) (pa : Nat) : Upkeep s (s.tagSector cl pa) := by
  unfold State.tagSector
  dsimp only
  refine Upkeep.trans (t := if (List.range 8).any fun i => (tget [] s.l2Tags (pa / 256 * 8 + i)).contains cl.asid then s
    else s.makeRoom cl (s.homeSlice pa)) ?_ .of_eq
  split
  · exact .refl s
  · exact makeRoom_upkeep _ _ _

theorem bankEvent_upkeep (s : State) (n : Nat) (ue : Bool) (kind addr misc : Nat) :
    Upkeep s (s.bankEvent n ue kind addr misc) := .of_eq

theorem draw_upkeep (s : State) : Upkeep s s.draw := .of_eq

theorem eccEvent_upkeep (s : State) (pa : Nat) : Upkeep s (s.eccEvent pa .clean) := by
  unfold State.eccEvent
  dsimp only
  split
  · exact .refl s
  · exact .refl s
  · exact ((bankEvent_upkeep _ _ _ _ _ _).trans (post_upkeep _ _ _ _ _ _)).trans (draw_upkeep _)
  · rename_i h
    refine ⟨(((addPoison_kept s pa).trans (bankEvent_upkeep _ _ _ _ _ _).kept).trans
      (post_upkeep _ _ _ _ _ _).kept).trans (draw_upkeep _).kept, fun hc => ?_⟩
    rw [judge_unspoilt hc] at h; cases h

theorem fillSlice_upkeep (s : State) {pa : Nat} (hp : isHost pa = false) : Upkeep s (s.fillSlice pa .clean) := by
  unfold State.fillSlice
  rw [hp]
  split
  · exact .refl s
  · rw [if_neg Bool.false_ne_true]
    refine Upkeep.trans (t := (if isHbm pa then s.eccEvent pa .clean else s).enterMark pa) ?_
      .of_eq
    refine Upkeep.trans (t := if isHbm pa then s.eccEvent pa .clean else s) ?_ (enterMark_upkeep _ pa)
    split
    · exact eccEvent_upkeep s pa
    · exact .refl s

theorem needSector_upkeep (s : State) (cl : Client) {pa : Nat} (hp : isHost pa = false) :
    Upkeep s (s.needSector cl pa .clean) := by
  unfold State.needSector
  split
  · exact countTo_upkeep _ _ _ _
  · exact ((tagSector_upkeep s cl pa).trans (fillSlice_upkeep _ hp)).trans (countTo_upkeep _ _ _ _)

theorem takeSectors_upkeep (s : State) (cl : Client) (pa n : Nat) : Upkeep s (s.takeSectors cl pa n) := by
  refine Upkeep.foldl (fun s x => ?_) _ s
  exact ((tagSector_upkeep s cl (x * 32)).trans (enterMark_upkeep _ (x * 32))).trans
    .of_eq

end Sys2Proof.Machine
end

section
namespace Sys2Proof.Machine

/-! ### Writes of HBM and second-tier memory (R236, R237, R440) -/

/-- Bytes stand in memory from an address on, every other byte outside host memory as before, and nothing that was sent is
gone. -/
structure Stored (s t : State) (pa : Nat) (bs : List Byte) : Prop where
  byte : ∀ i, i < bs.length → Mem.byte t.mem (pa + i) = bs.getD i 0
  other : ∀ b, b < pa ∨ pa + bs.length ≤ b → isHost b = false → Mem.byte t.mem b = Mem.byte s.mem b
  outbox : s.outbox <+: t.outbox

/-- A write of memory between two changes that leave its bytes. -/
theorem stored_of_kept {s u v t : State} {pa : Nat} {bs : List Byte} (hu : Kept s u)
    (hm : v.mem = Mem.write u.mem pa bs) (ho : v.outbox = u.outbox) (hv : Kept v t) (hw : s.memWf)
    (hp : pa + bs.length ≤ 2 ^ 51) : Stored s t pa bs where
  byte i hi := by
    have hn : isHost (pa + i) = false := isHost_of_lt (by omega)
    rw [hv.byte _ hn, hm, Mem.byte_write_same (hu.wf hw) _ _ _ hi, List.getD_eq_getElem?_getD,
      List.getElem?_eq_getElem hi, Option.getD_some]
  other b hb hn := by rw [hv.byte _ hn, hm, Mem.byte_write_other _ _ _ _ hb, hu.byte _ hn]
  outbox := (ho ▸ hu.outbox).trans hv.outbox

theorem invalidateWord_upkeep (s : State) (w : Nat) : Upkeep s (s.invalidateWord w) :=
  .of_eq

theorem markWrite_upkeep (s : State) (pa n : Nat) : Upkeep s (s.markWrite pa n false) := by
  refine Upkeep.foldl (fun s x => ?_) _ s
  rw [if_neg Bool.false_ne_true]
  split
  · exact unmarkSlice_upkeep _ _
  · exact .refl s

theorem ownWord_upkeep (s : State) (w : Nat) : Upkeep s (s.ownWord none w) := by
  unfold State.ownWord
  dsimp only
  split
  · split <;> exact .of_eq
  · exact .of_eq

/-- A write of a C = 1 page outside host memory by an agent that is no core. -/
theorem homeWrite_stored {s : State} (cl : Client) {pa : Nat} {bs : List Byte} (hh : isHost pa = false)
    (hf : s.stackFenced pa = false) (hw : s.memWf) (hp : pa + bs.length ≤ 2 ^ 51) :
    Stored s (s.homeWrite cl none pa bs false) pa bs := by
  refine stored_of_kept (takeSectors_upkeep s cl pa bs.length).kept
    (v := { s.takeSectors cl pa bs.length with
      mem := Mem.write (s.takeSectors cl pa bs.length).mem pa bs
      l2 := (unitsOf 32 pa bs.length).foldl (fun t x => tput t x true) (s.takeSectors cl pa bs.length).l2 })
    rfl rfl ?_ hw hp
  simp only [State.homeWrite, hf, hh, Bool.false_eq_true, ↓reduceIte]
  exact (((Upkeep.foldl invalidateWord_upkeep _ _).trans (markWrite_upkeep _ _ _)).trans
    (Upkeep.foldl ownWord_upkeep _ _)).kept

/-- A write of a C = 0 page outside host memory by an agent that is no core. -/
theorem plainWrite_stored {s : State} {pa : Nat} {bs : List Byte} (hh : isHost pa = false)
    (hd : s.writeDropped pa = false) (hw : s.memWf) (hp : pa + bs.length ≤ 2 ^ 51) :
    Stored s (s.plainWrite none pa bs false) pa bs := by
  refine stored_of_kept (Upkeep.refl s).kept (v := { s with mem := Mem.write s.mem pa bs }) rfl rfl ?_ hw hp
  simp only [State.plainWrite, hd, hh, Bool.false_eq_true, ↓reduceIte]
  exact (((Upkeep.foldl invalidateWord_upkeep _ _).trans (storeMarks_upkeep _ _ _ _ fun _ => rfl)).trans
    (Upkeep.foldl ownWord_upkeep _ _)).kept

theorem stackFenced_of_writeDropped {s : State} {pa : Nat} (h : s.writeDropped pa = false) :
    s.stackFenced pa = false := (Bool.or_eq_false_iff.1 h).2

/-- No reduction is open at the home of a line of memory. -/
theorem flushSpot_mem {s : State} (hr : ∀ e ∈ s.redEntries, e.core ≠ none) (pa : Nat) (cached : Bool) (n : Nat) :
    s.flushSpot (.mem pa cached) n = s := by
  have hx : (s.redEntries.filter fun e => e.core == none && (unitsOf 256 pa n).contains e.line) = [] :=
    List.filter_eq_nil_iff.2 fun e he => by simp [hr e he]
  cases cached
  · rfl
  · show (s.redEntries.filter fun e => e.core == none && (unitsOf 256 pa n).contains e.line).foldl State.performRed s = s
    rw [hx]; rfl

/-- A write at a place in memory by an agent that is no core. -/
theorem writeSpot_stored {s : State} (cl : Client) {pa : Nat} (cached : Bool) {bs : List Byte}
    (hr : ∀ e ∈ s.redEntries, e.core ≠ none) (hb : bs ≠ []) (hd : s.writeDropped pa = false) (hw : s.memWf)
    (hp : pa + bs.length ≤ 2 ^ 51) : Stored s (s.writeSpot cl none (.mem pa cached) bs false) pa bs := by
  have hn := List.length_pos_iff.2 hb
  have hh : isHost pa = false := isHost_of_lt (by omega)
  simp only [State.writeSpot, flushSpot_mem hr, State.physWrite]
  split
  · exact homeWrite_stored cl hh (stackFenced_of_writeDropped hd) hw hp
  · exact plainWrite_stored hh hd hw hp

end Sys2Proof.Machine
end

section
namespace Sys2Proof.Machine

/-! ### The host's accesses to memory and its reads of registers (R90, R91) -/

theorem isTableMemory_lt {s : State} {pa : Nat} (h : s.isTableMemory pa = true) : pa < 2 ^ 43 := by
  simp only [State.isTableMemory, isHbm, State.isTier, Bool.or_eq_true, Bool.and_eq_true, decide_eq_true_eq] at h
  omega

theorem hostWrite_owner {s : State} {port : BitVec 1} {pa : Nat} {bs : List Byte}
    (hl : s.hub.hostLinks.getLsbD port.toNat = true) (hb : bs ≠ []) (ho : s.ownerNow = port.toNat + 1)
    (hm : s.isTableMemory pa = true) (he : s.isTableMemory (pa + bs.length - 1) = true)
    (hd : s.writeDropped pa = false) (hr : ∀ e ∈ s.redEntries, e.core ≠ none) (hw : s.memWf) :
    ∃ t : State, exec (.hostWrite port pa bs) s = .next t ∧ Stored s t pa bs := by
  have hp : pa + bs.length ≤ 2 ^ 51 := by have := isTableMemory_lt he; omega
  refine ⟨_, congrArg Host.Outcome.next ?_, writeSpot_stored ⟨noAsid, none, false⟩ true hr hb hd hw hp⟩
  have hn : bs.isEmpty = false := by simpa using hb
  simp only [hl, hn, hm, he, byOwner_owner hl ho, Bool.not_true, Bool.or_self, Bool.and_self,
    Bool.false_eq_true, ↓reduceIte]

/-- Reading sectors whose bits stand as they were written finds nothing (R438). -/
theorem readSectors_clean {s : State} {pa n : Nat} (h : ∀ x ∈ unitsOf 32 pa n, s.judge (x * 32) = .clean) :
    s.readSectors pa n .clean = s := by
  unfold State.readSectors
  generalize unitsOf 32 pa n = l at h
  induction l with
  | nil => rfl
  | cons x l ih =>
    have hx : s.eccEvent (x * 32) .clean = s := by
      simp only [State.eccEvent, h x (List.mem_cons_self ..), worseEcc]
    simp only [List.foldl_cons, hx, ite_self]
    exact ih fun y hy => h y (List.mem_cons_of_mem _ hy)

theorem hostBytes_memory {s : State} {a n : Nat} (hm : s.isTableMemory a = true)
    (he : s.isTableMemory (a + n - 1) = true) (hr : ∀ e ∈ s.redEntries, e.core ≠ none)
    (hp : s.rangePoison a n = false) (hc : ∀ x ∈ unitsOf 32 a n, s.judge (x * 32) = .clean) :
    s.hostBytes a n = (s.physRead a n, s) := by
  simp only [State.hostBytes, hm, he, flushSpot_mem hr, readSectors_clean hc, hp, Bool.and_self, Bool.not_true,
    Bool.false_eq_true, ↓reduceIte]

theorem hostBytes_outside {s : State} {a n : Nat} (hm : s.isTableMemory a = false) :
    s.hostBytes a n = (List.replicate n 0xFF, s) := by
  simp only [State.hostBytes, hm, Bool.false_and, Bool.not_false, ↓reduceIte]

/-- Eight bytes from a dword's address are its bytes (R5). -/
theorem dwordBytes_eight (f : Nat → Nat) {a : Nat} (h : a % 8 = 0) : dwordBytes f a 8 = leBytes 8 (f a) := by
  have hb : ∀ i < 8, BitVec.ofNat 8 (f ((a + i) / 8 * 8) / 2 ^ (8 * ((a + i) % 8))) =
      BitVec.ofNat 8 (f a / 2 ^ (8 * i)) := fun i hi => by
    rw [show (a + i) / 8 * 8 = a by omega, show (a + i) % 8 = i by omega]
  simp only [dwordBytes, List.range, List.range.loop, List.map_cons, List.map_nil]
  have ha : a / 8 * 8 = a := by omega
  simp [hb, h, ha, leBytes, Nat.div_div_eq_div_mul]

section
variable {s : State} {port : BitVec 1} (hl : s.hub.hostLinks.getLsbD port.toNat = true)
include hl

theorem hostRead_bar2 {a n : Nat} {bs : List Byte} (h : s.hostBytes a n = (bs, s)) :
    exec (.hostRead port .bar2 a n) s = .next (s.emit (.readData port.toNat bs)) := by
  refine congrArg Host.Outcome.next ?_
  simp only [hl, h, Bool.not_true, Bool.false_eq_true, ↓reduceIte]

theorem hostRead_bar0 {a v : Nat} (ha : a % 8 = 0) (h : s.regRead port.toNat a = v) :
    exec (.hostRead port .bar0 a 8) s = .next (s.emit (.readData port.toNat (leBytes 8 v))) := by
  refine congrArg Host.Outcome.next ?_
  simp only [hl, Bool.not_true, Bool.false_eq_true, ↓reduceIte, dwordBytes_eight _ ha, h]

end

/-! ### Accesses of other packages (R286, R287) -/

/-- Bytes within one page are one part. -/
theorem pageParts_within {va n : Nat} (hn : 0 < n) (h : va % 65536 + n ≤ 65536) : pageParts va n = [(va, n)] := by
  have hu : unitsOf 65536 va n = [va / 65536] := by
    have h0 : n ≠ 0 := by omega
    have h1 : (va + n - 1) / 65536 - va / 65536 + 1 = 1 := by omega
    rw [unitsOf, if_neg h0, h1]; rfl
  rw [pageParts, hu, List.map_singleton, pagePart]
  congr 2
  · omega
  · omega

theorem fabricWrite_stored {s : State} {pkg id va pa : Nat} {cl : Client} {cached : Bool} {bs : List Byte}
    (hb : bs ≠ []) (hv : va % 65536 + bs.length ≤ 65536) (ha : s.farAt pkg id va accWrite = .ok (cl, .mem pa cached))
    (hp : pa + bs.length ≤ 2 ^ 51) (hd : s.writeDropped pa = false) (hr : ∀ e ∈ s.redEntries, e.core ≠ none)
    (hw : s.memWf) : ∃ t : State, exec (.fabricWindowArrival (.write pkg id va bs)) s =
      .next (t.emit (.fabricReply 0 [])) ∧ Stored s t pa bs := by
  refine ⟨_, congrArg Host.Outcome.next ?_, writeSpot_stored cl cached hr hb hd hw hp⟩
  have hn := List.length_pos_iff.2 hb
  have hh : isHost pa = false := isHost_of_lt (by omega)
  have hx : s.farWrite pkg id va bs = .ok (s.writeSpot cl none (.mem pa cached) bs false) := by
    simp only [State.farWrite, pageParts_within hn hv, List.foldl_cons, List.foldl_nil, ha,
      Nat.sub_self, List.drop_zero, List.take_length]
    cases cached <;> simp [hh]
  simp only [hx, State.answered, State.answer]

end Sys2Proof.Machine
end

section
namespace Sys2Proof.Machine

/-! ### The addition at a completion word of this package (R80, R287) -/

theorem length_leBytes (n x : Nat) : (leBytes n x).length = n := by
  induction n generalizing x with
  | zero => rfl
  | succ n ih => simp [leBytes, ih]

theorem leNat_leBytes (n x : Nat) : leNat (leBytes n x) = x % 256 ^ n := by
  induction n generalizing x with
  | zero => simp [leBytes, leNat, Nat.mod_one]
  | succ n ih =>
    have hs : leNat (leBytes (n + 1) x) = x % 256 + 256 * leNat (leBytes n (x / 256)) := by
      simp [leBytes, leNat]
    rw [hs, ih, pow_succ, Nat.mul_comm (256 ^ n), Nat.mod_mul]

theorem read_of_getD {m : Mem} {pa : Nat} {bs : List Byte}
    (h : ∀ i, i < bs.length → Mem.byte m (pa + i) = bs.getD i 0) : Mem.read m pa bs.length = bs := by
  induction bs generalizing pa with
  | nil => rfl
  | cons b bs ih =>
    have h0 : Mem.byte m pa = b := h 0 (Nat.succ_pos _)
    simp only [List.length_cons, Mem.read, h0]
    rw [ih fun i hi => by rw [show pa + 1 + i = pa + (i + 1) by omega, h (i + 1) (Nat.succ_lt_succ hi)]; rfl]

/-- What a point of coherence reads is what a memory holds, byte by byte. -/
theorem physRead_eq_read_iff (s : State) (m : Mem) (pa n : Nat) :
    s.physRead pa n = Mem.read m pa n ↔ ∀ i, i < n → s.phys (pa + i) = Mem.byte m (pa + i) := by
  induction n generalizing pa with
  | zero => simp [State.physRead, Mem.read]
  | succ n ih =>
    simp only [State.physRead, Mem.read, List.cons.injEq, ih]
    constructor
    · rintro ⟨h0, h⟩ i hi
      cases i with
      | zero => exact h0
      | succ i => simpa [Nat.add_assoc, Nat.add_comm 1] using h i (by omega)
    · exact fun h => ⟨h 0 (by omega), fun i hi => by
        simpa [Nat.add_assoc, Nat.add_comm 1] using h (i + 1) (by omega)⟩

/-- The upkeep of the slices leaves what the points of coherence read where they read memory. -/
theorem Kept.phys {s t : State} (h : Kept s t) {b : Nat} (hb : isHost b = false)
    (hs : s.phys b = Mem.byte s.mem b) : t.phys b = Mem.byte s.mem b := by
  have hx : isHost (32 * sectorOf b) = false := by
    rw [← hb]; exact isHost_of_sector (by simp [sectorOf])
  unfold State.phys at hs ⊢
  rcases h.host _ hx with hk | hk <;> rw [hk]
  · exact h.byte b hb
  · split
    · rename_i y hy
      rwa [hy] at hs
    · exact h.byte b hb

theorem isHbm_of_sector {a b : Nat} (h : a / 32 = b / 32) : isHbm a = isHbm b := by
  unfold isHbm gigabyte
  rw [Bool.eq_iff_iff]
  simp only [Bool.and_eq_true, decide_eq_true_eq]
  omega

/-- A fence covers whole sectors. -/
theorem stackFenced_of_sector (s : State) {a b : Nat} (h : a / 32 = b / 32) : s.stackFenced a = s.stackFenced b := by
  rw [State.stackFenced, State.stackFenced, isHbm_of_sector h, show a / 2 ^ 36 = b / 2 ^ 36 by omega]

/-- Where nothing is poisoned, a sector reads as poisoned in a fenced stack only. -/
theorem memPoison_unspoilt {s : State} (h : s.unspoilt) (pa : Nat) : s.memPoison pa = s.stackFenced pa := by
  rw [State.memPoison, sliceMarked_unspoilt h, recPoison_unspoilt h, ite_self, Bool.false_or]

theorem rangePoison_of_kept {s t : State} (h : Kept s t) (hs : s.unspoilt) (ht : t.unspoilt) (pa n : Nat) :
    t.rangePoison pa n = s.rangePoison pa n := by
  have hf : ∀ a, t.stackFenced a = s.stackFenced a := fun a => by simp only [State.stackFenced, h.fence]
  simp only [State.rangePoison, memPoison_unspoilt hs, memPoison_unspoilt ht, hf]

theorem stackFenced_of_rangePoison {s : State} {pa n : Nat} (hn : 0 < n) (h : s.rangePoison pa n = false) :
    s.stackFenced pa = false := by
  have hm : pa / 32 ∈ unitsOf 32 pa n := by
    rw [unitsOf, if_neg (by omega)]
    exact List.mem_map.2 ⟨0, List.mem_range.2 (by omega), rfl⟩
  have hp : s.memPoison (pa / 32 * 32) = false := by
    simpa using List.any_eq_false.1 h _ hm
  rw [← stackFenced_of_sector s (a := pa / 32 * 32) (by omega)]
  exact (Bool.or_eq_false_iff.1 hp).2

theorem needSectors_upkeep (s : State) (cl : Client) {pa n : Nat} (hp : pa + n ≤ 2 ^ 51) :
    Upkeep s (s.needSectors cl pa n .clean) := by
  unfold State.needSectors
  have hu : ∀ x ∈ unitsOf 32 pa n, isHost (x * 32) = false := by
    intro x hx
    unfold unitsOf at hx
    split at hx
    · cases hx
    · obtain ⟨i, hi, rfl⟩ := List.mem_map.1 hx
      have := List.mem_range.1 hi
      exact isHost_of_lt (by omega)
  generalize unitsOf 32 pa n = l at hu
  induction l generalizing s with
  | nil => exact .refl s
  | cons x l ih =>
    exact (needSector_upkeep s cl (hu x (List.mem_cons_self ..))).trans
      (ih _ fun y hy => hu y (List.mem_cons_of_mem _ hy))

/-- An addition at an unpoisoned dword of a C = 1 page outside host memory. -/
theorem addOne_stored {s : State} (cl : Client) {pa : Nat} (n : Nat) (hp : pa + 8 ≤ 2 ^ 51) (hs : s.unspoilt)
    (hc : s.rangePoison pa 8 = false) (hr : ∀ e ∈ s.redEntries, e.core ≠ none) (hw : s.memWf)
    (hm : s.physRead pa 8 = Mem.read s.mem pa 8) :
    let t := s.addOne cl (.mem pa true) n
    s.outbox <+: t.outbox ∧ Mem.read t.mem pa 8 = leBytes 8 ((leNat (Mem.read s.mem pa 8) + n) % 2 ^ 64) := by
  have hu := needSectors_upkeep s cl hp
  have hh : isHost pa = false := isHost_of_lt (by omega)
  have hbad : (s.needSectors cl pa 8 .clean).rangePoison pa 8 = false :=
    (rangePoison_of_kept hu.kept hs (hu.clean hs) pa 8).trans hc
  have hread : (s.needSectors cl pa 8 .clean).physRead pa 8 = Mem.read s.mem pa 8 := by
    rw [physRead_eq_read_iff] at hm ⊢
    exact fun i hi => hu.kept.phys (isHost_of_lt (by omega)) (hm i hi)
  have hadd : s.addOne cl (.mem pa true) n = (s.needSectors cl pa 8 .clean).homeWrite cl none pa
      (leBytes 8 ((leNat (Mem.read s.mem pa 8) + n) % 2 ^ 64)) false := by
    simp only [State.addOne, flushSpot_mem hr, State.homeRead, State.physWrite, hbad, hread, hh, Bool.true_and,
      Bool.false_eq_true, ↓reduceIte]
  have hst := homeWrite_stored cl (bs := leBytes 8 ((leNat (Mem.read s.mem pa 8) + n) % 2 ^ 64)) hh
    (stackFenced_of_rangePoison (by decide) hbad) (hu.kept.wf hw) (by rw [length_leBytes]; exact hp)
  have hlen := read_of_getD hst.byte
  rw [length_leBytes] at hlen
  rw [hadd]
  exact ⟨hu.kept.outbox.trans hst.outbox, hlen⟩

theorem fabricAdd {s : State} {pkg id va pa : Nat} {cl : Client}
    (ha : s.farAt pkg id va accAtomic = .ok (cl, .mem pa true)) (hp : pa + 8 ≤ 2 ^ 51) (hs : s.unspoilt)
    (hc : s.rangePoison pa 8 = false) (hr : ∀ e ∈ s.redEntries, e.core ≠ none) (hw : s.memWf)
    (hm : s.physRead pa 8 = Mem.read s.mem pa 8) :
    ∃ (t : State) (sent : List Outgoing), exec (.fabricWindowArrival (.cplAdd pkg id va)) s = .next t ∧
      t.outbox = s.outbox ++ sent ++ [.fabricReply 0 []] ∧
      leNat (Mem.read t.mem pa 8) = (leNat (Mem.read s.mem pa 8) + 1) % 2 ^ 64 := by
  obtain ⟨⟨sent, ho⟩, hread⟩ := addOne_stored cl 1 hp hs hc hr hw hm
  have hx : s.farAdd pkg id va = .ok (s.addOne cl (.mem pa true) 1) := by
    simp only [State.farAdd, ha, Bool.true_or, ↓reduceIte]
  refine ⟨(s.addOne cl (.mem pa true) 1).emit (.fabricReply 0 []), sent, congrArg Host.Outcome.next ?_, ?_, ?_⟩
  · simp only [hx, State.answered, State.answer]
  · rw [State.emit_outbox, ← ho]
  · rw [State.emit_mem, hread, leNat_leBytes]
    exact Nat.mod_mod _ _

end Sys2Proof.Machine
end

section
namespace Sys2Proof.Machine

/-! ### Answers to a completion word's addition (R271, R287) -/

/-- The signals of a command leave the team's engine queues. -/
theorem signals_queues (k : Nat) (l : List Nat) (t : Team) : (l.foldl (signalOne k) t).queues = t.queues := by
  induction l generalizing t with
  | nil => rfl
  | cons n l ih =>
    refine (ih _).trans ?_
    unfold signalOne
    split <;> rfl

theorem dequeued_cmds (e : EngineQueue) (c : Command) : (e.dequeued c).cmds = e.cmds := by
  unfold EngineQueue.dequeued
  split <;> rfl

/-- A command that retires leaves the head of its queue. -/
theorem retireHead_cmds (s : State) (p q : Nat) (c : Command) :
    (((s.retireHead p q c).team p).queue q).cmds = ((s.team p).queue q).cmds.tail := by
  unfold State.retireHead
  dsimp only
  rw [State.team_setTeam_same, Team.queue_setQueue_same, dequeued_cmds, Team.queue, signals_queues]
  rfl

section
variable {s : State} {p q : Nat} {c : Command} {rest : List Command} (hr : (s.core p).resident = true)
  (hq : ((s.team p).queue q).cmds = c :: rest) (hs : c.cplSent = true)
include hr hq hs

theorem farCompleted_retires : ∃ t : State, exec (.fabricWindowArrival (.completed p q 0)) s = .next t ∧
    t.mem = s.mem ∧ ((t.team p).queue q).cmds = rest := by
  refine ⟨s.retireHead p q c, congrArg Host.Outcome.next ?_, rfl, by rw [retireHead_cmds, hq]; rfl⟩
  simp only [State.farCompleted, hq, hr, hs, Bool.not_true, Bool.or_self, Bool.false_eq_true, ↓reduceIte]
  rfl

theorem farCompleted_halts {cause : BitVec 8} (hc : cause ≠ 0) (ha : (s.team p).allHalted = false) :
    ∃ t : State, exec (.fabricWindowArrival (.completed p q cause)) s = .next t ∧ t.mem = s.mem ∧
      ((t.team p).queue q).cmds = c :: rest ∧ ((t.team p).queue q).halt = true ∧
      ((t.team p).queue q).fault = BitVec.ofNat 64 (cause.toNat * 2 ^ 56 + cmdCplw c.bytes % 2 ^ 56) := by
  have h0 : cause.toNat ≠ 0 := fun h => hc (BitVec.eq_of_toNat_eq h)
  have ht : (s.haltQueue p q c.serial cause.toNat (cmdCplw c.bytes)) = s.modTeam p fun t => t.setQueue q
      { t.queue q with
        halt := true
        haltAt := c.serial
        fault := BitVec.ofNat 64 (cause.toNat * 2 ^ 56 + cmdCplw c.bytes % 2 ^ 56) } := by
    refine if_neg ?_
    rw [State.modTeam, State.team_setTeam_same]
    exact Bool.eq_false_iff.1 ha
  refine ⟨_, congrArg Host.Outcome.next (?_ : _ = s.haltQueue p q c.serial cause.toNat (cmdCplw c.bytes)), ?_⟩
  · simp only [State.farCompleted, hq, hr, hs, h0, Bool.not_true, Bool.or_self, Bool.false_eq_true, ↓reduceIte]
  · rw [ht, State.modTeam, State.team_setTeam_same, Team.queue_setQueue_same]
    exact ⟨rfl, hq, rfl, rfl⟩

end

end Sys2Proof.Machine

namespace Sys2Proof.Laws
open Machine

/-- Settles O58: a register write is its field and what the event recorder has; a write to memory is its bytes between two
changes that keep every byte outside host memory. -/
theorem hostAccesses : Obligations.HostAccesses := by
  unfold Obligations.HostAccesses
  refine ⟨?_, ?_, ?_, ?_, ?_, ?_, ?_, ?_⟩
  · intro s port v hl
    exact ⟨fun ho => ⟨agep_write hl ho v, pkgid_write hl ho v, floor_write hl ho v, optix_write hl ho v,
      optable_write hl ho v, invva_write hl ho v, evctl_write hl ho v,
      fun q hq hr hf he => queueBase_write hl ho v hq hr hf he⟩, registerWrite_other hl v⟩
  · intro s port pa bs hl hb
    refine ⟨fun ho hm he hd hr hw => ?_, fun _ hm => hostWrite_dropped hl hb fun _ => hm,
      fun ho => hostWrite_dropped hl hb fun h => absurd h ho⟩
    obtain ⟨t, ht, hst⟩ := hostWrite_owner hl hb ho hm he hd hr hw
    exact ⟨t, ht, hst.byte, hst.other⟩
  · intro s port a n hl
    refine ⟨fun hm he hr hp hc => hostRead_bar2 hl (hostBytes_memory hm he hr hp hc),
      fun hm => hostRead_bar2 hl (hostBytes_outside hm), fun v hv => ?_⟩
    rcases hv with ⟨rfl, rfl⟩ | ⟨rfl, rfl⟩ | ⟨rfl, rfl⟩ | ⟨rfl, rfl⟩ | ⟨rfl, rfl⟩ <;>
      exact hostRead_bar0 hl rfl rfl
  · intro s port bank v hl ho
    exact ⟨bankClear_owner hl ho bank, injectionArm_owner hl ho v, sensorForce_owner hl ho v⟩
  · intro s pkg id va pa n cl cached bs
    refine ⟨fun hb hv ha hp hd hr hw => ?_, fun s1 h => ?_, fun ha hp hpo hfl hc hr hw hm =>
      fabricAdd ha hp ⟨hpo, hfl⟩ hc hr hw hm, fun cause h => ?_⟩
    · obtain ⟨t, ht, hst⟩ := fabricWrite_stored hb hv ha hp hd hr hw
      obtain ⟨sent, ho⟩ := hst.outbox
      exact ⟨_, sent, ht, by rw [State.emit_outbox, ho], hst.byte, hst.other⟩
    · refine congrArg Host.Outcome.next ?_
      simp only [h, State.answer]
    · refine congrArg Host.Outcome.next ?_
      simp only [State.farAdd, h, State.answered, State.answer]
  · intro s pkg id asid run
    refine ⟨fun pins h => congrArg Host.Outcome.next ?_, fun cause h => congrArg Host.Outcome.next ?_, rfl⟩
    · simp only [State.farStart, List.foldl_cons, List.foldl_nil, h, List.nil_append, State.answer]
    · simp only [State.farStart, List.foldl_cons, List.foldl_nil, h, State.answer]
  · intro s header payload h
    exact congrArg Host.Outcome.next (if_neg h)
  · intro s p q cause c rest hr hq hs
    refine ⟨?_, fun hc ha => farCompleted_halts hr hq hs hc ha⟩
    rintro rfl
    exact farCompleted_retires hr hq hs

end Sys2Proof.Laws
end

section
namespace Sys2Proof.Machine

/-! ### Folds, and tables written, filtered or mapped key by key -/

/-- What every step of a fold leaves, the fold leaves. -/
theorem foldl_leaves {α β γ : Type} (g : β → γ) {f : β → α → β} (h : ∀ b x, g (f b x) = g b) (l : List α) (b : β) :
    g (l.foldl f b) = g b := by
  induction l generalizing b with
  | nil => rfl
  | cons x l ih => exact (ih _).trans (h b x)

/-- Where every step of a fold sets one key from its own value, each key of the list is set as if once: the keys differ, or
a second time changes nothing. -/
theorem tget_foldl_tput {α : Type} (d : α) (f : α → α) {l : List Nat} (hl : l.Nodup ∨ ∀ x, f (f x) = f x) (t : Table α)
    (r : Nat) :
    tget d (l.foldl (fun t k => tput t k (f (tget d t k))) t) r = if r ∈ l then f (tget d t r) else tget d t r := by
  induction l generalizing t with
  | nil => simp
  | cons k l ih =>
    rw [List.foldl_cons, ih (hl.imp_left fun h => (List.nodup_cons.1 h).2)]
    by_cases h : r = k
    · subst h
      rcases hl with hl | hl
      · simp [(List.nodup_cons.1 hl).1]
      · simp [hl]
    · simp [h]

/-- Entries kept by their keys. -/
theorem tfind_filter_key {α : Type} (f : Nat → Bool) (t : Table α) (n : Nat) :
    tfind (t.filter fun e => f e.1) n = if f n then tfind t n else none := by
  induction t with
  | nil => simp [tfind]
  | cons e t ih =>
    obtain ⟨k, v⟩ := e
    by_cases hk : k = n
    · subst hk
      cases hf : f k with
      | true => simp [hf, tfind]
      | false => simpa [hf] using ih
    · cases hf : f k <;> simpa [hf, tfind, hk] using ih

/-- Values mapped, keys as before. -/
theorem tfind_map_value {α β : Type} (f : α → β) (t : Table α) (n : Nat) :
    tfind (t.map fun e => (e.1, f e.2)) n = (tfind t n).map f := by
  induction t with
  | nil => rfl
  | cons e t ih =>
    by_cases hk : e.1 = n
    · simp [tfind, hk]
    · simpa [tfind, hk] using ih

theorem mem_of_tfind {α : Type} {t : Table α} {n : Nat} {x : α} (h : tfind t n = some x) : (n, x) ∈ t := by
  induction t with
  | nil => cases h
  | cons e t ih =>
    obtain ⟨k, v⟩ := e
    by_cases hk : k = n
    · simp only [tfind, hk, ↓reduceIte, Option.some.injEq] at h
      simp [hk, h]
    · simp only [tfind, hk, ↓reduceIte] at h
      exact List.mem_cons_of_mem _ (ih h)

theorem getD_range_map {α : Type} (f : Nat → α) (d : α) {r n : Nat} (h : r < n) :
    ((List.range n).map f).getD r d = f r := by
  simp [h]

theorem chip_setChip_other (s : State) {n m : Nat} (x : Chip) (h : m ≠ n) : (s.setChip n x).chip m = s.chip m :=
  tget_tput_other _ _ _ _ _ h

theorem remap_setRemap_other (s : State) {n l : Nat} (x : Remap) (h : l ≠ n) : (s.setRemap n x).remap l = s.remap l :=
  congrArg (Option.getD · _) (tfind_tput_other _ _ _ _ h)

end Sys2Proof.Machine
end

section
namespace Sys2Proof.Machine

/-! ### What recording an event changes (R110, R445, R446, R453) -/

/-- A state with other records of events, other vectors that stay pending and other messages sent. -/
def State.notified (s : State) (n : Nat) (r : Table EventRec) (m : List (Nat × Nat)) (o : List Outgoing) : State :=
  { s with
    hub := { s.hub with evcount := n, evring := r, msixPending := m }
    outbox := o }

/-- A vector is sent or stays pending. -/
theorem sendVector_eq (s : State) (v : Nat) :
    ∃ m o, s.sendVector v = s.notified s.hub.evcount s.hub.evring m o := by
  unfold State.sendVector
  dsimp only
  split_ifs <;> exact ⟨_, _, rfl⟩

/-- The record that an event leaves in the recorder. -/
def State.eventOf (s : State) (ty cause source addr detail : Nat) : EventRec :=
  ⟨BitVec.ofNat 64 s.timens, BitVec.ofNat 64 (ty * 2 ^ 56 + cause % 256 * 2 ^ 48 + source % 2 ^ 16 * 2 ^ 32 +
    s.hub.evcount % 2 ^ 32), BitVec.ofNat 64 addr, BitVec.ofNat 64 detail⟩

/-- An event changes the recorder, and what its interrupt does. -/
theorem post_eq (s : State) (ty cause source addr detail : Nat) :
    ∃ m o, s.post ty cause source addr detail = s.notified (s.hub.evcount + 1)
      (tput s.hub.evring (s.hub.evcount % 4096) (s.eventOf ty cause source addr detail)) m o := by
  unfold State.post
  dsimp only
  split
  · exact sendVector_eq { s with hub := { s.hub with
      evcount := s.hub.evcount + 1
      evring := tput s.hub.evring (s.hub.evcount % 4096) (s.eventOf ty cause source addr detail) } } _
  · exact ⟨_, _, rfl⟩

theorem post_lastEvent (s : State) (ty cause source addr detail : Nat) :
    (s.post ty cause source addr detail).lastEvent ty cause source addr detail := by
  obtain ⟨m, o, h⟩ := post_eq s ty cause source addr detail
  rw [h]
  exact ⟨s.hub.evcount, BitVec.ofNat 64 s.timens, rfl, tfind_tput_same _ _ _⟩

end Sys2Proof.Machine
end

section
namespace Sys2Proof.Machine

/-! ### FATAL stays (R443)

FATAL is set by a device-fatal fault and by a bring-up alone.  Whatever else a step does, on its way through memory, the
lock managers, teams and sheaves, leaves it as it is. -/

/-- A fold over states leaves FATAL where its steps do. -/
theorem foldl_fatal {α : Type} {f : State → α → State} (h : ∀ s x, (f s x).hub.fatal = s.hub.fatal) (l : List α)
    (s : State) : (l.foldl f s).hub.fatal = s.hub.fatal := foldl_leaves (fun s => s.hub.fatal) h l s

/-- A fold that carries a result beside the state. -/
theorem foldl_fst_fatal {α β : Type} {f : State × β → α → State × β}
    (h : ∀ acc x, (f acc x).1.hub.fatal = acc.1.hub.fatal) (l : List α) (acc : State × β) :
    (l.foldl f acc).1.hub.fatal = acc.1.hub.fatal := foldl_leaves (fun acc => acc.1.hub.fatal) h l acc

theorem ite_fatal (c : Prop) [Decidable c] (s t : State) :
    (if c then s else t).hub.fatal = if c then s.hub.fatal else t.hub.fatal :=
  apply_ite (fun s : State => s.hub.fatal) c s t

/-! #### Events, counters and poison -/

@[simp] theorem sendVector_fatal (s : State) (v : Nat) : (s.sendVector v).hub.fatal = s.hub.fatal := by
  obtain ⟨m, o, h⟩ := sendVector_eq s v
  rw [h]
  rfl

@[simp] theorem post_fatal (s : State) (ty cause source addr detail : Nat) :
    (s.post ty cause source addr detail).hub.fatal = s.hub.fatal := by
  obtain ⟨m, o, h⟩ := post_eq s ty cause source addr detail
  rw [h]
  rfl

@[simp] theorem bankEvent_fatal (s : State) (n : Nat) (ue : Bool) (kind addr misc : Nat) :
    (s.bankEvent n ue kind addr misc).hub.fatal = s.hub.fatal := rfl

@[simp] theorem countTo_fatal (s : State) (cl : Client) (ix n : Nat) : (s.countTo cl ix n).hub.fatal = s.hub.fatal := by
  unfold State.countTo
  split
  · split <;> rfl
  · rfl

@[simp] theorem markSlice_fatal (s : State) (pa : Nat) : (s.markSlice pa).hub.fatal = s.hub.fatal := rfl

@[simp] theorem drawBytes_fatal (s : State) (n : Nat) : (s.drawBytes n).hub.fatal = s.hub.fatal := rfl

@[simp] theorem unmarkSlice_fatal (s : State) (pa : Nat) : (s.unmarkSlice pa).hub.fatal = s.hub.fatal := by
  unfold State.unmarkSlice
  split <;> rfl

@[simp] theorem addPoison_fatal (s : State) (pa : Nat) : (s.addPoison pa).hub.fatal = s.hub.fatal := by
  unfold State.addPoison
  dsimp only
  split_ifs
  · rfl
  · rfl
  · exact post_fatal _ _ _ _ _ _

@[simp] theorem poisonSector_fatal (s : State) (pa : Nat) : (s.poisonSector pa).hub.fatal = s.hub.fatal := by
  unfold State.poisonSector
  split <;> simp

@[simp] theorem clearPoison_fatal (s : State) (pa : Nat) : (s.clearPoison pa).hub.fatal = s.hub.fatal := by
  refine foldl_fatal (fun s k => ?_) _ s
  split
  · split <;> rfl
  · rfl

@[simp] theorem storeMarks_fatal (s : State) (pa n : Nat) (poisoned : Bool) :
    (s.storeMarks pa n poisoned).hub.fatal = s.hub.fatal := by
  refine foldl_fatal (fun s i => ?_) _ s
  dsimp only
  split_ifs <;> simp

/-! #### Slices -/

@[simp] theorem writebackSector_fatal (s : State) (pa : Nat) : (s.writebackSector pa).1.hub.fatal = s.hub.fatal := by
  unfold State.writebackSector
  dsimp only
  split
  · split
    · rfl
    · split_ifs <;> simp
  · split
    · split <;> simp
    · rfl

@[simp] theorem evictSector_fatal (s : State) (pa : Nat) : (s.evictSector pa).hub.fatal = s.hub.fatal := by
  simp [State.evictSector]

@[simp] theorem writebackByte_fatal (s : State) (b : TensorByte) : (s.writebackByte b).hub.fatal = s.hub.fatal := by
  unfold State.writebackByte
  split_ifs <;> simp

@[simp] theorem evictTensor_fatal (s : State) (l : TensorLine) : (s.evictTensor l).hub.fatal = s.hub.fatal :=
  foldl_fatal (fun s (e : Nat × TensorByte) => writebackByte_fatal s e.2) l.bytes s

@[simp] theorem untag_fatal (s : State) (asid pa : Nat) : (s.untag asid pa).1.hub.fatal = s.hub.fatal := by
  unfold State.untag
  dsimp only
  split_ifs <;> simp

@[simp] theorem evictFlat_fatal (s : State) (asid line : Nat) : (s.evictFlat asid line).1.hub.fatal = s.hub.fatal := by
  refine foldl_fst_fatal (fun acc i => ?_) _ (s, 0)
  dsimp only
  split
  · exact untag_fatal _ _ _
  · rfl

@[simp] theorem makeRoom_fatal (s : State) (cl : Client) (home : Nat × Nat) :
    (s.makeRoom cl home).hub.fatal = s.hub.fatal := by
  unfold State.makeRoom
  dsimp only
  split
  · rfl
  · split <;> simp

@[simp] theorem tagSector_fatal (s : State) (cl : Client) (pa : Nat) : (s.tagSector cl pa).hub.fatal = s.hub.fatal := by
  unfold State.tagSector
  dsimp only
  split <;> simp

@[simp] theorem eccEvent_fatal (s : State) (pa : Nat) (ecc : Ecc) : (s.eccEvent pa ecc).hub.fatal = s.hub.fatal := by
  unfold State.eccEvent
  dsimp only
  split <;> simp

@[simp] theorem enterMark_fatal (s : State) (pa : Nat) : (s.enterMark pa).hub.fatal = s.hub.fatal := by
  unfold State.enterMark
  split_ifs <;> simp

@[simp] theorem fillSlice_fatal (s : State) (pa : Nat) (ecc : Ecc) : (s.fillSlice pa ecc).hub.fatal = s.hub.fatal := by
  unfold State.fillSlice
  dsimp only
  split_ifs <;> simp

@[simp] theorem needSector_fatal (s : State) (cl : Client) (pa : Nat) (ecc : Ecc) :
    (s.needSector cl pa ecc).hub.fatal = s.hub.fatal := by
  unfold State.needSector
  split <;> simp

@[simp] theorem needSectors_fatal (s : State) (cl : Client) (pa n : Nat) (ecc : Ecc) :
    (s.needSectors cl pa n ecc).hub.fatal = s.hub.fatal :=
  foldl_fatal (fun s x => needSector_fatal s cl (x * 32) ecc) _ s

@[simp] theorem readSectors_fatal (s : State) (pa n : Nat) (ecc : Ecc) :
    (s.readSectors pa n ecc).hub.fatal = s.hub.fatal := by
  refine foldl_fatal (fun s x => ?_) _ s
  split <;> simp

@[simp] theorem homeRead_fatal (s : State) (cl : Client) (pa n : Nat) (cached : Bool) (ecc : Ecc) :
    (s.homeRead cl pa n cached ecc).2.2.hub.fatal = s.hub.fatal := by
  unfold State.homeRead
  dsimp only
  split_ifs <;> simp

@[simp] theorem putHost_fatal (s : State) (cl : Client) (pa : Nat) (bs : List Byte) :
    (s.putHost cl pa bs).hub.fatal = s.hub.fatal := by
  refine foldl_fatal (fun s x => ?_) _ s
  dsimp only
  split <;> simp

@[simp] theorem ownWord_fatal (s : State) (writer : Option Nat) (w : Nat) :
    (s.ownWord writer w).hub.fatal = s.hub.fatal := by
  unfold State.ownWord
  cases tfind s.owners w with
  | none => cases writer <;> rfl
  | some o => cases writer <;> dsimp only <;> split <;> rfl

@[simp] theorem touchL1_fatal (s : State) (p pa : Nat) : (s.touchL1 p pa).hub.fatal = s.hub.fatal := by
  unfold State.touchL1
  split <;> rfl

@[simp] theorem ownCopy_fatal (s : State) (p w : Nat) : (s.ownCopy p w).hub.fatal = s.hub.fatal := by
  unfold State.ownCopy
  split <;> simp

@[simp] theorem markWrite_fatal (s : State) (pa n : Nat) (poisoned : Bool) :
    (s.markWrite pa n poisoned).hub.fatal = s.hub.fatal := by
  refine foldl_fatal (fun s x => ?_) _ s
  split_ifs <;> simp

@[simp] theorem invalidateWord_fatal (s : State) (w : Nat) : (s.invalidateWord w).hub.fatal = s.hub.fatal := rfl

@[simp] theorem takeSectors_fatal (s : State) (cl : Client) (pa n : Nat) :
    (s.takeSectors cl pa n).hub.fatal = s.hub.fatal :=
  foldl_fatal (fun s x => by simp) _ s

@[simp] theorem homeWrite_fatal (s : State) (cl : Client) (writer : Option Nat) (pa : Nat) (bs : List Byte)
    (poisoned : Bool) : (s.homeWrite cl writer pa bs poisoned).hub.fatal = s.hub.fatal := by
  unfold State.homeWrite
  dsimp only
  split
  · simp
  · split <;> split <;> simp [foldl_fatal, foldl_fatal invalidateWord_fatal]

@[simp] theorem plainWrite_fatal (s : State) (writer : Option Nat) (pa : Nat) (bs : List Byte) (poisoned : Bool) :
    (s.plainWrite writer pa bs poisoned).hub.fatal = s.hub.fatal := by
  unfold State.plainWrite
  dsimp only
  split_ifs <;> simp [foldl_fatal, foldl_fatal invalidateWord_fatal]

@[simp] theorem physWrite_fatal (s : State) (cl : Client) (writer : Option Nat) (pa : Nat) (cached : Bool)
    (bs : List Byte) (poisoned : Bool) : (s.physWrite cl writer pa cached bs poisoned).hub.fatal = s.hub.fatal := by
  unfold State.physWrite
  split <;> simp

end Sys2Proof.Machine
end

section
namespace Sys2Proof.Machine

/-! #### Spots and completion words -/

@[simp] theorem revokeCores_fatal (s : State) (cores : List Nat) (writer pa n : Nat) :
    (s.revokeCores cores writer pa n).hub.fatal = s.hub.fatal := by
  refine foldl_fatal (fun s p => ?_) cores s
  split <;> rfl

@[simp] theorem performWord_fatal (s : State) (e : RedEntry) (cl : Client) (w : Nat × W64 × List Nat) :
    (s.performWord e cl w).hub.fatal = s.hub.fatal := by
  unfold State.performWord
  dsimp only
  split <;> split <;> simp

@[simp] theorem performRed_fatal (s : State) (e : RedEntry) : (s.performRed e).hub.fatal = s.hub.fatal := by
  unfold State.performRed
  refine Eq.trans (foldl_fatal (fun s m => ?_) _ _) (foldl_fatal (fun s w => ?_) _ s)
  · rfl
  · exact performWord_fatal _ _ _ _

@[simp] theorem flushSpot_fatal (s : State) (y : Spot) (n : Nat) : (s.flushSpot y n).hub.fatal = s.hub.fatal := by
  unfold State.flushSpot State.flushReds
  split
  · split
    · exact foldl_fatal performRed_fatal _ s
    · rfl
  · exact foldl_fatal performRed_fatal _ s

@[simp] theorem writeSpot_fatal (s : State) (cl : Client) (writer : Option Nat) (y : Spot) (bs : List Byte)
    (poisoned : Bool) : (s.writeSpot cl writer y bs poisoned).hub.fatal = s.hub.fatal := by
  unfold State.writeSpot
  dsimp only
  split <;> simp

@[simp] theorem hubWrite_fatal (s : State) (asid va : Nat) (bs : List Byte) :
    (s.hubWrite asid va bs).hub.fatal = s.hub.fatal := by
  refine foldl_fatal (fun s x => ?_) _ s
  dsimp only
  split
  · rfl
  · split
    · exact (foldl_fatal (fun s y => writebackSector_fatal s (32 * y)) _ _).trans (writeSpot_fatal _ _ _ _ _ _)
    · exact writeSpot_fatal _ _ _ _ _ _

@[simp] theorem addOne_fatal (s : State) (cl : Client) (y : Spot) (n : Nat) :
    (s.addOne cl y n).hub.fatal = s.hub.fatal := by
  unfold State.addOne
  dsimp only
  split
  · split <;> simp
  · split_ifs <;> simp

@[simp] theorem addDone_fatal (s : State) (asid va amount detail : Nat) :
    (s.addDone asid va amount detail).hub.fatal = s.hub.fatal := by
  unfold State.addDone
  split_ifs
  · rfl
  · split
    · split <;> simp
    · rfl
  · simp

/-! #### Lock managers -/

@[simp] theorem putLock_fatal (s : State) (e : LockEntry) : (s.putLock e).hub.fatal = s.hub.fatal := rfl

@[simp] theorem fillLocks_fatal (s : State) (team : Nat) (fills : List (Nat × Nat)) (w : W64) :
    (s.fillLocks team fills w).hub.fatal = s.hub.fatal := by
  unfold State.fillLocks
  split
  · rfl
  · exact foldl_fatal (fun s f => by simp [State.lockDone]) fills s

@[simp] theorem woundFor_fatal (s : State) (e : LockEntry) (w : Waiter) : (s.woundFor e w).hub.fatal = s.hub.fatal := by
  refine foldl_fatal (fun s h => ?_) e.holders s
  split
  · unfold State.sendWound
    split <;> rfl
  · rfl

@[simp] theorem scanWaiters_fatal (s : State) (e : LockEntry) (ws ahead : List Waiter) :
    (s.scanWaiters e ws ahead).1.hub.fatal = s.hub.fatal := by
  induction ws generalizing s e ahead with
  | nil => rfl
  | cons w ws ih =>
    unfold State.scanWaiters
    split
    · exact (ih _ _ _).trans ((foldl_fatal (fun s x => woundFor_fatal s _ x) _ _).trans (fillLocks_fatal _ _ _ _))
    · exact ih _ _ _

@[simp] theorem rescan_fatal (s : State) (n : LockName) : (s.rescan n).hub.fatal = s.hub.fatal :=
  scanWaiters_fatal _ _ _ _

@[simp] theorem withdraw_fatal (s : State) (team : Nat) (f : LockName → Bool) :
    (s.withdraw team f).hub.fatal = s.hub.fatal := by
  refine foldl_fatal (fun s e0 => ?_) s.locks s
  dsimp only
  split
  · split <;> simp
  · rfl

@[simp] theorem releaseAll_fatal (s : State) (team : Nat) : (s.releaseAll team).hub.fatal = s.hub.fatal := by
  refine (foldl_fatal (fun s e0 => ?_) _ _).trans (withdraw_fatal s team _)
  dsimp only
  split <;> simp

/-! #### Teams and tasks that end -/

@[simp] theorem idleCore_fatal (s : State) (p : Nat) : (s.idleCore p).hub.fatal = s.hub.fatal := by
  unfold State.idleCore
  dsimp only
  split <;> rfl

@[simp] theorem releaseLocks_fatal (s : State) (p : Nat) : (s.releaseLocks p).hub.fatal = s.hub.fatal := by
  unfold State.releaseLocks
  split <;> simp

@[simp] theorem endMove_fatal (s : State) (p : Nat) : (s.endMove p).hub.fatal = s.hub.fatal := by
  unfold State.endMove
  split <;> simp

@[simp] theorem dropTeam_fatal (s : State) (p : Nat) : (s.dropTeam p).hub.fatal = s.hub.fatal := by
  simp [State.dropTeam, State.forgetReds]

@[simp] theorem endTask_fatal (s : State) (id task cause : Nat) : (s.endTask id task cause).hub.fatal = s.hub.fatal := by
  unfold State.endTask
  refine (foldl_fatal (fun s e => by simp) _ _).trans ?_
  exact foldl_fatal (fun s (e : Nat × Core) => dropTeam_fatal s e.1) _ _

@[simp] theorem returnPosition_fatal (s : State) (slot plot pos chip : Nat) :
    (s.returnPosition slot plot pos chip).hub.fatal = s.hub.fatal := by
  unfold State.returnPosition
  split <;> rfl

/-! #### Sheaves -/

@[simp] theorem putSheaf_fatal (s : State) (x : Sheaf) : (s.putSheaf x).hub.fatal = s.hub.fatal := rfl

@[simp] theorem sweepSheaves_fatal (s : State) : s.sweepSheaves.hub.fatal = s.hub.fatal := rfl

@[simp] theorem writeCTile_fatal (s : State) (x : Sheaf) (top left : Nat) (rows : List (List Byte × Option Nat)) :
    (s.writeCTile x top left rows).hub.fatal = s.hub.fatal := by
  refine foldl_fatal (fun s row => ?_) _ s
  dsimp only
  split <;> simp

@[simp] theorem writePosition_fatal (s : State) (x : Sheaf) (tile : Nat) (base : List Nat) :
    (s.writePosition x tile base).1.hub.fatal = s.hub.fatal := by
  refine foldl_fst_fatal (fun acc i => ?_) _ (s, _)
  dsimp only
  split
  · rfl
  · split
    · dsimp only
      split <;> simp
    · rfl

@[simp] theorem nameFaulty_fatal (s : State) (x : Sheaf) (task : Nat) :
    (s.nameFaulty x task).1.hub.fatal = s.hub.fatal := by
  unfold State.nameFaulty
  dsimp only
  split <;> simp [State.modSheaf]

@[simp] theorem decodeTile_fatal (s : State) (x : Sheaf) (tile : Nat) :
    (s.decodeTile x tile).1.hub.fatal = s.hub.fatal := by
  unfold State.decodeTile
  dsimp only
  split <;> split <;> simp

@[simp] theorem checkLate_fatal (s : State) (x : Sheaf) (tile : Nat) (t : TileState) :
    (s.checkLate x tile t).1.hub.fatal = s.hub.fatal := by
  unfold State.checkLate
  dsimp only
  split
  · rfl
  split
  · rfl
  split
  · split <;> split <;> simp
  · rfl

@[simp] theorem writeEnd_fatal (s : State) (x : Sheaf) (final : Bool) : (s.writeEnd x final).hub.fatal = s.hub.fatal := by
  unfold State.writeEnd State.writeStatus
  dsimp only
  split <;> simp

@[simp] theorem sheafDone_fatal (s : State) (x : Sheaf) : (s.sheafDone x).hub.fatal = s.hub.fatal := by
  unfold State.sheafDone
  dsimp only
  split <;> split <;> simp

@[simp] theorem decodeReady_fatal (s : State) (x : Sheaf) : (s.decodeReady x).1.hub.fatal = s.hub.fatal := by
  refine foldl_fst_fatal (fun acc p => ?_) _ (s, x)
  dsimp only
  split_ifs <;> simp

@[simp] theorem concludeSheaf_fatal (s : State) (x : Sheaf) : (s.concludeSheaf x).1.hub.fatal = s.hub.fatal := by
  simp only [State.concludeSheaf, ite_fatal, sheafDone_fatal, writeEnd_fatal, ite_self]

@[simp] theorem progress_fatal (s : State) (id : Nat) : (s.progress id).hub.fatal = s.hub.fatal := by
  unfold State.progress
  split
  · rfl
  · split <;> simp

@[simp] theorem takeReturn_fatal (s : State) (id : Nat) (r : Return) : (s.takeReturn id r).hub.fatal = s.hub.fatal := by
  unfold State.takeReturn
  dsimp only
  split
  · rfl
  split
  · simp
  split
  · rfl
  split
  · split <;> simp
  · simp

@[simp] theorem passOn_fatal (s : State) (id : Nat) : (s.passOn id).hub.fatal = s.hub.fatal := by
  unfold State.passOn
  dsimp only
  split
  · rfl
  split
  · rfl
  split
  · exact foldl_fatal (fun s r => takeReturn_fatal s _ r) _ s
  · split <;> simp

@[simp] theorem advanceSheaf_fatal (s : State) (id : Nat) : (s.advanceSheaf id).hub.fatal = s.hub.fatal := by
  unfold State.advanceSheaf
  dsimp only
  split <;> simp

/-! #### Fences -/

@[simp] theorem loseTasks_fatal (s : State) (chip : Nat) : (s.loseTasks chip).hub.fatal = s.hub.fatal :=
  foldl_fatal (fun s (t : Nat × Nat) => by simp) _ s

@[simp] theorem dropFlights_fatal (s : State) (chip : Nat) : (s.dropFlights chip).hub.fatal = s.hub.fatal := by
  unfold State.dropFlights
  refine (foldl_fatal (fun s e => post_fatal s _ _ _ _ _) _ _).trans (foldl_fatal (fun s y => ?_) _ s)
  exact post_fatal _ _ _ _ _ _

@[simp] theorem giveBack_fatal (s : State) (chip : Nat) (w : Work) (fresh : Bool) :
    (s.giveBack chip w fresh).hub.fatal = s.hub.fatal := by
  unfold State.giveBack
  split
  · rfl
  split
  · rfl
  split
  · rfl
  split
  · split <;> simp
  · split <;> simp
  · rfl
  · simp

@[simp] theorem loseWork_fatal (s : State) (chip : Nat) : (s.loseWork chip).hub.fatal = s.hub.fatal := by
  unfold State.loseWork
  refine (foldl_fatal (fun s (i : Image) => releaseAll_fatal s _) _ _).trans ?_
  refine (foldl_fatal (fun s (e : Nat × Core) => dropTeam_fatal s _) _ _).trans ?_
  refine (foldl_fatal (fun s (e : Nat × Core) => ?_) _ _).trans (foldl_fatal (fun s e => giveBack_fatal s _ _ _) _ s)
  split
  · split <;> simp
  · rfl

@[simp] theorem loseLocks_fatal (s : State) (chip : Nat) : (s.loseLocks chip).hub.fatal = s.hub.fatal :=
  foldl_fatal (fun s (_ : Waiter) => fillLocks_fatal s _ _ _) _ _

@[simp] theorem loseSlices_fatal (s : State) (chip : Nat) : (s.loseSlices chip).hub.fatal = s.hub.fatal := by
  unfold State.loseSlices State.loseTensors
  refine (foldl_fatal (fun s b => poisonSector_fatal s _) _ _).trans ?_
  refine (foldl_fatal (fun s e => ?_) _ _).trans (foldl_fatal (fun s e => ?_) _ _) <;> rfl

@[simp] theorem clearRemap_fatal (s : State) (chip : Nat) : (s.clearRemap chip).hub.fatal = s.hub.fatal := by
  unfold State.clearRemap
  generalize List.range 4096 = l
  refine foldl_fatal (fun s l => ?_) _ s
  dsimp only
  split <;> simp

/-- What a fence leaves of a chiplet's work, before the chiplet itself is marked. -/
def State.stripped (s : State) (chip : Nat) : State :=
  (((((s.loseTasks chip).dropFlights chip).loseWork chip).loseLocks chip).loseSlices chip).clearRemap chip

theorem stripped_fatal (s : State) (chip : Nat) : (s.stripped chip).hub.fatal = s.hub.fatal := by
  simp only [State.stripped, clearRemap_fatal, loseSlices_fatal, loseLocks_fatal, loseWork_fatal, dropFlights_fatal,
    loseTasks_fatal]

/-- A chiplet is marked fenced: not live, its members of launches lost, its bits in the two masks. -/
def State.shut (s : State) (chip : Nat) : State :=
  let s := s.setChip chip { s.chip chip with live := false, fifo := [], stlb := [], throttled := none }
  { s with
    launches := s.launches.map fun (e : Nat × Option Launch) => (e.1, e.2.map fun (l : Launch) => l.fenced chip)
    hub := { s.hub with
      livemask := s.hub.livemask &&& ~~~(1#16 <<< chip)
      fencemask := s.hub.fencemask ||| (1#16 <<< chip) } }

theorem fence_eq (s : State) (chip cause : Nat) :
    s.fence chip cause = ((s.stripped chip).shut chip).post evFENCE cause (srcChip chip) 0 chip := by
  unfold State.fence State.stripped
  dsimp only
  generalize ((((((s.loseTasks chip).dropFlights chip).loseWork chip).loseLocks chip).loseSlices chip).clearRemap chip) = u
  rfl

theorem noteWaits_hub (s : State) : s.noteWaits.hub = s.hub := rfl

theorem noteWaits_chip (s : State) (c : Nat) : s.noteWaits.chip c = s.chip c := rfl

end Sys2Proof.Machine
end

section
namespace Sys2Proof.Machine

/-! ### Leases of power (R418) -/

/-- A message is accepted where none came before, or where its number is ahead of the last by less than half the range. -/
theorem leaseStatus_eq_zero_iff (h : Hub) (seq : Nat) : h.leaseStatus seq = 0 ↔
    ∀ last, h.leaseSeq = some last →
      1 ≤ (seq + 2 ^ 32 - last % 2 ^ 32) % 2 ^ 32 ∧ (seq + 2 ^ 32 - last % 2 ^ 32) % 2 ^ 32 < 2 ^ 31 := by
  unfold Hub.leaseStatus
  cases h.leaseSeq with
  | none => simp
  | some last =>
    simp only [Option.some.injEq, forall_eq']
    split
    · omega
    · split <;> omega

/-- LEASE accepts or leaves the lease, logs the message, and replies. -/
theorem lease_next {s u : State} {seq : BitVec 32} {watts : BitVec 16} {dur : BitVec 32} (hb : s.hub.booted = true)
    (hu : (if s.hub.leaseStatus seq.toNat = 0 then s.acceptLease seq.toNat watts.toNat dur.toNat else s) = u) :
    ∃ t : State, exec (.lease seq watts dur) s = .next t ∧ t.mem = u.mem ∧ t.hub.leaseSeq = u.hub.leaseSeq ∧
      t.hub.leaseWatts = u.hub.leaseWatts ∧ t.hub.leaseUntil = u.hub.leaseUntil ∧
      t.lastEvent evLEASE 0 srcHub 0 (seq.toNat * 2 ^ 32 + s.hub.leaseStatus seq.toNat) := by
  have hx : exec (.lease seq watts dur) s = .next (
      let v := u.post evLEASE 0 srcHub 0 (seq.toNat * 2 ^ 32 + s.hub.leaseStatus seq.toNat)
      v.emit (.reply (leBytes 1 (s.hub.leaseStatus seq.toNat) ++ leBytes 2 v.capNow ++ leBytes 4 v.leaseLeft))) := by
    refine congrArg Host.Outcome.next ?_
    simp only [hb, hu, Bool.not_true, Bool.false_eq_true, ↓reduceIte]
  obtain ⟨m, o, hp⟩ := post_eq u evLEASE 0 srcHub 0 (seq.toNat * 2 ^ 32 + s.hub.leaseStatus seq.toNat)
  refine ⟨_, hx, ?_, ?_, ?_, ?_, post_lastEvent u _ _ _ _ _⟩ <;> (dsimp only; rw [hp]; rfl)

theorem leaseLapse_due {s : State} (h0 : s.hub.leaseUntil ≠ 0) (h : s.hub.leaseUntil ≤ s.now) :
    exec .leaseLapse s = .next { s with hub := { s.hub with leaseUntil := 0, leaseWatts := 0 } } := by
  refine congrArg Host.Outcome.next (if_pos ?_)
  simp [State.leased, h0, h]

/-! ### Rails (R109, R419, R466) -/

theorem easeThrottle_throttle (s : State) : s.easeThrottle.hub.throttle =
    if (List.range 16).any s.chipHot then s.hub.throttle else 0 := by
  unfold State.easeThrottle
  split <;> rfl

theorem easeThrottle_eq (s : State) : ∃ n, s.easeThrottle = { s with hub := { s.hub with throttle := n } } := by
  unfold State.easeThrottle
  split
  · exact ⟨s.hub.throttle, rfl⟩
  · exact ⟨0, rfl⟩

/-- RAIL_CHANGE sets one rail, and leaves memory and the others. -/
theorem railChange_next (s : State) (rail : BitVec 2) : ∃ t : State, exec (.railChange rail) s = .next t ∧
    t.mem = s.mem ∧
    tget 0 t.hub.rails rail.toNat =
      s.easeThrottle.railBase rail.toNat - Config.capPoints s.capNow rail.toNat s.freeSeed ∧
    ∀ r, r ≠ rail.toNat → tget 0 t.hub.rails r = tget 0 s.hub.rails r := by
  obtain ⟨n, h⟩ := easeThrottle_eq s
  refine ⟨_, rfl, ?_, ?_, fun r hr => ?_⟩
  · dsimp only
    rw [h]; rfl
  · refine (tget_tput_same _ _ _ _).trans ?_
    rw [h]; rfl
  · refine (tget_tput_other _ _ _ _ _ hr).trans ?_
    rw [h]; rfl

theorem railBase_wanted {s : State} {rail w : Nat} (h : s.easeThrottle.wanted rail = some w) :
    s.easeThrottle.railBase rail = w - if (List.range 16).any s.chipHot then s.hub.throttle else 0 := by
  rw [← easeThrottle_throttle]
  simp only [State.railBase, h]

theorem railBase_unwanted {s : State} {rail : Nat} (h : s.easeThrottle.wanted rail = none) :
    s.easeThrottle.railBase rail = tget 0 s.hub.rails rail := by
  obtain ⟨n, he⟩ := easeThrottle_eq s
  simp only [State.railBase, h]
  rw [he]

theorem lowerRails_rail (h : Hub) {r : Nat} (hr : r < 4) : tget 0 h.lowerRails.rails r = tget 0 h.rails r - 1 := by
  have hx := tget_foldl_tput 0 (fun n => n - 1) (.inl (List.nodup_range (n := 4))) h.rails r
  rwa [if_pos (List.mem_range.2 hr)] at hx

/-! ### The operating-point table (R461, R462) -/

/-- The fields of an entry that is not pinned. -/
theorem optWord_fields (trials kernel phase edp : Nat) {points : List Nat} (hp : ∀ r, r < 4 → points.getD r 0 < 8) :
    let e := (optWord false trials kernel phase points edp).toNat
    optValid e = true ∧ optPin e = false ∧ optTrials e = min trials 8 ∧ optKernel e = kernel % 2 ^ 16 ∧
      optPhase e = phase % 2 ^ 8 ∧ optEdp e = edp % 2 ^ 16 ∧ ∀ r, r < 4 → optPoint e r = points.getD r 0 := by
  have h0 := hp 0 (by decide)
  have h1 := hp 1 (by decide)
  have h2 := hp 2 (by decide)
  have h3 := hp 3 (by decide)
  have he : (optWord false trials kernel phase points edp).toNat = 2 ^ 63 + min trials 8 * 2 ^ 58 +
      kernel % 2 ^ 16 * 2 ^ 36 + phase % 2 ^ 8 * 2 ^ 28 + points.getD 0 0 * 2 ^ 25 + points.getD 1 0 * 2 ^ 22 +
      points.getD 2 0 * 2 ^ 19 + points.getD 3 0 * 2 ^ 16 + edp % 2 ^ 16 := by
    simp only [optWord, Bool.false_eq_true, ↓reduceIte, BitVec.toNat_ofNat]
    omega
  intro e
  have hpoint : ∀ r, r < 4 → optPoint e r = points.getD r 0 := by
    intro r hr
    interval_cases r <;> (simp only [optPoint, bits, e, he]; omega)
  refine ⟨?_, ?_, ?_, ?_, ?_, ?_, hpoint⟩
  all_goals
    simp only [optValid, optPin, optTrials, optKernel, optPhase, optEdp, bit, bits, e, he, beq_iff_eq, beq_eq_false_iff_ne]
    omega

theorem optPoint_lt (e r : Nat) : optPoint e r < 8 := Nat.mod_lt _ (by decide)

section
variable {s : State} {kernel : BitVec 16} {phase : BitVec 8} {edp : BitVec 16}

theorem optTableLearn_unmeasured (h : s.measured kernel.toNat phase = false) :
    exec (.optTableLearn kernel phase edp) s = .next s := by
  refine congrArg Host.Outcome.next (if_pos ?_)
  simp [h]

variable (hk : kernel ≠ 0) (hm : s.measured kernel.toNat phase = true)
include hk hm

theorem optTableLearn_pinned {i : Nat} (hl : s.hub.lookup kernel.toNat phase.toNat = some i)
    (hp : optPin (s.hub.opt i) = true) : exec (.optTableLearn kernel phase edp) s = .next s := by
  refine congrArg Host.Outcome.next ?_
  simp only [hk, hm, hl, hp, decide_false, Bool.not_true, Bool.or_self, Bool.false_eq_true, ↓reduceIte]

theorem optTableLearn_known {i : Nat} (hl : s.hub.lookup kernel.toNat phase.toNat = some i)
    (hp : optPin (s.hub.opt i) = false) : exec (.optTableLearn kernel phase edp) s =
      .next { s with hub := { s.hub with
        optable := tput s.hub.optable i (learnt (s.hub.opt i) s.hub.points edp.toNat)
        optUse := tput s.hub.optUse i s.now } } := by
  refine congrArg Host.Outcome.next ?_
  simp only [hk, hm, hl, hp, decide_false, Bool.not_true, Bool.or_self, Bool.false_eq_true, ↓reduceIte]

theorem optTableLearn_new {i : Nat} (hl : s.hub.lookup kernel.toNat phase.toNat = none)
    (hv : s.hub.victimEntry = some i) : exec (.optTableLearn kernel phase edp) s =
      .next { s with hub := { s.hub with
        optable := tput s.hub.optable i (optWord false 1 kernel.toNat phase.toNat s.hub.points edp.toNat)
        optUse := tput s.hub.optUse i s.now } } := by
  refine congrArg Host.Outcome.next ?_
  simp only [hk, hm, hl, hv, decide_false, Bool.not_true, Bool.or_self, Bool.false_eq_true, ↓reduceIte]

end

theorem opt_tput (h : Hub) (i n : Nat) (w : W64) :
    Hub.opt { h with optable := tput h.optable i w, optUse := tput h.optUse i n } i = w.toNat :=
  congrArg BitVec.toNat (tget_tput_same 0 h.optable i w)

theorem points_getD {h : Hub} (hr : ∀ r, r < 4 → tget 0 h.rails r < 8) :
    ∀ r, r < 4 → h.points.getD r 0 = tget 0 h.rails r ∧ h.points.getD r 0 < 8 := fun r h4 => by
  have he : h.points.getD r 0 = tget 0 h.rails r := getD_range_map _ _ h4
  exact ⟨he, he ▸ hr r h4⟩

/-- An entry learnt keeps its key; its points and its EDP are those of the run with the lower EDP. -/
theorem learnt_fields (o : Nat) {points : List Nat} {edp : Nat} (hp : ∀ r, r < 4 → points.getD r 0 < 8)
    (he : edp < 2 ^ 16) :
    let e := (learnt o points edp).toNat
    optValid e = true ∧ optTrials e = min (optTrials o + 1) 8 ∧ optKernel e = optKernel o ∧ optPhase e = optPhase o ∧
      optEdp e = min edp (optEdp o) ∧
      ∀ r, r < 4 → optPoint e r = if edp < optEdp o then points.getD r 0 else optPoint o r := by
  have hk : optKernel o % 2 ^ 16 = optKernel o := Nat.mod_mod _ _
  have hph : optPhase o % 2 ^ 8 = optPhase o := Nat.mod_mod _ _
  have ho : optEdp o % 2 ^ 16 = optEdp o := Nat.mod_mod _ _
  unfold learnt
  split
  · rename_i h
    obtain ⟨hv, -, ht, hk', hp', he', hpt⟩ := optWord_fields (optTrials o + 1) (optKernel o) (optPhase o) edp hp
    exact ⟨hv, ht, hk'.trans hk, hp'.trans hph, by rw [he']; omega, fun r hr => hpt r hr⟩
  · rename_i h
    have hq : ∀ r, r < 4 → ((List.range 4).map (optPoint o)).getD r 0 < 8 := fun r hr => by
      rw [getD_range_map _ _ hr]; exact optPoint_lt o r
    obtain ⟨hv, -, ht, hk', hp', he', hpt⟩ :=
      optWord_fields (optTrials o + 1) (optKernel o) (optPhase o) (optEdp o) hq
    refine ⟨hv, ht, hk'.trans hk, hp'.trans hph, by rw [he']; omega, fun r hr => ?_⟩
    rw [hpt r hr, getD_range_map _ _ hr]

/-! ### Heat (R443, R444, R466) -/

theorem capFrames_hub (s : State) (chip : Nat) : (s.capFrames chip).hub = s.hub :=
  foldl_leaves State.hub (fun s k => by split <;> rfl) _ s

theorem capFrames_chips (s : State) (chip : Nat) : (s.capFrames chip).chips = s.chips :=
  foldl_leaves State.chips (fun s k => by split <;> rfl) _ s

theorem deviceFatal_fatal (s : State) (cause : Nat) : (s.deviceFatal cause).hub.fatal = true := by
  unfold State.deviceFatal
  split
  · assumption
  · rfl

/-- The event of a fence leaves the marks of its chiplet. -/
theorem shut_marks (u : State) {chip : Nat} (cause : Nat) (hc : chip < 16) :
    let t := (u.shut chip).post evFENCE cause (srcChip chip) 0 chip
    (t.chip chip).live = false ∧ t.hub.fencemask.getLsbD chip = true ∧ t.hub.fatal = u.hub.fatal := by
  obtain ⟨m, o, h⟩ := post_eq (u.shut chip) evFENCE cause (srcChip chip) 0 chip
  rw [h]
  refine ⟨congrArg Chip.live (State.chip_setChip_same u chip _), ?_, rfl⟩
  show (u.hub.fencemask ||| (1#16 <<< chip)).getLsbD chip = true
  simp [hc]

/-- A fence marks its chiplet and leaves FATAL. -/
theorem fence_marks (s : State) {chip : Nat} (cause : Nat) (hc : chip < 16) :
    ((s.fence chip cause).chip chip).live = false ∧ (s.fence chip cause).hub.fencemask.getLsbD chip = true ∧
      (s.fence chip cause).hub.fatal = s.hub.fatal := by
  obtain ⟨hl, hm, hf⟩ := shut_marks (s.stripped chip) cause hc
  rw [fence_eq]
  exact ⟨hl, hm, hf.trans (stripped_fatal s chip)⟩

/-- A chiplet-fatal fault of a live chiplet beside others is device-fatal where the scan of its tags fails, else it is
fenced. -/
theorem chipletFatal_live {s : State} {chip : Nat} (cause : Nat) (b : Bool) (hf : s.hub.fatal = false)
    (hl : (s.chip chip).live = true) (ho : ∃ c, c < 16 ∧ c ≠ chip ∧ (s.chip c).live = true) :
    s.chipletFatal chip cause b =
      if b then (s.capFrames chip).deviceFatal cause else (s.capFrames chip).fence chip cause := by
  obtain ⟨c, hc, hne, hlc⟩ := ho
  have hchip : ∀ n, (s.capFrames chip).chip n = s.chip n := fun n => by rw [State.chip, capFrames_chips]; rfl
  have hfatal : (s.capFrames chip).hub.fatal = false := by rw [capFrames_hub, hf]
  have hother : ((List.range 16).any fun c => c != chip && ((s.capFrames chip).chip c).live) = true :=
    List.any_eq_true.2 ⟨c, List.mem_range.2 hc, by simp [hne, hchip, hlc]⟩
  unfold State.chipletFatal
  dsimp only
  rw [if_neg (by simp [hfatal, hchip, hl]), hother]
  cases b <;> rfl

/-- The outcomes of a step that trips a chiplet. -/
theorem trip_outcomes {s : State} {chip : Nat} {j : Instr} (hc : chip < 16) (hf : s.hub.fatal = false)
    (hl : (s.chip chip).live = true) (ho : ∃ c, c < 16 ∧ c ≠ chip ∧ (s.chip c).live = true)
    (hj : exec j s = .next (s.tripChip chip).noteWaits) :
    (Config.scanFails s.freeSeed = false → ∃ t : State, exec j s = .next t ∧ (t.chip chip).live = false ∧
      t.hub.fencemask.getLsbD chip = true ∧ t.hub.fatal = false) ∧
    (Config.scanFails s.freeSeed = true → ∃ t : State, exec j s = .next t ∧ t.hub.fatal = true) := by
  have hu : (s.draw.capFrames chip).hub.fatal = false := by rw [capFrames_hub]; exact hf
  rw [State.tripChip, chipletFatal_live (s := s.draw) _ _ hf hl ho] at hj
  generalize s.draw.capFrames chip = u at hj hu
  generalize (Config.freeWord s.freeSeed).toNat % 256 = cause at hj
  refine ⟨fun h => ⟨_, hj, ?_⟩, fun h => ⟨_, hj, ?_⟩⟩
  · obtain ⟨h1, h2, h3⟩ := fence_marks u cause hc
    rw [h, if_neg Bool.false_ne_true, noteWaits_chip, noteWaits_hub]
    exact ⟨h1, h2, h3.trans hu⟩
  · rw [h, if_pos rfl, noteWaits_hub]
    exact deviceFatal_fatal u cause

theorem thermalTrip_next {s : State} {chip i : Nat} (hc : chip < 16) (hi : i < 256)
    (h : 115 ≤ (s.core (256 * chip + i)).temp) : exec (.thermalTrip chip) s = .next (s.tripChip chip).noteWaits := by
  have hx : ((List.range 256).any fun i => decide (115 ≤ (s.core (256 * chip + i)).temp)) = true :=
    List.any_eq_true.2 ⟨i, List.mem_range.2 hi, decide_eq_true h⟩
  refine congrArg (fun s => Host.Outcome.next (State.noteWaits s)) (if_pos ?_)
  rw [hx, decide_eq_true hc]; rfl

theorem hbmTrip_next {s : State} {chip : Nat} (hc : chip < 16) (h : 105 ≤ (s.chip chip).stackTemp) :
    exec (.hbmTrip chip) s = .next (s.tripChip chip).noteWaits := by
  refine congrArg (fun s => Host.Outcome.next (State.noteWaits s)) (if_pos ?_)
  rw [decide_eq_true hc, decide_eq_true h]; rfl

theorem thermalThrottle_hot {s : State} {chip : Nat} (hc : chip < 16) (hh : s.chipHot chip = true)
    (hd : ∀ t0, (s.chip chip).throttled = some t0 → t0 + 7200000 ≤ s.now) :
    ∃ t : State, exec (.thermalThrottle chip) s = .next t ∧ t.mem = s.mem ∧ (t.chip chip).throttled = some s.now ∧
      ∀ r, r < 4 → tget 0 t.hub.rails r = tget 0 s.hub.rails r - 1 := by
  refine ⟨{ s.setChip chip { s.chip chip with throttled := some s.now } with hub := s.hub.lowerRails },
    congrArg Host.Outcome.next ?_, rfl, congrArg Chip.throttled (State.chip_setChip_same s chip _),
    fun r hr => lowerRails_rail s.hub hr⟩
  have hc' : ¬16 ≤ chip := by omega
  simp only [hc', hh, Bool.not_true, Bool.false_eq_true, ↓reduceIte]
  refine if_pos ?_
  cases ht : (s.chip chip).throttled with
  | none => rfl
  | some t0 => exact decide_eq_true (hd t0 ht)

theorem thermalThrottle_cool {s : State} {chip : Nat} (hc : chip < 16) (hh : s.chipHot chip = false) :
    ∃ t : State, exec (.thermalThrottle chip) s = .next t ∧ t.mem = s.mem ∧ t.hub = s.hub ∧
      (t.chip chip).throttled = none := by
  refine ⟨s.setChip chip { s.chip chip with throttled := none }, congrArg Host.Outcome.next ?_, rfl, rfl,
    congrArg Chip.throttled (State.chip_setChip_same s chip _)⟩
  simp only [show ¬16 ≤ chip by omega, hh, Bool.not_false, ↓reduceIte]

theorem hbmRefresh_next (s : State) {chip : Nat} (hc : chip < 16) :
    exec (.hbmRefresh chip) s = .next (s.setChip chip
      { s.chip chip with refresh := decide (95 ≤ (s.chip chip).stackTemp) }) :=
  congrArg Host.Outcome.next (if_pos hc)

end Sys2Proof.Machine

namespace Sys2Proof.Laws
open Machine

/-- Settles O55: a message, a rail, an entry and a chiplet are each set from what the state holds; that a fence leaves FATAL is
the frame of everything a fence takes away. -/
theorem powerAndHeat : Obligations.PowerAndHeat := by
  unfold Obligations.PowerAndHeat
  refine ⟨?_, fun s h0 h => leaseLapse_due h0 h, ?_, ?_, ?_, ?_, ?_⟩
  · intro s seq watts dur hb newer
    refine ⟨fun hn => ?_, fun hn => ?_⟩
    · have h0 := (leaseStatus_eq_zero_iff s.hub seq.toNat).2 hn
      obtain ⟨t, ht, hm, hs, hw, hu, he⟩ := lease_next (watts := watts) (dur := dur) hb (if_pos h0)
      rw [h0, Nat.add_zero] at he
      refine ⟨t, ht, hm, hs, fun hd => ?_, fun hd => ?_, he⟩
      · have hd' : dur.toNat ≠ 0 := fun h => hd (BitVec.eq_of_toNat_eq h)
        exact ⟨hw.trans (if_neg hd'), hu.trans (if_neg hd')⟩
      · exact hu.trans (if_pos (congrArg BitVec.toNat hd))
    · have h0 := mt (leaseStatus_eq_zero_iff s.hub seq.toNat).1 hn
      obtain ⟨t, ht, hm, hs, hw, hu, -⟩ := lease_next (watts := watts) (dur := dur) hb (if_neg h0)
      exact ⟨t, ht, hm, hs, hw, hu⟩
  · intro s rail
    obtain ⟨t, ht, hm, hr, ho⟩ := railChange_next s rail
    exact ⟨fun w hw => ⟨t, ht, hm, by rw [hr, railBase_wanted hw], ho⟩,
      fun hw => ⟨t, ht, hm, by rw [hr, railBase_unwanted hw], ho⟩⟩
  · intro s kernel phase edp hk hr
    have hp := points_getD hr
    refine ⟨optTableLearn_unmeasured, fun hm => ⟨fun i hl hv => ?_, fun i hl hn => ?_,
      fun i hl hn => optTableLearn_pinned hk hm hl hn⟩⟩
    · refine ⟨_, optTableLearn_new hk hm hl hv, rfl, ?_⟩
      obtain ⟨h1, h2, h3, h4, h5, h6, h7⟩ := optWord_fields 1 kernel.toNat phase.toNat edp.toNat fun r h => (hp r h).2
      rw [opt_tput]
      exact ⟨h1, h2, h3, h4.trans (Nat.mod_eq_of_lt kernel.isLt), h5.trans (Nat.mod_eq_of_lt phase.isLt),
        h6.trans (Nat.mod_eq_of_lt edp.isLt), fun r h => (h7 r h).trans (hp r h).1⟩
    · refine ⟨_, optTableLearn_known hk hm hl hn, rfl, ?_⟩
      obtain ⟨h1, h2, h3, h4, h5, h6⟩ := learnt_fields (s.hub.opt i) (fun r h => (hp r h).2) edp.isLt
      rw [opt_tput]
      exact ⟨h1, h2, h3, h4, h5, fun r h => by rw [h6 r h, (hp r h).1]⟩
  · exact fun s chip hc => ⟨thermalThrottle_hot hc, thermalThrottle_cool hc⟩
  · intro s chip hc hf hl ho j hj
    refine trip_outcomes hc hf hl ho ?_
    rcases hj with ⟨rfl, i, hi, h⟩ | ⟨rfl, h⟩
    · exact thermalTrip_next hc hi h
    · exact hbmTrip_next hc h
  · exact fun s chip hc => ⟨_, hbmRefresh_next s hc, rfl, congrArg Chip.refresh (State.chip_setChip_same s chip _),
      fun c hne => chip_setChip_other s _ hne⟩

end Sys2Proof.Laws
end

section
namespace Sys2Proof.Machine

/-! ### A cold reset (R453) -/

theorem byte_hostCells (m : Mem) (a : Nat) :
    Mem.byte (hostCells m) a = if 2 ^ 51 ≤ a then Mem.byte m a else 0 := by
  have h := tfind_filter_key (fun k => decide (2 ^ 51 ≤ k)) m a
  unfold Mem.byte tget hostCells
  rw [h]
  simp only [decide_eq_true_eq]
  split <;> rfl

theorem perst_both (s : State) : exec (.perst true true) s = .next s.coldReset := rfl

theorem perst_none (s : State) : exec (.perst false false) s = .next s := rfl

/-! ### A warm reset (R453) -/

/-- What the slices held modified is open in memory; nothing else changes. -/
theorem loseModified_eq (s : State) : ∃ m n, s.loseModified = { s with mem := m, freeSeed := n } := by
  unfold State.loseModified
  generalize (s.l2.filter fun e => e.2).map Prod.fst = l
  induction l generalizing s with
  | nil => exact ⟨s.mem, s.freeSeed, rfl⟩
  | cons x l ih => exact ih _

theorem loseModified_clean {s : State} (h : ∀ e, e ∈ s.l2 → e.2 = false) : s.loseModified = s := by
  have hl : (s.l2.filter fun e => e.2) = [] := List.filter_eq_nil_iff.2 fun e he => by simp [h e he]
  unfold State.loseModified
  rw [hl]
  rfl

/-- What a warm reset leaves of a state: what the hub keeps, memory but for what was modified, time, and poison of memory. -/
structure WarmFrame (s t : State) : Prop where
  mem : (∀ e, e ∈ s.l2 → e.2 = false) → t.mem = s.mem
  now : t.now = s.now
  hub : t.hub = s.hub.warm
  launches : t.launches = []
  sheaves : t.sheaves = []
  locks : t.locks = []
  images : t.images = []
  idle : ∀ p, (t.core p).resident = false
  poison : ∀ k, k < 33 → tfind t.poison k = tfind s.poison k

/-- What a warm reset clears once work is dropped and what was modified is lost. -/
def State.warmed (s : State) : State :=
  { s with
    issue := Issue.idle
    hostSectors := []
    l2 := []
    l2Tags := []
    tensorLines := []
    poison := tdel s.poison slicePoison
    cores := s.cores.map fun (e : Nat × Core) => (e.1, { Core.reset with temp := e.2.temp, hot := e.2.hot })
    chips := s.chips.map fun (e : Nat × Chip) => (e.1, { Chip.reset with stackTemp := e.2.stackTemp })
    hub := s.hub.warm }

theorem warmReset_eq (s : State) : s.warmReset = s.dropWork.loseModified.warmed := rfl

theorem warmed_idle (s : State) (p : Nat) : (s.warmed.core p).resident = false := by
  have h := tfind_map_value (fun c : Core => { Core.reset with temp := c.temp, hot := c.hot }) s.cores p
  have hc : s.warmed.core p = (tfind (s.cores.map fun e => (e.1, { Core.reset with temp := e.2.temp, hot := e.2.hot }))
    p).getD Core.reset := rfl
  rw [hc, h]
  cases tfind s.cores p <;> rfl

theorem warmReset_frame (s : State) : WarmFrame s s.warmReset := by
  obtain ⟨m, n, h⟩ := loseModified_eq s.dropWork
  constructor
  case mem => exact fun hl => by rw [warmReset_eq, loseModified_clean (s := s.dropWork) hl]; rfl
  case idle => exact fun p => warmed_idle _ p
  case poison =>
    intro k hk
    rw [warmReset_eq, h]
    exact tfind_tdel_other _ (by unfold slicePoison; omega)
  all_goals rw [warmReset_eq, h]; rfl

theorem warm_owner {s : State} {port : BitVec 1} {v : W64} (hv : bit v.toNat 0 = true)
    (hl : s.portUp port.toNat = true) (ho : s.ownerNow = port.toNat + 1) :
    exec (.warm ⟨port, v⟩) s = .next (s.checkMbz port.toNat 0x2008 v.toNat (2 ^ 64 - 2)).warmReset := by
  refine congrArg Host.Outcome.next ?_
  simp only [hv, Bool.not_true, Bool.false_eq_true, ↓reduceIte]
  exact byOwner_owner hl ho _ _

theorem warm_other {s : State} {port : BitVec 1} {v : W64} (hv : bit v.toNat 0 = true)
    (hl : s.portUp port.toNat = true) (ho : s.ownerNow ≠ port.toNat + 1) :
    exec (.warm ⟨port, v⟩) s = .next (s.dropWrite port.toNat 0x2008) := by
  refine congrArg Host.Outcome.next ?_
  simp only [hv, Bool.not_true, Bool.false_eq_true, ↓reduceIte]
  exact byOwner_other hl ho _ _

/-! ### Resets of one port, and links (R453, R456) -/

theorem perst_port0_owner {s : State} (h : s.ownerNow = 1) :
    exec (.perst true false) s = .next (s.warmReset.portReset 0) :=
  congrArg Host.Outcome.next (if_pos h)

theorem perst_port1_other {s : State} (h : s.ownerNow ≠ 2) :
    exec (.perst false true) s = .next (s.portReset 1) :=
  congrArg Host.Outcome.next (if_neg h)

theorem setPort_off_same (x : BitVec 2) {n : Nat} : (setPort x n false).getLsbD n = false := by
  simp [setPort]

theorem setPort_off_other (x : BitVec 2) {n m : Nat} (h : m ≠ n) (hm : m < 2) :
    (setPort x n false).getLsbD m = x.getLsbD m := by
  rw [setPort, if_neg Bool.false_ne_true, BitVec.getLsbD_and]
  simp only [BitVec.getLsbD_not, BitVec.getLsbD_shiftLeft, BitVec.getLsbD_one, hm]
  rcases Nat.lt_or_gt_of_ne h with h | h
  · simp [h]
  · simp [show ¬m < n by omega, show ¬m - n = 0 by omega]

theorem setPort_on_same (x : BitVec 2) {n : Nat} (h : n < 2) : (setPort x n true).getLsbD n = true := by
  simp [setPort, h]

theorem linkUp_held {s : State} (port : BitVec 1) (h : s.hub.heldInReset = true) :
    exec (.linkUp port) s = .next s := congrArg Host.Outcome.next (if_pos h)

theorem linkUp_next {s : State} (port : BitVec 1) (h : s.hub.heldInReset = false) :
    ∃ t : State, exec (.linkUp port) s = .next t ∧ t.mem = s.mem ∧ t.hub = { s.hub with
      hostLinks := setPort s.hub.hostLinks port.toNat true
      msixPending := s.hub.msixPending.filter fun e => e.1 != port.toNat + 1 } := by
  refine ⟨_, congrArg Host.Outcome.next (if_neg (by rw [h]; exact Bool.false_ne_true)), ?_, ?_⟩
  · exact foldl_leaves State.mem (fun s (e : Nat × Nat) => State.emit_mem s (.msix port.toNat e.2)) _ _
  · exact foldl_leaves State.hub (fun s (e : Nat × Nat) => State.emit_hub s (.msix port.toNat e.2)) _ _

theorem rowNeighbourLinkDown_next (s : State) (chip : Nat) : exec (.rowNeighbourLinkDown chip) s =
    .next (if chip < 15 ∧ chip ≠ 7 then { s with hub := { s.hub with rowDown := s.hub.rowDown ||| (1#16 <<< chip) } }
      else s) := by
  refine congrArg Host.Outcome.next ?_
  simp only [Bool.and_eq_true, decide_eq_true_eq, bne_iff_ne]

end Sys2Proof.Machine
end

section
namespace Sys2Proof.Machine

/-! ### Fabric ports (R465) -/

theorem portWord_eq (w : W64) : portWord w =
    w &&& (if w.getLsbD 0 = true ∧ (bits w.toNat 2 2 = 1 ∨ bits w.toNat 2 2 = 2) then
      0xFF1F00000000000D else 0xFF1F000000000000) := by
  unfold portWord portDown
  simp only [Bool.and_eq_true, Bool.or_eq_true, beq_iff_eq]
  split <;> rfl

theorem portDown_down (w : W64) : (portDown w).getLsbD 0 = false := by
  simp [portDown]

theorem portDown_portDown (w : W64) : portDown (portDown w) = portDown w := by
  unfold portDown
  rw [BitVec.and_assoc, BitVec.and_self]

theorem loops_zero (h : Hub) : h.loops 0 = false := by simp [Hub.loops]

theorem not_loops_portDown (h : Hub) (w : W64) : h.loops (portDown w) = false := by
  rw [Hub.loops, portDown_down, Bool.false_and]

/-- What a port keeps of its status names the same peer, and it is up where it was with lanes. -/
theorem loops_kept (h : Hub) (w : W64) : h.loops (w &&& 0xFF1F00000000000D) = h.loops w := by
  have hb : bits (w &&& 0xFF1F00000000000D).toNat 56 8 = bits w.toNat 56 8 := by
    rw [BitVec.toNat_and]
    exact bits_and_ones rfl
  rw [Hub.loops, Hub.loops, hb, BitVec.getLsbD_and]
  simp

theorem loops_portWord (h : Hub) (w : W64) :
    h.loops (portWord w) = true ↔ h.loops w = true ∧ (bits w.toNat 2 2 = 1 ∨ bits w.toNat 2 2 = 2) := by
  unfold portWord
  split
  · rename_i hw
    simp only [Bool.and_eq_true, Bool.or_eq_true, beq_iff_eq] at hw
    rw [loops_kept, and_iff_left hw.2]
  · rename_i hw
    simp only [Bool.and_eq_true, Bool.or_eq_true, beq_iff_eq, not_and] at hw
    rw [not_loops_portDown]
    simp only [Bool.false_eq_true, Hub.loops, Bool.and_eq_true, false_iff, not_and]
    exact fun hl => hw hl.1

/-- A port left down for the id it reports, with its event. -/
def State.leaveDown (s : State) (n : Nat) : State :=
  ({ s with hub := { s.hub with
    portst := tput s.hub.portst n (portDown (tget 0 s.hub.portst n)) } } : State).postOpen

/-- A state apart from its ports' registers, its recorder, what it sends and its draws. -/
def State.apartPorts (s : State) : State :=
  { s with
    freeSeed := 0
    outbox := []
    hub := { s.hub with evcount := 0, evring := [], msixPending := [], portst := [], looped := [] } }

/-- An event that the spec leaves open changes the recorder, what its interrupt does, and the draws. -/
theorem postOpen_eq (s : State) : ∃ n r m o, s.postOpen = s.draw.draw.draw.notified n r m o :=
  ⟨_, _, post_eq s.draw.draw.draw _ _ _ _ _⟩

theorem postOpen_apart (s : State) : s.postOpen.apartPorts = s.apartPorts := by
  obtain ⟨n, r, m, o, h⟩ := postOpen_eq s
  rw [h]
  rfl

theorem postOpen_portst (s : State) : s.postOpen.hub.portst = s.hub.portst := by
  obtain ⟨n, r, m, o, h⟩ := postOpen_eq s
  rw [h]
  rfl

theorem leaveDown_apart (s : State) (n : Nat) : (s.leaveDown n).apartPorts = s.apartPorts := postOpen_apart _

theorem leaveDown_portst (s : State) (n : Nat) :
    (s.leaveDown n).hub.portst = tput s.hub.portst n (portDown (tget 0 s.hub.portst n)) := postOpen_portst _

theorem leaveDowns_portst (l : List Nat) (s : State) : (l.foldl State.leaveDown s).hub.portst =
    l.foldl (fun t n => tput t n (portDown (tget 0 t n))) s.hub.portst :=
  (List.foldl_hom (fun s : State => s.hub.portst) fun s n => (leaveDown_portst s n).symm).symm

/-- The ports that are left down: those that report the package's own id, where two have. -/
def State.looping (s : State) : List Nat :=
  if s.hub.loopPorts.length < 2 then [] else
    s.hub.loopPorts.filter fun n => s.hub.loops (tget 0 s.hub.portst n)

theorem settlePorts_portst (s : State) : s.settlePorts.hub.portst =
    s.looping.foldl (fun t n => tput t n (portDown (tget 0 t n))) s.hub.portst := by
  unfold State.settlePorts State.looping
  dsimp only
  split
  · rfl
  · exact leaveDowns_portst _ _

theorem settlePorts_apart (s : State) : s.settlePorts.apartPorts = s.apartPorts := by
  unfold State.settlePorts
  dsimp only
  split
  · rfl
  · exact foldl_leaves State.apartPorts leaveDown_apart _ _

theorem settlePorts_remap (s : State) (l : Nat) : s.settlePorts.remap l = s.remap l :=
  (congrArg (fun s => s.remap l) (settlePorts_apart s) :)

theorem settlePorts_port (s : State) (n : Nat) : tget 0 s.settlePorts.hub.portst n =
    if n ∈ s.looping then portDown (tget 0 s.hub.portst n) else tget 0 s.hub.portst n := by
  rw [settlePorts_portst]
  exact tget_foldl_tput 0 portDown (.inr portDown_portDown) _ n

theorem mem_loopPorts {h : Hub} {n : Nat} (hn : h.loops (tget 0 h.portst n) = true) : n ∈ h.loopPorts := by
  cases hw : tfind h.portst n with
  | none => rw [tget, hw, Option.getD_none, loops_zero] at hn; cases hn
  | some w =>
    rw [tget, hw, Option.getD_some] at hn
    simp only [Hub.loopPorts, List.mem_append, List.mem_filter, List.mem_map, Bool.not_eq_true',
      List.contains_eq_mem, decide_eq_false_iff_not]
    by_cases hl : n ∈ h.looped
    · exact .inl hl
    · exact .inr ⟨⟨(n, w), ⟨mem_of_tfind hw, hn⟩, rfl⟩, hl⟩

/-- Two ports that report the package's own id are both left down. -/
theorem mem_looping {s : State} {n m : Nat} (hne : m ≠ n) (hn : s.hub.loops (tget 0 s.hub.portst n) = true)
    (hm : s.hub.loops (tget 0 s.hub.portst m) = true) : n ∈ s.looping := by
  have hmem := mem_loopPorts hn
  have hlen : ¬s.hub.loopPorts.length < 2 := by
    have hmem' := mem_loopPorts hm
    revert hmem hmem'
    match s.hub.loopPorts with
    | [] => simp
    | [x] => simp only [List.mem_singleton]; rintro rfl rfl; exact absurd rfl hne
    | x :: y :: l => simp
  rw [State.looping, if_neg hlen]
  exact List.mem_filter.2 ⟨hmem, hn⟩

/-- Where no port reports the package's own id, none is left down. -/
theorem looping_none {s : State} (h : ∀ n, s.hub.loops (tget 0 s.hub.portst n) = false) : s.looping = [] := by
  unfold State.looping
  split
  · rfl
  · exact List.filter_eq_nil_iff.2 fun n _ => Bool.eq_false_iff.1 (h n)

/-- A port that has retrained, before the ports are settled. -/
def State.retrained (s : State) (port : Nat) (w : W64) : State :=
  { s with hub := { s.hub with
    looped := s.hub.looped.erase port
    portst := tput s.hub.portst port (portWord w) } }

theorem portRetrain_next {s : State} {port : Nat} (w : W64) (hp : port < 18) :
    exec (.portRetrain port w) s = .next (s.retrained port w).settlePorts :=
  congrArg Host.Outcome.next (if_neg (by omega))

theorem portRetrain_mem (s : State) (port : Nat) (w : W64) : (s.retrained port w).settlePorts.mem = s.mem := by
  have h := congrArg State.mem (settlePorts_apart (s.retrained port w))
  exact h

theorem retrained_same (s : State) (port : Nat) (w : W64) :
    tget 0 (s.retrained port w).hub.portst port = portWord w := tget_tput_same _ _ _ _

theorem retrained_other (s : State) {port n : Nat} (w : W64) (h : n ≠ port) :
    tget 0 (s.retrained port w).hub.portst n = tget 0 s.hub.portst n := tget_tput_other _ _ _ _ _ h

theorem retrained_looping {s : State} {port : Nat} {w : W64} (hs : ∀ e, e ∈ s.hub.portst → s.hub.loops e.2 = false)
    (hw : s.hub.loops w = false) : (s.retrained port w).looping = [] := by
  refine looping_none fun n => ?_
  show s.hub.loops _ = false
  by_cases hn : n = port
  · subst hn
    rw [retrained_same, Bool.eq_false_iff]
    exact fun h => absurd ((loops_portWord s.hub w).1 h).1 (by simp [hw])
  · rw [retrained_other s w hn]
    cases hf : tfind s.hub.portst n with
    | none => rw [tget, hf]; exact loops_zero s.hub
    | some x => rw [tget, hf]; exact hs _ (mem_of_tfind hf)

end Sys2Proof.Machine
end

section
namespace Sys2Proof.Machine

/-! ### Bring-up (R454) -/

/-- The boot leaves READY and FATAL. -/
theorem boot_leaves {h b : Hub} (hb : h.boot = some b) : b.ready = h.ready ∧ b.fatal = h.fatal := by
  unfold Hub.boot at hb
  split at hb
  · cases hb; exact ⟨rfl, rfl⟩
  · obtain ⟨n, -, rfl⟩ := Option.map_eq_some_iff.1 hb
    exact ⟨rfl, rfl⟩

theorem chip_startChip (s : State) (k c : Nat) : (((s.startChip k).chip c).live) = (c == k || (s.chip c).live) := by
  unfold State.startChip
  dsimp only
  by_cases h : c = k
  · subst h
    rw [State.chip_setChip_same]; simp
  · rw [chip_setChip_other s _ h]
    simp [h]

/-- The chiplets started are live. -/
theorem startChips_live {l : List Nat} {c : Nat} (h : c ∈ l) (s : State) :
    ((l.foldl State.startChip s).chip c).live = true := by
  suffices hl : ∀ (l : List Nat) (s : State),
      ((l.foldl State.startChip s).chip c).live = (decide (c ∈ l) || (s.chip c).live) by
    rw [hl, decide_eq_true h, Bool.true_or]
  intro l
  induction l with
  | nil => simp
  | cons k l ih =>
    intro s
    rw [List.foldl_cons, ih, chip_startChip]
    simp [Bool.beq_eq_decide_eq, Bool.or_assoc, Bool.or_left_comm]

theorem startChips_hub (l : List Nat) (s : State) : (l.foldl State.startChip s).hub = s.hub :=
  foldl_leaves State.hub (fun s c => State.setChip_hub s c _) l s

theorem startChips_mem (l : List Nat) (s : State) : (l.foldl State.startChip s).mem = s.mem :=
  foldl_leaves State.mem (fun s c => State.setChip_mem s c _) l s

/-- The entries of a dead chiplet's cores. -/
theorem remap_deadChip (k : Nat) (s : State) (l : Nat) :
    ((List.range 256).foldl (fun s i => s.setRemap (256 * k + i) ⟨false, false, 256 * k + i⟩) s).remap l =
      if l / 256 = k then ⟨false, false, l⟩ else s.remap l := by
  suffices h : ∀ (is : List Nat) (s : State),
      (is.foldl (fun s i => s.setRemap (256 * k + i) ⟨false, false, 256 * k + i⟩) s).remap l =
        if ∃ i ∈ is, l = 256 * k + i then ⟨false, false, l⟩ else s.remap l by
    rw [h]
    refine if_congr ⟨?_, fun hk => ⟨l % 256, List.mem_range.2 (Nat.mod_lt _ (by decide)), by omega⟩⟩ rfl rfl
    rintro ⟨i, hi, rfl⟩
    have := List.mem_range.1 hi
    omega
  intro is
  induction is with
  | nil => simp
  | cons i is ih =>
    intro s
    rw [List.foldl_cons, ih]
    by_cases hl : l = 256 * k + i
    · subst hl
      simp
    · rw [remap_setRemap_other s _ hl]
      simp [hl]

theorem bringRemap_remap (s : State) (live : BitVec 16) {l : Nat} (h : l < 4096) :
    (s.bringRemap live).remap l = if live.getLsbD (l / 256) then s.remap l else ⟨false, false, l⟩ := by
  suffices hk : ∀ (ks : List Nat) (s : State),
      (ks.foldl (fun s c => if live.getLsbD c then s
        else (List.range 256).foldl (fun s i => s.setRemap (256 * c + i) ⟨false, false, 256 * c + i⟩) s) s).remap l =
        if l / 256 ∈ ks ∧ live.getLsbD (l / 256) = false then ⟨false, false, l⟩ else s.remap l by
    have hm : l / 256 ∈ List.range 16 := List.mem_range.2 (by omega)
    refine (hk (List.range 16) s).trans ?_
    cases live.getLsbD (l / 256) <;> simp [hm]
  intro ks
  induction ks with
  | nil => simp
  | cons k ks ih =>
    intro s
    rw [List.foldl_cons, ih]
    by_cases hl : l / 256 = k
    · subst hl
      cases hv : live.getLsbD (l / 256) with
      | true => simp
      | false => simp [remap_deadChip]
    · cases hv : live.getLsbD k with
      | true => simp [hl]
      | false => simp [hl, remap_deadChip]

/-- A state apart from its remap table. -/
def State.apartRemap (s : State) : State := { s with hub := { s.hub with remap := [] } }

theorem setRemap_apart (s : State) (n : Nat) (x : Remap) : (s.setRemap n x).apartRemap = s.apartRemap := rfl

theorem bringRemap_apart (s : State) (live : BitVec 16) : (s.bringRemap live).apartRemap = s.apartRemap := by
  refine foldl_leaves State.apartRemap (fun s c => ?_) _ s
  split
  · rfl
  · exact foldl_leaves State.apartRemap (fun s i => setRemap_apart s (256 * c + i) _) _ s

/-- The hub's rails at point 3. -/
def Hub.railsUp (h : Hub) : Hub :=
  { h with rails := (List.range 4).foldl (fun t r => tput t r 3) h.rails }

theorem railsUp_rail (h : Hub) {r : Nat} (hr : r < 4) : tget 0 h.railsUp.rails r = 3 := by
  have hx := tget_foldl_tput 0 (fun _ => 3) (.inl (List.nodup_range (n := 4))) h.rails r
  rwa [if_pos (List.mem_range.2 hr)] at hx

/-- The live chiplets started under the fields that firmware writes. -/
def State.started (s : State) (b : Hub) (d : BringUpData) (cold : Bool) : State :=
  ((List.range 16).filter fun c => d.livemask.getLsbD c).foldl State.startChip
    { s with hub := b.railsUp.firmware d cold }

theorem bringChips_none {s : State} {b : Hub} {d : BringUpData} {cold : Bool} (h : d.livemask = 0) :
    s.bringChips b d cold =
      { s with hub := { b.railsUp with fatal := true, livemask := 0, fencemask := ~~~0 } } := if_pos h

/-- The state after the remap table is written and the ports are settled. -/
def State.broughtUp (s : State) (b : Hub) (d : BringUpData) (cold : Bool) : State :=
  ((s.started b d cold).bringRemap d.livemask).settlePorts

/-- READY is set. -/
def State.readied (s : State) : State := { s with hub := { s.hub with ready := true } }

theorem bringChips_some {s : State} {b : Hub} {d : BringUpData} {cold : Bool} (h : d.livemask ≠ 0) :
    s.bringChips b d cold = (s.broughtUp b d cold).readied := by
  unfold State.bringChips
  dsimp only
  rw [if_neg h]
  rfl

section
variable (s : State) (b : Hub) (d : BringUpData) (cold : Bool)

/-- What the steps after the start of the chiplets leave: memory, the chiplets, and the hub but for the remap table, the ports
and the recorder. -/
theorem broughtUp_apart :
    (s.broughtUp b d cold).apartPorts.apartRemap = (s.started b d cold).apartPorts.apartRemap := by
  rw [State.broughtUp, settlePorts_apart]
  exact congrArg State.apartPorts (bringRemap_apart (s.started b d cold) d.livemask)

theorem started_remap (l : Nat) : (s.started b d cold).remap l = ⟨true, false, l⟩ := by
  rw [State.remap, State.started, startChips_hub]
  rfl

theorem broughtUp_remap {l : Nat} (hl : l < 4096) :
    (s.broughtUp b d cold).remap l = ⟨d.livemask.getLsbD (l / 256), false, l⟩ := by
  rw [State.broughtUp, settlePorts_remap, bringRemap_remap _ _ hl, started_remap]
  cases d.livemask.getLsbD (l / 256) <;> rfl

end

section
variable {s : State} {d : BringUpData} (hr : s.hub.ready = false) (hf : s.hub.fatal = false)
include hr hf

theorem bringUp_refused (h : (s.hub.flash d).boot = none) : exec (.bringUp d) s =
    .next { s with hub := { s.hub.flash d with hostLinks := 0, heldInReset := true } } := by
  refine congrArg Host.Outcome.next ?_
  simp only [hr, hf, h, Bool.or_self, Bool.false_eq_true, ↓reduceIte]

theorem bringUp_booted {b : Hub} (h : (s.hub.flash d).boot = some b) : exec (.bringUp d) s =
    .next (s.bringChips b d (!(s.hub.flash d).booted)) := by
  refine congrArg Host.Outcome.next ?_
  simp only [hr, hf, h, Bool.or_self, Bool.false_eq_true, ↓reduceIte]

end

theorem fields_of_apart {u v : State} (h : u.apartPorts.apartRemap = v.apartPorts.apartRemap) :
    u.mem = v.mem ∧ u.chips = v.chips ∧ u.hub.fatal = v.hub.fatal ∧ u.hub.livemask = v.hub.livemask ∧
      u.hub.fencemask = v.hub.fencemask ∧ u.hub.rails = v.hub.rails :=
  ⟨(congrArg State.mem h :), (congrArg State.chips h :), (congrArg (fun s => s.hub.fatal) h :),
    (congrArg (fun s => s.hub.livemask) h :), (congrArg (fun s => s.hub.fencemask) h :),
    (congrArg (fun s => s.hub.rails) h :)⟩

/-- A bring-up with live chiplets makes the device ready. -/
theorem bringChips_ready (s : State) {b : Hub} {d : BringUpData} (cold : Bool) (hb : b.fatal = false)
    (hd : d.livemask ≠ 0) :
    let t := s.bringChips b d cold
    t.mem = s.mem ∧ t.hub.ready = true ∧ t.hub.fatal = false ∧ t.hub.livemask = d.livemask ∧
      t.hub.fencemask = ~~~d.livemask ∧
      (∀ c, c < 16 → d.livemask.getLsbD c = true → (t.chip c).live = true) ∧
      (∀ l, l < 4096 → t.remap l = ⟨d.livemask.getLsbD (l / 256), false, l⟩) ∧
      ∀ r, r < 4 → tget 0 t.hub.rails r = 3 := by
  obtain ⟨hm, hc, hf, hl, hfe, hra⟩ := fields_of_apart (broughtUp_apart s b d cold)
  have hhub : (s.started b d cold).hub = b.railsUp.firmware d cold := startChips_hub _ _
  have hmem : (s.started b d cold).mem = s.mem := startChips_mem _ _
  have hremap := fun l => broughtUp_remap s b d cold (l := l)
  have hlive : ∀ c, c < 16 → d.livemask.getLsbD c = true → ((s.started b d cold).chip c).live = true :=
    fun c hc hv => startChips_live (List.mem_filter.2 ⟨List.mem_range.2 hc, hv⟩) _
  rw [hhub] at hf hl hfe hra
  rw [bringChips_some hd]
  generalize s.broughtUp b d cold = u at *
  generalize s.started b d cold = v at *
  refine ⟨hm.trans hmem, rfl, hf.trans hb, hl, hfe, fun c h16 hv => ?_, hremap, fun r hr => ?_⟩
  · exact (congrArg (fun t => (tget Chip.reset t c).live) hc).trans (hlive c h16 hv)
  · exact (congrArg (fun t => tget 0 t r) hra).trans (railsUp_rail b hr)

end Sys2Proof.Machine

namespace Sys2Proof.Laws
open Machine

/-- Settles O56: each reset is what it clears beside what it keeps, and a bring-up leaves the ports and the recorder to the
last, apart from which the hub and the chiplets are read off.  That memory below 2^51 reads 0 after a cold reset is log entry
5, and that a port with LANES 0 or 3 stays down is log entry 112. -/
theorem resetsAndBringUp : Obligations.ResetsAndBringUp := by
  unfold Obligations.ResetsAndBringUp
  refine ⟨?_, ?_, ?_, ?_, ?_, ?_, ?_, rowNeighbourLinkDown_next⟩
  · refine fun s => ⟨s.coldReset, rfl, perst_both s, fun a ha => ?_, fun a ha => ?_, ?_⟩
    · exact (byte_hostCells s.mem a).trans (if_neg (by omega))
    · exact (byte_hostCells s.mem a).trans (if_pos ha)
    · exact ⟨rfl, rfl, rfl, rfl, rfl, rfl, fun _ => rfl, rfl, rfl, rfl, rfl, rfl, rfl, rfl, rfl, rfl⟩
  · intro s port v hv hl
    refine ⟨fun ho => ⟨_, warm_owner hv hl ho, ?_⟩, fun ho => ⟨_, warm_other hv hl ho, ?_⟩⟩
    · have hone : v = 1 → s.checkMbz port.toNat 0x2008 v.toNat (2 ^ 64 - 2) = s := by
        rintro rfl
        exact if_pos (by decide)
      obtain ⟨n, r, hc⟩ := checkMbz_eq s port.toNat 0x2008 v.toNat (2 ^ 64 - 2)
      rw [hc] at hone ⊢
      obtain ⟨hm, hn, hh, hla, hsh, hlo, him, hid, hpo⟩ := warmReset_frame (s.relogged n r)
      refine ⟨hm, hn, ?_⟩
      rw [hh]
      exact ⟨rfl, rfl, rfl, fun h => ⟨congrArg (fun s => s.hub.evcount) (hone h), congrArg (fun s => s.hub.evring) (hone h)⟩,
        rfl, rfl, rfl, rfl, rfl, hla, hsh, hlo, him, hid, hpo⟩
    · obtain ⟨n, r, hd⟩ := dropWrite_eq s port.toNat 0x2008
      rw [hd]
      exact ⟨rfl, rfl, rfl⟩
  · refine fun s => ⟨fun ho => ⟨_, perst_port0_owner ho, ?_⟩, fun ho => ⟨_, perst_port1_other ho, ?_⟩, perst_none s⟩
    · have hw := warmReset_frame s
      refine ⟨congrArg Hub.ready hw.hub, hw.launches, setPort_off_same _⟩
    · refine ⟨rfl, rfl, rfl, rfl, rfl, setPort_off_same _, ?_⟩
      exact setPort_off_other _ (by decide) (by decide)
  · refine fun s port => ⟨fun h => ?_, linkUp_held port⟩
    obtain ⟨t, ht, hm, hh⟩ := linkUp_next port h
    refine ⟨t, ht, hm, ?_, fun e he => ?_⟩
    · rw [hh]
      exact setPort_on_same _ port.isLt
    · rw [hh] at he
      simpa using (List.mem_filter.1 he).2
  · refine fun s d hr hf => ⟨fun hb => ⟨_, bringUp_refused hr hf hb, rfl, rfl, hr, rfl⟩, fun b hb => ?_⟩
    obtain ⟨hbr, hbf⟩ := boot_leaves hb
    refine ⟨fun hd => ⟨_, bringUp_booted hr hf hb, ?_⟩, fun hd => ⟨_, bringUp_booted hr hf hb, ?_⟩⟩
    · rw [bringChips_none hd]
      exact ⟨rfl, rfl, hbr.trans hr⟩
    · exact bringChips_ready s _ (hbf.trans hf) hd
  · intro s port w hp hs hw
    have hl := retrained_looping (port := port) hs hw
    refine ⟨_, portRetrain_next w hp, portRetrain_mem s port w, ?_, fun n hn => ?_⟩
    · rw [settlePorts_port, hl, if_neg List.not_mem_nil, retrained_same, portWord_eq]
    · rw [settlePorts_port, hl, if_neg List.not_mem_nil, retrained_other s w hn]
  · intro s port other w hp hne ho hw hlanes
    have hport : (s.retrained port w).hub.loops (tget 0 (s.retrained port w).hub.portst port) = true := by
      rw [retrained_same]
      exact (loops_portWord s.hub w).2 ⟨hw, hlanes⟩
    have hother : (s.retrained port w).hub.loops (tget 0 (s.retrained port w).hub.portst other) = true := by
      rw [retrained_other s w hne]
      exact ho
    refine ⟨_, portRetrain_next w hp, portRetrain_mem s port w, ?_, ?_⟩
    · rw [settlePorts_port, if_pos (mem_looping hne hport hother)]
      exact portDown_down _
    · rw [settlePorts_port, if_pos (mem_looping hne.symm hother hport)]
      exact portDown_down _

end Sys2Proof.Laws
end

section
namespace Sys2Proof.Machine

/-! ### Reading vector sources (R187, R290, R291) -/

theorem setVqueue_frame (s : State) (r : Nat) (q : VQueue) : ReadFrame s (s.setCur (s.cur.setVqueue r q)) :=
  readFrame_setCur s s.cur.scalars (tput s.cur.vectors r q) s.issue.popped

theorem readVecP_frame {f : VSrc} {s t : State} {x : VBits × BitVec 128} (h : readVecP f s = .ok (x, t)) :
    ReadFrame s t := by
  simp only [readVecP, Act.bind_apply, Act.get_apply] at h
  split at h
  · cases h
  · cases he : (s.cur.vqueue f.reg.toNat).entries with
    | nil => simp [he] at h
    | cons e es =>
      cases e with
      | pending n => simp [he] at h
      | error c w => simp [he] at h
      | ready b m =>
        simp only [he, Act.bind_apply, Act.setCtxA_apply, Act.pure_apply, Except.ok.injEq, Prod.mk.injEq] at h
        obtain ⟨-, rfl⟩ := h
        exact setVqueue_frame ..

theorem readVecOf_frame {f : VSrc} {m : BitVec 128} {s t : State} {x : VBits} (h : readVecOf f m s = .ok (x, t)) :
    ReadFrame s t := by
  simp only [readVecOf, Act.bind_apply] at h
  cases hr : readVecP f s with
  | error e => simp [hr] at h
  | ok r =>
    obtain ⟨⟨b, n⟩, u⟩ := r
    simp only [hr] at h
    split at h
    · cases h
    · cases h; exact readVecP_frame hr

theorem readVec_frame {f : VSrc} {s t : State} {x : VBits} (h : readVec f s = .ok (x, t)) : ReadFrame s t :=
  readVecOf_frame h

/-- A mask is all ones, or the elements of its register that are not zero. -/
theorem readMask_cases {f : Fmt} {k : Option VSrc} {s t : State} {en : List Bool} (h : readMask f k s = .ok (en, t)) :
    (en = List.replicate (16 * f.perRow) true ∧ t = s) ∨
    ∃ m v, readVec m s = .ok (v, t) ∧ en = (elemsOf f.elemWidth v).map (fun x => x != 0) := by
  cases k with
  | none => cases h; exact .inl ⟨rfl, rfl⟩
  | some m =>
    simp only [readMask, Act.bind_apply] at h
    cases hr : readVec m s with
    | error e => simp [hr] at h
    | ok r =>
      obtain ⟨v, u⟩ := r
      simp only [hr, Act.pure_apply, Except.ok.injEq, Prod.mk.injEq] at h
      obtain ⟨rfl, rfl⟩ := h
      exact .inr ⟨m, v, hr, rfl⟩

theorem readMask_frame {f : Fmt} {k : Option VSrc} {s t : State} {en : List Bool} (h : readMask f k s = .ok (en, t)) :
    ReadFrame s t := by
  obtain ⟨-, rfl⟩ | ⟨m, v, hr, -⟩ := readMask_cases h
  · exact ReadFrame.refl _
  · exact readVec_frame hr

theorem ReadFrame.core {s t : State} (h : ReadFrame s t) : t.issue.core = s.issue.core := by rw [h.issue]
theorem ReadFrame.ctx {s t : State} (h : ReadFrame s t) : t.issue.ctx = s.issue.ctx := by rw [h.issue]

theorem ReadFrame.elsewhere_setCur {s t : State} (h : ReadFrame s t) (c : Ctx) : Elsewhere s (t.setCur c) :=
  h.elsewhere.trans (Machine.elsewhere_setCur t c t.issue) h.core h.ctx

/-! ### A syllable that leaves one vector write (R43, R187) -/

/-- A vector write that its destination takes is put. -/
theorem settleVector_takes (s : State) (cl : Cluster) (d : VDst) (e : VEntry) (h : s.cur.vtakes cl d = true) :
    settleVector s cl d e = .ok (s.setCur (s.cur.vput cl d e)) := by
  simp only [Ctx.vtakes, Bool.and_eq_true] at h
  obtain ⟨hb, hr⟩ := h
  have hb' : bindOk (s.cur.vqueue d.reg.toNat).producer cl = true := by
    simp only [Bool.or_eq_true, beq_iff_eq] at hb
    rcases hb with hb | hb <;> simp [bindOk, hb]
  have hn : noRoom d.mode (s.cur.vqueue d.reg.toNat).entries.length vectorDepth = false := by
    rw [noRoom, Bool.and_eq_false_iff, decide_eq_false_iff_not, vectorDepth]
    cases hm : d.mode <;> simp [hm] at hr ⊢
    · omega
    · exact hr.symm.imp_left fun h => by omega
  simp only [settleVector, hb', hn, Bool.not_true, Bool.false_eq_true, ↓reduceIte]
  congr 2
  simp only [Ctx.vput]
  cases hm : d.mode <;> cases hq : (s.cur.vqueue d.reg.toNat).entries <;> simp [VQueue.write, *]

/-- One vector write at issue, with room: it is settled, and the syllable passed. -/
theorem settle_vector {v : State} {cl : Cluster} {d : VDst} {e : VEntry} (hw : v.issue.writes = [.vector cl d e])
    (hwt : v.issue.waits = []) (hr : v.cur.vtakes cl d = true) :
    ∃ t, v.settle [cl] = .ok t ∧ Elsewhere v t ∧ t.cur = (v.cur.vput cl d e).past cl v.now := by
  have hs : settleAll v [.vector cl d e] = .ok (v.setCur (v.cur.vput cl d e)) := by
    simp only [settleAll, settleOne, settleVector_takes v cl d e hr]
  refine ⟨_, settle_past hw hs rfl rfl hwt, (elsewhere_setCur v _ v.issue).trans (elsewhere_setCur _ _ _) rfl rfl, ?_⟩
  refine (State.cur_setCur (v.setCur _) _).trans ?_
  rw [State.cur_setCur]; rfl

/-- A syllable whose body leaves one vector write: it is settled, and the syllable passed. -/
theorem conclude_vector {body : Act Unit} {s u : State} {d : VDst} {z : VBits} {m : BitVec 128}
    (hf : s.freshIssue = true) (hi : u.issue = { s.issue with popped := u.issue.popped }) (hn : u.now = s.now)
    (hb : body s = writeVecP d z m u) (hr : u.cur.vtakes s.issue.cluster d = true) :
    ∃ t, concludeSyllable body s = .next t ∧ Elsewhere u t ∧
      t.cur = (u.cur.vput s.issue.cluster d (.ready z m)).past s.issue.cluster s.now := by
  obtain ⟨ha, hw, hwt, hcl⟩ := fresh_after hf hi
  rw [Act.writeVecP_apply, hw, hcl, List.nil_append] at hb
  obtain ⟨t, ht, he, hc⟩ := settle_vector (cl := s.issue.cluster) (v := { u with issue := { u.issue with
    writes := [.vector s.issue.cluster d (.ready z m)] } }) rfl hwt hr
  refine ⟨t, conclude_settle ha hb ht, (elsewhere_issue u _).trans he rfl rfl, ?_⟩
  rw [hc, ← hn]; rfl

/-- A syllable that has read its sources and writes a vector register with room. -/
theorem conclude_vput {body : Act Unit} {s u : State} {d : VDst} {z : VBits} {m : BitVec 128}
    (hf : s.freshIssue = true) (hu : ReadFrame s u) (hb : body s = writeVecP d z m u)
    (hr : u.cur.vtakes s.issue.cluster d = true) :
    ∃ t, concludeSyllable body s = .next t ∧ Elsewhere s t ∧
      t.cur = (u.cur.vput s.issue.cluster d (.ready z m)).past s.issue.cluster s.now := by
  obtain ⟨t, ht, he, hc⟩ := conclude_vector hf hu.issue hu.elsewhere.now hb hr
  exact ⟨t, ht, hu.elsewhere.trans he hu.core hu.ctx, hc⟩

/-- A syllable that has read its sources, raises flags and writes a vector register with room (R43). -/
theorem conclude_vresult {body : Act Unit} {s u : State} {d : VDst} {z : VBits} {fl : List Flags}
    (hf : s.freshIssue = true) (hu : ReadFrame s u) (hb : body s = (do raiseFlags (orFlags fl); writeVec d z) u)
    (hr : u.cur.vtakes s.issue.cluster d = true) :
    ∃ t, concludeSyllable body s = .next t ∧ Elsewhere s t ∧
      t.cur = (u.cur.vresult s.issue.cluster d z fl).past s.issue.cluster s.now := by
  simp only [raiseFlags, Act.bind_apply, Act.modCtxA_apply, writeVec] at hb
  have hcur := State.cur_setCur u { u.cur with fpstat := u.cur.fpstat ||| orFlags fl }
  obtain ⟨t, ht, he, hc⟩ := conclude_vector (u := u.setCur { u.cur with fpstat := u.cur.fpstat ||| orFlags fl })
    hf hu.issue hu.elsewhere.now hb (by rw [hcur]; exact hr)
  exact ⟨t, ht, (hu.elsewhere_setCur _).trans he hu.core hu.ctx, by rw [hc, hcur]; rfl⟩

end Sys2Proof.Machine
end

section
namespace Sys2Proof.Machine

/-! ### Elements of an entry (R289) -/

theorem Fmt.perRow_mul_elemWidth (f : Fmt) : f.perRow * f.elemWidth = 2048 := by cases f <;> rfl

/-- An entry is 16 rows. -/
theorem Fmt.elems_eq (f : Fmt) : 32768 / f.elemWidth = 16 * f.perRow := by cases f <;> rfl

theorem elemOf_lt (w : Nat) (v : VBits) (n : Nat) : elemOf w v n < 2 ^ w := Nat.mod_lt _ (Nat.two_pow_pos w)

@[simp] theorem elemOf_mod (w : Nat) (v : VBits) (n : Nat) : elemOf w v n % 2 ^ w = elemOf w v n :=
  Nat.mod_eq_of_lt (elemOf_lt w v n)

/-- The element of width `w` numbered `n` of elements packed upward. -/
theorem packed_elem (w : Nat) (es : List Nat) (n : Nat) :
    es.foldr (fun e acc => e % 2 ^ w + 2 ^ w * acc) 0 / 2 ^ (w * n) % 2 ^ w = es.getD n 0 % 2 ^ w := by
  induction es generalizing n with
  | nil => simp
  | cons e es ih =>
    cases n with
    | zero => simp
    | succ n =>
      rw [List.foldr_cons, List.getD_cons_succ, ← ih n, Nat.mul_succ, Nat.add_comm (w * n), Nat.pow_add,
        ← Nat.div_div_eq_div_mul, Nat.add_mul_div_left _ _ (Nat.two_pow_pos w),
        Nat.div_eq_of_lt (Nat.mod_lt e (Nat.two_pow_pos w)), Nat.zero_add]

/-- An entry's elements are those it was made of. -/
theorem elemOf_ofElems {w n : Nat} (es : List Nat) (h : w * (n + 1) ≤ 32768) :
    elemOf w (ofElems w es) n = es.getD n 0 % 2 ^ w := by
  rw [← packed_elem, elemOf, ofElems, BitVec.toNat_ofNat]
  have hd : 2 ^ w ∣ 2 ^ (32768 - w * n) := Nat.pow_dvd_pow 2 (by rw [Nat.mul_succ] at h; omega)
  rw [show (32768 : Nat) = w * n + (32768 - w * n) by rw [Nat.mul_succ] at h; omega, Nat.pow_add,
    Nat.mod_mul_right_div_self, Nat.mod_mod_of_dvd _ hd]

theorem elemsOf_eq (w : Nat) (v : VBits) : elemsOf w v = (List.range (32768 / w)).map (elemOf w v) := rfl

/-- Elements of a list that a function of their number gives. -/
theorem getD_map_range {α : Type} (g : Nat → α) (d : α) {n k : Nat} (h : n < k) :
    ((List.range k).map g).getD n d = g n := by simp [List.getD, h]

theorem readMask_length {f : Fmt} {k : Option VSrc} {s t : State} {en : List Bool}
    (h : readMask f k s = .ok (en, t)) : en.length = 32768 / f.elemWidth := by
  obtain ⟨rfl, -⟩ | ⟨m, v, -, rfl⟩ := readMask_cases h
  · rw [List.length_replicate, Fmt.elems_eq]
  · rw [List.length_map, elemsOf_eq, List.length_map, List.length_range]

theorem mask_eq_map {en : List Bool} {k : Nat} (h : en.length = k) : en = (List.range k).map (enabledAt en) := by
  subst h
  exact List.ext_getElem (by simp) fun n h _ => by simp [enabledAt, List.getD, h]

theorem zip_map_range {α β : Type} (g : Nat → α) (h : Nat → β) (k : Nat) :
    ((List.range k).map g).zip ((List.range k).map h) = (List.range k).map fun n => (g n, h n) := by
  rw [List.zip_map']

theorem zip_mask {α : Type} (g : Nat → α) {en : List Bool} {k : Nat} (h : en.length = k) :
    ((List.range k).map g).zip en = (List.range k).map fun n => (g n, enabledAt en n) := by
  conv_lhs => rw [mask_eq_map h]
  exact zip_map_range ..

/-! ### Flags (R43) -/

theorem Flags.or_zero (f : Flags) : f ||| 0 = f := BitVec.or_zero

theorem foldl_or_eq (f : Flags) (fs : List Flags) : fs.foldl (fun a b => a ||| b) f = f ||| orFlags fs := by
  induction fs generalizing f with
  | nil => exact (Flags.or_zero f).symm
  | cons g fs ih =>
    have h0 : orFlags (g :: fs) = g ||| orFlags fs := (ih (0 ||| g)).trans (by simp)
    rw [List.foldl_cons, ih, h0, BitVec.or_assoc]

@[simp] theorem orFlags_cons (f : Flags) (fs : List Flags) : orFlags (f :: fs) = f ||| orFlags fs := by
  rw [orFlags, List.foldl_cons, foldl_or_eq]; simp

@[simp] theorem orFlags_append (fs gs : List Flags) : orFlags (fs ++ gs) = orFlags fs ||| orFlags gs := by
  rw [orFlags, List.foldl_append, foldl_or_eq]; rfl

/-- Elements that raise nothing add no flag. -/
theorem orFlags_eq_zero {fs : List Flags} (h : ∀ f, f ∈ fs → f = 0) : orFlags fs = 0 := by
  induction fs with
  | nil => rfl
  | cons f fs ih =>
    rw [orFlags_cons, h f List.mem_cons_self, ih fun g hg => h g (List.mem_cons_of_mem f hg)]; rfl

theorem orFlags_flatMap {α : Type} (l : List α) (g : α → List Flags) :
    orFlags (l.flatMap g) = orFlags (l.map fun a => orFlags (g a)) := by
  induction l with
  | nil => rfl
  | cons a l ih => rw [List.flatMap_cons, orFlags_append, ih, List.map_cons, orFlags_cons]

/-! ### Lanes written to a vector register -/

/-- The elements of a vector fit an entry. -/
theorem elem_fits {w n : Nat} (h : n < 32768 / w) : w * (n + 1) ≤ 32768 :=
  (Nat.mul_le_mul_left w h).trans (Nat.mul_div_le 32768 w)

/-- A syllable that has read its sources and writes lanes: D receives their values, FPSTAT their flags. -/
theorem conclude_lanes {body : Act Unit} {s u : State} {f : Fmt} {d : VDst} {rs : Lanes} {fl : List Flags}
    (hf : s.freshIssue = true) (hu : ReadFrame s u) (hb : body s = writeLanes f d rs u)
    (hr : u.cur.vtakes s.issue.cluster d = true) (hfl : orFlags (rs.map Prod.snd) = orFlags fl) :
    ∃ t z, concludeSyllable body s = .next t ∧ Elsewhere s t ∧
      t.cur = (u.cur.vresult s.issue.cluster d z fl).past s.issue.cluster s.now ∧
      ∀ n, n < 32768 / f.elemWidth → elemOf f.elemWidth z n = (rs.map Prod.fst).getD n 0 % 2 ^ f.elemWidth := by
  rw [writeLanes, hfl] at hb
  obtain ⟨t, ht, he, hc⟩ := conclude_vresult hf hu hb hr
  exact ⟨t, _, ht, he, hc, fun n hn => elemOf_ofElems _ (elem_fits hn)⟩

/-- The same where a function of its number gives each element. -/
theorem conclude_laneMap {body : Act Unit} {s u : State} {f : Fmt} {d : VDst} {lane : Nat → Nat × Flags}
    (hf : s.freshIssue = true) (hu : ReadFrame s u)
    (hb : body s = writeLanes f d ((List.range (32768 / f.elemWidth)).map lane) u)
    (hr : u.cur.vtakes s.issue.cluster d = true) :
    ∃ t z, concludeSyllable body s = .next t ∧ Elsewhere s t ∧
      t.cur = (u.cur.vresult s.issue.cluster d z ((List.range (32768 / f.elemWidth)).map fun n => (lane n).2)).past
        s.issue.cluster s.now ∧
      ∀ n, n < 32768 / f.elemWidth → elemOf f.elemWidth z n = (lane n).1 % 2 ^ f.elemWidth := by
  obtain ⟨t, z, ht, he, hc, hz⟩ := conclude_lanes hf hu hb hr
    (fl := (List.range (32768 / f.elemWidth)).map fun n => (lane n).2) (by rw [List.map_map]; rfl)
  refine ⟨t, z, ht, he, hc, fun n hn => ?_⟩
  rw [hz n hn, List.map_map, getD_map_range _ _ hn]
  rfl

/-! ### Element-wise operations under a mask (R290, R296 to R300) -/

/-- Two computations of an element of width `w` that no entry and no flag tells apart. -/
def SameLane (w : Nat) (p q : Nat × Flags) : Prop := p.1 % 2 ^ w = q.1 % 2 ^ w ∧ p.2 = q.2

theorem SameLane.refl (w : Nat) (p : Nat × Flags) : SameLane w p p := ⟨rfl, rfl⟩

/-- A rule's result beside A's element where the mask disables it. -/
theorem lane_of_sameLane {w a : Nat} {b : Bool} {p q : Nat × Flags} (ha : a < 2 ^ w) (h : SameLane w p q) :
    (if b then p else (a, 0)).2 = (if b then q.2 else 0) ∧
      (if b then p else (a, 0)).1 % 2 ^ w = if b then q.1 % 2 ^ w else a := by
  cases b
  · exact ⟨rfl, Nat.mod_eq_of_lt ha⟩
  · exact ⟨h.2, h.1⟩

theorem lanes2_eq {w : Nat} {x y : VBits} {en : List Bool} (g : Nat → Nat → Nat × Flags)
    (hen : en.length = 32768 / w) : lanes2 g (elemsOf w x) (elemsOf w y) en = (List.range (32768 / w)).map fun n =>
      if enabledAt en n then g (elemOf w x n) (elemOf w y n) else (elemOf w x n, 0) := by
  rw [lanes2, elemsOf_eq, elemsOf_eq, zip_map_range, zip_mask _ hen, List.map_map]; rfl

theorem lanes1_eq {w : Nat} {x : VBits} {en : List Bool} (g : Nat → Nat × Flags) (hen : en.length = 32768 / w) :
    lanes1 g (elemsOf w x) en = (List.range (32768 / w)).map fun n =>
      if enabledAt en n then g (elemOf w x n) else (elemOf w x n, 0) := by
  rw [lanes1, elemsOf_eq, zip_mask _ hen, List.map_map]; rfl

/-- An element-wise syllable on A and B computes each enabled element as its rule says. -/
theorem VBinRule.exec_eq {i : Instr} {f : Fmt} {d : VDst} {a b : VSrc} {k : Option VSrc} {g : Nat → Nat → Nat × Flags}
    (h : VBinRule i f d a b k g) : ∃ g', (∀ s, exec i s = concludeSyllable (vecBinary f d a b k g') s) ∧
      ∀ x y, SameLane f.elemWidth (g' x y) (g x y) := by
  have hmod (v : Nat) : SameLane f.elemWidth (v % 2 ^ f.elemWidth, 0) (v, 0) := ⟨Nat.mod_mod _ _, rfl⟩
  cases h with
  | vadd | vsub | vmul | vmin | vmax | viadd | visub | vimul | vimulh =>
    exact ⟨_, fun s => rfl, fun x y => SameLane.refl _ _⟩
  | vand | vor | vxor | vshl | vshr | vsar => exact ⟨_, fun s => rfl, fun x y => hmod _⟩
  | vimin | vimax =>
    refine ⟨_, fun s => rfl, fun x y => ?_⟩
    simp only [intMinMax, Bool.false_eq_true, ↓reduceIte, decide_eq_true_eq]
    exact hmod _

/-- Flipping the sign bit adds it, modulo the width (R298). -/
theorem negBits_eq (f : Fmt) {x : Nat} (hx : x < 2 ^ f.elemWidth) :
    negBits f x = (x + 2 ^ (f.elemWidth - 1)) % 2 ^ f.elemWidth := by
  have hw : 2 ^ f.elemWidth = 2 * 2 ^ (f.elemWidth - 1) := by cases f <;> rfl
  rw [hw] at hx ⊢
  unfold negBits
  generalize 2 ^ (f.elemWidth - 1) = h at hx ⊢
  split
  · rw [Nat.mod_eq_of_lt (by omega)]
  · rw [Nat.mod_eq_sub_mod (by omega), Nat.mod_eq_of_lt (by omega)]; omega

/-- An element-wise syllable on A computes each enabled element as its rule says. -/
theorem VUnRule.exec_eq {i : Instr} {f : Fmt} {d : VDst} {a : VSrc} {k : Option VSrc} {g : Nat → Nat × Flags}
    (h : VUnRule i f d a k g) : ∃ g', (∀ s, exec i s = concludeSyllable (vecUnary f d a k g') s) ∧
      ∀ x, x < 2 ^ f.elemWidth → SameLane f.elemWidth (g' x) (g x) := by
  cases h with
  | vneg =>
    exact ⟨_, fun s => rfl, fun x hx => ⟨by rw [negBits_eq f hx], rfl⟩⟩
  | vabs | vrcp | vrsq | vsqrt | vexp2 | vlog2 | vtanh =>
    exact ⟨_, fun s => rfl, fun x _ => SameLane.refl _ _⟩

end Sys2Proof.Machine
end

section
namespace Sys2Proof.Laws
open Machine

/-- Settles O41: each syllable writes the lanes its rule gives, A's elements where the mask disables them. -/
theorem vectorElementwise : Obligations.VectorElementwise := by
  unfold Obligations.VectorElementwise
  refine ⟨fun i f d a b k g hi s s1 s2 s3 x y en hf hx hy hen hr => ?_,
    fun i f d a k g hi s s1 s2 x en hf hx hen hr => ?_⟩
  · obtain ⟨g', hexec, hg⟩ := hi.exec_eq
    have hb : vecBinary f d a b k g' s = writeLanes f d ((List.range (32768 / f.elemWidth)).map fun n =>
        if enabledAt en n then g' (elemOf f.elemWidth x n) (elemOf f.elemWidth y n)
        else (elemOf f.elemWidth x n, 0)) s3 := by
      simp only [vecBinary, Act.bind_apply, hx, hy, hen, lanes2_eq g' (readMask_length hen)]
    obtain ⟨t, z, ht, he, hc, hz⟩ := conclude_laneMap hf
      (((readVec_frame hx).trans (readVec_frame hy)).trans (readMask_frame hen)) hb hr
    refine ⟨t, z, by rw [hexec, ht], he, ?_, fun n hn => ?_⟩
    · simpa only [(lane_of_sameLane (elemOf_lt ..) (hg _ _)).1] using hc
    · rw [hz n hn, (lane_of_sameLane (elemOf_lt ..) (hg _ _)).2]
  · obtain ⟨g', hexec, hg⟩ := hi.exec_eq
    have hb : vecUnary f d a k g' s = writeLanes f d ((List.range (32768 / f.elemWidth)).map fun n =>
        if enabledAt en n then g' (elemOf f.elemWidth x n) else (elemOf f.elemWidth x n, 0)) s2 := by
      simp only [vecUnary, Act.bind_apply, hx, hen, lanes1_eq g' (readMask_length hen)]
    obtain ⟨t, z, ht, he, hc, hz⟩ := conclude_laneMap hf ((readVec_frame hx).trans (readMask_frame hen)) hb hr
    refine ⟨t, z, by rw [hexec, ht], he, ?_, fun n hn => ?_⟩
    · simpa only [(lane_of_sameLane (elemOf_lt ..) (hg _ (elemOf_lt ..))).1] using hc
    · rw [hz n hn, (lane_of_sameLane (elemOf_lt ..) (hg _ (elemOf_lt ..))).2]

end Sys2Proof.Laws
end

section
namespace Sys2Proof.Machine

/-! ### Compare and select (R301, R302) -/

theorem vecFma_eq {f : Fmt} {r : Rnd} {d : VDst} {a b c : VSrc} {s s1 s2 s3 : State} {x y z : VBits} (negate : Bool)
    (hx : readVec a s = .ok (x, s1)) (hy : readVec b s1 = .ok (y, s2)) (hz : readVec c s2 = .ok (z, s3)) :
    vecFma f r d a b c negate s = writeLanes f d ((List.range (32768 / f.elemWidth)).map fun n =>
      f.params.fma r (f.num (elemOf f.elemWidth x n)) (f.num (elemOf f.elemWidth y n))
        (if negate then (f.num (elemOf f.elemWidth z n)).neg else f.num (elemOf f.elemWidth z n))) s3 := by
  simp only [vecFma, Act.bind_apply, hx, hy, hz, elemsOf_eq, List.map_map, zip_map_range]
  rfl

/-- VCMP's element where the mask enables it, and zero where it does not. -/
theorem compareLane_eq (cc : Cc) (f : Fmt) (x y : Nat) (b : Bool) :
    (if b then compareElem cc f x y else (0, 0)).1 % 2 ^ f.elemWidth = (if b && (if f.isInt then
        Cc.intHolds cc (signedOf f.elemWidth x) (signedOf f.elemWidth y) x y
      else Cc.floatHolds cc (f.num x) (f.num y)) then 2 ^ f.elemWidth - 1 else 0) ∧
    (if b then compareElem cc f x y else (0, 0)).2 =
      (if b && !f.isInt && ((f.num x).isSnan || (f.num y).isSnan) then flagNV else 0) := by
  have hlt : (2 ^ f.elemWidth - 1) % 2 ^ f.elemWidth = 2 ^ f.elemWidth - 1 :=
    Nat.mod_eq_of_lt (Nat.sub_lt (Nat.two_pow_pos _) Nat.one_pos)
  cases b with
  | false => exact ⟨Nat.zero_mod _, rfl⟩
  | true =>
    cases hi : f.isInt <;>
      simp only [compareElem, hi, ↓reduceIte, Bool.true_and, Bool.not_true, Bool.not_false, Bool.false_and,
        Bool.false_eq_true, and_true] <;>
      split <;> simp only [hlt, Nat.zero_mod]

theorem execVcmp_lanes {cc : Cc} {f : Fmt} {d : VDst} {a b : VSrc} {k : Option VSrc} {s s1 s2 s3 : State} {x y : VBits}
    {en : List Bool} (hf : s.freshIssue = true) (hx : readVec a s = .ok (x, s1)) (hy : readVec b s1 = .ok (y, s2))
    (hen : readMask f k s2 = .ok (en, s3)) (hr : s3.cur.vtakes s.issue.cluster d = true) :
    ∃ t z, execVcmp cc f d a b k s = .next t ∧ Elsewhere s t ∧
      t.cur = (s3.cur.vresult s.issue.cluster d z ((List.range (32768 / f.elemWidth)).map fun n =>
        (if enabledAt en n then compareElem cc f (elemOf f.elemWidth x n) (elemOf f.elemWidth y n) else (0, 0)).2)).past
        s.issue.cluster s.now ∧
      ∀ n, n < 32768 / f.elemWidth → elemOf f.elemWidth z n = (if enabledAt en n then
        compareElem cc f (elemOf f.elemWidth x n) (elemOf f.elemWidth y n) else (0, 0)).1 % 2 ^ f.elemWidth :=
  conclude_laneMap hf (((readVec_frame hx).trans (readVec_frame hy)).trans (readMask_frame hen))
    (by simp only [Act.bind_apply, hx, hy, hen, elemsOf_eq, zip_map_range, zip_mask _ (readMask_length hen),
          List.map_map]
        rfl) hr

/-- The bits of a list of sectors. -/
theorem getLsbD_markBits (l : List Nat) (e : Nat) : (markBits l).getLsbD e = true ↔ e < 128 ∧ e ∈ l := by
  suffices h : ∀ (b : BitVec 128), (l.foldl (fun b x => b ||| (1#128 <<< x)) b).getLsbD e = true ↔
      b.getLsbD e = true ∨ (e < 128 ∧ e ∈ l) by
    simpa [markBits] using h 0
  induction l with
  | nil => simp
  | cons x l ih =>
    intro b
    have hx : (1#128 <<< x).getLsbD e = true ↔ e < 128 ∧ e = x := by
      rw [BitVec.getLsbD_shiftLeft, BitVec.getLsbD_one]
      simp only [Bool.and_eq_true, Bool.not_eq_true', decide_eq_true_eq, decide_eq_false_iff_not]
      omega
    rw [List.foldl_cons, ih, BitVec.getLsbD_or, Bool.or_eq_true, hx, List.mem_cons, or_assoc, ← and_or_left]

/-- The marks VSEL gives: those of A's sectors that gave an element, and of B's (R291, R302). -/
theorem selectMarks_iff {w : Nat} {x y : BitVec 128} {z : VBits} {e : Nat} (he : e < 128) :
    BitVec.getLsbD (if (x = 0 && y = 0 : Bool) then 0 else markBits ((elemsOf w z).zipIdx.filterMap fun c =>
      if (if c.1 != 0 then x else y).getLsbD (sectorOfElem w c.2) then some (sectorOfElem w c.2) else none)) e = true ↔
      ∃ n, n < 32768 / w ∧ w * n / 256 = e ∧ (if elemOf w z n ≠ 0 then x else y).getLsbD e = true := by
  split
  · rename_i h
    simp only [Bool.and_eq_true, decide_eq_true_eq] at h
    obtain ⟨rfl, rfl⟩ := h
    simp
  · rw [getLsbD_markBits, and_iff_right he, List.mem_filterMap]
    simp only [Prod.exists, List.mem_zipIdx_iff_getElem?, elemsOf_eq, List.getElem?_map, Option.map_eq_some_iff,
      List.getElem?_eq_some_iff, List.getElem_range, List.length_range, Option.ite_none_right_eq_some,
      Option.some.injEq, bne_iff_ne]
    constructor
    · rintro ⟨v, n, ⟨m, ⟨hm, rfl⟩, rfl⟩, h, rfl⟩
      exact ⟨n, hm, rfl, h⟩
    · rintro ⟨n, hn, rfl, h⟩
      exact ⟨_, n, ⟨n, ⟨hn, rfl⟩, rfl⟩, h, rfl⟩

theorem execVsel_put {f : Fmt} {d : VDst} {a b c : VSrc} {s s1 s2 s3 : State} {x y z : VBits} {mx my : BitVec 128}
    (hf : s.freshIssue = true) (hx : readVecP a s = .ok ((x, mx), s1)) (hy : readVecP b s1 = .ok ((y, my), s2))
    (hz : readVec c s2 = .ok (z, s3)) (hr : s3.cur.vtakes s.issue.cluster d = true) :
    ∃ t, execVsel f d a b c s = .next t ∧ Elsewhere s t ∧
      t.cur = (s3.cur.vput s.issue.cluster d (.ready
        (ofElems f.elemWidth ((List.range (32768 / f.elemWidth)).map fun n =>
          if elemOf f.elemWidth z n != 0 then elemOf f.elemWidth x n else elemOf f.elemWidth y n))
        (if (mx = 0 && my = 0 : Bool) then 0 else markBits ((elemsOf f.elemWidth z).zipIdx.filterMap fun c =>
          if (if c.1 != 0 then mx else my).getLsbD (sectorOfElem f.elemWidth c.2) then
            some (sectorOfElem f.elemWidth c.2) else none)))).past s.issue.cluster s.now :=
  conclude_vput hf (((readVecP_frame hx).trans (readVecP_frame hy)).trans (readVec_frame hz))
    (by simp only [Act.bind_apply, hx, hy, hz]
        simp only [elemsOf_eq, zip_map_range, List.map_map]
        rfl) hr

end Sys2Proof.Machine
end

section
namespace Sys2Proof.Laws
open Machine

/-- Settles O42: the lanes of VFMA, VFMS and VCMP are functions of the elements' numbers, and VSEL moves elements with
the marks of the sectors they come from. -/
theorem vectorFmaCompareSelect : Obligations.VectorFmaCompareSelect := by
  unfold Obligations.VectorFmaCompareSelect
  intro f d a b s s1 s2 x y hf
  refine ⟨fun r c s3 z hx hy hz hr => ?_, fun cc k s3 en hx hy hen hr => ?_, fun c s3 z mx my hx hy hz hr => ?_⟩
  · have hu := ((readVec_frame hx).trans (readVec_frame hy)).trans (readVec_frame hz)
    exact ⟨conclude_laneMap hf hu (vecFma_eq false hx hy hz) hr, conclude_laneMap hf hu (vecFma_eq true hx hy hz) hr⟩
  · obtain ⟨t, u, ht, he, hc, hu⟩ := execVcmp_lanes (cc := cc) hf hx hy hen hr
    refine ⟨t, u, ht, he, ?_, fun n hn => ?_⟩
    · simpa only [(compareLane_eq ..).2] using hc
    · rw [hu n hn, (compareLane_eq ..).1]
  · obtain ⟨t, ht, he, hc⟩ := execVsel_put (f := f) hf hx hy hz hr
    refine ⟨t, _, _, ht, he, hc, fun e he => selectMarks_iff he, fun n hn => ?_⟩
    rw [elemOf_ofElems _ (elem_fits hn), getD_map_range _ _ hn]
    simp only [bne_iff_ne]
    split <;> exact elemOf_mod ..

end Sys2Proof.Laws
end

section
namespace Sys2Proof.Machine

/-! ### Results row by row (R289) -/

/-- Element j of row i of rows that are equally long. -/
theorem getD_flatMap_rows {α : Type} {k c i j : Nat} (row : Nat → List α) (d : α) (hlen : ∀ i, (row i).length = c)
    (hi : i < k) (hj : j < c) : ((List.range k).flatMap row).getD (c * i + j) d = (row i).getD j d := by
  induction k generalizing row i with
  | zero => cases hi
  | succ k ih =>
    rw [List.range_succ_eq_map, List.flatMap_cons, List.flatMap_map]
    cases i with
    | zero => simp [List.getD, List.getElem?_append_left, hlen, hj]
    | succ i =>
      rw [← ih (fun n => row (n + 1)) (fun n => hlen _) (by omega), List.getD, List.getElem?_append_right (by
        rw [hlen, Nat.mul_succ]; omega), hlen, show c * (i + 1) + j - c = c * i + j by rw [Nat.mul_succ]; omega]
      rfl

theorem row_elem_lt {c i j : Nat} (hi : i < 16) (hj : j < c) : c * i + j < 16 * c := by
  calc c * i + j < c * (i + 1) := by rw [Nat.mul_succ]; omega
    _ ≤ 16 * c := by rw [Nat.mul_comm 16]; exact Nat.mul_le_mul_left c hi

/-- An entry's rows are those it was made of. -/
theorem elemOf_ofRows {w c i j : Nat} {row : Nat → List Nat} (hw : w * c = 2048) (hlen : ∀ i, (row i).length = c)
    (hi : i < 16) (hj : j < c) :
    elemOf w (ofElems w ((List.range 16).flatMap row)) (c * i + j) = (row i).getD j 0 % 2 ^ w := by
  rw [elemOf_ofElems, getD_flatMap_rows row 0 hlen hi hj]
  calc w * (c * i + j + 1) ≤ w * (16 * c) := Nat.mul_le_mul_left w (row_elem_lt hi hj)
    _ = 32768 := by rw [Nat.mul_left_comm, hw]

/-- A list of elements by its rows. -/
theorem rowsOf_map_range (c : Nat) (h : Nat → Nat) : rowsOf c ((List.range (16 * c)).map h) =
    (List.range 16).map fun i => (List.range c).map fun e => h (c * i + e) := by
  refine List.map_congr_left fun i hi => List.ext_getElem ?_ fun n _ _ => by simp
  have hi : c * i + c ≤ 16 * c := by
    rw [← Nat.mul_succ, Nat.mul_comm 16]; exact Nat.mul_le_mul_left c (List.mem_range.1 hi)
  simp only [List.length_take, List.length_drop, List.length_map, List.length_range]
  omega

section
variable {body : Act Unit} {s u : State} {d : VDst} {fl : List Flags} {row : Nat → List Nat}

/-- A syllable that has read its sources, raises flags and writes rows of elements. -/
theorem conclude_rows {w c : Nat} (hw : w * c = 2048) (hlen : ∀ i, (row i).length = c) (hf : s.freshIssue = true)
    (hu : ReadFrame s u)
    (hb : body s = (do raiseFlags (orFlags fl); writeVec d (ofElems w ((List.range 16).flatMap row))) u)
    (hr : u.cur.vtakes s.issue.cluster d = true) :
    ∃ t z, concludeSyllable body s = .next t ∧ Elsewhere s t ∧
      t.cur = (u.cur.vresult s.issue.cluster d z fl).past s.issue.cluster s.now ∧
      ∀ i j, i < 16 → j < c → elemOf w z (c * i + j) = (row i).getD j 0 % 2 ^ w := by
  obtain ⟨t, ht, he, hc⟩ := conclude_vresult hf hu hb hr
  exact ⟨t, _, ht, he, hc, fun i j => elemOf_ofRows hw hlen⟩

/-- The same without flags. -/
theorem conclude_rowsPut {w c : Nat} (hw : w * c = 2048) (hlen : ∀ i, (row i).length = c) (hf : s.freshIssue = true)
    (hu : ReadFrame s u) (hb : body s = writeVec d (ofElems w ((List.range 16).flatMap row)) u)
    (hr : u.cur.vtakes s.issue.cluster d = true) :
    ∃ t z, concludeSyllable body s = .next t ∧ Elsewhere s t ∧
      t.cur = (u.cur.vput s.issue.cluster d (.ready z 0)).past s.issue.cluster s.now ∧
      ∀ i j, i < 16 → j < c → elemOf w z (c * i + j) = (row i).getD j 0 % 2 ^ w := by
  obtain ⟨t, ht, he, hc⟩ := conclude_vput hf hu hb hr
  exact ⟨t, _, ht, he, hc, fun i j => elemOf_ofRows hw hlen⟩

/-- A syllable that has read its sources and writes rows of lanes. -/
theorem conclude_rowLanes {f : Fmt} {rs : Lanes} (hlen : ∀ i, (row i).length = f.perRow) (hf : s.freshIssue = true)
    (hu : ReadFrame s u) (hb : body s = writeLanes f d rs u) (hr : u.cur.vtakes s.issue.cluster d = true)
    (hfl : orFlags (rs.map Prod.snd) = orFlags fl) (hrow : rs.map Prod.fst = (List.range 16).flatMap row) :
    ∃ t z, concludeSyllable body s = .next t ∧ Elsewhere s t ∧
      t.cur = (u.cur.vresult s.issue.cluster d z fl).past s.issue.cluster s.now ∧
      ∀ i j, i < 16 → j < f.perRow → elemOf f.elemWidth z (f.perRow * i + j) = (row i).getD j 0 % 2 ^ f.elemWidth := by
  rw [writeLanes, hfl, hrow] at hb
  exact conclude_rows (by rw [Nat.mul_comm, Fmt.perRow_mul_elemWidth f]) hlen hf hu hb hr

end

/-- A syllable that has read its sources and writes the lanes a function of their numbers gives. -/
theorem conclude_rowMap {body : Act Unit} {s u : State} {f : Fmt} {d : VDst} {lane : Nat → Nat × Flags}
    (hf : s.freshIssue = true) (hu : ReadFrame s u)
    (hb : body s = writeLanes f d ((List.range (16 * f.perRow)).map lane) u)
    (hr : u.cur.vtakes s.issue.cluster d = true) :
    ∃ t z, concludeSyllable body s = .next t ∧ Elsewhere s t ∧
      t.cur = (u.cur.vresult s.issue.cluster d z ((List.range (16 * f.perRow)).map fun n => (lane n).2)).past
        s.issue.cluster s.now ∧
      ∀ n, n < 16 * f.perRow → elemOf f.elemWidth z n = (lane n).1 % 2 ^ f.elemWidth := by
  rw [← Fmt.elems_eq f] at hb ⊢
  exact conclude_laneMap hf hu hb hr

/-! ### Blocks (R304) -/

theorem length_of_mapM_eq_some {α β : Type} {g : α → Option β} {xs : List α} {ys : List β}
    (h : xs.mapM g = some ys) : ys.length = xs.length := by
  induction xs generalizing ys with
  | nil => cases h; rfl
  | cons x xs ih =>
    simp only [List.mapM_cons, Option.bind_eq_bind, Option.pure_def, Option.bind_eq_some_iff, Option.some.injEq] at h
    obtain ⟨y, -, zs, hzs, rfl⟩ := h
    rw [List.length_cons, List.length_cons, ih hzs]

theorem toBlock_length (xs : List Num) (w : Nat) (r : Rnd) : (toBlock xs w r).2.1.length = xs.length := by
  unfold toBlock
  split
  · rw [List.length_map]
  · rename_i ds h
    simp only [List.length_map, length_of_mapM_eq_some h]

theorem rowBlocks_mantissas (fd fs : Fmt) (r : Rnd) (part i : Nat) (v : VBits) :
    ((rowBlocks fd fs r part i v).flatMap fun b => b.2.1).length = 64 := by
  rw [rowBlocks, List.flatMap_map, List.length_flatMap]
  simp only [toBlock_length, List.length_map, List.length_range]
  rfl

theorem length_flatMap_const {α β : Type} (l : List α) {g : α → List β} {n : Nat} (h : ∀ a, (g a).length = n) :
    (l.flatMap g).length = l.length * n := by
  rw [List.length_flatMap, List.map_congr_left fun a _ => h a, List.map_const', List.sum_replicate, smul_eq_mul]

/-- A row VTOBI writes fills its 256 bytes: 64 mantissas, two scale codes and zeros. -/
theorem blockRow_length (fd fs : Fmt) (r : Rnd) (part i : Nat) (v : VBits) :
    (blockRow fd.blockWidth (rowBlocks fd fs r part i v)).length = 256 := by
  have h2 : (rowBlocks fd fs r part i v).length = 2 := by rw [rowBlocks, List.length_map, List.length_range]
  have hn (m : Int) : (if fd.blockWidth = 8 then [wrapInt 8 m] else [wrapInt 16 m % 256, wrapInt 16 m / 256]).length =
    if fd.blockWidth = 8 then 1 else 2 := by split <;> rfl
  have hms := length_flatMap_const ((rowBlocks fd fs r part i v).flatMap fun b => b.2.1) hn
  rw [rowBlocks_mantissas] at hms
  simp only [blockRow, List.length_append, List.length_replicate, List.length_map, h2, hms]
  split <;> rfl

theorem Fmt.perRow_pos (f : Fmt) : 0 < f.perRow := by cases f <;> decide

/-! ### Reductions and scans (R306, R307) -/

/-- An element of A where the mask enables it, and an identity where it does not (R306). -/
def maskedElem (w ident : Nat) (x : VBits) (en : List Bool) (n : Nat) : Nat :=
  if enabledAt en n then elemOf w x n else ident

theorem maskWith_eq (f : Fmt) {ident : Nat} {x : VBits} {en : List Bool} (hen : en.length = 32768 / f.elemWidth) :
    maskWith ident (elemsOf f.elemWidth x) en =
      (List.range (16 * f.perRow)).map (maskedElem f.elemWidth ident x en) := by
  rw [maskWith, elemsOf_eq, zip_mask _ hen, List.map_map, Fmt.elems_eq]; rfl

section
variable (g : Nat → Nat → Nat × Flags) (c : Nat) (h : Nat → Nat)

theorem reduceRows_values (hc : 0 < c) : (reduceRows g c ((List.range (16 * c)).map h)).map Prod.fst =
    (List.range 16).flatMap fun i =>
      List.replicate c (treeFold g (ceilLog2 c) ((List.range c).map fun e => h (c * i + e))).1 := by
  obtain ⟨c, rfl⟩ := Nat.exists_eq_succ_of_ne_zero hc.ne'
  rw [reduceRows, rowsOf_map_range, List.flatMap_map, List.map_flatMap]
  simp only [List.map_cons, List.map_replicate, Nat.succ_eq_add_one, Nat.add_sub_cancel, List.replicate_succ]

theorem reduceRows_flags : orFlags ((reduceRows g c ((List.range (16 * c)).map h)).map Prod.snd) =
    orFlags ((List.range 16).map fun i =>
      (treeFold g (ceilLog2 c) ((List.range c).map fun e => h (c * i + e))).2) := by
  rw [reduceRows, rowsOf_map_range, List.flatMap_map, List.map_flatMap, orFlags_flatMap]
  simp only [List.map_cons, List.map_replicate, orFlags_cons,
    orFlags_eq_zero fun _ => List.eq_of_mem_replicate, Flags.or_zero]

theorem reduceColumns_eq : reduceColumns g c ((List.range (16 * c)).map h) =
    (List.range c).map (fun j => treeFold g 4 ((List.range 16).map fun e => h (c * e + j))) ++
      (List.range 15).flatMap fun _ => (List.range c).map fun j =>
        ((treeFold g 4 ((List.range 16).map fun e => h (c * e + j))).1, 0) := by
  have hcol : ((List.range c).map fun j => treeFold g 4 ((rowsOf c ((List.range (16 * c)).map h)).map
      fun row => row.getD j 0)) =
        (List.range c).map fun j => treeFold g 4 ((List.range 16).map fun e => h (c * e + j)) := by
    refine List.map_congr_left fun j hj => ?_
    rw [rowsOf_map_range, List.map_map]
    simp only [Function.comp_def, getD_map_range _ _ (List.mem_range.1 hj)]
  simp only [reduceColumns, hcol, List.map_map]
  rfl

theorem reduceColumns_values : (reduceColumns g c ((List.range (16 * c)).map h)).map Prod.fst =
    (List.range 16).flatMap fun _ => (List.range c).map fun j =>
      (treeFold g 4 ((List.range 16).map fun e => h (c * e + j))).1 := by
  rw [reduceColumns_eq, List.map_append, List.map_flatMap, List.range_succ_eq_map (n := 15), List.flatMap_cons,
    List.flatMap_map]
  simp only [List.map_map, Function.comp_def]

theorem reduceColumns_flags : orFlags ((reduceColumns g c ((List.range (16 * c)).map h)).map Prod.snd) =
    orFlags ((List.range c).map fun j => (treeFold g 4 ((List.range 16).map fun e => h (c * e + j))).2) := by
  have h0 (f : Flags) (hf : f ∈ (List.range 15).flatMap fun _ => List.map Prod.snd ((List.range c).map fun j =>
      ((treeFold g 4 ((List.range 16).map fun e => h (c * e + j))).1, (0 : Flags)))) : f = 0 := by
    simp only [List.map_map, List.mem_flatMap, List.mem_map] at hf
    obtain ⟨-, -, -, -, rfl⟩ := hf
    rfl
  rw [reduceColumns_eq, List.map_append, List.map_flatMap, orFlags_append, orFlags_eq_zero h0, Flags.or_zero,
    List.map_map]
  rfl

/-- The running value before element n: what the elements below it make (R307). -/
def runningFold (z : Nat) (n : Nat) : Nat := (List.range n).foldl (fun acc e => (g acc (h e)).1) z

theorem runningFold_succ (z n : Nat) : runningFold g h z (n + 1) = (g (runningFold g h z n) (h n)).1 := by
  rw [runningFold, List.range_succ, List.foldl_append]; rfl

theorem scanRow_eq (z : Nat) : scanRow g z ((List.range c).map h) =
    (List.range c).map fun j => g (runningFold g h z j) (h j) := by
  induction c generalizing z h with
  | zero => rfl
  | succ c ih =>
    rw [List.range_succ_eq_map, List.map_cons, List.map_map, scanRow]
    rw [show ((h ∘ Nat.succ : Nat → Nat)) = fun n => h (n + 1) from rfl, ih, List.map_cons, List.map_map]
    congr 1
    refine List.map_congr_left fun j _ => ?_
    simp only [Function.comp_apply, runningFold, Nat.succ_eq_add_one, List.range_succ_eq_map, List.foldl_cons,
      List.foldl_map]

theorem scanRows_eq (z : Nat) : (rowsOf c ((List.range (16 * c)).map h)).flatMap (scanRow g z) =
    (List.range 16).flatMap fun i => (List.range c).map fun j =>
      g (runningFold g (fun e => h (c * i + e)) z j) (h (c * i + j)) := by
  simp only [rowsOf_map_range, List.flatMap_map, scanRow_eq]

end

/-! ### Selection (R310, R311) -/

/-- A row VTOPKR writes fills its 64 cells. -/
theorem topRow_length (f : Fmt) {k : Nat} (hk : k ≤ 32) (row : List Nat) (en : List Bool) :
    (topRow f k row en).length = 64 := by
  simp only [topRow, List.length_append, List.length_map, List.length_replicate, List.length_take]
  omega

theorem topRows_eq (f : Fmt) (k : Nat) (x : VBits) (en : List Bool) :
    ((rowsOf 64 (elemsOf 32 x)).zipIdx.flatMap fun row => topRow f k row.1 ((en.drop (64 * row.2)).take 64)) =
      (List.range 16).flatMap fun i => topRow f k ((List.range 64).map fun e => elemOf 32 x (64 * i + e))
        ((en.drop (64 * i)).take 64) := by
  have hz (g : Nat → List Nat) : ((List.range 16).map g).zipIdx = (List.range 16).map fun i => (g i, i) := by
    refine List.ext_getElem (by simp) fun n _ _ => by simp
  rw [elemsOf_eq, rowsOf_map_range 64 (elemOf 32 x), hz, List.flatMap_map]

theorem bucketOf_le (f : Fmt) (uns : Bool) (splitters : List Nat) (x : Nat) :
    bucketOf f uns splitters x ≤ splitters.length := by
  unfold bucketOf
  split
  · exact le_rfl
  · exact List.length_filter_le ..

end Sys2Proof.Machine
end

section
namespace Sys2Proof.Machine

/-! ### The syllables of R303 to R311, each as its rule says -/

section
variable {s s1 : State} {x : VBits} {d : VDst} {a : VSrc} (hf : s.freshIssue = true)
include hf

/-- VCVT, its lanes given by any function that agrees with the model's. -/
theorem execVcvt_lanes {fd fs : Fmt} {r : Rnd} {part : BitVec 2}
    (hx : readVecOf a (cvtReads fd fs part.toNat) s = .ok (x, s1)) (hr : s1.cur.vtakes s.issue.cluster d = true)
    {lane : Nat → Nat × Flags} (hlane : cvtLanes fd fs r part.toNat x = (List.range (16 * fd.perRow)).map lane) :
    ∃ t u, execVcvt fd fs r part d a s = .next t ∧ Elsewhere s t ∧
      t.cur = (s1.cur.vresult s.issue.cluster d u ((List.range (16 * fd.perRow)).map fun n => (lane n).2)).past
        s.issue.cluster s.now ∧
      ∀ n, n < 16 * fd.perRow → elemOf fd.elemWidth u n = (lane n).1 % 2 ^ fd.elemWidth :=
  conclude_rowMap hf (readVecOf_frame hx) (by rw [Act.bind_apply, hx, ← hlane]) hr

theorem execVtobi_rows {fd fs : Fmt} {r : Rnd} {part : BitVec 2}
    (hx : readVecOf a (tobiReads fs part.toNat) s = .ok (x, s1)) (hr : s1.cur.vtakes s.issue.cluster d = true) :
    ∃ t u, execVtobi fd fs r part d a s = .next t ∧ Elsewhere s t ∧
      t.cur = (s1.cur.vresult s.issue.cluster d u ((List.range 16).flatMap fun i =>
        (rowBlocks fd fs r part.toNat i x).map fun b => b.2.2)).past s.issue.cluster s.now ∧
      ∀ i j, i < 16 → j < 256 →
        elemOf 8 u (256 * i + j) = (blockRow fd.blockWidth (rowBlocks fd fs r part.toNat i x)).getD j 0 % 2 ^ 8 :=
  conclude_rows rfl (fun i => blockRow_length ..) hf (readVecOf_frame hx)
    (by rw [Act.bind_apply, hx]; simp only [List.flatMap_map]) hr

theorem execVfrombi_lanes {fd fs : Fmt} {r : Rnd} {part : BitVec 2}
    (hx : readVecOf a (frombiReads fs) s = .ok (x, s1)) (hr : s1.cur.vtakes s.issue.cluster d = true) :
    ∃ t u, execVfrombi fd fs r part d a s = .next t ∧ Elsewhere s t ∧
      t.cur = (s1.cur.vresult s.issue.cluster d u ((List.range (16 * fd.perRow)).map fun n =>
        (fromBlock fd fs r part.toNat x n).2)).past s.issue.cluster s.now ∧
      ∀ n, n < 16 * fd.perRow →
        elemOf fd.elemWidth u n = (fromBlock fd fs r part.toNat x n).1 % 2 ^ fd.elemWidth :=
  conclude_rowMap hf (readVecOf_frame hx) (by rw [Act.bind_apply, hx]) hr

section
variable {f : Fmt} {r : Rnd} {k : Option VSrc} {s2 : State} {en : List Bool} (hx : readVec a s = .ok (x, s1))
  (hen : readMask f k s1 = .ok (en, s2)) (hr : s2.cur.vtakes s.issue.cluster d = true)
include hx hen hr

theorem execVredr_rows (op : VRedOp) (uns : Bool) : ∃ t u, execVredr op f r uns d a k s = .next t ∧ Elsewhere s t ∧
    t.cur = (s2.cur.vresult s.issue.cluster d u ((List.range 16).map fun i =>
      (treeFold (redElem op f r uns) (ceilLog2 f.perRow) ((List.range f.perRow).map fun e =>
        maskedElem f.elemWidth (redIdentity op f uns) x en (f.perRow * i + e))).2)).past s.issue.cluster s.now ∧
    ∀ i j, i < 16 → j < f.perRow → elemOf f.elemWidth u (f.perRow * i + j) =
      (List.replicate f.perRow (treeFold (redElem op f r uns) (ceilLog2 f.perRow) ((List.range f.perRow).map fun e =>
        maskedElem f.elemWidth (redIdentity op f uns) x en (f.perRow * i + e))).1).getD j 0 % 2 ^ f.elemWidth :=
  conclude_rowLanes (fun _ => List.length_replicate) hf ((readVec_frame hx).trans (readMask_frame hen))
    (by simp only [vecReduce, Act.bind_apply, hx, hen, maskWith_eq f (readMask_length hen)]) hr
    (reduceRows_flags ..) (reduceRows_values _ _ _ (Fmt.perRow_pos f))

theorem execVredc_rows (op : VRedOp) (uns : Bool) : ∃ t u, execVredc op f r uns d a k s = .next t ∧ Elsewhere s t ∧
    t.cur = (s2.cur.vresult s.issue.cluster d u ((List.range f.perRow).map fun j =>
      (treeFold (redElem op f r uns) 4 ((List.range 16).map fun e =>
        maskedElem f.elemWidth (redIdentity op f uns) x en (f.perRow * e + j))).2)).past s.issue.cluster s.now ∧
    ∀ i j, i < 16 → j < f.perRow → elemOf f.elemWidth u (f.perRow * i + j) =
      ((List.range f.perRow).map fun j => (treeFold (redElem op f r uns) 4 ((List.range 16).map fun e =>
        maskedElem f.elemWidth (redIdentity op f uns) x en (f.perRow * e + j))).1).getD j 0 % 2 ^ f.elemWidth :=
  conclude_rowLanes (fun _ => by rw [List.length_map, List.length_range]) hf
    ((readVec_frame hx).trans (readMask_frame hen))
    (by simp only [vecReduce, Act.bind_apply, hx, hen, maskWith_eq f (readMask_length hen)]) hr
    (reduceColumns_flags ..) (reduceColumns_values ..)

theorem execVscanr_rows : ∃ t u, execVscanr f r d a k s = .next t ∧ Elsewhere s t ∧
    t.cur = (s2.cur.vresult s.issue.cluster d u ((List.range 16).flatMap fun i => (List.range f.perRow).map fun j =>
      (redElem .add f r false (runningFold (redElem .add f r false) (fun e => maskedElem f.elemWidth
        (redIdentity .add f false) x en (f.perRow * i + e)) (redIdentity .add f false) j)
        (maskedElem f.elemWidth (redIdentity .add f false) x en (f.perRow * i + j))).2)).past s.issue.cluster s.now ∧
    ∀ i j, i < 16 → j < f.perRow → elemOf f.elemWidth u (f.perRow * i + j) = ((List.range f.perRow).map fun j =>
      runningFold (redElem .add f r false) (fun e => maskedElem f.elemWidth (redIdentity .add f false) x en
        (f.perRow * i + e)) (redIdentity .add f false) (j + 1)).getD j 0 % 2 ^ f.elemWidth := by
  simp only [runningFold_succ]
  exact conclude_rowLanes (fun _ => by rw [List.length_map, List.length_range]) hf
    ((readVec_frame hx).trans (readMask_frame hen))
    (by simp only [Act.bind_apply, hx, hen, maskWith_eq f (readMask_length hen), scanRows_eq]; rfl) hr
    (by rw [List.map_flatMap]; simp only [List.map_map]; rfl)
    (by rw [List.map_flatMap]; simp only [List.map_map]; rfl)

end

theorem execVtopkr_rows {f : Fmt} {b : Src} {k : Option VSrc} {s2 s3 : State} {en : List Bool} {n : W64}
    (hx : readVec a s = .ok (x, s1)) (hn : readSrc b s1 = .ok (n, s2)) (hen : readMask f k s2 = .ok (en, s3))
    (hr : s3.cur.vtakes s.issue.cluster d = true) : ∃ t u, execVtopkr f d a b k s = .next t ∧ Elsewhere s t ∧
      t.cur = (s3.cur.vput s.issue.cluster d (.ready u 0)).past s.issue.cluster s.now ∧
      ∀ i j, i < 16 → j < 64 → elemOf 32 u (64 * i + j) = (topRow f (min n.toNat 32)
        ((List.range 64).map fun e => elemOf 32 x (64 * i + e)) ((en.drop (64 * i)).take 64)).getD j 0 % 2 ^ 32 :=
  conclude_rowsPut rfl (fun _ => topRow_length f (min_le_right ..) ..) hf
    (((readVec_frame hx).trans (readSrc_frame hn)).trans (readMask_frame hen))
    (by simp only [Act.bind_apply, hx, hn, hen, topRows_eq]) hr

theorem execVbuck_cells {f : Fmt} {uns : Bool} {b : VSrc} {c : Src} {s2 s3 : State} {y : VBits} {n : W64}
    (hx : readVec a s = .ok (x, s1)) (hy : readVecOf b (firstSectors 256) s1 = .ok (y, s2))
    (hn : readSrc c s2 = .ok (n, s3)) (hr : s3.cur.vtakes s.issue.cluster d = true) :
    ∃ t u, execVbuck f uns d a b c s = .next t ∧ Elsewhere s t ∧
      t.cur = (s3.cur.vput s.issue.cluster d (.ready u 0)).past s.issue.cluster s.now ∧
      ∀ e, e < 1024 → elemOf 32 u e =
        bucketOf f uns ((List.range (min n.toNat 63)).map (cellOf y)) (elemOf 32 x e) := by
  obtain ⟨t, ht, he, hc⟩ : ∃ t, execVbuck f uns d a b c s = .next t ∧ Elsewhere s t ∧ t.cur = (s3.cur.vput
      s.issue.cluster d (.ready (ofElems 32 ((elemsOf 32 x).map (bucketOf f uns ((List.range (min n.toNat 63)).map
        (cellOf y))))) 0)).past s.issue.cluster s.now :=
    conclude_vput hf (((readVec_frame hx).trans (readVecOf_frame hy)).trans (readSrc_frame hn))
      (by simp only [Act.bind_apply, hx, hy, hn]; rfl) hr
  refine ⟨t, _, ht, he, hc, fun e hlt => ?_⟩
  rw [elemOf_ofElems _ (by omega), elemsOf_eq, List.map_map, getD_map_range _ _ hlt]
  refine Nat.mod_eq_of_lt ((bucketOf_le ..).trans_lt ?_)
  rw [List.length_map, List.length_range]
  exact (min_le_right ..).trans_lt (by decide)

end
end Sys2Proof.Machine
end

section
namespace Sys2Proof.Laws
open Machine

/-- Settles O44: each syllable's lanes, rows or cells are those of its rule. -/
theorem vectorLanes : Obligations.VectorLanes := by
  unfold Obligations.VectorLanes
  refine ⟨fun fd fs r part d a s s1 x hf hr => ⟨fun hx => ?_, fun hx => ?_, fun hx => ?_⟩,
    fun d a s s1 x hf hx => ⟨fun f r k s2 en hen hr => ⟨fun op uns => ⟨?_, ?_⟩, ?_⟩,
      fun f b k s2 s3 en n hn hen hr => ?_, fun f uns b c s2 s3 y n hy hn hr => ?_⟩⟩
  · exact execVcvt_lanes hf hx hr rfl
  · exact execVtobi_rows hf hx hr
  · exact execVfrombi_lanes hf hx hr
  · obtain ⟨t, u, ht, he, hc, hu⟩ := execVredr_rows hf hx hen hr op uns
    refine ⟨t, u, ht, he, hc, fun i j hi hj => ?_⟩
    rw [hu i j hi hj, List.getD_replicate _ hj]
    rfl
  · obtain ⟨t, u, ht, he, hc, hu⟩ := execVredc_rows hf hx hen hr op uns
    refine ⟨t, u, ht, he, hc, fun i j hi hj => ?_⟩
    rw [hu i j hi hj, getD_map_range _ _ hj]
    rfl
  · obtain ⟨t, u, ht, he, hc, hu⟩ := execVscanr_rows (r := r) hf hx hen hr
    refine ⟨t, u, ht, he, hc, fun i j hi hj => ?_⟩
    rw [hu i j hi hj, getD_map_range _ _ hj]
    rfl
  · exact execVtopkr_rows hf hx hn hen hr
  · exact execVbuck_cells hf hx hy hn hr

end Sys2Proof.Laws
end

section
namespace Sys2Proof.Machine

/-! ### The pool after a write (R227, R230) -/

@[simp] theorem State.team_modTeam_same (s : State) (p : Nat) (f : Team → Team) :
    (s.modTeam p f).team p = f (s.team p) := State.team_setTeam_same ..

@[simp] theorem State.core_modTeam_same (s : State) (p : Nat) (f : Team → Team) :
    (s.modTeam p f).core p = { s.core p with team := f (s.team p) } := State.core_setTeam_same ..

@[simp] theorem Core.revive_team (c : Core) (g : Nat) : (c.revive g).team = c.team := by
  unfold Core.revive; split <;> rfl

theorem Core.revive_wf {c : Core} (g : Nat) (h : Mem.wf c.pool = true) : Mem.wf (c.revive g).pool = true := by
  unfold Core.revive
  split
  · exact h
  · exact Mem.filter_wf _ h

theorem Core.reviveAll_team (gs : List Nat) (c : Core) : (gs.foldl Core.revive c).team = c.team := by
  induction gs generalizing c with
  | nil => rfl
  | cons g gs ih => rw [List.foldl_cons, ih, Core.revive_team]

theorem Core.reviveAll_wf (gs : List Nat) {c : Core} (h : Mem.wf c.pool = true) :
    Mem.wf (gs.foldl Core.revive c).pool = true := by
  induction gs generalizing c with
  | nil => exact h
  | cons g gs ih => exact ih (Core.revive_wf g h)

@[simp] theorem Core.reviveRange_team (c : Core) (cyc a n : Nat) : (c.reviveRange cyc a n).team = c.team :=
  Core.reviveAll_team ..

theorem Core.reviveRange_wf {c : Core} (cyc a n : Nat) (h : Mem.wf c.pool = true) :
    Mem.wf (c.reviveRange cyc a n).pool = true := Core.reviveAll_wf _ h

@[simp] theorem Core.poolWrite_team (c : Core) (cyc a : Nat) (bs : List Byte) (b : Bool) :
    (c.poolWrite cyc a bs b).team = c.team := Core.reviveAll_team ..

/-- Bytes written to a pool read back. -/
theorem Core.read_poolWrite {c : Core} (h : Mem.wf c.pool = true) (cyc a : Nat) (bs : List Byte) (b : Bool) :
    Mem.read (c.poolWrite cyc a bs b).pool a bs.length = bs :=
  Mem.read_write_same (Core.reviveAll_wf (unitsOf 1024 a bs.length) (c := c.wake cyc a bs.length) h) a bs

/-- A port that has merged no REDs has none to flush (R359). -/
theorem State.flushReds_of_none {s : State} {p : Nat} (h : ∀ e ∈ s.redEntries, e.core ≠ some p) (a n : Nat) :
    s.flushReds (some p) a n = s := by
  have hnil : s.redEntries.filter (fun e => e.core == some p && (unitsOf 256 a n).contains e.line) = [] := by
    refine List.filter_eq_nil_iff.2 fun e he => ?_
    simp [h e he]
  rw [State.flushReds, hnil]
  rfl

/-! ### Sequencer faults and completions (R318, R332) -/

@[simp] theorem Ctx.setFault_pending (c : Ctx) (x : Stream) (cause va tile : Nat) :
    (c.setFault x cause va tile).pending = c.pending := by
  unfold Ctx.setFault
  generalize cause * 2 ^ 56 + va % 2 ^ 56 = w
  dsimp only
  split
  · split <;> rfl
  · rfl

section
variable (s : State) (p i : Nat) (x : Stream) (cause v : Nat)

@[simp] theorem State.sequencerFault_mem : (s.sequencerFault p i x cause v).mem = s.mem := rfl

@[simp] theorem State.sequencerFault_pool : ((s.sequencerFault p i x cause v).core p).pool = (s.core p).pool := by
  rw [State.sequencerFault, State.core_modTeam_same]

/-- The fault is due at the context whose stream it is. -/
theorem State.sequencerFault_pending : ((s.sequencerFault p i x cause v).ctx p x.ctx).pending =
    (s.ctx p x.ctx).pending ++ [⟨cause, BitVec.ofNat 64 v, .m, true⟩] := by
  simp only [State.sequencerFault, State.ctx, State.team_modTeam_same, Team.ctx_setCtx_same, Ctx.setFault_pending]
  rfl

/-- A fault adds no stream. -/
theorem State.sequencerFault_outstanding (k : Nat) :
    ((s.sequencerFault p i x cause v).team p).outstanding k ≤ (s.team p).outstanding k := by
  have hsub (q : Stream × Nat → Bool) :
      (((s.team p).streams.zipIdx.filter q).map Prod.fst).Sublist (s.team p).streams := by
    simpa using (List.filter_sublist (p := q) (l := (s.team p).streams.zipIdx)).map Prod.fst
  simp only [State.sequencerFault, State.team_modTeam_same]
  exact ((hsub _).filter _).length_le

end

/-- A stream's flags reach FPSTAT where no handler's section stands between (R396). -/
theorem Ctx.takeFlags_fpstat {c : Ctx} {x : Stream} (h : c.saved = none ∨ x.handler = true) :
    (c.takeFlags x).fpstat = c.fpstat ||| x.flags := by
  unfold Ctx.takeFlags
  cases hs : c.saved with
  | none => rfl
  | some y =>
    rw [hs] at h
    simp only [reduceCtorEq, false_or] at h
    simp only [h, ↓reduceIte]

/-! ### Tile issues (R326, R331) -/

theorem outside_eq_none {off : Int} {n size : Nat} (h0 : 0 ≤ off) (h : off.toNat + n ≤ size) :
    outside off n size = none := by
  simp only [outside, not_lt.2 h0, not_lt.2 h, ↓reduceIte]

theorem State.inZ.outside_eq_none {s : State} {p : Nat} {z : Int} (h : s.inZ p z) :
    outside z tileBytes ((s.team p).bufSize .z) = none := Machine.outside_eq_none h.1 h.2

/-- A tile of which every record has a result is written. -/
theorem State.writeZ_done (s : State) (p : Nat) (c : Core) (start off issues : Nat) (rs : List RaRec) :
    s.writeZ p c start off issues (rs.map some) =
      .done (s.setCore p (c.poolWrite s.cycles (start + off) (tileData rs) false)) 0 issues := by
  have hn : firstNone (rs.map some) = none := by
    rw [firstNone, Option.map_eq_none_iff, List.find?_eq_none]
    rintro ⟨o, n⟩ ho
    obtain ⟨r, -, rfl⟩ := List.mem_map.1 (List.fst_mem_of_mem_zipIdx ho)
    simp
  have hf : (rs.map some).filterMap id = rs := by simp
  rw [State.writeZ, hn, hf]

theorem fuseMore_le (t : Team) (c : Core) (k : Nat) (r : Rec) (start off fuel n : Nat) (sum : List (Int × Nat)) :
    (fuseMore t c k r start off fuel n sum).1 ≤ fuel := by
  induction fuel generalizing n sum with
  | zero => exact le_rfl
  | succ fuel ih =>
    unfold fuseMore
    split
    · exact Nat.zero_le _
    · dsimp only
      split
      · exact Nat.zero_le _
      · exact Nat.succ_le_succ (ih ..)

section
variable (t : Team) (c : Core) (k start off n : Nat) (sum : List (Int × Nat)) (x : Stream) (r : Rec)

/-- Where products do not fuse, an issue stands alone. -/
theorem fuseMore_alone (h : x.noFuse = true ∨ recFuse r = 0) :
    fuseMore t c k r start off (fuseLimit x r - 1) n sum = (0, sum) := by
  have hlim : fuseLimit x r - 1 = 0 := by
    unfold fuseLimit
    rcases h with h | h <;> simp [h]
  rw [hlim, fuseMore]

/-- A group holds at most as many issues as FUSE says. -/
theorem fuseMore_limit :
    (fuseMore t c k r start off (fuseLimit x r - 1) n sum).1 + 1 ≤ max 1 (2 ^ recFuse r) := by
  have hle := fuseMore_le t c k r start off (fuseLimit x r - 1) n sum
  have hlim : fuseLimit x r ≤ max 1 (2 ^ recFuse r) := by
    unfold fuseLimit
    split
    · exact le_max_left ..
    · exact le_max_right ..
  omega

end

section
variable {s : State} {p i op : Nat} {x : Stream} {r : Rec} {run : State → Nat → Stream → Rec → Tile}
  (hdue : s.tileDue p i x r) (hop : recOp r = op)
include hdue hop

/-- A tile issue that faults makes its cause pending and changes no pool. -/
theorem issueTile_fault {cause v : Nat} (hrun : run s p x r = .fault cause v) :
    s.issueTile p op run = s.sequencerFault p i x cause v := by
  obtain ⟨hres, hcur, hrec, -⟩ := hdue
  simp only [State.issueTile, hcur, hrec, hres, hop, hrun, Bool.not_true, bne_self_eq_false, Bool.or_self,
    Bool.false_eq_true, ↓reduceIte]

/-- Tile issues that are done leave their write, and the stream past them. -/
theorem issueTile_done {c : Core} {fl : Flags} {n : Nat} (hrun : run s p x r = .done (s.setCore p c) fl n)
    (hteam : c.team = s.team p) :
    (s.issueTile p op run).mem = s.mem ∧ ((s.issueTile p op run).core p).pool = c.pool ∧
      ((s.issueTile p op run).team p).streams = (s.team p).streams.set i (x.stepped r n fl) := by
  obtain ⟨hres, hcur, hrec, -⟩ := hdue
  simp only [State.issueTile, hcur, hrec, hres, hop, hrun, Bool.not_true, bne_self_eq_false, Bool.or_self,
    Bool.false_eq_true, ↓reduceIte]
  refine ⟨rfl, by rw [State.core_modTeam_same, State.core_setCore_same], ?_⟩
  rw [State.team_modTeam_same, State.team, State.core_setCore_same, hteam, Stream.stepped, hrec]
  rfl

end

end Sys2Proof.Machine
end

section
namespace Sys2Proof.Machine

@[simp] theorem State.cycles_setCore (s : State) (p : Nat) (c : Core) : (s.setCore p c).cycles = s.cycles := rfl

/-- A write to the pool of a core whose port has merged no REDs. -/
theorem State.writeSpot_pool {s : State} {p : Nat} (hred : ∀ e ∈ s.redEntries, e.core ≠ some p) (c : Core) (cl : Client)
    (a : Nat) (bs : List Byte) : (s.setCore p c).writeSpot cl none (.pool p a) bs false =
      s.setCore p (c.poolWrite s.cycles a bs false) := by
  simp only [State.writeSpot, State.flushSpot, State.flushReds_of_none (s := s.setCore p c) hred, State.modCore,
    State.core_setCore_same, State.setCore_setCore, State.cycles_setCore]

/-- Waking a bank changes no byte of a tile. -/
@[simp] theorem Core.tileAt_wake (c : Core) (cyc a n b : Nat) : (c.wake cyc a n).tileAt b = c.tileAt b := by
  unfold Core.tileAt Core.poolRead
  rw [show (c.wake cyc a n).pool = c.pool from rfl]

/-- Waking a bank changes no mark of a tile. -/
@[simp] theorem Core.markedTile_wake (c : Core) (cyc a n start off : Nat) :
    (c.wake cyc a n).markedTile start off = c.markedTile start off := by
  unfold Core.markedTile
  rw [show (c.wake cyc a n).poison = c.poison from rfl]

/-! ### What a tile issue without a fault does (R325, R328 to R330) -/

section
variable {s : State} {p : Nat} {x : Stream} {r : Rec} (hred : ∀ e ∈ s.redEntries, e.core ≠ some p)

/-- An MMA or MMAZ whose A slot the submitter does not hold (R331 check 4). -/
theorem issueProduct_foreign (h : ((s.team p).slot (tileA r x.tile)).owner ≠ some x.ctx) :
    s.issueProduct p x r = .fault causePROT (2048 * tileA r x.tile) := by
  have hf : (s.team p).foreignSlot x.ctx r x.tile = some (tileA r x.tile) :=
    List.find?_cons_of_pos (by simpa using h)
  simp only [State.issueProduct, hf]

include hred

theorem issueProduct_done {rs : List RaRec} {c : Core} (hz : s.inZ p (tileZ r x.tile))
    (hc : c = (s.core p).reviveRange s.cycles ((s.team p).bufStart .z + (tileZ r x.tile).toNat) tileBytes)
    (hA : ((s.team p).slot (tileA r x.tile)).owner = some x.ctx)
    (hB : ((s.team p).slot (tileB r x.tile)).owner = some x.ctx)
    (hpA : (s.team p).pend (tileA r x.tile) = 0) (hpB : (s.team p).pend (tileB r x.tile) = 0)
    (hm : c.markedProduct r x.tile ((s.team p).bufStart .z) (tileZ r x.tile).toNat = none)
    (hsA : badScale c.opmem (tileA r x.tile) = none) (hsB : badScale c.opmem (tileB r x.tile) = none)
    {g : Nat × List (Int × Nat)} (hg : g = fuseMore (s.team p) c x.ctx r ((s.team p).bufStart .z)
      (tileZ r x.tile).toNat (fuseLimit x r - 1) x.tile (productChunks r x.tile c.opmem))
    (hrs : productRecords r x.tile g.2 (c.tileAt ((s.team p).bufStart .z + (tileZ r x.tile).toNat)) = rs.map some) :
    s.issueProduct p x r = .done (s.setCore p (c.poolWrite s.cycles
      ((s.team p).bufStart .z + (tileZ r x.tile).toNat) (tileData rs) false)) 0 (g.1 + 1) := by
  have hf : (s.team p).foreignSlot x.ctx r x.tile = none := by simp [Team.foreignSlot, hA, hB]
  have hfill : (s.team p).filling r x.tile = false := by simp [Team.filling, hpA, hpB]
  have hs : badScales c.opmem r x.tile = none := by simp [badScales, hsA, hsB]
  unfold State.issueProduct
  simp only [hf, hz.outside_eq_none, hfill, Bool.false_eq_true, ↓reduceIte, State.flushReds_of_none hred, ← hc]
  rw [hm, hs, ← hg, hrs, State.writeZ_done]

theorem issueAdd_done {rs : List RaRec} {c : Core} (hz : s.inZ p (tileZ r x.tile)) (hy : s.inZ p (tileX r x.tile))
    (hc : c = (s.core p).reviveRange s.cycles ((s.team p).bufStart .z + (tileZ r x.tile).toNat) tileBytes)
    (hdead : (s.core p).deadByte ((s.team p).bufStart .z + (tileX r x.tile).toNat) tileBytes = none)
    (hmz : c.markedTile ((s.team p).bufStart .z) (tileZ r x.tile).toNat = none)
    (hmy : c.markedTile ((s.team p).bufStart .z) (tileX r x.tile).toNat = none)
    (hrs : (((c.tileAt ((s.team p).bufStart .z + (tileZ r x.tile).toNat)).zip
      (c.tileAt ((s.team p).bufStart .z + (tileX r x.tile).toNat))).map fun e =>
        if 96 ≤ e.1.head || 96 ≤ e.2.head then none else e.1.add e.2) = rs.map some) :
    s.issueAdd p x r = .done (s.setCore p ((c.wake s.cycles ((s.team p).bufStart .z + (tileX r x.tile).toNat)
      tileBytes).poolWrite s.cycles ((s.team p).bufStart .z + (tileZ r x.tile).toNat) (tileData rs) false)) 0 1 := by
  unfold State.issueAdd
  simp only [hz.outside_eq_none, hy.outside_eq_none, State.flushReds_of_none hred, ← hc, Core.markedTile_wake,
    Core.tileAt_wake]
  rw [hdead, hmz, hmy, hrs, State.writeZ_done]

theorem issueScale_done {rs : List RaRec} {c : Core} (hz : s.inZ p (tileZ r x.tile))
    (hc : c = (s.core p).reviveRange s.cycles ((s.team p).bufStart .z + (tileZ r x.tile).toNat) tileBytes)
    (hm : c.markedTile ((s.team p).bufStart .z) (tileZ r x.tile).toNat = none)
    (hrs : ((c.tileAt ((s.team p).bufStart .z + (tileZ r x.tile).toNat)).map fun e => shiftRec e (recImm r)) =
      rs.map some) :
    s.issueScale p x r = .done (s.setCore p (c.poolWrite s.cycles
      ((s.team p).bufStart .z + (tileZ r x.tile).toNat) (tileData rs) false)) 0 1 := by
  unfold State.issueScale
  simp only []
  rw [hz.outside_eq_none, State.flushReds_of_none hred, ← hc, hm, hrs, State.writeZ_done]

theorem issueConvert_done {c : Core} {v : List Nat × List Nat × Flags} (hz : s.inZ p (tileZ r x.tile))
    (hy0 : 0 ≤ tileX r x.tile) (hy : (tileX r x.tile).toNat + convBytes (recCfmt r) ≤ (s.team p).bufSize .y)
    (hc : c = (s.core p).wake s.cycles ((s.team p).bufStart .z + (tileZ r x.tile).toNat) tileBytes)
    (hdead : c.deadByte ((s.team p).bufStart .z + (tileZ r x.tile).toNat) tileBytes = none)
    (hm : c.markedTile ((s.team p).bufStart .z) (tileZ r x.tile).toNat = none)
    (hhead : ∀ e, e ∈ c.tileAt ((s.team p).bufStart .z + (tileZ r x.tile).toNat) → e.head < 96)
    (hv : v = convTile (recCfmt r) (recRnd r) ((c.tileAt ((s.team p).bufStart .z + (tileZ r x.tile).toNat)).map
      fun e => scaledRec e (recImm r))) :
    s.issueConvert p x r = .done (s.setCore p (c.poolWrite s.cycles ((s.team p).bufStart .y + (tileX r x.tile).toNat)
      (elemBytes (elemBits (recCfmt r) / 8) v.1 ++ elemBytes 1 v.2.1) false)) v.2.2 1 := by
  have hfind (l : List RaRec) (h : ∀ e, e ∈ l → e.head < 96) : (l.zipIdx.find? fun e => 96 ≤ e.1.head) = none := by
    rw [List.find?_eq_none]
    rintro ⟨e, n⟩ he
    simpa using h e (List.fst_mem_of_mem_zipIdx he)
  unfold State.issueConvert
  simp only [hz.outside_eq_none, outside_eq_none hy0 hy, State.flushReds_of_none hred, ← hc]
  generalize c.tileAt _ = l at hhead hv ⊢
  rw [hdead, hm, hfind l hhead, ← hv, State.writeSpot_pool hred]

end

end Sys2Proof.Machine
end

section
namespace Sys2Proof.Machine

/-! ### The sequencer's steps (R318, R331, R332) -/

/-- A stream that has started and holds no record is due a fetch. -/
theorem fetch_due {c : Core} {x : Stream} (hres : c.resident = true) (hst : x.started = true) (hrec : x.record = none) :
    (!c.resident || !x.started || x.record.isSome) = false := by
  rw [hres, hst, hrec]; rfl

section
variable {s : State} {p i : Nat} {x : Stream} (hres : (s.core p).resident = true)
  (hcur : (s.team p).current = some (i, x))
include hres hcur

theorem execStreamStart_started (hx : x.started = false) (hfork : (s.ctx p x.ctx).forkClear x.forkSeq = true)
    (henq : (s.ctx p x.ctx).enqBefore x.forkSeq = false) :
    execStreamStart p s = .next (s.setTeam p ((s.team p).setStream i { x with started := true })) := by
  have hfork' : ((s.team p).ctx x.ctx).forkClear x.forkSeq = true := hfork
  have henq' : ((s.team p).ctx x.ctx).enqBefore x.forkSeq = false := henq
  simp only [execStreamStart, concludeEvent, hcur, hx, hres, hfork', henq', Bool.not_true, Bool.or_self,
    Bool.false_eq_true, ↓reduceIte]

section
variable (hst : x.started = true) (hrec : x.record = none)
include hst hrec

theorem execRecordFetch_ok {s1 : State} {r : Rec} (hfetch : s.fetchRecord p { x with tile := 0 } = .ok (r, s1))
    (hok : checkNest r = none) :
    execRecordFetch p s = .next (s1.modTeam p fun t => t.setStream i (if recTiles r = 0 then
      { x with tile := 0, index := x.index + 1 } else { x with tile := 0, record := some r })) := by
  simp only [execRecordFetch, concludeEvent, hcur, fetch_due hres hst hrec, hfetch, hok, Bool.false_eq_true,
    ↓reduceIte]

theorem execRecordFetch_invalid {s1 : State} {r : Rec} {cause off : Nat}
    (hfetch : s.fetchRecord p { x with tile := 0 } = .ok (r, s1)) (hbad : checkNest r = some (cause, off)) :
    execRecordFetch p s = .next (s1.sequencerFault p i { x with tile := 0 } cause (x.va + off)) := by
  simp only [execRecordFetch, concludeEvent, hcur, fetch_due hres hst hrec, hfetch, hbad, Bool.false_eq_true,
    ↓reduceIte]
  rfl

theorem execRecordFetch_halt {cause v : Nat} (hfetch : s.fetchRecord p { x with tile := 0 } = .halt cause v) :
    execRecordFetch p s = .next (s.sequencerFault p i { x with tile := 0 } cause v) := by
  simp only [execRecordFetch, concludeEvent, hcur, fetch_due hres hst hrec, hfetch, Bool.false_eq_true,
    ↓reduceIte]

end
end

theorem execStreamComplete_eq {s : State} {p : Nat} {x : Stream} {rest : List Stream}
    (hres : (s.core p).resident = true) (hstr : (s.team p).streams = x :: rest) (hdone : x.count ≤ x.index) :
    execStreamComplete p s = .next (s.modTeam p fun t =>
      (({ t with streams := rest } : Team).countReleases x.ctx).setCtx x.ctx ((t.ctx x.ctx).takeFlags x)) := by
  simp only [execStreamComplete, concludeEvent, hstr, not_lt.2 hdone, hres, decide_false, Bool.not_true, Bool.or_self,
    Bool.false_eq_true, ↓reduceIte]
  rfl

theorem execSequencerTrap_due {s : State} {p k : Nat} {e : CauseRec} (hres : (s.core p).resident = true)
    (hhalt : (s.ctx p k).halted = false) (htrap : (s.ctx p k).trapDue = none)
    (hcause : (s.ctx p k).dueCause .m = some e) :
    execSequencerTrap ⟨p, k⟩ s = .next ((s.setCtx p k ((s.ctx p k).dropCause e)).raise p k e) := by
  simp only [execSequencerTrap, concludeEvent, hres, hhalt, htrap, hcause, Option.isSome_none, Bool.not_true,
    Bool.or_self, Bool.false_eq_true, ↓reduceIte]
  rfl

theorem tileDue_redEntries {s : State} {p i : Nat} {x : Stream} {r : Rec} (h : s.tileDue p i x r) :
    ∀ e ∈ s.redEntries, e.core ≠ some p := by
  obtain ⟨-, -, -, hred⟩ := h
  exact hred

/-- A tile issue that writes bytes to a pool in canonical form: they stand there, and the stream has moved on. -/
theorem tileIssued {s : State} {p i op : Nat} {x : Stream} {r : Rec} {run : State → Nat → Stream → Rec → Tile}
    (hdue : s.tileDue p i x r) (hop : recOp r = op) {c : Core} (hwf : Mem.wf c.pool = true) (hteam : c.team = s.team p)
    {start off n : Nat} {bs : List Byte} {fl : Flags}
    (hrun : run s p x r = .done (s.setCore p (c.poolWrite s.cycles (start + off) bs false)) fl n) :
    ∃ t, concludeEvent (fun s => s.issueTile p op run) s = .next t ∧ t.mem = s.mem ∧ t.poolHolds p start off bs ∧
      (t.team p).streams = (s.team p).streams.set i (x.stepped r n fl) := by
  obtain ⟨hmem, hpool, hstreams⟩ := issueTile_done hdue hop hrun ((Core.poolWrite_team ..).trans hteam)
  refine ⟨_, rfl, hmem, ?_, hstreams⟩
  rw [State.poolHolds, hpool, Core.read_poolWrite hwf]

end Sys2Proof.Machine
end

section
namespace Sys2Proof.Laws
open Machine

/-- Settles O46: where a step's conditions hold it takes its one effect, a fault leaves its cause at the context, and a
tile issue leaves its bytes in the pool and its stream past them. -/
theorem sequencerRuns : Obligations.SequencerRuns := by
  unfold Obligations.SequencerRuns
  refine ⟨fun s p i x hres hcur hx hfork henq => ?_, fun s s1 p i x r hres hcur hst hrec hfetch => ⟨fun hok => ?_,
    fun cause off hbad => ?_⟩, fun s p i cause v x hres hcur hst hrec hfetch => ?_, fun s p i x r hdue => ?_,
    fun s p i x r hdue hop => ?_, fun s p x rest hres hstr hdone hsaved => ?_,
    fun s p k e hres hhalt htrap hcause => ?_⟩
  · exact ⟨_, execStreamStart_started hres hcur hx hfork henq, rfl, by rw [State.team_setTeam_same]; rfl⟩
  · exact ⟨_, execRecordFetch_ok hres hcur hst hrec hfetch hok, rfl, by rw [State.team_modTeam_same]; rfl⟩
  · exact ⟨_, execRecordFetch_invalid hres hcur hst hrec hfetch hbad, State.sequencerFault_pending ..,
      State.sequencerFault_outstanding ..⟩
  · exact ⟨_, execRecordFetch_halt hres hcur hst hrec hfetch, rfl, State.sequencerFault_pending ..⟩
  · have hred := tileDue_redEntries hdue
    intro n start z c hz hwf
    have hwfc : Mem.wf c.pool = true := Core.reviveRange_wf _ _ _ hwf
    have hteam : c.team = s.team p := Core.reviveRange_team ..
    refine ⟨fun rs hA hB hpA hpB hm hsA hsB => ?_, fun hA hop => ?_, fun rs hop hy hdead hmz hmy hrs => ?_,
      fun rs hop hm hrs => ?_⟩
    · intro own g hrs
      have hrun := issueProduct_done hred hz rfl hA hB hpA hpB hm hsA hsB rfl hrs
      exact ⟨fuseMore_alone _ _ _ _ _ _ _ _ _, fuseMore_limit .., fun hop => tileIssued hdue hop hwfc hteam hrun,
        fun hop => tileIssued hdue hop hwfc hteam hrun⟩
    · exact ⟨_, congrArg Host.Outcome.next (issueTile_fault hdue hop (issueProduct_foreign hA)),
        State.sequencerFault_mem .., State.sequencerFault_pool .., State.sequencerFault_pending ..⟩
    · exact tileIssued hdue hop (c := c.wake s.cycles (start + (tileX r n).toNat) tileBytes) hwfc hteam
        (issueAdd_done hred hz hy rfl hdead hmz hmy hrs)
    · exact tileIssued hdue hop hwfc hteam (issueScale_done hred hz rfl hm hrs)
  · have hred := tileDue_redEntries hdue
    intro start z y f c v hz hy0 hy hdead hm hhead hwf
    exact tileIssued hdue hop (c := c) hwf rfl (issueConvert_done hred hz hy0 hy rfl hdead hm hhead rfl)
  · refine ⟨_, execStreamComplete_eq hres hstr hdone, rfl, by rw [State.team_modTeam_same]; rfl, ?_⟩
    rw [State.ctx, State.team_modTeam_same, Team.ctx_setCtx_same]
    exact Ctx.takeFlags_fpstat hsaved
  · exact execSequencerTrap_due hres hhalt htrap hcause

end Sys2Proof.Laws
end

section
namespace Sys2Proof.Machine

/-! ### What stands beside memory (R232 to R237, R359, R388)

Reads and writes of memory, of a core's pool and of its operand memory, with all that they cause in slices, at ports and in
the event recorder, leave the work of the machine as it stands: launches, sheaves, messages, the hub's queues, and of every
core its team with its rings, counters, engine queues and streams. -/

/-- The hub without its event recorder, its error banks and the vectors that wait. -/
def Hub.desk (h : Hub) : Hub :=
  { h with evcount := 0, evring := [], banks := [], bankCycles := [], msixPending := [] }

/-- A core without its pool, its copies and translations, its team's contexts and the team's signature. -/
def Core.desk (c : Core) : Core :=
  { c with
    pool := []
    live := 0
    banks := []
    bankUse := []
    opmem := []
    poison := []
    l1 := []
    l1Slots := []
    itlb := []
    dtlb := []
    team := { c.team with ctxs := [], pairSig := 0 } }

/-- What stands beside memory. -/
structure Beside where
  now : Nat
  issue : Issue
  launches : Table (Option Launch)
  sheaves : List Sheaf
  images : List Image
  messages : List Message
  hub : Hub
  core : Nat → Core

def State.beside (s : State) : Beside where
  now := s.now
  issue := s.issue
  launches := s.launches
  sheaves := s.sheaves
  images := s.images
  messages := s.messages
  hub := s.hub.desk
  core p := (s.core p).desk

/-- A fold over states leaves what its steps leave. -/
theorem foldl_beside {α : Type} {f : State → α → State} (h : ∀ s x, (f s x).beside = s.beside) (l : List α)
    (s : State) : (l.foldl f s).beside = s.beside := foldl_leaves State.beside h l s

/-- A fold that carries a result beside the state. -/
theorem foldl_fst_beside {α β : Type} {f : State × β → α → State × β}
    (h : ∀ acc x, (f acc x).1.beside = acc.1.beside) (l : List α) (acc : State × β) :
    (l.foldl f acc).1.beside = acc.1.beside := foldl_leaves (fun acc => acc.1.beside) h l acc

theorem ite_beside (c : Prop) [Decidable c] (s t : State) :
    (if c then s else t).beside = if c then s.beside else t.beside := apply_ite State.beside c s t

/-- A core set to one with the same desk. -/
theorem setCore_beside {s : State} {p : Nat} {c : Core} (h : c.desk = (s.core p).desk) :
    (s.setCore p c).beside = s.beside := by
  refine congrArg (Beside.mk _ _ _ _ _ _ _) (funext fun q => ?_)
  by_cases hq : q = p
  · rw [hq, State.core_setCore_same, h]
  · rw [State.core_setCore_other _ _ _ _ hq]

theorem modCore_beside {s : State} {p : Nat} {f : Core → Core} (h : (f (s.core p)).desk = (s.core p).desk) :
    (s.modCore p f).beside = s.beside := setCore_beside h

/-- A context's change. -/
@[simp] theorem setCtx_beside (s : State) (p k : Nat) (c : Ctx) : (s.setCtx p k c).beside = s.beside :=
  setCore_beside rfl

@[simp] theorem modCtx_beside (s : State) (p k : Nat) (f : Ctx → Ctx) : (s.modCtx p k f).beside = s.beside :=
  setCtx_beside ..

/-! #### Events, counters and poison -/

@[simp] theorem sendVector_beside (s : State) (v : Nat) : (s.sendVector v).beside = s.beside := by
  obtain ⟨m, o, h⟩ := sendVector_eq s v
  rw [h]
  rfl

@[simp] theorem post_beside (s : State) (ty cause source addr detail : Nat) :
    (s.post ty cause source addr detail).beside = s.beside := by
  obtain ⟨m, o, h⟩ := post_eq s ty cause source addr detail
  rw [h]
  rfl

@[simp] theorem bankEvent_beside (s : State) (n : Nat) (ue : Bool) (kind addr misc : Nat) :
    (s.bankEvent n ue kind addr misc).beside = s.beside := rfl

@[simp] theorem emit_beside (s : State) (o : Outgoing) : (s.emit o).beside = s.beside := rfl

@[simp] theorem draw_beside (s : State) : s.draw.beside = s.beside := rfl

@[simp] theorem drawBytes_beside (s : State) (n : Nat) : (s.drawBytes n).beside = s.beside := rfl

@[simp] theorem count_beside (s : State) (p k ix n : Nat) : (s.count p k ix n).beside = s.beside := modCtx_beside ..

@[simp] theorem countEngine_beside (s : State) (p k ix n : Nat) : (s.countEngine p k ix n).beside = s.beside :=
  modCtx_beside ..

@[simp] theorem countTo_beside (s : State) (cl : Client) (ix n : Nat) : (s.countTo cl ix n).beside = s.beside := by
  unfold State.countTo
  split
  · split <;> simp
  · rfl

@[simp] theorem markSlice_beside (s : State) (pa : Nat) : (s.markSlice pa).beside = s.beside := rfl

@[simp] theorem unmarkSlice_beside (s : State) (pa : Nat) : (s.unmarkSlice pa).beside = s.beside := by
  unfold State.unmarkSlice
  split <;> rfl

@[simp] theorem addPoison_beside (s : State) (pa : Nat) : (s.addPoison pa).beside = s.beside := by
  unfold State.addPoison
  dsimp only
  split_ifs
  · rfl
  · rfl
  · exact post_beside _ _ _ _ _ _

@[simp] theorem clearPoison_beside (s : State) (pa : Nat) : (s.clearPoison pa).beside = s.beside := by
  refine foldl_beside (fun s k => ?_) _ s
  split
  · split <;> rfl
  · rfl

@[simp] theorem dropFlips_beside (s : State) (t : Table HbmFlips) : State.beside { s with flips := t } = s.beside := rfl

@[simp] theorem storeMarks_beside (s : State) (pa n : Nat) (poisoned : Bool) :
    (s.storeMarks pa n poisoned).beside = s.beside := by
  refine foldl_beside (fun s i => ?_) _ s
  dsimp only
  split_ifs <;> simp

/-! #### Slices -/

@[simp] theorem writebackSector_beside (s : State) (pa : Nat) : (s.writebackSector pa).1.beside = s.beside := by
  unfold State.writebackSector
  dsimp only
  split
  · split
    · rfl
    · split_ifs <;> simp <;> rfl
  · split
    · split <;> simp <;> rfl
    · rfl

/-- A change of memory, of the slices, of owners, marks and free values alone. -/
@[simp] theorem memory_beside (s : State) (m : Mem) (h : Table HostSector) (l : Table Bool) (g : Table (List Nat))
    (t : List TensorLine) (o : Table Nat) (e : List RedEntry) (n : Nat) : State.beside { s with
      mem := m, hostSectors := h, l2 := l, l2Tags := g, tensorLines := t, owners := o, redEntries := e, freeSeed := n } =
    s.beside := rfl

@[simp] theorem evictSector_beside (s : State) (pa : Nat) : (s.evictSector pa).beside = s.beside :=
  (unmarkSlice_beside _ pa).trans (writebackSector_beside s pa)

@[simp] theorem writebackByte_beside (s : State) (b : TensorByte) : (s.writebackByte b).beside = s.beside := by
  unfold State.writebackByte
  split_ifs
  · rfl
  · exact post_beside ..
  · rfl

@[simp] theorem writebackLine_beside (s : State) (l : TensorLine) : (s.writebackLine l).beside = s.beside :=
  foldl_beside (fun s (e : Nat × TensorByte) => writebackByte_beside s e.2) l.bytes s

@[simp] theorem evictTensor_beside (s : State) (l : TensorLine) : (s.evictTensor l).beside = s.beside :=
  foldl_beside (fun s (e : Nat × TensorByte) => writebackByte_beside s e.2) l.bytes s

@[simp] theorem writebackHost_beside (s : State) : s.writebackHost.1.beside = s.beside := by
  unfold State.writebackHost
  dsimp only
  refine (foldl_fst_beside (fun acc l => writebackLine_beside acc.1 l) _ _).trans ?_
  refine foldl_fst_beside (fun acc e => ?_) _ (s, 0)
  exact writebackSector_beside acc.1 (e.1 * 32)

@[simp] theorem untag_beside (s : State) (asid pa : Nat) : (s.untag asid pa).1.beside = s.beside := by
  unfold State.untag
  dsimp only
  split
  · exact evictSector_beside s pa
  · refine Eq.trans (b := (if (tget [] s.l2Tags (sectorOf pa)).head? = some asid then s.writebackSector pa
      else (s, false)).1.beside) rfl ?_
    split
    · exact writebackSector_beside s pa
    · rfl

@[simp] theorem evictFlat_beside (s : State) (asid line : Nat) : (s.evictFlat asid line).1.beside = s.beside := by
  refine foldl_fst_beside (fun acc i => ?_) _ (s, 0)
  dsimp only
  split
  · exact untag_beside _ _ _
  · rfl

@[simp] theorem makeRoom_beside (s : State) (cl : Client) (home : Nat × Nat) :
    (s.makeRoom cl home).beside = s.beside := by
  unfold State.makeRoom
  dsimp only
  split
  · rfl
  · split
    · exact (countTo_beside _ _ _ _).trans (evictFlat_beside _ _ _)
    · exact (countTo_beside _ _ _ _).trans (evictTensor_beside _ _)
    · rfl

@[simp] theorem tagSector_beside (s : State) (cl : Client) (pa : Nat) : (s.tagSector cl pa).beside = s.beside := by
  refine Eq.trans (b := (if (List.range 8).any fun i => (tget [] s.l2Tags (pa / 256 * 8 + i)).contains cl.asid then s
    else s.makeRoom cl (s.homeSlice pa)).beside) rfl ?_
  split
  · rfl
  · exact makeRoom_beside ..

@[simp] theorem eccEvent_beside (s : State) (pa : Nat) (ecc : Ecc) : (s.eccEvent pa ecc).beside = s.beside := by
  unfold State.eccEvent
  dsimp only
  split <;> simp

@[simp] theorem enterMark_beside (s : State) (pa : Nat) : (s.enterMark pa).beside = s.beside := by
  unfold State.enterMark
  split_ifs <;> simp

@[simp] theorem fillSlice_beside (s : State) (pa : Nat) (ecc : Ecc) : (s.fillSlice pa ecc).beside = s.beside := by
  unfold State.fillSlice
  dsimp only
  split
  · rfl
  · split
    · split
      · exact enterMark_beside s pa
      · rfl
    · refine (enterMark_beside _ pa).trans ?_
      split
      · exact eccEvent_beside s pa ecc
      · rfl

@[simp] theorem needSector_beside (s : State) (cl : Client) (pa : Nat) (ecc : Ecc) :
    (s.needSector cl pa ecc).beside = s.beside := by
  unfold State.needSector
  split <;> simp

@[simp] theorem needSectors_beside (s : State) (cl : Client) (pa n : Nat) (ecc : Ecc) :
    (s.needSectors cl pa n ecc).beside = s.beside :=
  foldl_beside (fun s x => needSector_beside s cl (x * 32) ecc) _ s

@[simp] theorem readSectors_beside (s : State) (pa n : Nat) (ecc : Ecc) :
    (s.readSectors pa n ecc).beside = s.beside := by
  refine foldl_beside (fun s x => ?_) _ s
  split <;> simp

@[simp] theorem homeRead_beside (s : State) (cl : Client) (pa n : Nat) (cached : Bool) (ecc : Ecc) :
    (s.homeRead cl pa n cached ecc).2.2.beside = s.beside := by
  unfold State.homeRead
  dsimp only
  split_ifs <;> simp

/-! #### Writes at their home -/

@[simp] theorem putHost_beside (s : State) (cl : Client) (pa : Nat) (bs : List Byte) :
    (s.putHost cl pa bs).beside = s.beside := by
  refine foldl_beside (fun s x => ?_) _ s
  refine Eq.trans (b := (if s.sliceHas (x * 32) then s
    else (s.fillSlice (x * 32) .clean).countTo cl l2FillIx 1).beside) rfl ?_
  split <;> simp

@[simp] theorem ownWord_beside (s : State) (writer : Option Nat) (w : Nat) :
    (s.ownWord writer w).beside = s.beside := by
  have hrev : ∀ o, (s.modCore o fun c => { c with l1 := tdel c.l1 w }).beside = s.beside := fun o => modCore_beside rfl
  unfold State.ownWord
  cases tfind s.owners w with
  | none => cases writer <;> rfl
  | some o =>
    cases writer <;> dsimp only <;> split
    all_goals first | rfl | exact hrev o

@[simp] theorem touchL1_beside (s : State) (p pa : Nat) : (s.touchL1 p pa).beside = s.beside := by
  unfold State.touchL1
  split
  · exact modCore_beside rfl
  · rfl

@[simp] theorem ownCopy_beside (s : State) (p w : Nat) : (s.ownCopy p w).beside = s.beside := by
  unfold State.ownCopy
  split
  · exact (touchL1_beside _ _ _).trans (modCore_beside rfl)
  · rfl

@[simp] theorem markWrite_beside (s : State) (pa n : Nat) (poisoned : Bool) :
    (s.markWrite pa n poisoned).beside = s.beside := by
  refine foldl_beside (fun s x => ?_) _ s
  split_ifs <;> simp

@[simp] theorem invalidateWord_beside (s : State) (w : Nat) : (s.invalidateWord w).beside = s.beside := rfl

@[simp] theorem takeSectors_beside (s : State) (cl : Client) (pa n : Nat) :
    (s.takeSectors cl pa n).beside = s.beside :=
  by
  refine foldl_beside (fun s x => ?_) _ s
  exact (enterMark_beside _ _).trans (tagSector_beside ..)

@[simp] theorem homeWrite_beside (s : State) (cl : Client) (writer : Option Nat) (pa : Nat) (bs : List Byte)
    (poisoned : Bool) : (s.homeWrite cl writer pa bs poisoned).beside = s.beside := by
  unfold State.homeWrite
  dsimp only
  split
  · exact post_beside ..
  · have hput : (if isHost pa then (s.takeSectors cl pa bs.length).putHost cl pa bs
        else { s.takeSectors cl pa bs.length with
          mem := Mem.write (s.takeSectors cl pa bs.length).mem pa bs
          l2 := (unitsOf 32 pa bs.length).foldl (fun t x => tput t x true) (s.takeSectors cl pa bs.length).l2 }).beside =
        s.beside := by
      split
      · simp
      · exact takeSectors_beside ..
    split
    · rw [foldl_beside (fun s w => ownCopy_beside s _ w), foldl_beside (fun s w => ownWord_beside s _ w),
        markWrite_beside, foldl_beside invalidateWord_beside, hput]
    · rw [foldl_beside (fun s w => ownWord_beside s _ w), markWrite_beside, foldl_beside invalidateWord_beside, hput]

@[simp] theorem plainWrite_beside (s : State) (writer : Option Nat) (pa : Nat) (bs : List Byte) (poisoned : Bool) :
    (s.plainWrite writer pa bs poisoned).beside = s.beside := by
  have hmem : ∀ m, State.beside { s with mem := m } = s.beside := fun _ => rfl
  unfold State.plainWrite
  dsimp only
  split_ifs <;> simp [hmem, foldl_beside, foldl_beside invalidateWord_beside]

@[simp] theorem physWrite_beside (s : State) (cl : Client) (writer : Option Nat) (pa : Nat) (cached : Bool)
    (bs : List Byte) (poisoned : Bool) : (s.physWrite cl writer pa cached bs poisoned).beside = s.beside := by
  unfold State.physWrite
  split <;> simp

end Sys2Proof.Machine
end

section
namespace Sys2Proof.Machine

/-! #### Pools, spots and merged REDs -/

theorem Core.revive_desk (c : Core) (g : Nat) : (c.revive g).desk = c.desk := by
  unfold Core.revive
  split <;> rfl

theorem Core.poolWrite_desk (c : Core) (cyc a : Nat) (bs : List Byte) (bad : Bool) :
    (c.poolWrite cyc a bs bad).desk = c.desk :=
  foldl_leaves Core.desk Core.revive_desk _ (c.wake cyc a bs.length)

@[simp] theorem poolWrite_beside (s : State) (q cyc a : Nat) (bs : List Byte) (bad : Bool) :
    (s.setCore q ((s.core q).poolWrite cyc a bs bad)).beside = s.beside := setCore_beside (Core.poolWrite_desk ..)

@[simp] theorem wake_beside (s : State) (q cyc a n : Nat) :
    (s.setCore q ((s.core q).wake cyc a n)).beside = s.beside := setCore_beside rfl

@[simp] theorem revokeCores_beside (s : State) (cores : List Nat) (writer pa n : Nat) :
    (s.revokeCores cores writer pa n).beside = s.beside := by
  refine foldl_beside (fun s p => ?_) cores s
  split
  · rfl
  · exact modCore_beside rfl

@[simp] theorem performWord_beside (s : State) (e : RedEntry) (cl : Client) (w : Nat × W64 × List Nat) :
    (s.performWord e cl w).beside = s.beside := by
  unfold State.performWord
  dsimp only
  split <;> split_ifs <;> simp

@[simp] theorem performRed_beside (s : State) (e : RedEntry) : (s.performRed e).beside = s.beside :=
  (foldl_beside (fun s (m : Nat × Nat × Nat) => modCtx_beside s m.1 m.2.1 _) e.members _).trans
    (foldl_beside (fun s w => performWord_beside s e _ w) e.words s)

@[simp] theorem flushReds_beside (s : State) (port : Option Nat) (a n : Nat) :
    (s.flushReds port a n).beside = s.beside := foldl_beside performRed_beside _ s

@[simp] theorem flushSpot_beside (s : State) (y : Spot) (n : Nat) : (s.flushSpot y n).beside = s.beside := by
  cases y with
  | mem pa cached => cases cached <;> simp [State.flushSpot]
  | pool q a => exact flushReds_beside ..

@[simp] theorem readAt_beside (s : State) (cl : Client) (y : Spot) (n : Nat) (ecc : Ecc) :
    (s.readAt cl y n ecc).2.2.beside = s.beside := by
  cases y with
  | mem pa cached => exact (homeRead_beside ..).trans (flushSpot_beside ..)
  | pool q a => exact (wake_beside ..).trans (flushSpot_beside ..)

@[simp] theorem writeSpot_beside (s : State) (cl : Client) (writer : Option Nat) (y : Spot) (bs : List Byte)
    (bad : Bool) : (s.writeSpot cl writer y bs bad).beside = s.beside := by
  cases y with
  | mem pa cached => exact (physWrite_beside ..).trans (flushSpot_beside ..)
  | pool q a => exact (poolWrite_beside ..).trans (flushSpot_beside ..)

@[simp] theorem addOne_beside (s : State) (cl : Client) (y : Spot) (n : Nat) :
    (s.addOne cl y n).beside = s.beside := by
  unfold State.addOne
  cases y <;> dsimp only <;> split_ifs <;> simp

/-! #### Translations and the hub's accesses -/

@[simp] theorem setChip_beside (s : State) (n : Nat) (c : Chip) : (s.setChip n c).beside = s.beside := rfl

@[simp] theorem findPage_beside (s : State) (p k : Nat) (fetch : Bool) (asid va : Nat) :
    (s.findPage p k fetch asid va).2.beside = s.beside := by
  have hput : ∀ (u : State) (e : TlbEntry), (u.modCore p fun c =>
      if fetch then { c with itlb := tlbInsert 16 c.itlb e } else { c with dtlb := tlbInsert 64 c.dtlb e }).beside =
      u.beside := fun u e => modCore_beside (by cases fetch <;> rfl)
  unfold State.findPage
  dsimp only
  split
  · rfl
  · split
    · exact hput ..
    · split
      · exact count_beside ..
      · rw [hput, setChip_beside, count_beside]

@[simp] theorem translate_beside (s : State) (p k : Nat) (fetch : Bool) (asid va : Nat) (kind : AccessKind)
    (user : Bool) : (s.translate p k fetch asid va kind user).2.beside = s.beside := by
  have h := findPage_beside s p k fetch asid va
  unfold State.translate
  split
  · rwa [‹s.findPage p k fetch asid va = _›] at h
  · rw [‹s.findPage p k fetch asid va = _›] at h
    split <;> exact h

theorem hubRead_beside {s t : State} {user : Bool} {asid va n : Nat} {bs : List Byte} {bad : Bool}
    (h : s.hubRead user asid va n = .ok (bs, bad, t)) : t.beside = s.beside := by
  unfold State.hubRead at h
  refine List.foldlRecOn (motive := fun acc => ∀ bs bad t, acc = Except.ok (bs, bad, t) → t.beside = s.beside) _ _
    (fun bs bad t h => by cases h; rfl) (fun acc hacc x _ bs bad t h => ?_) bs bad t h
  match acc, hacc with
  | .error c, _ => cases h
  | .ok (bs', bad', u), hacc =>
    dsimp only at h
    split at h
    · cases h
    · cases h
      rw [homeRead_beside, flushSpot_beside]
      exact hacc _ _ _ rfl

@[simp] theorem hubWrite_beside (s : State) (asid va : Nat) (bs : List Byte) :
    (s.hubWrite asid va bs).beside = s.beside := by
  refine foldl_beside (fun s x => ?_) _ s
  dsimp only
  split
  · rfl
  · split
    · rw [foldl_beside fun s y => writebackSector_beside s (32 * y), writeSpot_beside]
    · simp

@[simp] theorem writeCompletion_beside (s : State) (r : Rec) (q n : Nat) (bs : List Byte) :
    (s.writeCompletion r q n bs).beside = s.beside := by
  unfold State.writeCompletion
  dsimp only
  split
  · rfl
  · split <;> simp

@[simp] theorem addDone_beside (s : State) (asid va amount detail : Nat) :
    (s.addDone asid va amount detail).beside = s.beside := by
  unfold State.addDone
  split
  · rfl
  · split
    · split
      · split <;> simp
      · rfl
    · simp

/-! #### Engines' accesses -/

@[simp] theorem engineFlush_beside (s : State) (p k : Nat) : (s.engineFlush p k).beside = s.beside :=
  (countEngine_beside ..).trans (writebackHost_beside s)

@[simp] theorem addSignature_beside (s : State) (p : Nat) (h : W64) :
    (s.modTeam p fun t => { t with pairSig := t.pairSig + h }).beside = s.beside := setCore_beside rfl

@[simp] theorem pairTerm_beside (s : State) (p kind addr data : Nat) :
    (s.pairTerm p kind addr data).beside = s.beside := by
  unfold State.pairTerm
  split
  · rfl
  · exact addSignature_beside ..

@[simp] theorem pairDwords_beside (s : State) (p va : Nat) (bs : List Byte) :
    (s.pairDwords p va bs).beside = s.beside := by
  unfold State.pairDwords
  split
  · rfl
  · exact foldl_beside (fun s i => pairTerm_beside s p 3 _ _) _ s

@[simp] theorem engineTerms_beside (s : State) (p va : Nat) (bs : List Byte) :
    (s.engineTerms p va bs).beside = s.beside := pairDwords_beside ..

@[simp] theorem needLine_beside (s : State) (cl : Client) (pins : List TlbEntry) (r : Rec) (tag : TensorTag) (pa : Nat) :
    (s.needLine cl pins r tag pa).beside = s.beside := by
  unfold State.needLine
  split
  · rfl
  · exact makeRoom_beside ..

@[simp] theorem setTensorLine_beside (s : State) (l : TensorLine) : (s.setTensorLine l).beside = s.beside := rfl

@[simp] theorem fillTile_beside (s : State) (cl : Client) (pins : List TlbEntry) (r : Rec) (l : TensorLine) (n : Nat) :
    (s.fillTile cl pins r l n).beside = s.beside := rfl

@[simp] theorem readTile_beside (s : State) (cl : Client) (pins : List TlbEntry) (r : Rec) (tag : TensorTag)
    (off n pa : Nat) : (s.readTile cl pins r tag off n pa).2.2.beside = s.beside := by
  unfold State.readTile
  dsimp only
  split
  · split <;> simp
  · simp

@[simp] theorem writeTile_beside (s : State) (cl : Client) (pins : List TlbEntry) (r : Rec) (tag : TensorTag)
    (off pa : Nat) (bs : List Byte) (bad : Bool) : (s.writeTile cl pins r tag off pa bs bad).beside = s.beside := by
  unfold State.writeTile
  dsimp only
  split <;> simp

@[simp] theorem tensorRead_beside (s : State) (cl : Client) (pins : List TlbEntry) (r : Rec) (id va pa n : Nat)
    (ecc : Ecc) : (s.tensorRead cl pins r id va pa n ecc).2.2.beside = s.beside := by
  refine foldl_leaves (fun acc : List Byte × Bool × State => acc.2.2.beside) (fun acc x => ?_) _ _
  dsimp only
  split <;> simp

@[simp] theorem tensorNote_beside (s : State) (cl : Client) (pins : List TlbEntry) (r : Rec) (id va pa : Nat)
    (bs : List Byte) (bad : Bool) : (s.tensorNote cl pins r id va pa bs bad).beside = s.beside := by
  refine foldl_beside (fun s x => ?_) _ s
  split <;> simp

theorem engineReadPart_beside {s t : State} {p : Nat} {c : Command} {tid : Nat} {x y : Snap} {va n : Nat}
    (h : s.engineReadPart p c tid x va n = .ok (y, t)) : t.beside = s.beside := by
  unfold State.engineReadPart at h
  split at h
  · cases h
    rfl
  · split at h
    case h_1 | h_2 => cases h
    case h_3 =>
      split at h
      · split at h <;> cases h
        exact readAt_beside s (s.engineClient p c.ctx) (.pool _ _) n .clean
      · dsimp only at h
        split at h <;> cases h <;> simp

theorem engineReadParts_beside {s t : State} {p : Nat} {c : Command} {tid : Nat} {l : List (Nat × Nat)} {x y : Snap}
    (h : s.engineReadParts p c tid l x = .ok (y, t)) : t.beside = s.beside := by
  induction l generalizing s x with
  | nil =>
    cases h
    rfl
  | cons a l ih =>
    unfold State.engineReadParts at h
    split at h
    case h_1 | h_2 => cases h
    case h_3 hpart => exact (ih h).trans (engineReadPart_beside hpart)

theorem engineRead_beside {s t : State} {p : Nat} {c : Command} {tid : Nat} {runs : List (Nat × Nat)} {y : Snap}
    (h : s.engineRead p c tid runs = .ok (y, t)) : t.beside = s.beside := engineReadParts_beside h

theorem indexArray_beside {s t : State} {p : Nat} {c : Command} {y : Snap} (h : s.indexArray p c = .ok (y, t)) :
    t.beside = s.beside := by
  unfold State.indexArray at h
  split at h
  · cases h
    rfl
  · exact engineRead_beside h

theorem Core.opmemWrite_desk (c : Core) (off : Nat) (bs : List Byte) (bad : Bool) :
    (c.opmemWrite off bs bad).desk = c.desk := rfl

theorem engineWriteRun_beside {s t : State} {p : Nat} {c : Command} {va : Nat} {bs : List Byte} {bad : Bool}
    (h : s.engineWriteRun p c va bs bad = .ok t) : t.beside = s.beside := by
  have hl1 : ∀ (u : State) (ws : List Nat), (u.modCore p fun k => { k with l1 := ws.foldl tdel k.l1 }).beside =
      u.beside := fun u ws => modCore_beside rfl
  unfold State.engineWriteRun at h
  dsimp only at h
  split at h
  · cases h
    split <;> simp
  · split at h
    · cases h
      exact modCore_beside (Core.opmemWrite_desk ..)
    · split at h
      case h_1 | h_2 => cases h
      case h_3 =>
        split at h
        · split at h <;> cases h <;> [skip; split] <;> simp
        · cases h
          split
          · simp
          · rw [hl1]
            split
            · split <;> simp
            · simp

theorem engineWriteRuns_beside {s t : State} {p : Nat} {c : Command} {x : Nat} {bad : Bool}
    {l : List (Nat × List Byte)} (h : s.engineWriteRuns p c x bad l = .ok t) : t.beside = s.beside := by
  induction l generalizing s with
  | nil =>
    cases h
    rfl
  | cons a l ih =>
    unfold State.engineWriteRuns at h
    split at h
    · exact (ih h).trans (engineWriteRun_beside ‹_›)
    · rename_i hno
      exact absurd h (hno t)

theorem engineWrite_beside {s t : State} {p : Nat} {c : Command} {outs : List OutByte} {l : List Nat}
    (h : s.engineWrite p c outs l = .ok t) : t.beside = s.beside := by
  induction l generalizing s with
  | nil =>
    cases h
    rfl
  | cons a l ih =>
    unfold State.engineWrite at h
    dsimp only at h
    split at h
    · exact (ih h).trans (engineWriteRuns_beside ‹_›)
    · rename_i hno
      exact absurd h (hno t)

/-! #### What equal desks share -/

theorem core_desk_of_beside {s t : State} (h : t.beside = s.beside) (p : Nat) : (t.core p).desk = (s.core p).desk :=
  congrFun (congrArg Beside.core h) p

theorem Core.team_of_desk {c d : Core} (h : c.desk = d.desk) :
    ({ c.team with ctxs := [], pairSig := 0 } : Team) = { d.team with ctxs := [], pairSig := 0 } :=
  congrArg Core.team h

theorem resident_of_beside {s t : State} (h : t.beside = s.beside) (p : Nat) :
    (t.core p).resident = (s.core p).resident := (congrArg Core.resident (core_desk_of_beside h p) :)

theorem encodes_of_beside {s t : State} (h : t.beside = s.beside) (p : Nat) :
    (t.core p).encodes = (s.core p).encodes := (congrArg Core.encodes (core_desk_of_beside h p) :)

theorem team_queues_of_beside {s t : State} (h : t.beside = s.beside) (p : Nat) :
    (t.team p).queues = (s.team p).queues := (congrArg Team.queues (Core.team_of_desk (core_desk_of_beside h p)) :)

theorem team_queue_of_beside {s t : State} (h : t.beside = s.beside) (p q : Nat) :
    (t.team p).queue q = (s.team p).queue q := congrArg (tget EngineQueue.empty · q) (team_queues_of_beside h p)

theorem team_rings_of_beside {s t : State} (h : t.beside = s.beside) (p : Nat) :
    (t.team p).rings = (s.team p).rings := (congrArg Team.rings (Core.team_of_desk (core_desk_of_beside h p)) :)

theorem team_events_of_beside {s t : State} (h : t.beside = s.beside) (p : Nat) :
    (t.team p).events = (s.team p).events := (congrArg Team.events (Core.team_of_desk (core_desk_of_beside h p)) :)

end Sys2Proof.Machine
end

section
namespace Sys2Proof.Machine

/-! ### Commands at their places in a queue (R265, R349) -/

/-- The next command to start stands at its position. -/
theorem nextStart_getElem {l : List Command} {n i : Nat} {c : Command} (h : EngineQueue.nextStart l n = some (i, c)) :
    ∃ j, i = n + j ∧ l[j]? = some c := by
  induction l generalizing n with
  | nil => cases h
  | cons a l ih =>
    unfold EngineQueue.nextStart at h
    split_ifs at h
    · cases h
      exact ⟨0, rfl, rfl⟩
    · obtain ⟨j, hj, hl⟩ := ih h
      exact ⟨j + 1, by omega, hl⟩

/-- The command whose data step runs stands at its position. -/
theorem atData_getElem {l : List Command} {n i : Nat} {c : Command} (h : EngineQueue.atData l n = some (i, c)) :
    ∃ j, i = n + j ∧ l[j]? = some c := by
  induction l generalizing n with
  | nil => cases h
  | cons a l ih =>
    unfold EngineQueue.atData at h
    split_ifs at h
    · cases h
      exact ⟨0, rfl, rfl⟩
    · obtain ⟨j, hj, hl⟩ := ih h
      exact ⟨j + 1, by omega, hl⟩

theorem setCmd_getElem {e : EngineQueue} {i : Nat} {c : Command} (h : e.cmds[i]? = some c) (d : Command) :
    (e.setCmd i d).cmds[i]? = some d := by
  have hi : i < e.cmds.length := (List.getElem?_eq_some_iff.1 h).1
  simp [EngineQueue.setCmd, hi]

/-- A command without the moment at which it began to wait. -/
def Command.ageless (c : Command) : Command := { c with waitSince := 0 }

/-- A stamp changes at most the moment at which a command of the queue began to wait. -/
theorem stamp_queue (t : Team) (q : Nat) : ∃ l, (t.stamp q).queue q = { t.queue q with cmds := l } ∧
    l.map Command.ageless = (t.queue q).cmds.map Command.ageless := by
  unfold Team.stamp
  dsimp only
  split
  next i c hn =>
    split
    · obtain ⟨j, hj, hc⟩ := nextStart_getElem hn
      obtain rfl : i = j := by omega
      refine ⟨_, Team.queue_setQueue_same .., ?_⟩
      rw [List.map_set]
      refine List.ext_getElem? fun k => ?_
      rw [List.getElem?_set]
      split_ifs with hik hlt
      · subst hik
        simp [hc, Command.ageless]
      · exact (List.getElem?_eq_none (hik ▸ Nat.le_of_not_lt hlt)).symm
      · rfl
    · exact ⟨_, rfl, rfl⟩
  next => exact ⟨_, rfl, rfl⟩

/-- What does not look at that moment is as it was. -/
theorem map_of_ageless {α : Type} {l m : List Command} (h : l.map Command.ageless = m.map Command.ageless)
    {f : Command → α} (hf : ∀ c, f c.ageless = f c) : l.map f = m.map f := by
  have hfun : ∀ k : List Command, k.map f = (k.map Command.ageless).map f := fun k => by
    rw [List.map_map]
    exact List.map_congr_left fun c _ => (hf c).symm
  rw [hfun, h, ← hfun]

theorem getElem_of_ageless {l m : List Command} (h : l.map Command.ageless = m.map Command.ageless) {i : Nat}
    {c : Command} (hc : m[i]? = some c) : ∃ d, l[i]? = some d ∧ d.ageless = c.ageless := by
  have hi := congrArg (·[i]?) h
  simp only [List.getElem?_map, hc, Option.map_some, Option.map_eq_some_iff] at hi
  exact hi

theorem haltQueue_eq {s : State} {p : Nat} (h : (s.team p).allHalted = false) (q serial cause value : Nat) :
    s.haltQueue p q serial cause value = s.modTeam p fun t => t.setQueue q { t.queue q with
      halt := true
      haltAt := serial
      fault := BitVec.ofNat 64 (cause * 2 ^ 56 + value % 2 ^ 56) } := by
  refine if_neg ?_
  rw [State.team_modTeam_same]
  exact Bool.eq_false_iff.1 h

/-! ### Counters taken and signalled (R80, R350) -/

theorem mem_maskBits {m n : Nat} (h : n < 32) : n ∈ maskBits m ↔ bit m n = true := by
  simp [maskBits, h]

theorem maskBits_nodup (m : Nat) : (maskBits m).Nodup := List.nodup_range.filter _

theorem event_setEvent_other (t : Team) {n r : Nat} (x : Nat) (h : r ≠ n) : (t.setEvent n x).event r = t.event r :=
  tget_tput_other _ _ _ _ _ h

/-- A step of a command's start takes 1 from a counter. -/
def takeOne (t : Team) (n : Nat) : Team := t.setEvent n (t.event n - 1)

/-- Counters taken from change nothing else. -/
theorem takes_other {α : Type} (g : Team → α) (hg : ∀ t n x, g (t.setEvent n x) = g t) (l : List Nat) (t : Team) :
    g (l.foldl takeOne t) = g t := foldl_leaves g (fun t n => hg t n _) l t

theorem takes_event {l : List Nat} (hl : l.Nodup) (t : Team) (r : Nat) :
    (l.foldl takeOne t).event r = t.event r - if r ∈ l then 1 else 0 := by
  induction l generalizing t with
  | nil => rfl
  | cons n l ih =>
    obtain ⟨hn, hl⟩ := List.nodup_cons.1 hl
    rw [List.foldl_cons, ih hl, takeOne]
    by_cases h : r = n
    · subst h
      simp [hn]
    · simp [event_setEvent_other _ _ h, h]

theorem signalOne_of_lt {k n : Nat} {t : Team} (h : t.event n < 0xFFFF) :
    signalOne k t n = t.setEvent n (t.event n + 1) := if_pos h

theorem signals_event {k : Nat} {l : List Nat} (hl : l.Nodup) {t : Team} (h : ∀ n ∈ l, t.event n < 0xFFFF) (r : Nat) :
    (l.foldl (signalOne k) t).event r = t.event r + if r ∈ l then 1 else 0 := by
  induction l generalizing t with
  | nil => rfl
  | cons n l ih =>
    obtain ⟨hn, hl⟩ := List.nodup_cons.1 hl
    have hother : ∀ m, m ≠ n → (t.setEvent n (t.event n + 1)).event m = t.event m :=
      fun m hm => event_setEvent_other _ _ hm
    rw [List.foldl_cons, signalOne_of_lt (h n List.mem_cons_self), ih hl]
    · by_cases hr : r = n
      · subst hr
        simp [hn]
      · simp [hother r hr, hr]
    · intro m hm
      rw [hother m fun e => hn (e ▸ hm)]
      exact h m (List.mem_cons_of_mem _ hm)

theorem signals_rings (k : Nat) (l : List Nat) (t : Team) : (l.foldl (signalOne k) t).rings = t.rings := by
  refine foldl_leaves Team.rings (fun t n => ?_) l t
  unfold signalOne
  split <;> rfl

/-! ### Ring actions (R78, R345) -/

/-- The action before a command's start, on two teams with the same rings. -/
theorem preStart_congr {t u : Team} (h : t.rings = u.rings) (r : Rec) :
    (preStart t r).1.rings = (preStart u r).1.rings ∧ (preStart t r).2 = (preStart u r).2 := by
  have hg : t.ring (cmdRing r) = u.ring (cmdRing r) := congrArg (tget Ring.unset · _) h
  unfold preStart
  dsimp only
  split <;> simp [hg, h, Team.setRing]

theorem preStart_other (t : Team) (r : Rec) : (preStart t r).1 = { t with rings := (preStart t r).1.rings } := by
  unfold preStart
  dsimp only
  split <;> rfl

theorem queue_setRing_setQueue (t : Team) (q n : Nat) (e : EngineQueue) (g : Ring) :
    ((t.setQueue q e).setRing n g).queue q = e := Team.queue_setQueue_same t q e

/-- The action after a command's data leaves counters, and of the queues the commands and the flags. -/
theorem postRetire_leaves {t u : Team} {q : Nat} {c : Command} (h : postRetire t q c = some u) :
    u.events = t.events ∧ (u.queue q).cmds = (t.queue q).cmds ∧ (u.queue q).flag = (t.queue q).flag := by
  unfold postRetire at h
  dsimp only at h
  split at h
  case h_1 | h_2 =>
    split at h
    · split at h <;> cases h
      rw [queue_setRing_setQueue]
      exact ⟨rfl, rfl, rfl⟩
    · cases h
  case h_3 | h_4 =>
    split at h <;> cases h
    exact ⟨rfl, rfl, rfl⟩
  case h_5 =>
    cases h
    exact ⟨rfl, rfl, rfl⟩

/-! ### COMMAND_START, COMMAND_RETIRE, CHAIN_FETCH (R80, R270) -/

/-- A command as its start leaves it. -/
def Command.begun (c : Command) (slot : Option Nat) : Command := { c with started := true, slot := slot }

/-- The slots that a queue keeps for its later commands once a command has started (R345). -/
def EngineQueue.keeps (e : EngineQueue) (c : Command) (slot : Option Nat) : List Obtained :=
  match cmdRact c.bytes, slot with
  | 3, some x => e.obtained ++ [⟨cmdRing c.bytes, true, x, c.serial⟩]
  | 4, some x => e.obtained ++ [⟨cmdRing c.bytes, false, x, c.serial⟩]
  | _, _ => e.obtained

/-- The team once a command's counters are taken and its ring action made. -/
def Team.taken (t : Team) (r : Rec) : Team := (preStart ((maskBits (cmdWaitMask r)).foldl takeOne t) r).1

theorem taken_event (t : Team) (r : Rec) {n : Nat} (h : n < 32) :
    (t.taken r).event n = t.event n - if bit (cmdWaitMask r) n then 1 else 0 := by
  rw [Team.taken, preStart_other]
  exact (takes_event (maskBits_nodup _) t n).trans (by simp only [mem_maskBits h])

theorem taken_rings (t : Team) (r : Rec) : (t.taken r).rings = (preStart t r).1.rings :=
  (preStart_congr (takes_other Team.rings (fun _ _ _ => rfl) _ t) r).1

theorem taken_ctxs (t : Team) (r : Rec) : (t.taken r).ctxs = t.ctxs := by
  rw [Team.taken, preStart_other]
  exact takes_other Team.ctxs (fun _ _ _ => rfl) _ t

section
variable {s : State} {p q i : Nat} {c : Command} (hr : (s.core p).resident = true)
  (hh : ((s.team p).queue q).halt = false) (hn : EngineQueue.nextStart ((s.team p).queue q).cmds 0 = some (i, c))
include hr hh hn

theorem commandStart_next (hf : c.fail = none) (href : c.refetches = false)
    (henc : (s.core p).encodesAhead q c.serial = false)
    (hset : cmdRact c.bytes ≠ 0 → ((s.team p).ring (cmdRing c.bytes)).isSet = true)
    (hready : cmdReady (s.team p) c.bytes = true)
    (hpace : ((s.team p).queue q).lastStart + 3 * ((s.team p).queue q).pace.toNat ≤ s.now)
    (hearly : (s.team p).earlierWaiter c.waitSince (maskBits (cmdWaitMask c.bytes)) = false)
    (hfab : s.fabricStart c.bytes = none) : exec (.commandStart p q) s = .next (s.setTeam p
      (((s.team p).taken c.bytes).setQueue q
        { ((s.team p).queue q).setCmd i (c.begun (preStart (s.team p) c.bytes).2) with
          lastStart := s.now
          obtained := ((s.team p).queue q).keeps c (preStart (s.team p) c.bytes).2 })) := by
  have hslot := (preStart_congr (takes_other Team.rings (fun _ _ _ => rfl) (maskBits (cmdWaitMask c.bytes))
    (s.team p)) c.bytes).2
  have hringset : ¬ ((cmdRact c.bytes != 0 && !((s.team p).ring (cmdRing c.bytes)).isSet) = true) := by
    simpa using hset
  have hgo : ¬ ((decide (s.now < ((s.team p).queue q).lastStart + 3 * ((s.team p).queue q).pace.toNat) ||
      !cmdReady (s.team p) c.bytes ||
      (s.team p).earlierWaiter c.waitSince (maskBits (cmdWaitMask c.bytes))) = true) := by
    simpa [hready, hearly] using hpace
  have hfresh : ∀ slot, ({ c with started := true, slot := slot, fail := none } : Command) = c.begun slot := fun _ => by
    rw [← hf]
    rfl
  refine congrArg Host.Outcome.next ?_
  simp only [hr, hh, hn, hf, href, henc, hringset, hgo, hfab, Bool.not_true, Bool.or_self, Bool.false_eq_true,
    ↓reduceIte]
  rw [← hslot, ← hfresh]
  rfl

theorem commandStart_fails {cause : Nat} {v : W64} (hf : c.fail = some (cause, v)) (ha : (s.team p).allHalted = false) :
    ∃ t, exec (.commandStart p q) s = .next t ∧ t.mem = s.mem ∧ ((t.team p).queue q).halt = true ∧
      ((t.team p).queue q).fault = BitVec.ofNat 64 (cause * 2 ^ 56 + v.toNat % 2 ^ 56) := by
  refine ⟨s.haltQueue p q c.serial cause v.toNat, congrArg Host.Outcome.next ?_, ?_⟩
  · simp only [hr, hh, hn, hf, Bool.not_true, Bool.or_self, Bool.false_eq_true, ↓reduceIte]
  · rw [haltQueue_eq ha, State.team_modTeam_same, Team.queue_setQueue_same]
    exact ⟨rfl, rfl, rfl⟩

end

theorem completeWord_none {s : State} {p : Nat} {c : Command} (ha : c.away = []) (hw : cmdCplw c.bytes = 0) :
    s.completeWord p c = .done s := by
  simp [State.completeWord, ha, hw]

theorem dequeued_flag (e : EngineQueue) (c : Command) : (e.dequeued c).flag = e.flag := by
  unfold EngineQueue.dequeued
  split <;> rfl

/-- What a command's departure leaves: its flags and signals are added, rings stay. -/
theorem retireHead_team (s : State) (p q : Nat) (c : Command) :
    (((s.retireHead p q c).team p).queue q).flag = ((s.team p).queue q).flag ||| c.flags ∧
    ((s.retireHead p q c).team p).rings = (s.team p).rings ∧
    ∃ k, ((s.retireHead p q c).team p).events =
      ((maskBits (cmdSigMask c.bytes)).foldl (signalOne k) (s.team p)).events := by
  unfold State.retireHead
  dsimp only
  rw [State.team_setTeam_same, Team.queue_setQueue_same, dequeued_flag, Team.queue, signals_queues]
  exact ⟨rfl, signals_rings _ _ _, _, rfl⟩

theorem commandRetire_retires {s : State} {p q : Nat} {c : Command} {rest : List Command} {u : Team}
    (hr : (s.core p).resident = true)
    (hh : ((s.team p).queue q).halt = false ∨ c.serial ≠ ((s.team p).queue q).haltAt)
    (hq : ((s.team p).queue q).cmds = c :: rest) (hs : c.started = true) (hd : c.dataDone = true)
    (hring : c.ringDone = false) (hk : c.kickClear (s.team p) = true) (ha : c.away = [])
    (hu : postRetire (s.team p) q c = some u) (hw : cmdCplw c.bytes = 0)
    (hev : ∀ n, n < 32 → (s.team p).event n < 0xFFFF) :
    ∃ t, exec (.commandRetire p q) s = .next t ∧ ((t.team p).queue q).cmds = rest ∧
      ((t.team p).queue q).flag = ((s.team p).queue q).flag ||| c.flags ∧ (∀ n, (t.team p).ring n = u.ring n) ∧
      (∀ n, n < 32 → (t.team p).event n = (s.team p).event n + (if bit (cmdSigMask c.bytes) n then 1 else 0)) := by
  have hgo : (!(s.core p).resident || (((s.team p).queue q).halt && c.serial == ((s.team p).queue q).haltAt) ||
      !c.started || !c.dataDone || !c.kickClear (s.team p)) = false := by
    rcases hh with h | h <;> simp [h, hr, hs, hd, hk]
  obtain ⟨hevents, hcmds, hflag⟩ := postRetire_leaves hu
  let m := u.setQueue q ((u.queue q).setCmd 0 { c with ringDone := true })
  let v := (s.setTeam p m).engineFlush p c.ctx
  have hv : v.beside = (s.setTeam p m).beside := engineFlush_beside ..
  have hm : (s.setTeam p m).team p = m := State.team_setTeam_same ..
  have hvq : (v.team p).queue q = (u.queue q).setCmd 0 { c with ringDone := true } := by
    rw [team_queue_of_beside hv, hm]
    exact Team.queue_setQueue_same ..
  have hve : (v.team p).events = (s.team p).events := (team_events_of_beside hv p).trans (by rw [hm]; exact hevents)
  have hvr : (v.team p).rings = u.rings := (team_rings_of_beside hv p).trans (by rw [hm]; rfl)
  obtain ⟨hf, hrings, k, hsig⟩ := retireHead_team v p q c
  refine ⟨v.retireHead p q c, congrArg Host.Outcome.next ?_, ?_, ?_, fun n => ?_, fun n hn => ?_⟩
  · simp only [hq, hgo, hring, hu, completeWord_none ha hw, Bool.false_eq_true, ↓reduceIte]
    rfl
  · rw [retireHead_cmds, hvq, EngineQueue.setCmd, hcmds, hq]
    rfl
  · rw [hf, hvq]
    exact congrArg (· ||| c.flags) hflag
  · exact congrArg (tget Ring.unset · n) (hrings.trans hvr)
  · have hvn : ∀ r, (v.team p).event r = (s.team p).event r := fun r => congrArg (tget 0 · r) hve
    refine (congrArg (tget 0 · n) hsig).trans ((signals_event (maskBits_nodup _) (fun r hr => ?_) n).trans ?_)
    · rw [hvn]
      exact hev r (List.mem_range.1 (List.mem_filter.1 hr).1)
    · rw [hvn]
      simp only [mem_maskBits hn]

/-- A command appended to a queue stands at its end; nothing else of the queue that a fetch uses changes. -/
theorem appendCmd_queue (t : Team) (q : Nat) (c : Command) :
    ((t.appendCmd q c).queue q).cmds.map Command.bytes = (t.queue q).cmds.map Command.bytes ++ [c.bytes] ∧
    ((t.appendCmd q c).queue q).act = (t.queue q).act := by
  obtain ⟨l, hl, hmap⟩ := stamp_queue (t.setQueue q { t.queue q with
    cmds := (t.queue q).cmds ++ [{ c with serial := (t.queue q).nextSerial }]
    nextSerial := (t.queue q).nextSerial + 1 }) q
  rw [Team.queue_setQueue_same] at hl hmap
  refine ⟨(congrArg (fun e => e.cmds.map Command.bytes) hl).trans ?_, (congrArg EngineQueue.act hl :)⟩
  rw [map_of_ageless hmap fun _ => rfl, List.map_append]
  rfl

theorem chainFetch_appends {s s1 s2 : State} {p q : Nat} {r : Rec} {pins : List TlbEntry}
    (hr : (s.core p).resident = true) (hact : ((s.team p).queue q).act = true)
    (hocc : ((s.team p).queue q).occ < 16)
    (hcmds : (((s.team p).queue q).cmds.all fun c => c.fail.isNone && !c.refetches) = true)
    (henq : (s.team p).enqWaits q = false)
    (hstores : ((s.team p).ctx ((s.team p).queue q).kicker).storesBefore ((s.team p).queue q).kickSeq = true)
    (hfetch : s.fetchCommand p ((s.team p).queue q).kicker ((s.team p).queue q).next = .ok (r, s1))
    (hcheck : s1.checkFetched p ((s.team p).queue q).kicker q ((s.team p).queue q).next r = (.ok pins, s2))
    (hfit : s2.pinsFit p pins = true) :
    ∃ t, exec (.chainFetch p q) s = .next t ∧ t.mem = s2.mem ∧
      ((t.team p).queue q).cmds.map Command.bytes = ((s2.team p).queue q).cmds.map Command.bytes ++ [r] ∧
      ((t.team p).queue q).act = (((s2.team p).queue q).act && cmdChain r) ∧
      (cmdChain r = true → ((t.team p).queue q).next = cmdNext r) := by
  have hagain : ((s.team p).queue q).cmds.find? Command.refetches = none := by
    refine List.find?_eq_none.2 fun c hc => ?_
    have h := List.all_eq_true.1 hcmds c hc
    simp_all
  have hnofail : (((s.team p).queue q).cmds.any fun c => c.fail.isSome) = false := by
    refine List.any_eq_false.2 fun c hc => ?_
    have h := List.all_eq_true.1 hcmds c hc
    simp_all
  have hroom : ¬ 16 ≤ ((s.team p).queue q).occ := by omega
  let c : Command := { Command.fresh r ((s.team p).queue q).kicker pins ((s.team p).queue q).kickSeq
    (!(s.team p).supLaunch) with chained := true, addr := ((s.team p).queue q).next, fail := none }
  obtain ⟨hbytes, hkept⟩ := appendCmd_queue (s2.team p) q c
  refine ⟨s2.modTeam p fun t => if cmdChain r then
    (t.appendCmd q c).setQueue q { (t.appendCmd q c).queue q with next := cmdNext r }
    else (t.appendCmd q c).setQueue q { (t.appendCmd q c).queue q with act := false },
    congrArg Host.Outcome.next ?_, rfl, ?_⟩
  · simp only [hr, hact, hagain, hroom, hnofail, henq, hstores, hfetch, hcheck, hfit, Bool.not_true, Bool.or_self,
      Bool.false_and, Bool.false_eq_true, decide_false, ↓reduceIte]
    rfl
  · rw [State.team_modTeam_same]
    cases cmdChain r with
    | false =>
      rw [if_neg Bool.false_ne_true, Team.queue_setQueue_same]
      exact ⟨hbytes, (Bool.and_false _).symm, fun h => absurd h Bool.false_ne_true⟩
    | true =>
      rw [if_pos rfl, Team.queue_setQueue_same]
      exact ⟨hbytes, hkept.trans (Bool.and_true _).symm, fun _ => rfl⟩

end Sys2Proof.Machine

namespace Sys2Proof.Laws
open Machine

/-- Settles O38: a start takes its counters and its ring action at once, a retirement passes its flush and its absent
completion word, and a fetch appends what it read. -/
theorem commandsStartAndRetire : Obligations.CommandsStartAndRetire := by
  unfold Obligations.CommandsStartAndRetire
  refine ⟨fun s p q i c hr hh hn => ⟨fun hf href henc hset hready hpace hearly hfab => ?_, fun cause v hf ha =>
    commandStart_fails hr hh hn hf ha⟩, fun s p q c rest u => commandRetire_retires, fun s s1 s2 p q r pins =>
    chainFetch_appends⟩
  obtain ⟨j, hj, hc⟩ := nextStart_getElem hn
  obtain rfl : i = j := by omega
  refine ⟨_, c.begun (preStart (s.team p) c.bytes).2,
    commandStart_next hr hh hn hf href henc hset hready hpace hearly hfab, rfl, ?_⟩
  simp only [State.ctx, State.team_setTeam_same, Team.queue_setQueue_same]
  refine ⟨fun n => taken_event (s.team p) c.bytes, fun n => congrArg (tget Ring.unset · n) (taken_rings _ _),
    setCmd_getElem hc _, rfl, rfl, rfl, trivial, fun k => congrArg (tget Ctx.start · k) (taken_ctxs _ _)⟩

end Sys2Proof.Laws
end

section
namespace Sys2Proof.Machine

/-! ### A whole data step (R65, R80, R268) -/

/-- The command whose data step runs stands at its place of a queue that does not halt. -/
theorem dataCommand_getElem {s : State} {p q kind i : Nat} {c : Command} (h : s.dataCommand p q kind = some (i, c)) :
    ((s.team p).queue q).cmds[i]? = some c := by
  unfold State.dataCommand at h
  dsimp only at h
  split at h
  · cases h
  · split at h
    · split at h <;> cases h
      obtain ⟨j, hj, hc⟩ := atData_getElem ‹_›
      rwa [show i = j by omega]
    · cases h

/-- What a data step leaves of its command. -/
theorem dataDone_command {u : State} {p q i : Nat} {a c : Command} (ha : ((u.team p).queue q).cmds[i]? = some a)
    (xs ys : List Nat) (fl : BitVec 8) : ∃ y, (((u.dataDone p q i c xs ys fl).team p).queue q).cmds[i]? = some y ∧
      y.dataDone = ys.all (c.doneSectors ++ xs.filter fun x => !c.doneSectors.contains x).contains ∧
      y.bytes = c.bytes ∧ y.flags = c.flags ||| fl := by
  unfold State.dataDone
  dsimp only
  rw [State.team_modTeam_same]
  obtain ⟨l, hl, hmap⟩ := stamp_queue ((u.team p).setQueue q (((u.team p).queue q).setCmd i { c with
    doneSectors := c.doneSectors ++ xs.filter fun x => !c.doneSectors.contains x
    away := if (u.team p).suppressed then c.away
      else c.away ++ (u.awayOf c.bytes xs).filter fun k => !c.away.contains k
    dataDone := ys.all (c.doneSectors ++ xs.filter fun x => !c.doneSectors.contains x).contains
    flags := c.flags ||| fl })) q
  rw [Team.queue_setQueue_same] at hl hmap
  obtain ⟨y, hy, hage⟩ := getElem_of_ageless hmap (setCmd_getElem ha _)
  rw [hl]
  exact ⟨y, hy, (congrArg Command.dataDone hage :), (congrArg Command.bytes hage :), (congrArg Command.flags hage :)⟩

/-- A step that takes all that is left of a command not begun ends it. -/
theorem dataDone_whole {u : State} {p q i : Nat} {a c : Command} (ha : ((u.team p).queue q).cmds[i]? = some a)
    (hc : c.doneSectors = []) (xs : List Nat) (fl : BitVec 8) :
    ∃ y, (((u.dataDone p q i c xs xs fl).team p).queue q).cmds[i]? = some y ∧ y.dataDone = true ∧ y.bytes = c.bytes ∧
      y.flags = c.flags ||| fl := by
  obtain ⟨y, hy, hdone, hbytes, hflags⟩ := dataDone_command ha xs xs fl (c := c)
  refine ⟨y, hy, hdone.trans (List.all_eq_true.2 fun x hx => ?_), hbytes, hflags⟩
  simpa [hc] using hx

theorem dataDone_ended {u : State} {p q i : Nat} {a c : Command} (ha : ((u.team p).queue q).cmds[i]? = some a)
    (hc : c.doneSectors = []) (xs : List Nat) (fl : BitVec 8) :
    (u.dataDone p q i c xs xs fl).dataEnded p q i c.bytes := by
  obtain ⟨y, hy, hdone, hbytes, -⟩ := dataDone_whole ha hc xs fl
  exact ⟨y, hy, hdone, hbytes⟩

/-! #### Rows that hold elements and rows that hold none (R64, R65) -/

theorem elemBits_pos (f : Fmt) : 0 < elemBits f := by cases f <;> decide

theorem rowBytes_pos {d : Side} (h : 0 < d.ext 0) : 0 < d.rowBytes := by
  have hw := elemBits_pos d.fmt
  have hb : 0 < blocksOf (d.ext 0) := by
    unfold blocksOf
    omega
  have he : 0 < d.ext 0 * elemBits d.fmt := Nat.mul_pos h hw
  unfold Side.rowBytes
  dsimp only
  split
  · exact Nat.mul_pos hb (by omega)
  · split
    · exact Nat.mul_pos hb (by omega)
    · omega

theorem rowBytes_zero {d : Side} (h : d.ext 0 = 0) : d.rowBytes = 0 := by
  simp [Side.rowBytes, h, blocksOf]

theorem rowSectors_nonempty {d : Side} (h : 0 < d.ext 0) (w : Row) : ∃ x, x ∈ rowSectors d w := by
  have hb : d.rowBytes ≠ 0 := Nat.ne_of_gt (rowBytes_pos h)
  refine ⟨d.rowAddr w / 32, List.mem_append_left _ ?_⟩
  rw [unitsOf, if_neg hb]
  exact List.mem_map.2 ⟨0, by simp, rfl⟩

theorem rowOut_zero {d : Side} (h : d.ext 0 = 0) (cell : Index → Cell) (w : Row) : rowOut d cell w = [] := by
  simp [rowOut, h]

theorem rowSectors_zero {d : Side} (h : d.ext 0 = 0) (w : Row) : rowSectors d w = [] := by
  simp [rowSectors, rowBytes_zero h, unitsOf, h]

/-- Rows with elements are all taken by a step that takes every sector. -/
theorem rows_taken {d : Side} (h : 0 < d.ext 0) :
    (d.rows.filter fun w => (rowSectors d w).any (regionSectors d).contains) = d.rows := by
  refine List.filter_eq_self.2 fun w hw => ?_
  obtain ⟨x, hx⟩ := rowSectors_nonempty h w
  refine List.any_eq_true.2 ⟨x, hx, List.contains_iff_mem.2 ?_⟩
  exact List.mem_eraseDups.2 (List.mem_flatMap.2 ⟨w, hw, hx⟩)

theorem rows_untaken {d : Side} (h : d.ext 0 = 0) (now : List Nat) :
    (d.rows.filter fun w => (rowSectors d w).any now.contains) = [] := by
  simp [rowSectors_zero h]

/-- The runs of rows without elements hold no byte. -/
theorem sideReads_zero {x : Side} (h : x.ext 0 = 0) (rows : List Row) :
    (sideReads x rows).flatMap (fun r => sectorParts r.1 r.2) = [] := by
  simp [sideReads, h, rowBytes_zero h, sectorParts, unitsOf]

/-- Where a queue's command stands once the engine has read and written for it. -/
theorem command_after_write {s s1 u : State} {p q i : Nat} {a e : Command} {outs : List OutByte} {now : List Nat}
    (ha : ((s.team p).queue q).cmds[i]? = some a) (h1 : s1.beside = s.beside)
    (hw : s1.engineWrite p e outs now = .ok u) : ((u.team p).queue q).cmds[i]? = some a := by
  rw [team_queue_of_beside ((engineWrite_beside hw).trans h1)]
  exact ha

/-- A whole step over a region: it reads what the region's rows need, writes the region and ends. -/
theorem dataStep_ends {s s1 u : State} {p q i : Nat} {c : Command} {d : Side} {reads : List Row → List (Nat × Nat)}
    {cell : Snap → Index → Cell} {m : Snap} {flags : Snap → List Row → BitVec 8} (hc : c.doneSectors = [])
    (hi : ((s.team p).queue q).cmds[i]? = some c)
    (hzero : d.ext 0 = 0 → ∀ rows, (reads rows).flatMap (fun r => sectorParts r.1 r.2) = [])
    (hr : s.engineRead p c (cmdStid c.bytes) (reads d.rows) = .ok (m, s1))
    (hw : s1.engineWrite p c (regionBytes d (cell m)) (regionSectors d) = .ok u) :
    (s.dataStep p q i c none d d.rows reads cell flags).mem = u.mem ∧
    (s.dataStep p q i c none d d.rows reads cell flags).dataEnded p q i c.bytes := by
  have hleft : (regionSectors d).filter (fun x => !c.doneSectors.contains x) = regionSectors d := by
    simp [hc]
  let mine := d.rows.filter fun w => (rowSectors d w).any (regionSectors d).contains
  have hmine : s.engineRead p c (cmdStid c.bytes) (reads mine) = .ok (m, s1) ∧
      mine.flatMap (rowOut d (cell m)) = d.rows.flatMap (rowOut d (cell m)) := by
    rcases Nat.eq_zero_or_pos (d.ext 0) with h | h
    · have hout : ∀ rows : List Row, rows.flatMap (rowOut d (cell m)) = [] := fun rows =>
        List.flatMap_eq_nil_iff.2 fun w _ => rowOut_zero h _ w
      refine ⟨?_, (hout _).trans (hout _).symm⟩
      rw [← hr, State.engineRead, State.engineRead, hzero h, hzero h]
    · rw [show mine = d.rows from rows_taken h]
      exact ⟨hr, rfl⟩
  have hstep : s.dataStep p q i c none d d.rows reads cell flags =
      u.dataDone p q i c (regionSectors d) (regionSectors d) (flags m mine) := by
    unfold State.dataStep
    rw [show (d.rows.flatMap fun w => rowSectors d w).eraseDups = regionSectors d from rfl]
    dsimp only
    rw [hleft, hmine.1]
    dsimp only
    rw [hmine.2, show ((d.rows.flatMap (rowOut d (cell m))).filter fun o => (regionSectors d).contains (o.va / 32)) =
      regionBytes d (cell m) from rfl, hw]
  rw [hstep]
  exact ⟨rfl, dataDone_ended (command_after_write hi (engineRead_beside hr) hw) hc _ _⟩

/-! #### COPY, FILL, CONVERT (R273 to R275) -/

/-- The source and the destination of a command. -/
abbrev State.source (s : State) (p : Nat) (c : Command) : Side := srcSide c.bytes (s.srcAddr p c)
abbrev State.dest (s : State) (p : Nat) (c : Command) : Side := dstSide c.bytes (s.dstAddr p c)

/-- A command that keeps what it read before its first write (R276, R280). -/
abbrev Command.keeping (c : Command) (x : Snap) : Command := { c with early := some (x.bytes, x.marks) }

/-- The extent along a row is the command's own on both sides (R76). -/
theorem source_ext (s : State) (p : Nat) (c : Command) : (s.source p c).ext 0 = (s.dest p c).ext 0 := rfl

section
variable {s s1 u : State} {p q i : Nat} {c : Command} (hc : c.doneSectors = [])
include hc

theorem fill_ends (hi : s.dataCommand p q 1 = some (i, c))
    (hw : s.engineWrite p c (regionBytes (s.dest p c) fun _ =>
      ⟨if (s.dest p c).fmt = .ra then 0 else cmdKarg0 c.bytes, cmdKarg1 c.bytes, false⟩)
      (regionSectors (s.dest p c)) = .ok u) :
    ∃ t, exec (.fill p q none) s = .next t ∧ t.mem = u.mem ∧ t.dataEnded p q i c.bytes := by
  refine ⟨_, congrArg Host.Outcome.next ?_, dataStep_ends (reads := fun _ => []) (cell := fun _ _ =>
    ⟨if (s.dest p c).fmt = .ra then 0 else cmdKarg0 c.bytes, cmdKarg1 c.bytes, false⟩)
    (m := ⟨[], []⟩) (flags := fun _ _ => 0) hc (dataCommand_getElem hi) (fun _ _ => rfl) rfl hw⟩
  simp only [hi]

/-- A whole step of COPY or CONVERT, given the axis along which its rows share blocks. -/
theorem moveStep_ends {m : Snap} (hi : ((s.team p).queue q).cmds[i]? = some c) {axis : Nat} {cell : Index → Cell}
    (haxis : (if (s.dest p c).fmt.isBlock && (s.source p c).fmt != (s.dest p c).fmt then (s.dest p c).axis
      else if (s.source p c).scl != 0 && (s.source p c).fmt != (s.dest p c).fmt then (s.source p c).axis else 0) = axis)
    (hcell : ∀ j, cell j = ⟨(convertAt (s.source p c) (s.dest p c) (cmdRnd c.bytes) m.bytes j).1,
      (convertAt (s.source p c) (s.dest p c) (cmdRnd c.bytes) m.bytes j).2.1,
      convertMarked (s.source p c) (s.dest p c) m.marks j⟩)
    (hr : s.engineRead p c (cmdStid c.bytes)
      (sideReads (s.source p c) (rowsWithBlocks (s.source p c) axis (s.dest p c).rows)) = .ok (m, s1))
    (hw : s1.engineWrite p c (regionBytes (s.dest p c) cell) (regionSectors (s.dest p c)) = .ok u) :
    (s.moveStep p q i c none).mem = u.mem ∧ (s.moveStep p q i c none).dataEnded p q i c.bytes := by
  subst haxis
  obtain rfl := funext hcell
  exact dataStep_ends hc hi (fun h rows => sideReads_zero ((source_ext s p c).trans h) _) hr hw

theorem copy_ends {m : Snap} (hi : s.dataCommand p q 0 = some (i, c)) (hf : (s.source p c).fmt = (s.dest p c).fmt)
    (hr : s.engineRead p c (cmdStid c.bytes) (sideReads (s.source p c) (s.dest p c).rows) = .ok (m, s1))
    (hw : s1.engineWrite p c (regionBytes (s.dest p c) fun j => ⟨(s.source p c).elem m.bytes j,
        if (s.source p c).scl = 0 then 127 else (s.source p c).scale m.bytes j,
        if m.marks.isEmpty then false else (s.source p c).marked m.marks j⟩) (regionSectors (s.dest p c)) = .ok u) :
    ∃ t, exec (.copy p q none) s = .next t ∧ t.mem = u.mem ∧ t.dataEnded p q i c.bytes := by
  refine ⟨_, congrArg Host.Outcome.next ?_, moveStep_ends hc (dataCommand_getElem hi) (axis := 0) ?_ (fun j => ?_) hr hw⟩
  · simp only [hi]
  · simp only [hf, bne_self_eq_false, Bool.and_false, Bool.false_eq_true, ↓reduceIte]
  · simp only [convertAt, convertMarked, hf, bne_self_eq_false, Bool.false_and, Bool.false_eq_true, ↓reduceIte]

theorem convert_ends {m : Snap} (hi : s.dataCommand p q 2 = some (i, c)) (hf : (s.source p c).fmt ≠ (s.dest p c).fmt)
    (hr : s.engineRead p c (cmdStid c.bytes) (sideReads (s.source p c) (rowsWithBlocks (s.source p c)
      (if (s.dest p c).fmt.isBlock then (s.dest p c).axis
        else if (s.source p c).scl != 0 then (s.source p c).axis else 0) (s.dest p c).rows)) = .ok (m, s1))
    (hw : s1.engineWrite p c (regionBytes (s.dest p c) fun j =>
        ⟨(convertAt (s.source p c) (s.dest p c) (cmdRnd c.bytes) m.bytes j).1,
          (convertAt (s.source p c) (s.dest p c) (cmdRnd c.bytes) m.bytes j).2.1,
          convertMarked (s.source p c) (s.dest p c) m.marks j⟩) (regionSectors (s.dest p c)) = .ok u) :
    ∃ t, exec (.convert p q none) s = .next t ∧ t.mem = u.mem ∧ t.dataEnded p q i c.bytes := by
  refine ⟨_, congrArg Host.Outcome.next ?_, moveStep_ends hc (dataCommand_getElem hi) ?_ (fun j => rfl) hr hw⟩
  · simp only [hi]
  · simp only [bne_iff_ne.2 hf, Bool.and_true]

/-! #### GATHER, SCATTER (R276) -/

theorem gatherStep_ends {ix m : Snap} {s2 : State} (hi : ((s.team p).queue q).cmds[i]? = some c)
    (he : cmdEmpty c.bytes = false) (hix : s.indexArray p c = .ok (ix, s1))
    (hr : s1.engineRead p (c.keeping ix) (cmdStid c.bytes)
      ((movesOver (s.dest p c) (gatherMoves c.bytes ix.bytes)
        ((moveSectors (s.dest p c) (gatherMoves c.bytes ix.bytes)).map Prod.snd)).flatMap fun mv =>
          sideReads (s.source p c) mv.2.toList) = .ok (m, s2))
    (hw : s2.engineWrite p (c.keeping ix)
      (movesOut (s.source p c) (s.dest p c) m (movesOver (s.dest p c) (gatherMoves c.bytes ix.bytes)
        ((moveSectors (s.dest p c) (gatherMoves c.bytes ix.bytes)).map Prod.snd))
        ((moveSectors (s.dest p c) (gatherMoves c.bytes ix.bytes)).map Prod.snd))
      ((moveSectors (s.dest p c) (gatherMoves c.bytes ix.bytes)).map Prod.snd) = .ok u) :
    ∃ y, (s.gatherStep p q i c none).mem = u.mem ∧ (s.gatherStep p q i c none).dataEnded p q i c.bytes ∧
      (((s.gatherStep p q i c none).team p).queue q).cmds[i]? = some y ∧ y.flags = c.flags ||| oobOf c.bytes ix.bytes := by
  let c' := c.keeping ix
  let now := (moveSectors (s.dest p c) (gatherMoves c.bytes ix.bytes)).map Prod.snd
  have hnow : movesNow ((moveSectors (s.dest p c) (gatherMoves c.bytes ix.bytes)).filter fun e =>
      !c.doneSectors.contains e.2) none = now := by
    simp [movesNow, hc, now]
  have hstep : s.gatherStep p q i c none = u.dataDone p q i c' now now (oobOf c.bytes ix.bytes) := by
    unfold State.gatherStep
    rw [if_neg (by rw [he]; exact Bool.false_ne_true), hix]
    dsimp only
    rw [hnow, hr]
    dsimp only
    rw [hw]
  have hu := command_after_write hi ((engineRead_beside hr).trans (indexArray_beside hix)) hw
  obtain ⟨y, hy, hdone, hbytes, hflags⟩ := dataDone_whole (c := c') hu hc now (oobOf c.bytes ix.bytes)
  rw [hstep]
  exact ⟨y, rfl, ⟨y, hy, hdone, hbytes⟩, hy, hflags⟩

end

/-- GATHER and SCATTER are one step of the command at its data. -/
theorem gather_next {s : State} {p q i : Nat} {c : Command} {j : Instr}
    (hj : j = .gather p q none ∧ s.dataCommand p q 3 = some (i, c) ∨
      j = .scatter p q none ∧ s.dataCommand p q 4 = some (i, c)) :
    exec j s = .next (s.gatherStep p q i c none) ∧ ((s.team p).queue q).cmds[i]? = some c := by
  rcases hj with ⟨rfl, hi⟩ | ⟨rfl, hi⟩ <;> refine ⟨congrArg Host.Outcome.next ?_, dataCommand_getElem hi⟩ <;>
    simp only [hi]

theorem gather_empty {s : State} {p q i : Nat} {c : Command} (hc : c.doneSectors = [])
    (hi : ((s.team p).queue q).cmds[i]? = some c) (he : cmdEmpty c.bytes = true) :
    (s.gatherStep p q i c none).mem = s.mem ∧ (s.gatherStep p q i c none).dataEnded p q i c.bytes := by
  have hstep : s.gatherStep p q i c none = s.dataDone p q i c [] [] 0 := if_pos he
  rw [hstep]
  exact ⟨rfl, dataDone_ended hi hc [] 0⟩

/-! #### ENCODE (R278 to R281) -/

theorem encodeScales_beside {s t : State} {p : Nat} {c : Command} {y : Snap} (h : s.encodeScales p c = .ok (y, t)) :
    t.beside = s.beside := by
  unfold State.encodeScales at h
  split at h
  · cases h
    rfl
  · exact engineRead_beside h

section
variable {r : Rec} {src : Nat} {d : Side} {sc : Mem}

/-- R280: blocks that all fit are written as one plane. -/
theorem encodeChoice_plain (h : Side) (hf : ∀ b, b ∈ blockStarts d → fitsPlain (encodeBlock r src sc [] b) = true) :
    encodeChoice r src d h sc = .write [(d, .single)] := by
  refine if_pos ?_
  simpa using hf

variable (hf : ∃ b, b ∈ blockStarts d ∧ fitsPlain (encodeBlock r src sc [] b) = false)
include hf

/-- R280: under the policy UNCODED a block that does not fit leaves the rows uncoded. -/
theorem encodeChoice_uncoded (h : Side) (hp : bits (cmdKarg0 r) 8 2 = 1) : encodeChoice r src d h sc = .uncoded := by
  have hany : ¬ (!(blockStarts d).any fun b => !fitsPlain (encodeBlock r src sc [] b)) = true := by
    simpa using hf
  exact (if_neg hany).trans (if_pos hp)

/-- R280: under the policy FAIL the first block that does not fit is reported. -/
theorem encodeChoice_fail (h : Side) (hp : bits (cmdKarg0 r) 8 2 = 0) : ∃ b, encodeChoice r src d h sc = .fail (some b) := by
  have hany : ¬ (!(blockStarts d).any fun b => !fitsPlain (encodeBlock r src sc [] b)) = true := by
    simpa using hf
  have hfind : ((blockStarts d).find? fun b => !fitsPlain (encodeBlock r src sc [] b)).isSome = true := by
    simpa using hf
  obtain ⟨b, hb⟩ := Option.isSome_iff_exists.1 hfind
  refine ⟨b, (if_neg hany).trans ((if_neg (by omega)).trans ((if_pos hp).trans ?_))⟩
  exact congrArg EncodeChoice.fail hb

end

section
variable {s s1 : State} {p q i : Nat} {c : Command} {sc : Snap} (hc : c.doneSectors = [])
  (hi : ((s.team p).queue q).cmds[i]? = some c) (hsc : s.encodeScales p c = .ok (sc, s1))
include hsc

theorem encodeStep_fails
    (hf : ∃ b, b ∈ blockStarts (s.dest p c) ∧ fitsPlain (encodeBlock c.bytes (s.srcAddr p c) sc.bytes [] b) = false)
    (hp : bits (cmdKarg0 c.bytes) 8 2 = 0) (ha : (s1.team p).allHalted = false) :
    (s.encodeStep p q i c none).mem = s1.mem ∧ (((s.encodeStep p q i c none).team p).queue q).halt = true ∧
      (((s.encodeStep p q i c none).team p).queue q).fault.toNat / 2 ^ 56 = causeACCRANGE := by
  obtain ⟨b, hb⟩ := encodeChoice_fail hf (encodeHigh c.bytes (s.dstAddr p c)) hp
  have hstep : s.encodeStep p q i c none = s1.haltQueue p q c.serial causeACCRANGE
      ((encodeSource c.bytes (s.srcAddr p c) 0).scaleAddr b) := by
    unfold State.encodeStep
    simp only [hsc, hb]
  rw [hstep, haltQueue_eq ha, State.team_modTeam_same, Team.queue_setQueue_same]
  refine ⟨rfl, rfl, ?_⟩
  generalize (encodeSource c.bytes (s.srcAddr p c) 0).scaleAddr b = v
  simp only [BitVec.toNat_ofNat, causeACCRANGE]
  omega

include hi

theorem command_after_scales : ((s1.team p).queue q).cmds[i]? = some c := by
  rw [team_queue_of_beside (encodeScales_beside hsc)]
  exact hi

include hc

theorem encodeStep_uncoded
    (hf : ∃ b, b ∈ blockStarts (s.dest p c) ∧ fitsPlain (encodeBlock c.bytes (s.srcAddr p c) sc.bytes [] b) = false)
    (hp : bits (cmdKarg0 c.bytes) 8 2 = 1) : ∃ y, (s.encodeStep p q i c none).mem = s1.mem ∧
      (s.encodeStep p q i c none).dataEnded p q i c.bytes ∧
      (((s.encodeStep p q i c none).team p).queue q).cmds[i]? = some y ∧ y.flags.getLsbD 7 = true := by
  have hstep : s.encodeStep p q i c none = s1.dataDone p q i c [] [] uncFlag := by
    unfold State.encodeStep
    simp only [hsc, encodeChoice_uncoded hf (encodeHigh c.bytes (s.dstAddr p c)) hp]
  obtain ⟨y, hy, hdone, hbytes, hflags⟩ := dataDone_whole (command_after_scales hi hsc) hc [] uncFlag
  rw [hstep]
  refine ⟨y, rfl, ⟨y, hy, hdone, hbytes⟩, hy, ?_⟩
  rw [hflags, BitVec.getLsbD_or, show uncFlag.getLsbD 7 = true by decide, Bool.or_true]

theorem encodeStep_writes {m : Snap} {s2 u : State}
    (hf : ∀ b, b ∈ blockStarts (s.dest p c) → fitsPlain (encodeBlock c.bytes (s.srcAddr p c) sc.bytes [] b) = true)
    (hr : s1.engineRead p (c.keeping sc) (cmdStid c.bytes)
      ((List.range (bits (cmdKarg0 c.bytes) 0 4)).flatMap fun j =>
        (s1.dest p (c.keeping sc)).rows.map fun w =>
          ((encodeSource c.bytes (s1.srcAddr p (c.keeping sc)) j).rowAddr w,
            (encodeSource c.bytes (s1.srcAddr p (c.keeping sc)) j).rowBytes)) = .ok (m, s2))
    (hw : s2.engineWrite p (c.keeping sc)
      (((s1.dest p (c.keeping sc)).rows.flatMap fun w => rowOut (s.dest p c)
        (encodeCell c.bytes (s1.srcAddr p (c.keeping sc))
          (s1.dest p (c.keeping sc)) .single sc m) w).filter fun o =>
        ((s1.dest p (c.keeping sc)).rows.flatMap fun w =>
          rowSectors (s.dest p c) w).eraseDups.contains (o.va / 32))
      ((s1.dest p (c.keeping sc)).rows.flatMap fun w =>
          rowSectors (s.dest p c) w).eraseDups = .ok u) :
    (s.encodeStep p q i c none).mem = u.mem ∧ (s.encodeStep p q i c none).dataEnded p q i c.bytes := by
  let c' := c.keeping sc
  let all := ((s1.dest p c').rows.flatMap fun w => rowSectors (s.dest p c) w).eraseDups
  have hleft : (all.filter fun y => !c.doneSectors.contains y) = all := by
    simp [hc]
  have hstep : s.encodeStep p q i c none = u.dataDone p q i c' all all 0 := by
    unfold State.encodeStep
    simp only [hsc, encodeChoice_plain (encodeHigh c.bytes (s.dstAddr p c)) hf]
    unfold State.encodeWrite
    dsimp only
    rw [hr]
    simp only [List.flatMap_cons, List.flatMap_nil, List.append_nil]
    rw [hleft, hw]
  rw [hstep]
  exact ⟨rfl, dataDone_ended (c := c') (command_after_write (command_after_scales hi hsc) (engineRead_beside hr) hw)
    hc all 0⟩

end

end Sys2Proof.Machine

namespace Sys2Proof.Laws
open Machine

/-- Settles O39: a whole step reads and writes beside the engine's queues, so that its command is still in its place when
its data ends. -/
theorem engineDataSteps : Obligations.EngineDataSteps := by
  unfold Obligations.EngineDataSteps
  intro s p q i c hc
  refine ⟨fun u hi hw => fill_ends hc hi hw, fun m s1 u hi hf hr hw => copy_ends hc hi hf hr hw,
    fun m s1 u hi hf hr hw => convert_ends hc hi hf hr hw, fun j hj => ?_, fun sc s1 hi hsc => ?_⟩
  · obtain ⟨hnext, hi⟩ := gather_next hj
    refine ⟨fun he => ⟨_, hnext, gather_empty hc hi he⟩, fun ix m s1 s2 u he hix hr hw => ?_⟩
    obtain ⟨y, h⟩ := gatherStep_ends hc hi he hix hr hw
    exact ⟨_, y, hnext, h⟩
  · have hnext : exec (.encode p q none) s = .next (s.encodeStep p q i c none) := by
      refine congrArg Host.Outcome.next ?_
      simp only [hi]
    have hi := dataCommand_getElem hi
    refine ⟨fun m s2 u hf hr hw => ⟨_, hnext, encodeStep_writes hc hi hsc hf hr hw⟩,
      fun hf => ⟨fun hp => ?_, fun hp ha => ⟨_, hnext, encodeStep_fails hsc hf hp ha⟩⟩⟩
    obtain ⟨y, h⟩ := encodeStep_uncoded hc hi hsc hf hp
    exact ⟨_, y, hnext, h⟩

end Sys2Proof.Laws
end

section
namespace Sys2Proof.Machine

/-! ### A message to a ring beyond the pool (R283, R440)

A write to the pool revives the dead granules it touches (R227), and a granule past the pool's 512 never comes to live: each
write there clears it first.  A message whose poisoned runs are written after its bytes then loses the bytes beside them.  No
RSET gives a ring such a base (R338), but nothing in the statement of O40 says that the ring's slots lie in Y. -/

/-- One slot of 32 bytes, based on the first byte past the pool. -/
def strayRing : Ring := Ring.fresh (BitVec.ofNat 64 (2 ^ 48 + 2 * 2 ^ 32 + 512 * 1024))

/-- A message of 32 bytes for ring 0 of core 0, the first 16 of them poisoned. -/
def strayMessage : Message where
  target := 0
  age := 0
  asid := 0
  launch := none
  bytes := List.replicate 32 7
  source := 0
  origin := some (1, 0)
  marks := [(0, 16)]

/-- A machine whose core 0 has that ring, and that message under way. -/
def strayState : State := { State.reset.setCore 0 { Core.reset with
    resident := true
    team := Team.none.setRing 0 strayRing } with
  messages := [strayMessage] }

/-- The machine that A2A_DELIVERY makes of it. -/
def strayDelivered : State := (strayState.deliver 0 0 (destOf false 0) strayMessage.bytes strayMessage.marks).endMessage 0
  strayMessage 0

theorem stray_arrival : strayState.arrival strayMessage.launch strayMessage.asid (destOf (bit strayMessage.target 32)
    strayMessage.target) strayMessage.bytes.length = .slot 0 0 := by rfl

theorem stray_delivery : exec (.a2aDelivery 0) strayState = .next strayDelivered := by rfl

/-- The poisoned run's write has cleared the bytes that follow it. -/
theorem strayDelivered_bytes : Mem.read (strayDelivered.core 0).pool ((strayState.team 0).bufStart .y +
    ((strayState.team 0).ring (destOf (bit strayMessage.target 32) strayMessage.target).ring).offset 0)
    strayMessage.bytes.length = List.replicate 16 7 ++ List.replicate 16 0 := by
  decide +kernel

end Sys2Proof.Machine

namespace Sys2Proof.Laws
open Machine

/-- Refutes O40: in a state whose ring lies beyond the pool, a delivered message's poisoned run clears the bytes beside it,
and the slot does not hold the message. -/
theorem not_messagesAreDelivered : ¬ Obligations.MessagesAreDelivered := by
  unfold Obligations.MessagesAreDelivered
  intro ⟨_, _, hdelivery⟩
  obtain ⟨hslot, -⟩ := hdelivery strayState 0 strayMessage rfl rfl
  obtain ⟨t, ht, -, -, hread⟩ := hslot 0 0 stray_arrival (fun e he => absurd he List.not_mem_nil) rfl
  obtain rfl : strayDelivered = t := Host.Outcome.next.inj (stray_delivery.symm.trans ht)
  exact absurd (strayDelivered_bytes.symm.trans hread) (by decide)

end Sys2Proof.Laws
end

section
namespace Sys2Proof.Machine

/-! ### Queues and launches beside what reads and writes them (R101, R110) -/

theorem launches_of_beside {s t : State} (h : t.beside = s.beside) : t.launches = s.launches :=
  congrArg Beside.launches h

theorem now_of_beside {s t : State} (h : t.beside = s.beside) : t.now = s.now := congrArg Beside.now h

theorem queueReg_of_beside {s t : State} (h : t.beside = s.beside) (q : Nat) : t.queueReg q = s.queueReg q :=
  (congrArg (fun b => tget LaunchQueue.reset b.hub.queues q) h :)

theorem queueReg_setQueueReg_other (s : State) {q n : Nat} (x : LaunchQueue) (h : n ≠ q) :
    (s.setQueueReg q x).queueReg n = s.queueReg n := tget_tput_other _ _ _ _ _ h

theorem queueReg_of_queues {s t : State} (h : t.hub.queues = s.hub.queues) (q : Nat) : t.queueReg q = s.queueReg q :=
  congrArg (tget LaunchQueue.reset · q) h

/-- Noting waits changes of a launch since when chiplets wait and ask. -/
theorem noteWaits_launch_some {s : State} {n : Nat} {l : Launch} (h : s.launch n = some l) :
    ∃ w a, s.noteWaits.launch n = some { l with waitSince := w, asked := a } := by
  unfold State.launch tget State.noteWaits at *
  dsimp only
  generalize s.launches = t at h
  induction t with
  | nil => cases h
  | cons e t ih =>
    by_cases hk : e.1 = n
    · obtain he : e.2 = some l := by simpa [tfind, hk] using h
      simp only [List.map_cons, tfind, hk, he, Option.map_some, ↓reduceIte]
      exact ⟨_, _, rfl⟩
    · simp only [List.map_cons, tfind, hk, ↓reduceIte] at h ⊢
      exact ih h

theorem noteWaits_launch_none {s : State} {n : Nat} (h : s.launch n = none) : s.noteWaits.launch n = none := by
  unfold State.launch tget State.noteWaits at *
  dsimp only
  generalize s.launches = t at h
  induction t with
  | nil => rfl
  | cons e t ih =>
    by_cases hk : e.1 = n
    · obtain he : e.2 = none := by simpa [tfind, hk] using h
      simp only [List.map_cons, tfind, hk, he, Option.map_none, ↓reduceIte]
      rfl
    · simp only [List.map_cons, tfind, hk, ↓reduceIte] at h ⊢
      exact ih h

theorem noteWaits_mem (s : State) : s.noteWaits.mem = s.mem := rfl

theorem noteWaits_queueReg (s : State) (q : Nat) : s.noteWaits.queueReg q = s.queueReg q := rfl

/-! #### The end of a launch that was not dispatched (R110) -/

/-- QHEAD's advance and the counts completed. -/
theorem advance_leaves (x : LaunchQueue) (n : Nat) : ∃ h f, x.advance n = { x with head := h, finished := f } := by
  induction n generalizing x with
  | zero => exact ⟨_, _, rfl⟩
  | succ n ih =>
    unfold LaunchQueue.advance
    split
    · obtain ⟨h, f, e⟩ := ih { x with head := x.head + 1, finished := x.finished.filter fun n => n != x.head.toNat }
      exact ⟨h, f, e⟩
    · exact ⟨_, _, rfl⟩

theorem complete_leaves (x : LaunchQueue) (n : Nat) : ∃ h f, x.complete n = { x with head := h, finished := f } :=
  advance_leaves _ _

theorem finishCount_queueReg (s : State) (q n : Nat) : (s.finishCount q n).queueReg q = (s.queueReg q).complete n := by
  unfold State.finishCount
  dsimp only
  split
  · rw [queueReg_of_beside (sendVector_beside ..), State.queueReg_setQueueReg_same]
  · rw [State.queueReg_setQueueReg_same]

/-- A front that ends leaves its queue to the next count. -/
theorem endFront_queueReg (s : State) (q status detail : Nat) :
    ∃ h f, (s.endFront q status detail).queueReg q = { (s.queueReg q).nextFront with head := h, finished := f } := by
  unfold State.endFront State.endUndispatched
  rw [finishCount_queueReg, queueReg_of_beside (writeCompletion_beside ..), State.popFront,
    State.queueReg_setQueueReg_same]
  exact complete_leaves _ _

theorem finishCount_launches (s : State) (q n : Nat) : (s.finishCount q n).launches = s.launches := by
  unfold State.finishCount
  dsimp only
  split
  · exact (launches_of_beside (sendVector_beside ..)).trans rfl
  · rfl

theorem endFront_launches (s : State) (q status detail : Nat) :
    (s.endFront q status detail).launches = s.launches :=
  (finishCount_launches ..).trans ((launches_of_beside (writeCompletion_beside ..)).trans rfl)

/-! #### LAUNCH_CHECK (R101) -/

theorem frontMet_ready {s : State} {q : Nat} (h : s.tableHeld (s.queueReg q).record = false) :
    s.frontMet q = s.setQueueReg q { s.queueReg q with front := .ready, t0 := s.now } := by
  rw [State.frontMet, h]
  rfl

/-- The record in the slot of a queue's front. -/
abbrev State.frontRecord (s : State) (q : Nat) : Rec := s.physRead ((s.queueReg q).slotAddr (s.queueReg q).fseq.toNat) 256

section
variable {s : State} {q : Nat} (hx : (s.queueReg q).front = .check) (hf : s.hub.fatal = false)
include hx hf

theorem check_goes_on : ¬ ((s.queueReg q).front != .check || s.hub.fatal) = true := by
  simp [hx, hf]

theorem launchCheck_ready (hc : checkLaunch (s.frontRecord q) = none) (h0 : launchWait (s.frontRecord q) false = 0)
    (h1 : launchWait (s.frontRecord q) true = 0) (ht : s.tableHeld (s.frontRecord q) = false) :
    ∃ t, exec (.launchCheck q) s = .next t ∧ t.mem = s.mem ∧
      t.queueReg q = { s.queueReg q with record := s.frontRecord q, front := .ready, t0 := s.now } := by
  let u := s.setQueueReg q { s.queueReg q with record := s.frontRecord q }
  have hu : u.queueReg q = { s.queueReg q with record := s.frontRecord q } := State.queueReg_setQueueReg_same ..
  have hmet := frontMet_ready (s := u) (q := q) (by rw [hu]; exact ht)
  refine ⟨u.frontMet q, congrArg Host.Outcome.next ((if_neg (check_goes_on hx hf)).trans ?_), ?_, ?_⟩
  · simp only [hc, h0, h1, decide_true, Bool.and_self, ↓reduceIte]
    rfl
  · rw [hmet]
    rfl
  · rw [hmet, State.queueReg_setQueueReg_same, hu]
    rfl

theorem launchCheck_waits (hc : checkLaunch (s.frontRecord q) = none)
    (hw : launchWait (s.frontRecord q) false ≠ 0 ∨ launchWait (s.frontRecord q) true ≠ 0) :
    ∃ t, exec (.launchCheck q) s = .next t ∧ t.mem = s.mem ∧
      t.queueReg q = { s.queueReg q with record := s.frontRecord q, front := .waitdep, t0 := s.now } := by
  have hgo : (decide (launchWait (s.frontRecord q) false = 0) && decide (launchWait (s.frontRecord q) true = 0)) =
      false := by
    rcases hw with h | h <;> simp [h]
  let u := s.setQueueReg q { s.queueReg q with record := s.frontRecord q }
  refine ⟨u.setQueueReg q { s.queueReg q with record := s.frontRecord q, front := .waitdep, t0 := s.now },
    congrArg Host.Outcome.next ((if_neg (check_goes_on hx hf)).trans ?_), rfl, State.queueReg_setQueueReg_same u q _⟩
  simp only [hc, hgo, Bool.false_eq_true, ↓reduceIte]
  rfl

theorem launchCheck_rejects {off : Nat} (hc : checkLaunch (s.frontRecord q) = some off) :
    ∃ t, exec (.launchCheck q) s = .next t ∧ (t.queueReg q).fseq = (s.queueReg q).fseq + 1 ∧
      (t.queueReg q).front = (if (s.queueReg q).fseq + 1 = (s.queueReg q).tail then .empty else .check) := by
  let u := s.setQueueReg q { s.queueReg q with record := s.frontRecord q }
  have hu : u.queueReg q = { s.queueReg q with record := s.frontRecord q } := State.queueReg_setQueueReg_same ..
  obtain ⟨h, f, he⟩ := endFront_queueReg u q 1 off
  rw [hu] at he
  refine ⟨u.endFront q 1 off, congrArg Host.Outcome.next ((if_neg (check_goes_on hx hf)).trans ?_),
    congrArg LaunchQueue.fseq he, congrArg LaunchQueue.front he⟩
  simp only [hc]
  rfl

end

/-! #### WAITDEP_RECHECK (R102) -/

theorem recheck_skips {s : State} {q : Nat} (h : (s.queueReg q).front ≠ .waitdep) : s.recheck q = s :=
  if_pos (bne_iff_ne.2 h)

/-- A front whose waits are both met, its table free, becomes READY. -/
theorem recheck_met {s s1 s2 : State} {q : Nat} (h : (s.queueReg q).front = .waitdep)
    (h1 : s.waitMet (s.queueReg q).record false = (some true, s1))
    (h2 : s1.waitMet (s.queueReg q).record true = (some true, s2)) (hx : s2.queueReg q = s.queueReg q)
    (ht : s2.tableHeld (s.queueReg q).record = false) :
    s.recheck q = s2.setQueueReg q { s.queueReg q with front := .ready, t0 := s2.now } := by
  have hmet := frontMet_ready (s := s2) (q := q) (by rw [hx]; exact ht)
  rw [hx] at hmet
  unfold State.recheck
  dsimp only
  rw [if_neg (by simp [h]), h1]
  dsimp only
  rw [h2]
  exact hmet

/-- A recheck of a queue whose front entered WAITDEP before the last multiple of 10,000 TIMENS. -/
def State.dueRecheck (n : Nat) (s : State) (q : Nat) : State := if gridOf (s.queueReg q).t0 < n then s.recheck q else s

/-- A recheck of queues that do not wait changes nothing. -/
theorem dueRechecks_skip {s : State} {n : Nat} {l : List Nat} (h : ∀ q ∈ l, (s.queueReg q).front ≠ .waitdep) :
    l.foldl (State.dueRecheck n) s = s := by
  induction l with
  | nil => rfl
  | cons q l ih =>
    rw [List.foldl_cons, State.dueRecheck, recheck_skips (h q List.mem_cons_self), ite_self]
    exact ih fun r hr => h r (List.mem_cons_of_mem _ hr)

/-- Of a list of queues without repeats only one waits: the rechecks are that one's. -/
theorem dueRechecks_one {s t : State} {n q : Nat} {l : List Nat} (hl : l.Nodup) (hq : q ∈ l)
    (hs : ∀ r ∈ l, r ≠ q → (s.queueReg r).front ≠ .waitdep) (ht : ∀ r ∈ l, r ≠ q → (t.queueReg r).front ≠ .waitdep)
    (h : s.dueRecheck n q = t) : l.foldl (State.dueRecheck n) s = t := by
  induction l with
  | nil => cases hq
  | cons r l ih =>
    obtain ⟨hr, hl⟩ := List.nodup_cons.1 hl
    rw [List.foldl_cons]
    by_cases hrq : r = q
    · subst hrq
      rw [h]
      exact dueRechecks_skip fun m hm => ht m (List.mem_cons_of_mem _ hm) fun e => hr (e ▸ hm)
    · rw [State.dueRecheck, recheck_skips (hs r List.mem_cons_self hrq), ite_self]
      exact ih hl ((List.mem_cons.1 hq).resolve_left fun e => hrq e.symm)
        (fun m hm => hs m (List.mem_cons_of_mem _ hm)) fun m hm => ht m (List.mem_cons_of_mem _ hm)

theorem waitdepRecheck_met {s s1 s2 : State} {q : Nat} (hq : q < 16) (hf : s.hub.fatal = false)
    (hw : (s.queueReg q).front = .waitdep) (hother : ∀ n, n < 16 → n ≠ q → (s.queueReg n).front ≠ .waitdep)
    (hn : s.hub.rechecked < gridOf s.now) (ht0 : gridOf (s.queueReg q).t0 < gridOf s.now)
    (h1 : ({ s with hub := { s.hub with rechecked := gridOf s.now } } : State).waitMet (s.queueReg q).record false =
      (some true, s1))
    (h2 : s1.waitMet (s.queueReg q).record true = (some true, s2)) (ht : s2.tableHeld (s.queueReg q).record = false)
    (hqs : s2.hub.queues = s.hub.queues) :
    ∃ t, exec .waitdepRecheck s = .next t ∧ t.queueReg q = { s.queueReg q with front := .ready, t0 := s2.now } := by
  let u : State := { s with hub := { s.hub with rechecked := gridOf s.now } }
  let v := s2.setQueueReg q { s.queueReg q with front := .ready, t0 := s2.now }
  have hu : u.dueRecheck (gridOf s.now) q = v :=
    (if_pos ht0).trans (recheck_met (s := u) hw h1 h2 (queueReg_of_queues hqs q) ht)
  refine ⟨v, congrArg Host.Outcome.next ((if_neg (by simp [hf, hn])).trans ?_), State.queueReg_setQueueReg_same s2 q _⟩
  refine dueRechecks_one List.nodup_range (List.mem_range.2 hq) (fun n hn => hother n (List.mem_range.1 hn))
    (fun n hn hne => ?_) hu
  rw [queueReg_setQueueReg_other s2 _ hne, queueReg_of_queues hqs]
  exact hother n (List.mem_range.1 hn) hne

theorem waitdepRecheck_early {s : State} (h : gridOf s.now ≤ s.hub.rechecked) : exec .waitdepRecheck s = .next s :=
  congrArg Host.Outcome.next (if_pos (by simp [h]))

/-! #### DISPATCH (R106, R118) -/

theorem hubRead_queues {s t : State} {user : Bool} {asid va n : Nat} {bs : List Byte} {bad : Bool}
    (h : s.hubRead user asid va n = .ok (bs, bad, t)) : t.hub.queues = s.hub.queues :=
  (congrArg (fun b => b.hub.queues) (hubRead_beside h) :)

/-- Fronts held again by the table taken into use keep their counts. -/
theorem holdFronts_leaves (s : State) (q : Nat) : (s.holdFronts.mem, s.holdFronts.launches, (s.holdFronts.queueReg q).fseq) =
    (s.mem, s.launches, (s.queueReg q).fseq) := by
  refine foldl_leaves (fun s : State => (s.mem, s.launches, (s.queueReg q).fseq)) (fun s n => ?_) _ s
  dsimp only
  split
  · refine congrArg (Prod.mk s.mem ∘ Prod.mk s.launches) ?_
    by_cases hn : q = n
    · subst hn
      rw [State.queueReg_setQueueReg_same]
    · rw [queueReg_setQueueReg_other s _ hn]
  · rfl

theorem dispatch_enters {s s1 : State} {slot q : Nat} {table : List Byte} (hf : s.hub.fatal = false)
    (hr : s.hub.ready = true) (hslot : s.freeEntry = some slot) (hq : s.chosenFront = some q)
    (hcs : s.members (s.queueReg q).record ≠ [])
    (ht : s.tensorTable (s.queueReg q).record = .ok (table, s1)) (hqs : s1.hub.queues = s.hub.queues) :
    ∃ t l, exec .dispatch s = .next t ∧ t.mem = s1.mem ∧ t.launch slot = some l ∧ l.record = (s.queueReg q).record ∧
      l.queue = q ∧ l.count = (s.queueReg q).fseq.toNat ∧ l.master = (s.members (s.queueReg q).record).headD 0 ∧
      l.deputy = (s.members (s.queueReg q).record)[1]? ∧ l.plots = launchPlots (s.queueReg q).record ∧
      l.ranges = dealRanges (s.queueReg q).record (launchPlots (s.queueReg q).record)
        (s.members (s.queueReg q).record) ∧ l.retiredCount = 0 ∧ l.ended = none ∧
      (t.queueReg q).fseq = (s.queueReg q).fseq + 1 := by
  have hne : (s.members (s.queueReg q).record).isEmpty = false := by simpa using hcs
  have hx : s1.queueReg q = s.queueReg q := queueReg_of_queues hqs q
  let l := s1.newLaunch q (s.queueReg q).record (s.members (s.queueReg q).record) table
  let u := ((s1.forgetEntry slot).popFront q).setLaunch slot (some l)
  have hleaves := holdFronts_leaves u q
  simp only [Prod.mk.injEq] at hleaves
  obtain ⟨hmem, hlaunches, hfseq⟩ := hleaves
  have hl : u.holdFronts.launch slot = some l :=
    (congrArg (tget none · slot) hlaunches).trans (State.launch_setLaunch_same ..)
  obtain ⟨w, a, hw⟩ := noteWaits_launch_some hl
  have hpop : (u.queueReg q).fseq = (s.queueReg q).fseq + 1 := by
    refine (congrArg LaunchQueue.fseq (State.queueReg_setQueueReg_same (s1.forgetEntry slot) q _)).trans ?_
    rw [show (s1.forgetEntry slot).queueReg q = s1.queueReg q from rfl, hx]
    rfl
  refine ⟨u.holdFronts.noteWaits, _, congrArg (fun t : State => Host.Outcome.next t.noteWaits) ?_,
    (noteWaits_mem _).trans hmem, hw, rfl, rfl, congrArg (fun x => x.fseq.toNat) hx, rfl, rfl, rfl, rfl, rfl, rfl,
    (congrArg LaunchQueue.fseq (noteWaits_queueReg u.holdFronts q)).trans (hfseq.trans hpop)⟩
  simp only [hf, hr, hslot, hq, hne, ht, Bool.not_true, Bool.or_self, Bool.false_eq_true, ↓reduceIte]
  rfl

/-! #### COST_SORT (R117) -/

theorem insertCost_perm (x : Nat × Nat) (l : List (Nat × Nat)) : (insertCost x l).Perm (x :: l) := by
  induction l with
  | nil => exact List.Perm.refl _
  | cons y l ih =>
    unfold insertCost
    split
    · exact List.Perm.refl _
    · exact (ih.cons y).trans (List.Perm.swap x y l)

/-- A sorted segment holds each of its plots once. -/
theorem sortCosts_perm (first : Nat) (bs : List Byte) (n : Nat) :
    (sortCosts first bs n).Perm ((List.range n).map fun i => first + i) := by
  have hsort : ∀ l : List (Nat × Nat), (l.foldr insertCost []).Perm l := by
    intro l
    induction l with
    | nil => exact List.Perm.refl _
    | cons x l ih => exact (insertCost_perm x _).trans (ih.cons x)
  refine ((hsort _).map Prod.snd).trans (List.Perm.of_eq ?_)
  rw [List.map_map]
  rfl

theorem costSort_sorts {s s1 : State} {slot seg : Nat} {l : Launch} {bs : List Byte} (hl : s.launch slot = some l)
    (hw : launchWalk l.record = 3) (hp : launchPersist l.record = false) (he : l.ended = none)
    (hseg : seg * 2 ^ 24 < l.plots) (hn : l.segments.length = seg)
    (hc : (if seg = 0 then s.readCosts l else .ok (l.costs, s)) = .ok (bs, s1)) :
    ∃ t m, exec (.costSort slot seg) s = .next t ∧ t.mem = s1.mem ∧ t.launch slot = some m ∧ m.costs = bs ∧
      tfind m.segments seg =
        some (sortCosts (seg * 2 ^ 24) (bs.drop (2 * (seg * 2 ^ 24))) (min (2 ^ 24) (l.plots - seg * 2 ^ 24))) := by
  let m : Launch := { l with
    costs := bs
    segments := tput l.segments seg
      (sortCosts (seg * 2 ^ 24) (bs.drop (2 * (seg * 2 ^ 24))) (min (2 ^ 24) (l.plots - seg * 2 ^ 24))) }
  have hgo : (launchWalk l.record != 3 || launchPersist l.record || l.ended.isSome ||
      decide (l.plots ≤ seg * segmentSize) || l.segments.length != seg) = false := by
    have hlt : ¬ l.plots ≤ seg * segmentSize := Nat.not_le.2 hseg
    simp [hw, hp, he, hn, hlt]
  obtain ⟨w, a, hm⟩ := noteWaits_launch_some (State.launch_setLaunch_same s1 slot (some m))
  refine ⟨(s1.setLaunch slot (some m)).noteWaits, _,
    congrArg (fun t : State => Host.Outcome.next t.noteWaits) ?_, rfl, hm, rfl, tfind_tput_same _ _ _⟩
  simp only [hl, hgo, hc, Bool.false_eq_true, ↓reduceIte]
  rfl

/-! #### STEAL (R121) -/

/-- A split loses no position, and the thief gets half of them, rounded down. -/
theorem split_left (r : Range) (thief : Nat) : (r.split thief).1.left + (r.split thief).2.left = r.left ∧
    (r.split thief).2.left = r.left / 2 := by
  unfold Range.split Range.left
  simp only [List.length_take, List.length_drop]
  omega

theorem steal_splits {s : State} {thief slot : Nat} {l : Launch} {r : Range} (hl : s.noteWaits.launch slot = some l)
    (hmay : s.noteWaits.mayStealFor slot l thief = true) (hout : s.noteWaits.outAsked slot l thief = false)
    (hr : largestRange (l.ranges.filter fun x => l.inS x.chip && (s.chip x.chip).live) = some r) (h2 : 2 ≤ r.left) :
    ∃ t m, exec (.steal thief slot) s = .next t ∧ t.mem = s.mem ∧ t.launch slot = some m ∧
      m.ranges = replaceRange r (r.split thief).1 l.ranges ++ [(r.split thief).2] := by
  let m : Launch := { l with ranges := replaceRange r (r.split thief).1 l.ranges ++ [(r.split thief).2] }
  obtain ⟨w, a, hm⟩ := noteWaits_launch_some (State.launch_setLaunch_same s.noteWaits slot (some m))
  have hlt : ¬ r.left < 2 := by omega
  refine ⟨(s.noteWaits.setLaunch slot (some m)).noteWaits, _,
    congrArg (fun t : State => Host.Outcome.next t.noteWaits) ?_, rfl, hm, rfl⟩
  simp only [hl, hmay, hout, noteWaits_chip, hr, hlt, Bool.not_true, Bool.or_self, Bool.false_eq_true, ↓reduceIte]
  rfl

/-! #### LAUNCH_COMPLETE (R110) -/

theorem frontMet_launches (s : State) (q : Nat) : (s.frontMet q).launches = s.launches := by
  unfold State.frontMet
  dsimp only
  split <;> rfl

theorem waitMet_launches (s : State) (r : Rec) (second : Bool) : (s.waitMet r second).2.launches = s.launches := by
  unfold State.waitMet
  dsimp only
  split
  · rfl
  · split
    · rfl
    · exact launches_of_beside (hubRead_beside ‹_›)

theorem recheck_launches (s : State) (q : Nat) : (s.recheck q).launches = s.launches := by
  have hwaits : ((s.waitMet (s.queueReg q).record false).2.waitMet (s.queueReg q).record true).2.launches = s.launches :=
    (waitMet_launches ..).trans (waitMet_launches ..)
  unfold State.recheck
  dsimp only
  split
  · rfl
  · split
    · exact (endFront_launches ..).trans hwaits
    · exact (endFront_launches ..).trans hwaits
    · split
      · exact (frontMet_launches ..).trans hwaits
      · exact hwaits

theorem releaseHeld_launches (s : State) : s.releaseHeld.launches = s.launches := by
  refine foldl_leaves State.launches (fun s q => ?_) _ s
  split
  · exact frontMet_launches s q
  · rfl

theorem recheckAll_launches (s : State) : s.recheckAll.launches = s.launches :=
  foldl_leaves State.launches recheck_launches _ s

/-- What follows a completion's record, count and interrupt leaves the entry free. -/
theorem freed_launch (s : State) (slot : Nat) (again : Bool) :
    (if again then (s.setLaunch slot none).releaseHeld.recheckAll else (s.setLaunch slot none).releaseHeld).launch slot =
      none := by
  have hl : ∀ t : State, t.launches = (s.setLaunch slot none).launches → t.launch slot = none := fun t h =>
    (congrArg (tget none · slot) h).trans (State.launch_setLaunch_same s slot none)
  cases again
  · exact hl _ (releaseHeld_launches _)
  · exact hl _ ((recheckAll_launches _).trans (releaseHeld_launches _))

theorem launchComplete_frees {s : State} {slot : Nat} {l : Launch} (hl : s.launch slot = some l)
    (hf : s.hub.fatal = false) (he : l.ended ≠ none ∨ l.plots ≤ l.retiredCount) :
    ∃ t, exec (.launchComplete slot) s = .next t ∧ t.launch slot = none := by
  have hgo : (s.hub.fatal || (l.ended.isNone && decide (l.retiredCount < l.plots))) = false := by
    rcases he with h | h
    · simp [hf, Option.isNone_iff_eq_none, h]
    · simp [hf, Nat.not_lt.2 h]
  refine ⟨_, rfl, noteWaits_launch_none ?_⟩
  simp only [hl, hgo, Bool.false_eq_true, ↓reduceIte]
  exact freed_launch _ slot _

end Sys2Proof.Machine

namespace Sys2Proof.Laws
open Machine

/-- Settles O50: a front's step is its own queue's, a launch's step is its own table entry's; what reads and writes memory
between them leaves queues and launches. -/
theorem launchesRun : Obligations.LaunchesRun := by
  unfold Obligations.LaunchesRun
  refine ⟨fun s q hx hf => ⟨launchCheck_ready hx hf, launchCheck_waits hx hf, fun off => launchCheck_rejects hx hf⟩,
    fun s s1 s2 q => waitdepRecheck_met, fun s => waitdepRecheck_early, fun s s1 slot q table => dispatch_enters,
    fun s s1 slot seg l bs hl hw hp he hseg hn hc => ?_, fun s thief slot l r hl hmay hout hr h2 => ?_,
    fun s slot l => launchComplete_frees⟩
  · obtain ⟨t, m, ht, hmem, hm, hcosts, hsegments⟩ := costSort_sorts hl hw hp he hseg hn hc
    exact ⟨t, m, ht, hmem, hm, hcosts, hsegments, sortCosts_perm _ _ _⟩
  · obtain ⟨t, m, ht, hmem, hm, hranges⟩ := steal_splits hl hmay hout hr h2
    exact ⟨t, m, ht, hmem, hm, hranges, split_left r thief⟩

end Sys2Proof.Laws
end

section
namespace Sys2Proof.Machine

/-! ### What a record's read leaves (R62, R252) -/

@[simp] theorem dropStale_beside (s : State) (p pa n : Nat) : (s.dropStale p pa n).beside = s.beside := modCore_beside rfl

theorem readSpot_beside (s : State) (p k : Nat) (y : Spot) (n : Nat) (ecc : Ecc) :
    (s.readSpot p k y n false false ecc).2.2.beside = s.beside := by
  unfold State.readSpot
  split
  · exact (dropStale_beside ..).trans (readAt_beside s (s.client p k) (.mem _ true) n ecc)
  · exact readAt_beside ..

theorem translateA_beside {s t : State} {va : Nat} {kind : AccessKind} {r : Xlated}
    (h : translateA va kind s = .ok (r, t)) : t.beside = s.beside := by
  simp only [translateA, Act.bind_apply, Act.get_apply, Act.set_apply, Act.pure_apply] at h
  cases h
  exact translate_beside ..

theorem recordPlace_beside {s t : State} {a : W64} {len : Nat} {y : Spot} (h : recordPlace a len s = .ok (y, t)) :
    t.beside = s.beside := by
  unfold recordPlace at h
  dsimp only at h
  by_cases hw : isWindow a.toNat = true
  · rw [if_pos hw, Act.bind_apply, Act.get_apply] at h
    cases hc : s.winCheck s.curTeam a.toNat with
    | some c =>
      simp only [hc, Act.trap_apply] at h
      cases h
    | none =>
      simp only [hc] at h
      split_ifs at h
      · cases h
      · cases hy : s.findWindow s.curTeam a.toNat len with
        | ok y =>
          simp only [hy] at h
          cases h
          rfl
        | bad c =>
          simp only [hy] at h
          cases h
        | wait =>
          simp only [hy] at h
          cases h
  · rw [if_neg hw] at h
    split at h
    · cases h
    · split at h
      · cases h
      · rw [Act.bind_apply] at h
        split at h
        · split at h
          · cases h
            exact translateA_beside ‹_›
          · cases h
        · cases h

theorem readRecord_beside {s t : State} {a : W64} {len : Nat} {r : Rec} (h : readRecord a len s = .ok (r, t)) :
    t.beside = s.beside := by
  simp only [readRecord, Act.bind_apply, Act.get_apply, Act.set_apply, Act.pure_apply, Act.holdUnless_apply,
    Act.trapIf_apply] at h
  split at h
  · rename_i y u hy
    split at h
    · split at h
      · cases h
        rename_i hsplit
        split at hsplit <;> cases hsplit
        exact (readSpot_beside ..).trans (recordPlace_beside hy)
      · cases h
    · cases h
  · cases h

/-! ### SHEAF (R288) -/

theorem worst_cause {l : List Finding} {n c o : Nat} (hl : ∀ f ∈ l, f.2.1 ≠ n) (h : worst l = some (c, o)) : c ≠ n := by
  induction l generalizing c o with
  | nil => cases h
  | cons f l ih =>
    obtain ⟨b, cause, off⟩ := f
    have hf : cause ≠ n := hl _ List.mem_cons_self
    have hl : ∀ f ∈ l, f.2.1 ≠ n := fun f hf => hl f (List.mem_cons_of_mem _ hf)
    unfold worst at h
    split at h
    · split at h <;> cases h
      · exact hf
      · exact ih hl ‹_›
    · split at h <;> cases h
      exact hf

/-- No finding in a sheaf's descriptor is JOINX, which alone is not taken where it is found. -/
theorem checkSheaf_cause {r : Rec} {w : W64} {c off : Nat} (h : checkSheaf r w = some (c, off)) : c ≠ causeJOINX := by
  refine worst_cause (fun f hf => ?_) h
  revert f
  simp only [sheafFindings, List.forall_mem_cons]
  decide

theorem forall_tget {α : Type} {P : α → Prop} {d : α} (hd : P d) {t : Table α} (h : ∀ e ∈ t, P e.2) (n : Nat) :
    P (tget d t n) := by
  unfold tget
  cases hf : tfind t n with
  | none => exact hd
  | some x => exact h _ (mem_of_tfind hf)

/-- What all entries of a table have is kept and reflected by a change of an entry that keeps and reflects it. -/
theorem forall_tput_iff {α : Type} {P : α → Prop} {d : α} (hd : P d) {t : Table α} {n : Nat} {x : α}
    (hx : P x ↔ P (tget d t n)) : (∀ e ∈ tput t n x, P e.2) ↔ ∀ e ∈ t, P e.2 := by
  induction t with
  | nil => simpa [tput] using hx.2 hd
  | cons e t ih =>
    obtain ⟨k, v⟩ := e
    unfold tput
    split_ifs with hlt heq
    · rw [List.forall_mem_cons]
      exact ⟨And.right, fun h => ⟨hx.2 (forall_tget hd h n), h⟩⟩
    · subst heq
      have hv : tget d ((n, v) :: t) n = v := by simp [tget, tfind]
      rw [hv] at hx
      simp only [List.forall_mem_cons, hx]
    · have hv : tget d ((k, v) :: t) n = tget d t n := by simp [tget, tfind, Ne.symm heq]
      rw [hv] at hx
      simp only [List.forall_mem_cons, ih hx]

/-- The SHEAFs that wait on a core. -/
def Core.sheafWaits (c : Core) : List Nat :=
  if c.resident then c.team.ctxs.filterMap fun x =>
    match x.2.waitOf .a with
    | some (.sheafRoom _ t) => some t
    | _ => none
  else []

theorem sheafWaits_eq_nil_iff (s : State) : s.sheafWaits = [] ↔ ∀ e ∈ s.cores, e.2.sheafWaits = [] := by
  unfold State.sheafWaits State.residents Core.sheafWaits
  rw [List.flatMap_eq_nil_iff]
  simp only [List.mem_filter, and_imp, ite_eq_right_iff] <;> rfl

theorem modTeam_congr {s : State} {p : Nat} {f g : Team → Team} (h : f (s.team p) = g (s.team p)) :
    s.modTeam p f = s.modTeam p g := congrArg (s.setTeam p) h

/-- A term of a signature changes the signature at most. -/
theorem pairTerm_eq (s : State) (p kind addr data : Nat) : s.pairTerm p kind addr data = s ∨
    ∃ h, s.pairTerm p kind addr data = s.modTeam p fun t => { t with pairSig := h } := by
  by_cases h : (s.team p).pairRun = 0
  · exact .inl (if_pos h)
  · have hadd : ∀ x : W64, (s.modTeam p fun t => { t with pairSig := t.pairSig + x }) =
        s.modTeam p fun t => { t with pairSig := (s.team p).pairSig + x } := fun x => modTeam_congr rfl
    exact .inr ⟨_, (if_neg h).trans (hadd _)⟩

theorem modTeam_sheafWaits {s : State} {p : Nat} {f : Team → Team} (h : (f (s.team p)).ctxs = (s.team p).ctxs) :
    (s.modTeam p f).sheafWaits = [] ↔ s.sheafWaits = [] := by
  rw [sheafWaits_eq_nil_iff, sheafWaits_eq_nil_iff]
  refine forall_tput_iff (P := fun c : Core => c.sheafWaits = []) (d := Core.reset) rfl ?_
  unfold Core.sheafWaits
  rw [h]
  rfl

theorem pairTerm_sheafWaits (s : State) (p kind addr data : Nat) :
    (s.pairTerm p kind addr data).sheafWaits = [] ↔ s.sheafWaits = [] := by
  rcases pairTerm_eq s p kind addr data with h | ⟨sig, h⟩
  · rw [h]
  · rw [h]
    exact modTeam_sheafWaits rfl

theorem modTeam_ctx {s : State} {p : Nat} {f : Team → Team} (h : (f (s.team p)).ctxs = (s.team p).ctxs) (q k : Nat) :
    (s.modTeam p f).ctx q k = s.ctx q k := by
  unfold State.ctx Team.ctx
  by_cases hq : q = p
  · rw [hq, State.team_modTeam_same, h]
  · exact congrArg (fun c : Core => tget _ c.team.ctxs k) (State.core_setCore_other s p q _ hq)

theorem pairTerm_ctx (s : State) (p kind addr data q k : Nat) :
    (s.pairTerm p kind addr data).ctx q k = s.ctx q k := by
  rcases pairTerm_eq s p kind addr data with h | ⟨sig, h⟩
  · rw [h]
  · rw [h]
    exact modTeam_ctx rfl q k

theorem pairTerm_sheaves (s : State) (p kind addr data : Nat) :
    (s.pairTerm p kind addr data).sheaves = s.sheaves := congrArg Beside.sheaves (pairTerm_beside ..)

theorem pairTerm_frame (s : State) (p kind addr data : Nat) : (s.pairTerm p kind addr data).mem = s.mem ∧
    (s.pairTerm p kind addr data).hub = s.hub := by
  rcases pairTerm_eq s p kind addr data with h | ⟨sig, h⟩ <;> rw [h] <;> exact ⟨rfl, rfl⟩

/-- What a team's SHEAF submits stands beside memory. -/
theorem submission_of_beside {s t : State} (h : t.beside = s.beside) (p k : Nat) (d : Rec) (n : Nat) :
    t.submission p k d n = s.submission p k d n := by
  have ht := Core.team_of_desk (core_desk_of_beside h p)
  have hw : (t.team p).work = (s.team p).work := (congrArg Team.work ht :)
  have ha : (t.team p).age = (s.team p).age := (congrArg Team.age ht :)
  have hs : (t.team p).asid = (s.team p).asid := (congrArg Team.asid ht :)
  have hl : (t.team p).lslot = (s.team p).lslot := (congrArg Team.lslot ht :)
  have hg : t.launches = s.launches := congrArg Beside.launches h
  simp only [State.submission, State.launch, hw, ha, hs, hl, hg]

end Sys2Proof.Machine
end

section
namespace Sys2Proof.Machine

section
variable {a : Src} {s s1 s2 : State} {x : W64} {d : Rec} (hx : readSrc a s = .ok (x, s1))
include hx

theorem sheaf_misaligned (ha : x.toNat % 128 ≠ 0) : ∃ body, execSheaf a s = concludeSyllable body s ∧
    body s = .error (.trap causeALIGN x) := by
  refine ⟨_, rfl, ?_⟩
  have hb : (x.toNat % 128 != 0) = true := by simpa using ha
  simp only [Act.bind_apply, hx, Act.trapIf_apply, hb, ↓reduceIte]

variable (ha : x.toNat % 128 = 0) (hd : readRecord x 128 s1 = .ok (d, s2))
include ha hd

theorem sheaf_inadmissible {c off : Nat} (hc : checkSheaf d (tget 0 s2.hub.codesets (shOpid d)) = some (c, off)) :
    ∃ body, execSheaf a s = concludeSyllable body s ∧ body s = .error (.trap c (BitVec.ofNat 64 off)) := by
  refine ⟨_, rfl, ?_⟩
  have hb : (x.toNat % 128 != 0) = false := by simpa using ha
  simp only [Act.bind_apply, hx, Act.trapIf_apply, hb, Bool.false_eq_true, ↓reduceIte, hd, Act.get_apply, hc,
    Act.trap_apply]

theorem sheaf_submits (hc : checkSheaf d (tget 0 s2.hub.codesets (shOpid d)) = none)
    (hu : s2.curTeam.uncommitted = false) (hf : s2.cur.storeFaults = []) (hp : s2.curTeam.suppressed = false) :
    ∃ body, execSheaf a s = concludeSyllable body s ∧
      body s = submitOrWait d (s2.pairTerm s2.issue.core 0x31 x.toNat (fieldOf d 0 8)) := by
  refine ⟨_, rfl, ?_⟩
  have hb : (x.toNat % 128 != 0) = false := by simpa using ha
  have hraise : raisePending s2 = .ok ((), s2) := by
    simp only [raisePending, Act.bind_apply, Act.getCtx_apply, hf, Act.pure_apply]
  simp only [Act.bind_apply, hx, Act.trapIf_apply, hb, Bool.false_eq_true, ↓reduceIte, hd, Act.get_apply, hc,
    checkCommitted, Act.getTeam_apply, hu, hraise, Act.modify_apply, hp]
end

theorem pairTerm_cur (s : State) (p kind addr data : Nat) : (s.pairTerm p kind addr data).cur = s.cur := by
  have hi : (s.pairTerm p kind addr data).issue = s.issue := congrArg Beside.issue (pairTerm_beside ..)
  unfold State.cur
  rw [hi, pairTerm_ctx]

/-! #### The hub takes the sheaf, or the cluster waits for room -/

/-- The issuing context has numbered its submission. -/
def State.numbered (s : State) : State := s.setCur { s.cur with nextSeq := s.cur.nextSeq + 1 }

theorem setCur_beside (s : State) (c : Ctx) : (s.setCur c).beside = s.beside := setCtx_beside ..

theorem numbered_beside (s : State) : s.numbered.beside = s.beside := setCur_beside ..

/-- The submission has taken a place in line. -/
def State.inLine (s : State) : State :=
  { s.numbered with hub := { s.hub with sheafTickets := s.hub.sheafTickets + 1 } }

theorem submitOrWait_room {s : State} (d : Rec) (hr : s.heldSheaves < 64) (hw : s.sheafWaits = [])
    (hp : s.hub.sheafQ.posts = []) : submitOrWait d s = .ok ((), s.numbered.addSheaf
      (s.submission s.issue.core s.issue.ctx d s.cur.nextSeq)) := by
  have hc : (decide (s.heldSheaves < 64) && s.sheafWaits.isEmpty && s.hub.sheafQ.posts.isEmpty) = true := by
    simp [hr, hw, hp]
  simp only [submitOrWait, Act.bind_apply, Act.get_apply, Act.modCtxA_apply, hc, ↓reduceIte, Act.modify_apply]
  exact congrArg (fun y => Except.ok ((), s.numbered.addSheaf y)) (submission_of_beside (numbered_beside s) ..)

theorem submitOrWait_full {s : State} (d : Rec)
    (h : ¬ (s.heldSheaves < 64 ∧ s.sheafWaits = [] ∧ s.hub.sheafQ.posts = [])) :
    submitOrWait d s = .ok ((), { s.inLine with issue := { s.inLine.issue with
      waits := s.inLine.issue.waits ++
        [(s.inLine.issue.cluster, .sheafRoom d s.hub.sheafTickets, s.inLine.issue.popped)] } }) := by
  have hc : (decide (s.heldSheaves < 64) && s.sheafWaits.isEmpty && s.hub.sheafQ.posts.isEmpty) = false := by
    simpa [Bool.and_assoc, ← not_and] using h
  simp only [submitOrWait, Act.bind_apply, Act.get_apply, Act.modCtxA_apply, hc, Bool.false_eq_true, ↓reduceIte,
    Act.modify_apply]
  rfl

/-! #### SHEAF_TAKE (R114) -/

/-- The sheaf of the next posted descriptor. -/
def State.nextPosted (s : State) : Sheaf :=
  let q := s.hub.sheafQ
  let count := (q.tail - BitVec.ofNat 32 q.posts.length).toNat
  let d := s.physRead (bits q.base.toNat 12 40 * 4096 + 128 * (count % 2 ^ ctlLog2 q.control.toNat)) 128
  { Sheaf.fresh 0 d (shAsid d) 0 0 (0xFFFFFFFF * 2 ^ 32 + count) with hosted := true }

end Sys2Proof.Machine

namespace Sys2Proof.Laws
open Machine

theorem sheaf_traps (a : Src) (s s1 : State) (x : W64) (ha : s.issue.alone = true) (hx : readSrc a s = .ok (x, s1))
    (hm : x.toNat % 128 ≠ 0) : exec (.sheaf a) s = .next (s.trapHere causeALIGN x) := by
  obtain ⟨body, hb, ht⟩ := sheaf_misaligned hx hm
  exact hb.trans (conclude_trapHere ha (by decide) ht)

section
variable {a : Src} {s s1 s2 : State} {x : W64} {d : Rec} (hx : readSrc a s = .ok (x, s1))
  (hd : readRecord x 128 s1 = .ok (d, s2))
include hx hd

/-- What the operands' reads leave. -/
theorem sheaf_reads : s2.now = s.now ∧ s2.issue = { s.issue with popped := s2.issue.popped } := by
  have hr := readSrc_frame hx
  have hb := readRecord_beside hd
  have hi : s2.issue = s1.issue := congrArg Beside.issue hb
  refine ⟨(congrArg Beside.now hb).trans hr.elsewhere.now, ?_⟩
  rw [hi]
  exact hr.issue

variable (hf : s.freshIssue = true) (ha : x.toNat % 128 = 0)
  (hc : checkSheaf d (tget 0 s2.hub.codesets (shOpid d)) = none) (hu : s2.curTeam.uncommitted = false)
  (he : s2.cur.storeFaults = []) (hp : s2.curTeam.suppressed = false)
include hf ha hc hu he hp

theorem sheaf_taken (hr : s2.heldSheaves < 64) (hw : s2.sheafWaits = []) (hq : s2.hub.sheafQ.posts = []) :
    ∃ t : State, exec (.sheaf a) s = .next t ∧ t.mem = s2.mem ∧ t.sheaves = s2.sheaves ++
        [{ s2.submission s.issue.core s.issue.ctx d s2.cur.nextSeq with id := s2.hub.sheafIds }] ∧
      t.cur = ({ s2.cur with nextSeq := s2.cur.nextSeq + 1 } : Ctx).past s.issue.cluster s.now := by
  obtain ⟨hn, hi⟩ := sheaf_reads hx hd
  obtain ⟨body, hb, ht⟩ := sheaf_submits hx ha hd hc hu he hp
  have hcur := pairTerm_cur s2 s2.issue.core 0x31 x.toNat (fieldOf d 0 8)
  obtain ⟨hmem, hhub⟩ := pairTerm_frame s2 s2.issue.core 0x31 x.toNat (fieldOf d 0 8)
  have hbe := pairTerm_beside s2 s2.issue.core 0x31 x.toNat (fieldOf d 0 8)
  have hwv := (pairTerm_sheafWaits s2 s2.issue.core 0x31 x.toNat (fieldOf d 0 8)).2 hw
  generalize s2.pairTerm s2.issue.core 0x31 x.toNat (fieldOf d 0 8) = v at ht hcur hmem hhub hbe hwv
  have hsh : v.sheaves = s2.sheaves := congrArg Beside.sheaves hbe
  have hiv : v.issue = s2.issue := congrArg Beside.issue hbe
  have hiv' : v.issue = { s.issue with popped := v.issue.popped } := by
    rw [hiv]
    exact hi
  have hh : v.heldSheaves = s2.heldSheaves := by simp only [State.heldSheaves, hsh]
  rw [submitOrWait_room d (hh ▸ hr) hwv (hhub ▸ hq), submission_of_beside hbe, hcur, hiv,
    show s2.issue.core = s.issue.core by rw [hi], show s2.issue.ctx = s.issue.ctx by rw [hi]] at ht
  obtain ⟨t, hrun, hel, hct⟩ := conclude_done hf (u := v.numbered.addSheaf _) hiv' ((congrArg Beside.now hbe).trans hn) ht
  refine ⟨t, hb.trans hrun, hel.mem.trans hmem, hel.sheaves.trans ?_, hct.trans ?_⟩
  · exact congrArg₂ (fun l n => l ++ [{ s2.submission s.issue.core s.issue.ctx d s2.cur.nextSeq with id := n }]) hsh
      (congrArg Hub.sheafIds hhub)
  · have hnum : v.numbered.cur = { s2.cur with nextSeq := s2.cur.nextSeq + 1 } := by
      rw [← hcur]
      exact State.cur_setCur v _
    exact congrArg (Ctx.past · s.issue.cluster s.now) hnum

theorem sheaf_waits (hr : 64 ≤ s2.heldSheaves ∨ s2.sheafWaits ≠ [] ∨ s2.hub.sheafQ.posts ≠ []) :
    ∃ t : State, exec (.sheaf a) s = .next t ∧ t.mem = s2.mem ∧ t.sheaves = s2.sheaves ∧
      t.cur.waitsFor s.issue.cluster (.sheafRoom d s2.hub.sheafTickets) := by
  obtain ⟨hn, hi⟩ := sheaf_reads hx hd
  obtain ⟨body, hb, ht⟩ := sheaf_submits hx ha hd hc hu he hp
  obtain ⟨hmem, hhub⟩ := pairTerm_frame s2 s2.issue.core 0x31 x.toNat (fieldOf d 0 8)
  have hbe := pairTerm_beside s2 s2.issue.core 0x31 x.toNat (fieldOf d 0 8)
  have hwv := pairTerm_sheafWaits s2 s2.issue.core 0x31 x.toNat (fieldOf d 0 8)
  generalize s2.pairTerm s2.issue.core 0x31 x.toNat (fieldOf d 0 8) = v at ht hmem hhub hbe hwv
  have hsh : v.sheaves = s2.sheaves := congrArg Beside.sheaves hbe
  have hiv : v.issue = s2.issue := congrArg Beside.issue hbe
  have hiv' : v.issue = { s.issue with popped := v.issue.popped } := by
    rw [hiv]
    exact hi
  have hh : v.heldSheaves = s2.heldSheaves := by simp only [State.heldSheaves, hsh]
  have hno : ¬ (v.heldSheaves < 64 ∧ v.sheafWaits = [] ∧ v.hub.sheafQ.posts = []) := by
    rw [hh, hwv, hhub]
    rintro ⟨h1, h2, h3⟩
    rcases hr with h | h | h
    · omega
    · exact h h2
    · exact h h3
  obtain ⟨t, hrun, hel, hct, -⟩ := conclude_wait hf (u := v.inLine) hiv' (ht.trans (submitOrWait_full d hno))
  refine ⟨t, hb.trans hrun, hel.mem.trans hmem, hel.sheaves.trans hsh, ?_⟩
  rw [← hhub]
  exact hct

end

/-! ### SHEAF_SUBMIT, SHEAF_TAKE and POD_TASK_ARRIVAL (R114, R432) -/

theorem sheafSubmit_ends (s : State) (p k n : Nat) (d : Rec) (po : List Popped)
    (hw : (s.ctx p k).a.status = .waiting (.sheafRoom d n) po) (hr : (s.core p).resident = true)
    (hm : s.mayTake n = true) : ∃ t : State, exec (.sheafSubmit ⟨p, k⟩) s = .next t ∧ t.mem = s.mem ∧
      t.ctx p k = (s.ctx p k).resumed .a ∧
      t.sheaves = s.sheaves ++ [{ s.submission p k d (s.ctx p k).nextSeq with id := s.hub.sheafIds }] := by
  have hwait : (s.ctx p k).waitOf .a = some (.sheafRoom d n) := by simp only [Ctx.waitOf, Ctx.cluster, hw]
  have hrun : exec (.sheafSubmit ⟨p, k⟩) s = .next ((s.addSheaf (s.submission p k d (s.ctx p k).nextSeq)).modCtx p k
      fun c => c.endWait .a) := by
    show execSheafSubmit ⟨p, k⟩ s = _
    simp only [execSheafSubmit, concludeEvent, hwait, hr, hm, Bool.and_self, ↓reduceIte]
  exact ⟨_, hrun, rfl, (State.ctx_setCtx_same ..).trans (Ctx.endWait_eq_resumed _ _), rfl⟩

theorem sheafTake_takes (s : State) (n : Nat) (rest : List Nat) (hp : s.hub.sheafQ.posts = n :: rest)
    (hf : s.hub.fatal = false) (hr : s.hub.ready = true) (hm : s.mayTake n = true) :
    let q := s.hub.sheafQ
    let count := (q.tail - BitVec.ofNat 32 q.posts.length).toNat
    ∃ (t : State) (y : Sheaf), exec .sheafTake s = .next t ∧ t.mem = s.mem ∧
      t.hub.sheafQ = { q with posts := rest } ∧ t.sheaves = s.sheaves ++ [y] ∧ y.phase = .waiting ∧ y.hosted = true ∧
      y.desc = s.physRead (bits q.base.toNat 12 40 * 4096 + 128 * (count % 2 ^ bits q.control.toNat 0 4)) 128 := by
  have hrun : exec .sheafTake s = .next ((s.setSheafQ { s.hub.sheafQ with posts := rest }).addSheaf s.nextPosted) := by
    show execSheafTake s = _
    simp only [execSheafTake, concludeEvent, hf, hr, hm, Bool.not_true, Bool.or_self, Bool.false_eq_true, ↓reduceIte, hp,
      State.nextPosted]
  exact ⟨_, _, hrun, rfl, rfl, rfl, rfl, rfl, rfl⟩

theorem podTaskArrival_adds (s : State) (bs : List Byte) (hf : s.hub.fatal = false) (hr : s.hub.ready = true)
    (hl : bs.length = 144) : ∃ (t : State) (y : Sheaf), exec (.podTaskArrival bs) s = .next t ∧ t.mem = s.mem ∧
      t.sheaves = s.sheaves ++ [y] ∧ y.desc = bs.take 128 ∧ y.remote = true ∧ y.phase = .waiting ∧
      y.outer = some (leNat ((bs.drop 128).take 8), leNat ((bs.drop 136).take 8)) := by
  have hrun : exec (.podTaskArrival bs) s = .next (s.addSheaf (innerSheaf (bs.take 128) (shAsid (bs.take 128)) 0 0
      s.hub.sheafIds none (fieldOf bs 128 8) (fieldOf bs 136 8))) := by
    show execPodTaskArrival bs s = _
    simp only [execPodTaskArrival, concludeEvent, hf, hr, hl, Bool.not_true, bne_self_eq_false, Bool.or_self,
      Bool.false_eq_true, ↓reduceIte]
  exact ⟨_, _, hrun, rfl, rfl, rfl, rfl, rfl, rfl⟩

end Sys2Proof.Laws
end

section
namespace Sys2Proof.Machine

/-! ### The sheaves that the hub holds -/

theorem sheaves_of_beside {s t : State} (h : t.beside = s.beside) : t.sheaves = s.sheaves :=
  congrArg Beside.sheaves h

theorem sheafOf_of_sheaves {s t : State} (h : t.sheaves = s.sheaves) (id : Nat) : t.sheafOf id = s.sheafOf id :=
  congrArg (List.find? fun x : Sheaf => x.id == id) h

theorem sheafOf_of_beside {s t : State} (h : t.beside = s.beside) (id : Nat) : t.sheafOf id = s.sheafOf id :=
  sheafOf_of_sheaves (sheaves_of_beside h) id

theorem sheafOf_id {s : State} {id : Nat} {x : Sheaf} (h : s.sheafOf id = some x) : x.id = id := by
  simpa using List.find?_some h

/-- A change of every sheaf that keeps its number. -/
theorem sheafOf_map {s t : State} {g : Sheaf → Sheaf} (ht : t.sheaves = s.sheaves.map g) (hg : ∀ x, (g x).id = x.id)
    (id : Nat) : t.sheafOf id = (s.sheafOf id).map g := by
  have hp : (fun x : Sheaf => x.id == id) ∘ g = fun x => x.id == id := funext fun x => by simp [hg]
  unfold State.sheafOf
  rw [ht, List.find?_map, hp]

theorem sheafOf_modSheaf {s : State} {id : Nat} {x : Sheaf} {f : Sheaf → Sheaf} (h : s.sheafOf id = some x)
    (hf : ∀ y, y.id = id → (f y).id = id) : (s.modSheaf id f).sheafOf id = some (f x) := by
  rw [sheafOf_map (s := s) rfl, h]
  · simp [sheafOf_id h]
  · intro y
    split
    · rename_i hy
      rw [hf y (by simpa using hy)]
      exact (by simpa using hy : y.id = id).symm
    · rfl

theorem sheafOf_putSheaf {s : State} {id : Nat} {x y : Sheaf} (h : s.sheafOf id = some x) (hy : y.id = id) :
    (s.putSheaf y).sheafOf id = some y := by
  subst hy
  exact sheafOf_modSheaf h fun _ _ => rfl

theorem sheafOf_filtered {s t : State} {id : Nat} (h : t.sheaves = s.sheaves.filter fun y => y.id != id) :
    t.sheafOf id = none := by
  refine List.find?_eq_none.2 fun y hy => ?_
  rw [h] at hy
  simpa using (List.mem_filter.1 hy).2

/-- A sweep leaves the sheaves that are not final. -/
theorem sheafOf_sweepSheaves {s : State} {id : Nat} {x : Sheaf} (h : s.sheafOf id = some x) (hx : x.phase ≠ .final) :
    s.sweepSheaves.sheafOf id = some x := by
  obtain ⟨hid, as, bs, hl, has⟩ := List.find?_eq_some_iff_append.1 h
  show ((s.sheaves.filter _).find? _) = some x
  rw [List.find?_filter, List.find?_eq_some_iff_append]
  refine ⟨?_, as, bs, hl, fun a ha => ?_⟩
  · simp [hx, hid]
  · have hne : (a.id == id) = false := by simpa using has a ha
    simp [hne]

/-- The sheaves after the waits of their tasks have been noted. -/
theorem noteWaits_sheafOf (s : State) (id : Nat) : ∃ f : Sheaf → Task → Task,
    s.noteWaits.sheafOf id = (s.sheafOf id).map (fun x => { x with tasks := x.tasks.map (f x) }) ∧
    ∀ x u, x.phase = .placed → u.waitSince = none → f x u = u := by
  refine ⟨_, sheafOf_map (s := s) (t := s.noteWaits) rfl (fun _ => rfl) id, fun x u hx hu => ?_⟩
  obtain ⟨i, c, rm, n, e, p, w, cd⟩ := u
  cases hu
  simp [State.taskWants, hx]

theorem noteWaits_sheafOf_none {s : State} {id : Nat} (h : s.sheafOf id = none) : s.noteWaits.sheafOf id = none := by
  obtain ⟨f, hf, -⟩ := noteWaits_sheafOf s id
  rw [hf, h]
  rfl

theorem noteWaits_sheafOf_some {s : State} {id : Nat} {x : Sheaf} (h : s.sheafOf id = some x) :
    ∃ l, s.noteWaits.sheafOf id = some { x with tasks := l } := by
  obtain ⟨f, hf, -⟩ := noteWaits_sheafOf s id
  rw [hf, h]
  exact ⟨_, rfl⟩

theorem noteWaits_sheafOf_placed {s : State} {id : Nat} {x : Sheaf} (h : s.sheafOf id = some x) (hx : x.phase = .placed)
    (hw : ∀ u ∈ x.tasks, u.waitSince = none) : s.noteWaits.sheafOf id = some x := by
  obtain ⟨f, hf, hk⟩ := noteWaits_sheafOf s id
  have hl : x.tasks.map (f x) = x.tasks :=
    (List.map_congr_left fun u hu => hk x u hx (hw u hu)).trans (List.map_id' _)
  rw [hf, h]
  simp only [Option.map_some, hl]

end Sys2Proof.Machine
end

section
namespace Sys2Proof.Machine

/-! ### What the Winnower leaves (R424 to R433) -/

/-- A sheaf without what the Winnower writes into it. -/
def Sheaf.standing (x : Sheaf) : Sheaf :=
  { x with
    tiles := []
    written := 0
    corrected := 0
    faulty := []
    faultChips := 0
    late := false }

/-- What stands beside memory, but for the chiplets that faulty returns name. -/
def State.unnamed (s : State) : Beside :=
  { s.beside with sheaves := s.sheaves.map fun x : Sheaf => { x with faultChips := 0 } }

theorem unnamed_of_beside {s t : State} (h : t.beside = s.beside) : t.unnamed = s.unnamed :=
  congrArg (fun b : Beside => { b with sheaves := b.sheaves.map fun x : Sheaf => { x with faultChips := 0 } }) h

theorem sheafDone_beside (s : State) (x : Sheaf) : (s.sheafDone x).beside = s.beside := by
  unfold State.sheafDone
  dsimp only
  split_ifs <;> simp

theorem writeStatus_beside (s : State) (x : Sheaf) (code cause detail : Nat) (final : Bool) :
    (s.writeStatus x code cause detail final).beside = s.beside := by
  unfold State.writeStatus
  split <;> simp

theorem writeCTile_beside (s : State) (x : Sheaf) (top left : Nat) (rows : List (List Byte × Option Nat)) :
    (s.writeCTile x top left rows).beside = s.beside := by
  refine foldl_beside (fun s row => ?_) _ s
  dsimp only
  split <;> simp

theorem writePosition_beside (s : State) (x : Sheaf) (tile : Nat) (base : List Nat) :
    (s.writePosition x tile base).1.beside = s.beside := by
  refine foldl_fst_beside (fun acc i => ?_) _ (s, _)
  dsimp only
  split
  · rfl
  · split
    · dsimp only
      split
      · rfl
      · exact writeCTile_beside ..
    · rfl

theorem modSheaf_unnamed (s : State) (id : Nat) (m : BitVec 16) :
    (s.modSheaf id fun y => { y with faultChips := y.faultChips ||| m }).unnamed = s.unnamed := by
  refine congrArg (fun l => { s.beside with sheaves := l }) ?_
  show (s.sheaves.map _).map _ = _
  rw [List.map_map]
  refine List.map_congr_left fun y _ => ?_
  dsimp only [Function.comp]
  split <;> rfl

theorem nameFaulty_leaves (s : State) (x : Sheaf) (task : Nat) :
    (s.nameFaulty x task).1.unnamed = s.unnamed ∧ (s.nameFaulty x task).2.standing = x.standing := by
  refine ⟨?_, rfl⟩
  unfold State.nameFaulty
  dsimp only
  split
  · exact (modSheaf_unnamed ..).trans (unnamed_of_beside (by simp))
  · exact unnamed_of_beside (by simp)

theorem decodeTile_leaves (s : State) (x : Sheaf) (tile : Nat) :
    (s.decodeTile x tile).1.unnamed = s.unnamed ∧ (s.decodeTile x tile).2.standing = x.standing := by
  unfold State.decodeTile
  dsimp only
  cases (winnow x.k (x.heldAt tile)).named with
  | none =>
    dsimp only
    split
    · exact ⟨rfl, rfl⟩
    · exact ⟨unnamed_of_beside (writePosition_beside ..), rfl⟩
  | some q =>
    obtain ⟨hs, hx⟩ := nameFaulty_leaves s x q
    dsimp only
    split
    · exact ⟨hs, hx⟩
    · exact ⟨(unnamed_of_beside (writePosition_beside ..)).trans hs, hx⟩

theorem checkLate_leaves (s : State) (x : Sheaf) (tile : Nat) (t : TileState) :
    (s.checkLate x tile t).1.unnamed = s.unnamed ∧ (s.checkLate x tile t).2.standing = x.standing := by
  unfold State.checkLate
  dsimp only
  split
  · exact ⟨rfl, rfl⟩
  · split
    · exact ⟨rfl, rfl⟩
    · split
      · rename_i q _
        obtain ⟨hs, hx⟩ := nameFaulty_leaves s x q.task
        split <;> split
        · exact ⟨(unnamed_of_beside (writePosition_beside ..)).trans (unnamed_of_beside (post_beside ..)), rfl⟩
        · exact ⟨((unnamed_of_beside (writePosition_beside ..)).trans (unnamed_of_beside (post_beside ..))).trans hs, hx⟩
        · exact ⟨rfl, rfl⟩
        · exact ⟨hs, hx⟩
      · exact ⟨rfl, rfl⟩

/-! #### The positions that are decoded -/

/-- Whether a position may be decoded now (R426, R427). -/
def Sheaf.mayDecode (x : Sheaf) (p : Nat) : Bool :=
  (x.tasks.all fun t => x.heard t p) || (!setSure x.set && x.k ≤ (x.heldAt p).length)

/-- One position of a decoding. -/
def State.decodeStep (acc : State × Sheaf) (p : Nat) : State × Sheaf :=
  if (tfind acc.2.tiles p).isSome then acc
  else if acc.2.mayDecode p then acc.1.decodeTile acc.2 p else acc

theorem decodeReady_eq (s : State) (x : Sheaf) :
    s.decodeReady x = (List.range x.positions).foldl State.decodeStep (s, x) := rfl

theorem decodeStep_leaves (acc : State × Sheaf) (p : Nat) : (State.decodeStep acc p).1.unnamed = acc.1.unnamed ∧
    (State.decodeStep acc p).2.standing = acc.2.standing := by
  unfold State.decodeStep
  split_ifs
  · exact ⟨rfl, rfl⟩
  · exact decodeTile_leaves ..
  · exact ⟨rfl, rfl⟩

theorem decodeReady_leaves (s : State) (x : Sheaf) : (s.decodeReady x).1.unnamed = s.unnamed ∧
    (s.decodeReady x).2.standing = x.standing :=
  ⟨foldl_leaves (fun acc : State × Sheaf => acc.1.unnamed) (fun acc p => (decodeStep_leaves acc p).1) _ (s, x),
    foldl_leaves (fun acc : State × Sheaf => acc.2.standing) (fun acc p => (decodeStep_leaves acc p).2) _ (s, x)⟩

theorem decodeReady_none {s : State} {x : Sheaf} (h : ∀ p, x.mayDecode p = false) : s.decodeReady x = (s, x) := by
  rw [decodeReady_eq]
  induction List.range x.positions with
  | nil => rfl
  | cons p l ih =>
    have hp : State.decodeStep (s, x) p = (s, x) := by simp [State.decodeStep, h p]
    rwa [List.foldl_cons, hp]

theorem decodeTile_tiles (s : State) (x : Sheaf) (tile p : Nat) (h : p = tile ∨ (tfind x.tiles p).isSome = true) :
    (tfind (s.decodeTile x tile).2.tiles p).isSome = true := by
  have hput : ∃ t v, (s.decodeTile x tile).2.tiles = tput t tile v ∧ t = x.tiles := by
    unfold State.decodeTile
    dsimp only
    cases (winnow x.k (x.heldAt tile)).named with
    | none =>
      dsimp only
      split <;> exact ⟨_, _, rfl, rfl⟩
    | some q =>
      dsimp only
      split <;> exact ⟨_, _, rfl, rfl⟩
  obtain ⟨t, v, hv, rfl⟩ := hput
  rw [hv]
  by_cases hp : p = tile
  · rw [hp, tfind_tput_same]
    rfl
  · rw [tfind_tput_other _ _ _ _ hp]
    exact h.resolve_left hp

theorem decodeStep_tiles {acc : State × Sheaf} {p q : Nat}
    (h : (q = p ∧ acc.2.mayDecode p = true) ∨ (tfind acc.2.tiles q).isSome = true) :
    (tfind (State.decodeStep acc p).2.tiles q).isSome = true := by
  unfold State.decodeStep
  rcases h with ⟨rfl, h⟩ | h
  · split_ifs with hp
    · exact hp
    · exact decodeTile_tiles _ _ _ _ (.inl rfl)
  · split_ifs
    · exact h
    · exact decodeTile_tiles _ _ _ _ (.inr h)
    · exact h

/-- Every task has said what it will of a position. -/
def Sheaf.said (x : Sheaf) (p : Nat) : Bool := x.tasks.all fun t => x.heard t p

theorem said_of_standing {x y : Sheaf} (h : y.standing = x.standing) (p : Nat) : y.said p = x.said p :=
  (congrArg (Sheaf.said · p) h :)

theorem Sheaf.mayDecode_of_said {x : Sheaf} {p : Nat} (h : x.said p = true) : x.mayDecode p = true :=
  Bool.or_eq_true_iff.2 (.inl h)

/-- Each position of which every task has said what it will is decoded. -/
theorem decodeSteps_tiles {x : Sheaf} {l : List Nat} {acc : State × Sheaf} {q : Nat} (ha : acc.2.standing = x.standing)
    (hl : ∀ p ∈ l, x.said p = true) (hq : q ∈ l ∨ (tfind acc.2.tiles q).isSome = true) :
    (tfind (l.foldl State.decodeStep acc).2.tiles q).isSome = true := by
  induction l generalizing acc with
  | nil => simpa using hq
  | cons p l ih =>
    refine ih ((decodeStep_leaves acc p).2.trans ha) (fun p' hp' => hl p' (List.mem_cons_of_mem _ hp')) ?_
    have hp : acc.2.mayDecode p = true :=
      Sheaf.mayDecode_of_said ((said_of_standing ha p).trans (hl p List.mem_cons_self))
    rcases hq with hq | hq
    · rcases List.mem_cons.1 hq with rfl | hq
      · exact .inr (decodeStep_tiles (.inl ⟨rfl, hp⟩))
      · exact .inl hq
    · exact .inr (decodeStep_tiles (.inr hq))

theorem decodeReady_tiles {s : State} {x : Sheaf} (h : ∀ p < x.positions, x.said p = true) (p : Nat)
    (hp : p < x.positions) : (tfind (s.decodeReady x).2.tiles p).isSome = true :=
  decodeSteps_tiles rfl (fun p hp => h p (List.mem_range.1 hp)) (.inl (List.mem_range.2 hp))

/-! #### Completion and finality (R426, R427, R431) -/

theorem concludeSheaf_beside (s : State) (x : Sheaf) : (s.concludeSheaf x).1.beside = s.beside := by
  unfold State.concludeSheaf
  dsimp only
  split_ifs <;> simp [sheafDone_beside, State.writeEnd, writeStatus_beside]

/-- A conclusion writes no more of the sheaf than its phase and its times. -/
theorem concludeSheaf_leaves (s : State) (x : Sheaf) : ∃ ph d f,
    (s.concludeSheaf x).2 = { x with phase := ph, doneAt := d, finalAt := f } := by
  unfold State.concludeSheaf
  dsimp only
  split_ifs <;> exact ⟨_, _, _, rfl⟩

theorem Sheaf.complete_iff (x : Sheaf) : ((List.range x.positions).all fun p => (tfind x.tiles p).isSome) = true ↔
    ∀ p < x.positions, (tfind x.tiles p).isSome = true := by simp

/-- A sheaf that is not complete and does not become so. -/
theorem concludeSheaf_none {s : State} {x : Sheaf} {p : Nat} (hx : x.phase = .running) (hp : p < x.positions)
    (ht : tfind x.tiles p = none) : s.concludeSheaf x = (s, x) := by
  have hc : ((List.range x.positions).all fun p => (tfind x.tiles p).isSome) = false := by
    refine Bool.eq_false_iff.2 fun h => ?_
    simpa [ht] using x.complete_iff.1 h p hp
  unfold State.concludeSheaf
  simp [hc, hx]

theorem Sheaf.allHeard_of_said {x : Sheaf} (h : ∀ p < x.positions, x.said p = true) : x.allHeard = true := by
  simp only [Sheaf.allHeard, List.all_eq_true, Bool.or_eq_true, List.mem_range]
  exact fun t ht => .inr fun p hp => List.all_eq_true.1 (h p hp) t ht

theorem concludeSheaf_final {s : State} {x : Sheaf} (hx : x.phase = .running ∨ x.phase = .complete)
    (ht : ∀ p < x.positions, (tfind x.tiles p).isSome = true) (hs : ∀ p < x.positions, x.said p = true) :
    (s.concludeSheaf x).2.phase = .final := by
  have ha := Sheaf.allHeard_of_said hs
  have hc := x.complete_iff.2 ht
  have ha' : ∀ d, ({ x with phase := .complete, doneAt := d } : Sheaf).allHeard = true := fun _ => ha
  unfold State.concludeSheaf
  rcases hx with hx | hx
  · simp [hc, hx, ha']
  · simp [hx, ha]

end Sys2Proof.Machine
end

section
namespace Sys2Proof.Machine

/-! ### Progress, and what it leaves -/

/-- What stands beside memory and the sheaves. -/
def State.besideSheaves (s : State) : Beside := { s.beside with sheaves := [] }

theorem besideSheaves_of_unnamed {s t : State} (h : t.unnamed = s.unnamed) : t.besideSheaves = s.besideSheaves :=
  (congrArg (fun b : Beside => { b with sheaves := [] }) h :)

theorem besideSheaves_of_beside {s t : State} (h : t.beside = s.beside) : t.besideSheaves = s.besideSheaves :=
  besideSheaves_of_unnamed (unnamed_of_beside h)

theorem resident_of_besideSheaves {s t : State} (h : t.besideSheaves = s.besideSheaves) (p : Nat) :
    (t.core p).resident = (s.core p).resident := (congrArg (fun b : Beside => (b.core p).resident) h :)

theorem putSheaf_besideSheaves (s : State) (x : Sheaf) : (s.putSheaf x).besideSheaves = s.besideSheaves := rfl

theorem sweepSheaves_besideSheaves (s : State) : s.sweepSheaves.besideSheaves = s.besideSheaves := rfl

/-- The decoding and the conclusion of a sheaf's progress. -/
def State.winnowing (s : State) (x : Sheaf) : State × Sheaf := (s.decodeReady x).1.concludeSheaf (s.decodeReady x).2

theorem winnowing_unnamed (s : State) (x : Sheaf) : (s.winnowing x).1.unnamed = s.unnamed :=
  (unnamed_of_beside (concludeSheaf_beside ..)).trans (decodeReady_leaves s x).1

theorem winnowing_leaves (s : State) (x : Sheaf) : (s.winnowing x).2.id = x.id ∧ (s.winnowing x).2.outer = x.outer := by
  have hd := (decodeReady_leaves s x).2
  obtain ⟨ph, d, f, hc⟩ := concludeSheaf_leaves (s.decodeReady x).1 (s.decodeReady x).2
  unfold State.winnowing
  rw [hc]
  exact ⟨(congrArg Sheaf.id hd :), (congrArg Sheaf.outer hd :)⟩

theorem progress_of_under_way {s : State} {id : Nat} {x : Sheaf} (h : s.sheafOf id = some x)
    (hx : x.phase = .running ∨ x.phase = .complete) :
    s.progress id = (s.winnowing x).1.putSheaf (s.winnowing x).2 := by
  unfold State.progress
  simp only [h]
  rw [if_pos (by simpa using hx)]
  rfl

theorem progress_of_idle {s : State} {id : Nat} (h : ∀ x, s.sheafOf id = some x → ¬ (x.phase = .running ∨ x.phase = .complete)) :
    s.progress id = s := by
  unfold State.progress
  cases hx : s.sheafOf id with
  | none => rfl
  | some x =>
    dsimp only
    rw [if_neg (by simpa using h x hx)]

/-- A sheaf's progress: nothing, or the Winnower's work on it. -/
theorem progress_cases (s : State) (id : Nat) : s.progress id = s ∨ ∃ x, s.sheafOf id = some x ∧
    (x.phase = .running ∨ x.phase = .complete) ∧ s.progress id = (s.winnowing x).1.putSheaf (s.winnowing x).2 := by
  by_cases h : ∃ x, s.sheafOf id = some x ∧ (x.phase = .running ∨ x.phase = .complete)
  · obtain ⟨x, h, hx⟩ := h
    exact .inr ⟨x, h, hx, progress_of_under_way h hx⟩
  · exact .inl (progress_of_idle fun x hs hx => h ⟨x, hs, hx⟩)

theorem progress_besideSheaves (s : State) (id : Nat) : (s.progress id).besideSheaves = s.besideSheaves := by
  rcases progress_cases s id with h | ⟨x, -, -, h⟩ <;> rw [h]
  exact (putSheaf_besideSheaves ..).trans (besideSheaves_of_unnamed (winnowing_unnamed s x))

/-- What a late return's check comes to. -/
def State.lateCheck (s : State) (x : Sheaf) (r : Return) : State × Sheaf :=
  match tfind x.tiles r.tile with
  | some t => if r.missing then (s, x) else s.checkLate x r.tile t
  | none => (s, x)

theorem lateCheck_leaves (s : State) (x : Sheaf) (r : Return) :
    (s.lateCheck x r).1.unnamed = s.unnamed ∧ (s.lateCheck x r).2.standing = x.standing := by
  unfold State.lateCheck
  split
  · split
    · exact ⟨rfl, rfl⟩
    · exact checkLate_leaves ..
  · exact ⟨rfl, rfl⟩

/-- What becomes of a return: nothing, a note beside a final sheaf, or its storing with the progress it lets be made. -/
theorem takeReturn_cases (s : State) (id : Nat) (r : Return) : s.takeReturn id r = s ∨
    ∃ x, s.sheafOf id = some x ∧
      ((x.phase = .final ∧ s.takeReturn id r =
          (s.post evLATERET 0 srcHub (shStat x.desc) r.task).putSheaf { x with returns := x.returns ++ [r] }) ∨
        (x.phase ≠ .final ∧ s.takeReturn id r =
          ((s.lateCheck { x with returns := x.returns ++ [r] } r).1.putSheaf
            (s.lateCheck { x with returns := x.returns ++ [r] } r).2).progress id)) := by
  unfold State.takeReturn
  cases hx : s.sheafOf id with
  | none => exact .inl rfl
  | some x =>
    dsimp only
    split
    · exact .inr ⟨x, rfl, .inl ⟨by simpa using ‹(x.phase == SheafPhase.final) = true›, rfl⟩⟩
    · split
      · exact .inl rfl
      · exact .inr ⟨x, rfl, .inr ⟨by simpa using ‹¬ (x.phase == SheafPhase.final) = true›, rfl⟩⟩

theorem takeReturn_besideSheaves (s : State) (id : Nat) (r : Return) :
    (s.takeReturn id r).besideSheaves = s.besideSheaves := by
  rcases takeReturn_cases s id r with h | ⟨x, -, ⟨-, h⟩ | ⟨-, h⟩⟩ <;> rw [h]
  · exact (putSheaf_besideSheaves ..).trans (besideSheaves_of_beside (post_beside ..))
  · exact (progress_besideSheaves _ id).trans
      ((putSheaf_besideSheaves ..).trans (besideSheaves_of_unnamed (lateCheck_leaves ..).1))

theorem passOn_besideSheaves (s : State) (id : Nat) : (s.passOn id).besideSheaves = s.besideSheaves := by
  unfold State.passOn
  split
  · rfl
  · split
    · rfl
    · split
      · exact foldl_leaves State.besideSheaves (fun s r => takeReturn_besideSheaves s _ r) _ s
      · split <;> rfl

theorem arriveReturn_besideSheaves (s : State) (id : Nat) (r : Return) :
    (s.arriveReturn id r).besideSheaves = s.besideSheaves := by
  unfold State.arriveReturn
  dsimp only
  refine (sweepSheaves_besideSheaves _).trans ?_
  split
  · exact takeReturn_besideSheaves ..
  · exact (passOn_besideSheaves ..).trans (takeReturn_besideSheaves ..)

/-! #### Sheaves that are final -/

/-- A sheaf is final, where the hub still holds it. -/
def State.sheafFinal (s : State) (id : Nat) : Prop := ∀ x ∈ s.sheaves, x.id = id → x.phase = .final

theorem State.sheafFinal.phase {s : State} {id : Nat} {x : Sheaf} (h : s.sheafFinal id) (hx : s.sheafOf id = some x) :
    x.phase = .final := h x (List.mem_of_find?_eq_some hx) (sheafOf_id hx)

theorem sheafFinal_map {s t : State} {g : Sheaf → Sheaf} {id : Nat} (ht : t.sheaves = s.sheaves.map g)
    (hg : ∀ x, (g x).id = x.id) (hp : ∀ x, x.id = id → x.phase = .final → (g x).phase = .final) (h : s.sheafFinal id) :
    t.sheafFinal id := by
  intro y hy hid
  rw [ht, List.mem_map] at hy
  obtain ⟨x, hx, rfl⟩ := hy
  rw [hg] at hid
  exact hp x hid (h x hx hid)

theorem sheafFinal_of_unnamed {s t : State} {id : Nat} (ht : t.unnamed = s.unnamed) (h : s.sheafFinal id) :
    t.sheafFinal id := by
  intro y hy hid
  have hl : (t.sheaves.map fun x : Sheaf => { x with faultChips := 0 }) =
      s.sheaves.map fun x : Sheaf => { x with faultChips := 0 } := congrArg Beside.sheaves ht
  have hm := List.mem_map_of_mem (f := fun x : Sheaf => { x with faultChips := 0 }) hy
  rw [hl, List.mem_map] at hm
  obtain ⟨x, hx, he⟩ := hm
  have hxi : x.id = y.id := (congrArg Sheaf.id he :)
  have hxp : x.phase = y.phase := (congrArg Sheaf.phase he :)
  exact hxp ▸ h x hx (hxi.trans hid)

theorem sheafFinal_putSheaf {s : State} {id : Nat} {y : Sheaf} (h : s.sheafFinal id) (hy : y.id = id → y.phase = .final) :
    (s.putSheaf y).sheafFinal id := by
  refine sheafFinal_map (s := s) rfl (fun x => ?_) (fun x hid hx => ?_) h
  · split
    · exact (by simpa using ‹(x.id == y.id) = true› : x.id = y.id).symm
    · rfl
  · split
    · rename_i he
      exact hy ((by simpa using he : x.id = y.id).symm.trans hid)
    · exact hx

theorem putSheaf_sheafFinal (s : State) {id : Nat} {y : Sheaf} (hid : y.id = id) (hy : y.phase = .final) :
    (s.putSheaf y).sheafFinal id := by
  intro x hx hxi
  obtain ⟨z, -, rfl⟩ := List.mem_map.1 hx
  by_cases hz : (z.id == y.id) = true
  · rw [if_pos hz]
    exact hy
  · rw [if_neg hz] at hxi
    exact absurd (by simpa using hxi.trans hid.symm) hz

theorem sweepSheaves_sheafFinal {s : State} {id : Nat} (h : s.sheafFinal id) : s.sweepSheaves.sheafFinal id :=
  fun x hx hid => h x (List.mem_filter.1 hx).1 hid

theorem noteWaits_sheafFinal {s : State} {id : Nat} (h : s.sheafFinal id) : s.noteWaits.sheafFinal id :=
  sheafFinal_map (s := s) (t := s.noteWaits) rfl (fun _ => rfl) (fun _ _ hx => hx) h

theorem progress_sheafFinal {s : State} {id : Nat} (h : s.sheafFinal id) (j : Nat) : (s.progress j).sheafFinal id := by
  rcases progress_cases s j with hp | ⟨x, hx, hph, hp⟩ <;> rw [hp]
  · exact h
  · refine sheafFinal_putSheaf (sheafFinal_of_unnamed (winnowing_unnamed s x) h) fun hid => ?_
    have hxi : x.id = id := (winnowing_leaves s x).1.symm.trans hid
    have hj : j = id := (sheafOf_id hx).symm.trans hxi
    subst hj
    have := h.phase hx
    rcases hph with hph | hph <;> rw [hph] at this <;> cases this

theorem takeReturn_sheafFinal {s : State} {id : Nat} (h : s.sheafFinal id) (j : Nat) (r : Return) :
    (s.takeReturn j r).sheafFinal id := by
  rcases takeReturn_cases s j r with hp | ⟨x, hx, ⟨hph, hp⟩ | ⟨hph, hp⟩⟩ <;> rw [hp]
  · exact h
  · exact sheafFinal_putSheaf (sheafFinal_of_unnamed (unnamed_of_beside (post_beside ..)) h) fun _ => hph
  · obtain ⟨hs, hl⟩ := lateCheck_leaves s { x with returns := x.returns ++ [r] } r
    refine progress_sheafFinal (sheafFinal_putSheaf (sheafFinal_of_unnamed hs h) fun hid => ?_) j
    have hxi : x.id = id := (congrArg Sheaf.id hl :).symm.trans hid
    have hj : j = id := (sheafOf_id hx).symm.trans hxi
    subst hj
    exact absurd (h.phase hx) hph

theorem passOn_sheafFinal {s : State} {id : Nat} (h : s.sheafFinal id) (j : Nat) : (s.passOn j).sheafFinal id := by
  unfold State.passOn
  split
  · exact h
  · split
    · exact h
    · split
      · exact List.foldlRecOn (motive := fun t : State => t.sheafFinal id) _ _ h fun t ht r _ => takeReturn_sheafFinal ht _ r
      · split <;> exact h

/-! #### The two ends of a progress -/

/-- A sheaf of which all has been said is final. -/
theorem progress_ends {s : State} {id : Nat} {x : Sheaf} (h : s.sheafOf id = some x)
    (hx : x.phase = .running ∨ x.phase = .complete) (hs : ∀ p < x.positions, x.said p = true) :
    (s.progress id).sheafFinal id := by
  have hst := (decodeReady_leaves s x).2
  have hpos : (s.decodeReady x).2.positions = x.positions := (congrArg Sheaf.positions hst :)
  have hph : (s.decodeReady x).2.phase = x.phase := (congrArg Sheaf.phase hst :)
  rw [progress_of_under_way h hx]
  refine putSheaf_sheafFinal _ ((winnowing_leaves s x).1.trans (sheafOf_id h)) (concludeSheaf_final (hph ▸ hx) ?_ ?_)
  · rw [hpos]
    exact decodeReady_tiles hs
  · rw [hpos]
    exact fun p hp => (said_of_standing hst p).trans (hs p hp)

/-- A running sheaf of which no position may be decoded, and none has been, goes on. -/
theorem progress_waits {s : State} {id : Nat} {x : Sheaf} (h : s.sheafOf id = some x) (hx : x.phase = .running)
    (hn : ∀ p, x.mayDecode p = false) (ht : x.tiles = []) (hp : 0 < x.positions) : s.progress id = s.putSheaf x := by
  rw [progress_of_under_way h (.inl hx), State.winnowing, decodeReady_none hn]
  dsimp only
  rw [concludeSheaf_none hx hp (by rw [ht]; rfl)]

theorem passOn_idle {s : State} {id : Nat} {x : Sheaf} (h : s.sheafOf id = some x) (hx : x.phase ≠ .final) :
    s.passOn id = s := by
  unfold State.passOn
  simp [h, hx]

end Sys2Proof.Machine
end

section
namespace Sys2Proof.Machine

/-! ### A sheaf that waits is placed, or ends (R143, R288, R431) -/

theorem sheafNames_leaves (s : State) (x : Sheaf) : (s.sheafNames x).1.beside = s.beside ∧
    ∃ a b, (s.sheafNames x).2 = { x with statOk := a, doneOk := b } := by
  unfold State.sheafNames
  split
  · exact ⟨rfl, _, _, rfl⟩
  · refine ⟨?_, _, _, rfl⟩
    dsimp only
    split_ifs <;> simp

theorem freeSlot_sheaves (s : State) (x : Sheaf) : (s.freeSlot x).sheaves = s.sheaves := by
  unfold State.freeSlot
  split <;> rfl

theorem bindInjection_sheaves (s : State) (x : Sheaf) : (s.bindInjection x).sheaves = s.sheaves := by
  unfold State.bindInjection
  dsimp only
  split <;> rfl

/-- The hub holds a sheaf that has ended no more. -/
theorem endSheaf_sheafOf (s : State) {x : Sheaf} (hx : x.outer = none) (code cause detail : Nat) :
    (s.endSheaf x code cause detail).sheafOf x.id = none := by
  unfold State.endSheaf
  dsimp only
  rw [hx, Option.isSome_none, if_neg (by decide)]
  exact (sheafOf_of_beside ((sheafDone_beside ..).trans (writeStatus_beside ..)) _).trans (sheafOf_filtered rfl)

theorem endUnsplit_sheafOf (s : State) {x : Sheaf} (hx : x.outer = none) (code cause detail : Nat) :
    (s.endUnsplit x code cause detail).sheafOf x.id = none := by
  obtain ⟨-, a, b, hy⟩ := sheafNames_leaves s x
  unfold State.endUnsplit
  dsimp only
  rw [hy]
  exact (sheafOf_of_sheaves (freeSlot_sheaves ..) _).trans (endSheaf_sheafOf (x := { x with statOk := a, doneOk := b })
    _ hx code cause detail)

/-- The live chiplets, those with the fewest tasks first (R143). -/
@[reducible] def State.liveChips (s : State) : List Nat := orderBy s.chipTasks ((List.range 16).filter fun c => (s.chip c).live)

theorem placeSheaf_few {s : State} {x : Sheaf} (h : s.liveChips.length < setK x.set) :
    s.placeSheaf x = s.endUnsplit { x with k := setK x.set } 8 0 0 := if_pos h

theorem placeSheaf_places {s : State} {id r : Nat} {x z : Sheaf} (hz : s.sheafOf id = some z) (hid : x.id = id)
    (hk : setK x.set ≤ s.liveChips.length) (hf : s.operandFault x = none)
    (hr : min (setR x.set) (s.liveChips.length - setK x.set) = r) :
    ∃ y, (s.placeSheaf x).sheafOf id = some y ∧ y.phase = .placed ∧ y.k = setK x.set ∧ y.r = r ∧ y.splitAt = s.now ∧
      y.tasks = makeTasks s.now false (s.liveChips.take (setK x.set + r)) := by
  have hfault : ∀ k r, s.operandFault { x with k := k, r := r } = none := fun _ _ => hf
  unfold State.placeSheaf
  dsimp only
  rw [if_neg (Nat.not_lt.2 hk)]
  simp only [hfault, hr]
  obtain ⟨hb, a, b, hy⟩ := sheafNames_leaves s { x with k := setK x.set, r := r }
  generalize s.sheafNames { x with k := setK x.set, r := r } = n at hb hy
  obtain ⟨t, y⟩ := n
  dsimp only at hb hy ⊢
  subst hy
  have hn : t.now = s.now := now_of_beside hb
  rw [hn]
  refine ⟨_, ((sheafOf_of_sheaves ((freeSlot_sheaves ..).trans (sheaves_of_beside (writeStatus_beside ..))) id).trans
    (sheafOf_putSheaf (x := z) ?_ hid)), rfl, rfl, rfl, rfl, rfl⟩
  exact (sheafOf_of_sheaves ((bindInjection_sheaves ..).trans (sheaves_of_beside hb)) id).trans hz

/-- A sheaf outside the pod whose descriptor is admissible is placed. -/
theorem split_places {s : State} {x : Sheaf} (ho : x.outer = none) (hp : shPod x.desc = false)
    (hc : checkSheaf x.desc (tget 0 s.hub.codesets (shOpid x.desc)) = none) : ∃ prio, s.split x =
      s.placeSheaf { x with set := tget 0 s.hub.codesets (shOpid x.desc), prio := prio } := by
  unfold State.split
  simp only [ho, hp, hc, Option.isSome_none, Bool.false_eq_true, ↓reduceIte]
  exact ⟨_, rfl⟩

theorem mem_makeTasks {now : Nat} {remote : Bool} {l : List Nat} {u : Task} (h : u ∈ makeTasks now remote l) :
    u.waitSince = none := by
  obtain ⟨e, -, rfl⟩ := List.mem_map.1 h
  rfl

end Sys2Proof.Machine

namespace Sys2Proof.Laws
open Machine

section
variable {s : State} {id : Nat} {x : Sheaf} (hx : s.sheafOf id = some x) (hf : s.hub.fatal = false)
include hx hf

theorem sheafSplit_waiting (hw : x.phase = .waiting) (hd : s.forkDone x = true) (he : s.earlierPost x = false)
    (hp : shPod x.desc = false) : exec (.sheafSplit id) s = .next (s.split x).noteWaits := by
  have hflush : s.forkFlush x = s := by simp [State.forkFlush, hp]
  show execSheafSplit id s = _
  simp only [execSheafSplit, concludePlacing, hx, hf, hw, hd, he, hflush, Bool.not_false, Bool.and_self,
    Bool.false_eq_true, ↓reduceIte]

theorem sheafSplit_placed (hw : x.phase = .placed) :
    exec (.sheafSplit id) s = .next (s.encodes x).noteWaits := by
  show execSheafSplit id s = _
  simp only [execSheafSplit, concludePlacing, hx, hf, hw, Bool.false_eq_true, ↓reduceIte]

variable (hw : x.phase = .waiting) (hd : s.forkDone x = true) (he : s.earlierPost x = false) (ho : x.outer = none)
  (hp : shPod x.desc = false) (hc : checkSheaf x.desc (tget 0 s.hub.codesets (shOpid x.desc)) = none)
include hw hd he ho hp hc

theorem sheafSplit_places (hof : s.operandFault x = none)
    (hk : setK (tget 0 s.hub.codesets (shOpid x.desc)) ≤ s.liveChips.length) :
    let k := setK (tget 0 s.hub.codesets (shOpid x.desc))
    let r := min (setR (tget 0 s.hub.codesets (shOpid x.desc))) (s.liveChips.length - k)
    ∃ (t : State) (y : Sheaf), exec (.sheafSplit id) s = .next t ∧ t.sheafOf id = some y ∧ y.phase = .placed ∧
      y.k = k ∧ y.r = r ∧ y.splitAt = s.now ∧ y.tasks = makeTasks s.now false (s.liveChips.take (k + r)) := by
  have hid : x.id = id := sheafOf_id hx
  obtain ⟨prio, hsplit⟩ := split_places ho hp hc
  obtain ⟨y, hy, hph, hyk, hyr, hat, htasks⟩ := placeSheaf_places
    (x := { x with set := tget 0 s.hub.codesets (shOpid x.desc), prio := prio }) hx hid hk hof rfl
  rw [← hsplit] at hy
  exact ⟨_, y, sheafSplit_waiting hx hf hw hd he hp,
    noteWaits_sheafOf_placed hy hph fun u hu => mem_makeTasks (htasks ▸ hu), hph, hyk, hyr, hat, htasks⟩

theorem sheafSplit_drops (hk : s.liveChips.length < setK (tget 0 s.hub.codesets (shOpid x.desc))) :
    ∃ t : State, exec (.sheafSplit id) s = .next t ∧ t.sheafOf id = none := by
  obtain ⟨prio, hsplit⟩ := split_places ho hp hc
  refine ⟨_, sheafSplit_waiting hx hf hw hd he hp, noteWaits_sheafOf_none ?_⟩
  rw [hsplit, placeSheaf_few hk]
  exact sheafOf_id hx ▸ endUnsplit_sheafOf s (x := { x with
    set := tget 0 s.hub.codesets (shOpid x.desc), prio := prio, k := setK (tget 0 s.hub.codesets (shOpid x.desc)) })
    ho 8 0 0

end

end Sys2Proof.Laws
end

section
namespace Sys2Proof.Machine

/-! ### A placed sheaf goes on (R282) -/

/-- A sheaf that has been placed and of which nothing has come back: it has blocks, positions and tasks, none of which has
ended. -/
structure Sheaf.Unreturned (x : Sheaf) : Prop where
  k : 0 < x.k
  positions : 0 < x.positions
  returns : x.returns = []
  tiles : x.tiles = []
  timedOut : x.timedOut = false
  tasks : x.tasks ≠ []
  ended : ∀ u ∈ x.tasks, u.ended = none

theorem Sheaf.Unreturned.mayDecode {x : Sheaf} (h : x.Unreturned) (p : Nat) : x.mayDecode p = false := by
  obtain ⟨u, hu⟩ := List.exists_mem_of_ne_nil _ h.tasks
  have hsaid : (x.tasks.all fun t => x.heard t p) = false :=
    List.all_eq_false.2 ⟨u, hu, by simp [Sheaf.heard, h.timedOut, h.ended u hu, h.returns]⟩
  have hheld : x.heldAt p = [] := by simp [Sheaf.heldAt, h.returns]
  have hk := h.k
  simp [Sheaf.mayDecode, hsaid, hheld]
  omega

/-- The tasks of a sheaf begin, and that is all. -/
theorem startTasks_runs {s : State} {id : Nat} {x z : Sheaf} (h : x.Unreturned) (hz : s.sheafOf id = some z)
    (hid : x.id = id) :
    (s.startTasks x).mem = s.mem ∧ (s.startTasks x).sheafOf id = some { x with phase := .running } := by
  subst hid
  have hput : ∀ (u : State) (w : Sheaf), u.sheafOf x.id = some w →
      (u.putSheaf { x with phase := .running }).sheafOf x.id = some { x with phase := .running } :=
    fun u w hu => sheafOf_putSheaf hu rfl
  have h1 := hput s z hz
  have h2 := hput _ _ h1
  have hrun : ({ x with phase := .running } : Sheaf).Unreturned :=
    ⟨h.k, h.positions, h.returns, h.tiles, h.timedOut, h.tasks, h.ended⟩
  have hnf : SheafPhase.running ≠ .final := by decide
  have hprog := progress_waits h1 rfl hrun.mayDecode h.tiles h.positions
  have hadv : s.startTasks x =
      ((s.putSheaf { x with phase := .running }).putSheaf { x with phase := .running }).sweepSheaves := by
    unfold State.startTasks State.advanceSheaf
    dsimp only
    rw [hprog, h1, passOn_idle h2 hnf]
    rfl
  rw [hadv]
  exact ⟨rfl, sheafOf_sweepSheaves h2 hnf⟩

/-! #### The ENCODE commands that the hub issues -/

theorem encodeCore_chip (s : State) (chip : Nat) : chipOf (s.encodeCore chip) = chip := by
  unfold State.encodeCore chipOf
  dsimp only
  cases hf : ((List.range 256).map fun i => 256 * chip + i).find? fun p =>
      (s.core p).encodes.isEmpty && !((s.core p).resident && ((s.team p).queue 0).halt) with
  | none =>
    rw [Option.getD_none]
    omega
  | some p =>
    rw [Option.getD_some]
    obtain ⟨i, hi, rfl⟩ := List.mem_map.1 (List.mem_of_find?_eq_some hf)
    have := List.mem_range.1 hi
    omega

theorem issueEncode_eq (s : State) (x : Sheaf) (u : Task) : ∃ b, s.issueEncode x u =
    s.modCore (s.encodeCore u.chip) fun c => { c with encodes := c.encodes ++ [⟨0, x.id, u.id, b⟩] } := ⟨_, rfl⟩

theorem issueEncode_adds (s : State) (x : Sheaf) (u : Task) : ∃ p b, chipOf p = u.chip ∧
    ⟨0, x.id, u.id, b⟩ ∈ ((s.issueEncode x u).core p).encodes := by
  obtain ⟨b, h⟩ := issueEncode_eq s x u
  refine ⟨s.encodeCore u.chip, b, encodeCore_chip .., ?_⟩
  rw [h, State.modCore, State.core_setCore_same]
  exact List.mem_append_right _ (List.mem_singleton.2 rfl)

theorem issueEncode_keeps {s : State} {x : Sheaf} {u : Task} {p : Nat} {e : HubEncode} (h : e ∈ (s.core p).encodes) :
    e ∈ ((s.issueEncode x u).core p).encodes := by
  obtain ⟨b, he⟩ := issueEncode_eq s x u
  rw [he, State.modCore]
  by_cases hp : p = s.encodeCore u.chip
  · subst hp
    rw [State.core_setCore_same]
    exact List.mem_append_left _ h
  · rwa [State.core_setCore_other _ _ _ _ hp]

theorem issueEncodes_keeps {x : Sheaf} {l : List Task} {s : State} {p : Nat} {e : HubEncode}
    (h : e ∈ (s.core p).encodes) : e ∈ ((l.foldl (fun s u => s.issueEncode x u) s).core p).encodes := by
  induction l generalizing s with
  | nil => exact h
  | cons u l ih => exact ih (issueEncode_keeps h)

theorem issueEncodes_adds {x : Sheaf} {l : List Task} {s : State} {u : Task} (hu : u ∈ l) : ∃ p b, chipOf p = u.chip ∧
    ⟨0, x.id, u.id, b⟩ ∈ ((l.foldl (fun s u => s.issueEncode x u) s).core p).encodes := by
  induction l generalizing s with
  | nil => cases hu
  | cons v l ih =>
    rw [List.foldl_cons]
    rcases List.mem_cons.1 hu with rfl | hu
    · obtain ⟨p, b, hp, he⟩ := issueEncode_adds s x u
      exact ⟨p, b, hp, issueEncodes_keeps he⟩
    · exact ih hu

theorem issueEncodes_leaves (s : State) (x : Sheaf) : (s.issueEncodes x).mem = s.mem ∧
    (s.issueEncodes x).sheaves = (s.putSheaf { x with issued := true }).sheaves :=
  ⟨foldl_leaves State.mem (f := fun s u => s.issueEncode x u) (fun _ _ => rfl) _ _,
    foldl_leaves State.sheaves (f := fun s u => s.issueEncode x u) (fun _ _ => rfl) _ _⟩

end Sys2Proof.Machine

namespace Sys2Proof.Laws
open Machine

section
variable {s : State} {id : Nat} {x : Sheaf} (hx : s.sheafOf id = some x) (hf : s.hub.fatal = false)
  (hw : x.phase = .placed)
include hx hf hw

theorem sheafSplit_starts (h : x.Unreturned) (hr : x.r = 0) :
    ∃ (t : State) (y : Sheaf), exec (.sheafSplit id) s = .next t ∧ t.mem = s.mem ∧ t.sheafOf id = some y ∧
      y.phase = .running := by
  have hid : x.id = id := sheafOf_id hx
  subst hid
  have henc : s.encodes x = s.startTasks x := by simp [State.encodes, hr]
  obtain ⟨hmem, hsh⟩ := startTasks_runs h hx rfl
  rw [← henc] at hmem hsh
  obtain ⟨l, hl⟩ := noteWaits_sheafOf_some hsh
  exact ⟨_, _, sheafSplit_placed hx hf hw, hmem, hl, rfl⟩

variable (hp : shPod x.desc = false) (hr : x.r ≠ 0)
include hp hr

theorem sheafSplit_issues (h : x.Unreturned) (hi : x.issued = false) :
    ∃ (t : State) (y : Sheaf), exec (.sheafSplit id) s = .next t ∧ t.mem = s.mem ∧ t.sheafOf id = some y ∧
      y.phase = .placed ∧ y.issued = true ∧
      ∀ u, u ∈ x.tasks → x.k ≤ u.id → ∃ p b, chipOf p = u.chip ∧ ⟨0, id, u.id, b⟩ ∈ (t.core p).encodes := by
  have hid : x.id = id := sheafOf_id hx
  subst hid
  have henc : s.encodes x = s.issueEncodes x := by simp [State.encodes, hp, hr, hi]
  obtain ⟨hmem, hsh⟩ := issueEncodes_leaves s x
  have hy := (sheafOf_of_sheaves hsh x.id).trans (sheafOf_putSheaf hx rfl)
  rw [← henc] at hmem hy
  obtain ⟨l, hl⟩ := noteWaits_sheafOf_some hy
  refine ⟨_, _, sheafSplit_placed hx hf hw, hmem, hl, hw, rfl, fun u hu hk => ?_⟩
  have hm : u ∈ x.tasks.filter fun u => x.k ≤ u.id && u.ended.isNone :=
    List.mem_filter.2 ⟨hu, by simp [hk, h.ended u hu]⟩
  rw [henc]
  exact issueEncodes_adds hm

variable (hi : x.issued = true) (he : s.encoding id = false)
include hi he

theorem sheafSplit_encoded : exec (.sheafSplit id) s = .next (s.encoded x).noteWaits := by
  have hid : x.id = id := sheafOf_id hx
  have henc : s.encodes x = s.encoded x := by simp [State.encodes, hp, hr, hi, hid, he]
  exact henc ▸ sheafSplit_placed hx hf hw

theorem sheafSplit_plain (h : x.Unreturned) (hfit : (x.fits.all fun f => f.2 == .plain) = true) :
    ∃ (t : State) (y : Sheaf), exec (.sheafSplit id) s = .next t ∧ t.mem = s.mem ∧ t.sheafOf id = some y ∧
      y.phase = .running ∧ y.r = x.r := by
  have hrun := sheafSplit_encoded hx hf hw hp hr hi he
  have hid : x.id = id := sheafOf_id hx
  subst hid
  have henc : s.encoded x = s.startTasks x := if_pos hfit
  obtain ⟨hmem, hsh⟩ := startTasks_runs h hx rfl
  rw [← henc] at hmem hsh
  obtain ⟨l, hl⟩ := noteWaits_sheafOf_some hsh
  exact ⟨_, _, hrun, hmem, hl, rfl, rfl⟩

variable (hfit : (x.fits.all fun f => f.2 == .plain) = false)
include hfit

theorem sheafSplit_uncoded (h : x.Unreturned) (hpol : setSpread x.set = 1) (ht : ∃ u, u ∈ x.tasks ∧ u.id < x.k) :
    ∃ (t : State) (y : Sheaf), exec (.sheafSplit id) s = .next t ∧ t.mem = s.mem ∧ t.sheafOf id = some y ∧
      y.phase = .running ∧ y.r = 0 ∧ y.uncoded = true := by
  have hrun := sheafSplit_encoded hx hf hw hp hr hi he
  have hid : x.id = id := sheafOf_id hx
  subst hid
  obtain ⟨u, hu, huk⟩ := ht
  have hun : ({ x with r := 0, uncoded := true, tasks := x.tasks.filter fun t => t.id < x.k } : Sheaf).Unreturned :=
    ⟨h.k, h.positions, h.returns, h.tiles, h.timedOut,
      List.ne_nil_of_mem (List.mem_filter.2 ⟨hu, by simpa using huk⟩), fun v hv => h.ended v (List.mem_filter.1 hv).1⟩
  have henc : s.encoded x = s.uncode x := by simp [State.encoded, hfit, hpol]
  obtain ⟨hmem, hsh⟩ := startTasks_runs (s := { s with hub := { s.hub with
    injectOrder := s.hub.injectOrder.filter fun i => i != x.id || bits s.hub.injection.toNat 52 4 < x.k } }) hun hx rfl
  obtain ⟨l, hl⟩ := noteWaits_sheafOf_some hsh
  rw [henc] at hrun
  exact ⟨(s.uncode x).noteWaits, _, hrun, hmem, hl, rfl, rfl, rfl⟩

theorem sheafSplit_wide (h : x.Unreturned) (hpol : setSpread x.set = 2)
    (hn : (x.fits.all fun f => f.2 != .never) = true) :
    ∃ (t : State) (y : Sheaf), exec (.sheafSplit id) s = .next t ∧ t.mem = s.mem ∧ t.sheafOf id = some y ∧
      y.phase = .running ∧ y.wide = (x.fits.filter fun f => f.2 == .wide).map Prod.fst := by
  have hrun := sheafSplit_encoded hx hf hw hp hr hi he
  have hid : x.id = id := sheafOf_id hx
  subst hid
  have hwi : ({ x with wide := (x.fits.filter fun f => f.2 == .wide).map Prod.fst } : Sheaf).Unreturned :=
    ⟨h.k, h.positions, h.returns, h.tiles, h.timedOut, h.tasks, h.ended⟩
  have henc : s.encoded x = s.startTasks { x with wide := (x.fits.filter fun f => f.2 == .wide).map Prod.fst } := by
    simp only [State.encoded, hfit, hpol, hn, Bool.false_eq_true, ↓reduceIte, OfNat.ofNat_ne_one, Bool.and_self,
      decide_true]
  obtain ⟨hmem, hsh⟩ := startTasks_runs hwi hx rfl
  obtain ⟨l, hl⟩ := noteWaits_sheafOf_some hsh
  rw [henc] at hrun
  exact ⟨_, _, hrun, hmem, hl, rfl, rfl⟩

theorem sheafSplit_fails (ho : x.outer = none) (hpol : setSpread x.set = 0) :
    ∃ t : State, exec (.sheafSplit id) s = .next t ∧ t.sheafOf id = none := by
  have hrun := sheafSplit_encoded hx hf hw hp hr hi he
  have hid : x.id = id := sheafOf_id hx
  subst hid
  have henc : s.encoded x = s.endSheaf x 6 0 0 := by simp [State.encoded, hfit, hpol]
  exact ⟨_, henc ▸ hrun, noteWaits_sheafOf_none (endSheaf_sheafOf s ho 6 0 0)⟩

end

end Sys2Proof.Laws
end

section
namespace Sys2Proof.Machine

/-! ### A team that a return frees (R371, R408, R423) -/

/-- The sheaves, and those whose returns an injection may alter. -/
def State.injected (s : State) : List Sheaf × List Nat := (s.sheaves, s.hub.injectOrder)

theorem foldl_injected {α : Type} {f : State → α → State} (h : ∀ s x, (f s x).injected = s.injected) (l : List α)
    (s : State) : (l.foldl f s).injected = s.injected := foldl_leaves State.injected h l s

theorem fillLocks_injected (s : State) (team : Nat) (fills : List (Nat × Nat)) (w : W64) :
    (s.fillLocks team fills w).injected = s.injected := by
  unfold State.fillLocks
  split
  · rfl
  · exact foldl_injected (f := fun s c => s.lockDone _ c.1 c.2 w) (fun _ _ => rfl) fills s

theorem woundFor_injected (s : State) (e : LockEntry) (w : Waiter) : (s.woundFor e w).injected = s.injected := by
  refine foldl_injected (fun s h => ?_) e.holders s
  split
  · unfold State.sendWound
    split <;> rfl
  · rfl

theorem scanWaiters_injected (s : State) (e : LockEntry) (ws ahead : List Waiter) :
    (s.scanWaiters e ws ahead).1.injected = s.injected := by
  induction ws generalizing s e ahead with
  | nil => rfl
  | cons w ws ih =>
    unfold State.scanWaiters
    split
    · exact (ih _ _ _).trans ((foldl_injected (fun s x => woundFor_injected s _ x) _ _).trans (fillLocks_injected ..))
    · exact ih _ _ _

theorem rescan_injected (s : State) (n : LockName) : (s.rescan n).injected = s.injected :=
  scanWaiters_injected _ _ _ _

theorem withdraw_injected (s : State) (team : Nat) (f : LockName → Bool) : (s.withdraw team f).injected = s.injected := by
  refine foldl_injected (fun s e0 => ?_) s.locks s
  dsimp only
  split
  · split
    · rfl
    · exact (rescan_injected ..).trans (fillLocks_injected ..)
  · rfl

theorem releaseAll_injected (s : State) (team : Nat) : (s.releaseAll team).injected = s.injected := by
  refine (foldl_injected (fun s e0 => ?_) _ _).trans (withdraw_injected s team _)
  dsimp only
  split
  · exact rescan_injected ..
  · rfl

theorem idleCore_injected (s : State) (p : Nat) : (s.idleCore p).injected = s.injected := by
  unfold State.idleCore
  dsimp only
  split <;> rfl

theorem releaseLocks_injected (s : State) (p : Nat) : (s.releaseLocks p).injected = s.injected := by
  unfold State.releaseLocks
  split
  · rfl
  · exact releaseAll_injected ..

theorem endMove_injected (s : State) (p : Nat) : (s.endMove p).injected = s.injected := by
  unfold State.endMove
  split
  · exact idleCore_injected ..
  · rfl

theorem dropTeam_injected (s : State) (p : Nat) : (s.dropTeam p).injected = s.injected :=
  (idleCore_injected ..).trans ((endMove_injected ..).trans (releaseLocks_injected s p))

theorem idleCore_core (s : State) (p q : Nat) : (s.idleCore p).core q = s.core q := by
  unfold State.idleCore
  dsimp only
  split <;> rfl

theorem dropTeam_resident (s : State) (p : Nat) : ((s.dropTeam p).core p).resident = false := by
  unfold State.dropTeam
  dsimp only
  rw [idleCore_core, State.modCore, State.core_setCore_same]

/-! ### A return is stored (R423, R426) -/

/-- A first return of a tile that has not been decoded is stored, and lets what it may be made. -/
theorem takeReturn_stores {s : State} {id : Nat} {x : Sheaf} {r : Return} (h : s.sheafOf id = some x)
    (hx : x.phase ≠ .final) (hr : ∀ y ∈ x.returns, y.task ≠ r.task ∨ y.tile ≠ r.tile) (ht : tfind x.tiles r.tile = none) :
    s.takeReturn id r = (s.putSheaf { x with returns := x.returns ++ [r] }).progress id := by
  have hdup : (x.returns.any fun y => y.task == r.task && y.tile == r.tile) = false := by
    refine List.any_eq_false.2 fun y hy => ?_
    rcases hr y hy with hne | hne <;> simp [hne]
  unfold State.takeReturn
  simp [h, hx, hdup, ht]

/-- A return of a sheaf that is not final, with all it leads to. -/
theorem arriveReturn_of_under_way {s : State} {id : Nat} {x : Sheaf} (h : s.sheafOf id = some x) (hx : x.phase ≠ .final)
    (r : Return) : s.arriveReturn id r = ((s.takeReturn id r).passOn id).sweepSheaves := by
  unfold State.arriveReturn
  simp [h, hx]

theorem advanceSheaf_sheafFinal {s : State} {id : Nat} (h : (s.progress id).sheafFinal id) :
    (s.advanceSheaf id).sheafFinal id := by
  unfold State.advanceSheaf
  dsimp only
  refine sweepSheaves_sheafFinal ?_
  split
  · exact h
  · exact passOn_sheafFinal h id

theorem Sheaf.said_of_timedOut {x : Sheaf} (h : x.timedOut = true) (p : Nat) : x.said p = true :=
  List.all_eq_true.2 fun t _ => by simp [Sheaf.heard, h]

theorem tileReturns_eq {s s1 : State} {x : Sheaf} {core task tile : Nat} {recs : List Nat}
    (h : s.taskTile x task tile = .ok (recs, s1)) (hm : (s1.core core).markedTile ((s1.team core).bufStart .z) 0 = none)
    (hi : s1.hub.injectOrder.head? ≠ some x.id) (hb : recs.any badHead = false) :
    s.tileReturns x core task tile = (s1.dropTeam core).arriveReturn x.id ⟨task, tile, false, recs⟩ := by
  have hord : (s1.dropTeam core).hub.injectOrder = s1.hub.injectOrder := congrArg Prod.snd (dropTeam_injected s1 core)
  have hinj : (s1.dropTeam core).inject x task recs = (s1.dropTeam core, recs) := by
    unfold State.inject
    simp [hord, hi]
  unfold State.tileReturns
  simp [h, hm, hinj, returnOf, hb]

/-- A sheaf with a return stored. -/
def Sheaf.withReturn (x : Sheaf) (r : Return) : Sheaf := { x with returns := x.returns ++ [r] }

end Sys2Proof.Machine

namespace Sys2Proof.Laws
open Machine

theorem sheafTimeout_ends {s : State} {id : Nat} {x : Sheaf} (hx : s.sheafOf id = some x)
    (hp : x.phase = .placed ∨ x.phase = .running ∨ x.phase = .complete)
    (ht : x.splitAt + (if shTimeout x.desc = 0 then setTdef x.set else shTimeout x.desc) * microsecond ≤ s.now) :
    ∃ t : State, exec (.sheafTimeout id) s = .next t ∧ ∀ y, t.sheafOf id = some y → y.phase = .final := by
  have hcond : ((x.phase == .placed || x.phase == .running || x.phase == .complete) &&
      decide (x.splitAt + (if shTimeout x.desc = 0 then setTdef x.set else shTimeout x.desc) * microsecond ≤ s.now)) =
      true := by
    rw [decide_eq_true ht, Bool.and_true]
    rcases hp with h | h | h <;> rw [h] <;> rfl
  have hrun : exec (.sheafTimeout id) s =
      .next ((s.putSheaf { x.unencoded with timedOut := true }).advanceSheaf id).noteWaits := by
    show execSheafTimeout id s = _
    simp only [execSheafTimeout, concludePlacing, hx, hcond, ↓reduceIte]
  have hun : x.unencoded.id = x.id ∧ (x.unencoded.phase = .running ∨ x.unencoded.phase = .complete) := by
    unfold Sheaf.unencoded
    rcases hp with h | h | h <;> simp [h]
  have hput : (s.putSheaf { x.unencoded with timedOut := true }).sheafOf id = some { x.unencoded with timedOut := true } :=
    sheafOf_putSheaf hx (hun.1.trans (sheafOf_id hx))
  exact ⟨_, hrun, fun y hy => (noteWaits_sheafFinal (advanceSheaf_sheafFinal (progress_ends hput hun.2
    fun p _ => Sheaf.said_of_timedOut rfl p))).phase hy⟩

theorem hubEncode_codes {s s1 : State} {p q : Nat} {e : HubEncode} {x : Sheaf} {rows : List (List BlockRow)}
    (hd : s.dataCommand p q 5 = none) (he : ((s.core p).encodes.find? fun y => y.queue == q) = some e)
    (hr : (s.core p).resident = false) (hx : s.sheafOf e.sheaf = some x)
    (hc : (s.modCore p fun c => { c with encodes := c.encodes.erase e }).codeSources x (List.range x.blockRows) =
      .ok (rows, s1)) (hx1 : s1.sheafOf e.sheaf = some x) :
    ∃ (t : State) (y : Sheaf), exec (.encode p q none) s = .next t ∧ t.mem = s1.mem ∧ t.sheafOf e.sheaf = some y ∧
      y.fits = x.fits ++ [(e.task - x.k, parityFit x (e.task - x.k) rows)] := by
  have hid : x.id = e.sheaf := sheafOf_id hx
  have hready : s.encodeReady p q e = true := by simp [State.encodeReady, hr]
  have hr' : ((s.modCore p fun c => { c with encodes := c.encodes.erase e }).core p).resident = false := by
    rw [State.modCore, State.core_setCore_same]
    exact hr
  have hx' : (s.modCore p fun c => { c with encodes := c.encodes.erase e }).sheafOf e.sheaf = some x := hx
  have hrun : exec (.encode p q none) s = .next (s1.modSheaf e.sheaf fun y =>
      y.withCoded (e.task - x.k) (parityFit y (e.task - x.k) rows) rows) := by
    show execEncode p q none s = _
    simp only [execEncode, concludeEvent, hd, State.hubEncode, he, hready, hr', hx', State.encodeTask, hid, hc,
      Bool.not_true, Bool.false_eq_true, ↓reduceIte]
  exact ⟨_, _, hrun, rfl, sheafOf_modSheaf hx1 fun _ h => h, rfl⟩

/-! ### RETURN_ARRIVAL (R423, R426, R427) -/

section
variable {s s1 : State} {id task tile p : Nat} {x : Sheaf} {recs : List Nat} (hx : s.sheafOf id = some x)
  (hp : s.tileCore id task tile = some p) (ht : s.taskTile x task tile = .ok (recs, s1)) (hx1 : s1.sheafOf id = some x)
  (hi : s1.hub.injectOrder.head? ≠ some id) (hm : (s1.core p).markedTile ((s1.team p).bufStart .z) 0 = none)
  (hb : recs.any badHead = false)
include hx hp ht hx1 hi hm hb

theorem returnArrival_arrives : exec (.returnArrival id task tile) s =
    .next ((s1.dropTeam p).arriveReturn id ⟨task, tile, false, recs⟩).noteWaits := by
  have hid : x.id = id := sheafOf_id hx
  subst hid
  show execReturnArrival x.id task tile s = _
  simp only [execReturnArrival, concludePlacing, hx, hp, tileReturns_eq ht hm hi hb]

omit hx hp ht hx1 hi hm hb in
theorem arrived_resident (s1 : State) (p id : Nat) (r : Return) :
    ((((s1.dropTeam p).arriveReturn id r).noteWaits).core p).resident = false :=
  (resident_of_besideSheaves (arriveReturn_besideSheaves (s1.dropTeam p) id r) p).trans (dropTeam_resident s1 p)

variable (hph : x.phase = .running) (htl : x.tiles = []) (hr : ∀ y, y ∈ x.returns → y.task ≠ task ∨ y.tile ≠ tile)

section
omit hx hp ht hi hm hb
include hph htl hr

/-- The return is stored, and its sheaf makes what progress it can. -/
theorem returnArrival_progress : ((s1.dropTeam p).putSheaf (x.withReturn ⟨task, tile, false, recs⟩)).sheafOf id =
      some (x.withReturn ⟨task, tile, false, recs⟩) ∧
    (s1.dropTeam p).arriveReturn id ⟨task, tile, false, recs⟩ =
      ((((s1.dropTeam p).putSheaf (x.withReturn ⟨task, tile, false, recs⟩)).progress id).passOn id).sweepSheaves := by
  have hu : (s1.dropTeam p).sheafOf id = some x :=
    (sheafOf_of_sheaves (congrArg Prod.fst (dropTeam_injected s1 p)) id).trans hx1
  have hnf : x.phase ≠ .final := by rw [hph]; decide
  have hid : x.id = id := sheafOf_id hu
  refine ⟨sheafOf_putSheaf hu hid, ?_⟩
  rw [arriveReturn_of_under_way hu hnf, takeReturn_stores hu hnf hr (by rw [htl]; rfl)]
  rfl

end

include hph htl hr

theorem returnArrival_stores (hpos : tile < x.positions) (hto : x.timedOut = false) {u : Task} (hu : u ∈ x.tasks)
    (hut : u.id ≠ task) (hue : u.ended = none) (hur : ∀ y, y ∈ x.returns → y.task ≠ u.id) (hs : setSure x.set = true) :
    ∃ (t : State) (y : Sheaf), exec (.returnArrival id task tile) s = .next t ∧ (t.core p).resident = false ∧
      t.sheafOf id = some y ∧ y.phase = .running ∧ y.returns = x.returns ++ [⟨task, tile, false, recs⟩] := by
  obtain ⟨hv, harr⟩ := returnArrival_progress (p := p) (recs := recs) hx1 hph htl hr
  have hunheard : ∀ q, (x.withReturn ⟨task, tile, false, recs⟩).mayDecode q = false := fun q => by
    have hsaid : (x.tasks.all fun t => (x.withReturn ⟨task, tile, false, recs⟩).heard t q) = false := by
      refine List.all_eq_false.2 ⟨u, hu, ?_⟩
      have hret : (x.returns.any fun y => y.task == u.id && y.tile == q) = false :=
        List.any_eq_false.2 fun y hy => by simp [hur y hy]
      simp [Sheaf.heard, Sheaf.withReturn, hto, hue, hret, Ne.symm hut]
    have hset : setSure (x.withReturn ⟨task, tile, false, recs⟩).set = true := hs
    exact Bool.or_eq_false_iff.2 ⟨hsaid, by simp [hset]⟩
  have hprog := progress_waits hv hph hunheard htl (Nat.zero_lt_of_lt hpos)
  have hv' := sheafOf_putSheaf hv (sheafOf_id hv)
  have hnf : (x.withReturn ⟨task, tile, false, recs⟩).phase ≠ .final := by
    show x.phase ≠ _
    rw [hph]
    decide
  obtain ⟨l, hl⟩ := noteWaits_sheafOf_some (sheafOf_sweepSheaves hv' hnf)
  rw [hprog, passOn_idle hv' hnf] at harr
  rw [← harr] at hl
  exact ⟨_, _, returnArrival_arrives hx hp ht hx1 hi hm hb, arrived_resident .., hl, hph, rfl⟩

theorem returnArrival_ends (hpos : tile < x.positions) {u : Task} (hu : x.tasks = [u]) (hut : u.id = task)
    (hone : x.positions = 1) :
    ∃ t : State, exec (.returnArrival id task tile) s = .next t ∧ (t.core p).resident = false ∧
      ∀ y, t.sheafOf id = some y → y.phase = .final := by
  obtain ⟨hv, harr⟩ := returnArrival_progress (p := p) (recs := recs) hx1 hph htl hr
  have hsaid : ∀ q < x.positions, (x.withReturn ⟨task, tile, false, recs⟩).said q = true := fun q hq => by
    have hqt : tile = q := by omega
    show (x.tasks.all fun t => (x.withReturn ⟨task, tile, false, recs⟩).heard t q) = true
    simp [hu, Sheaf.heard, Sheaf.withReturn, hut, hqt]
  have hfin := passOn_sheafFinal (progress_ends hv (.inl hph) hsaid) id
  refine ⟨_, returnArrival_arrives hx hp ht hx1 hi hm hb, arrived_resident .., fun y hy => ?_⟩
  rw [harr] at hy
  exact (noteWaits_sheafFinal (sweepSheaves_sheafFinal hfin)).phase hy

end

end Sys2Proof.Laws
end

section
namespace Sys2Proof.Laws
open Machine

/-- Settles O53: each instruction's lemma gives its clause; a sheaf's progress either decodes nothing, where not all has been
said of any position, or makes the sheaf final, where all has. -/
theorem sheavesRun : Obligations.SheavesRun := by
  refine ⟨fun a s s1 s2 x d hf hx ha hd => ⟨fun hc hu he hp => ⟨fun hr hw hq => ?_, fun hr => ?_⟩,
      fun c off hal hc => ?_⟩, sheaf_traps, sheafSubmit_ends, sheafTake_takes, ?_, ?_, ?_, ?_, ?_, podTaskArrival_adds⟩
  · exact sheaf_taken hx hd hf ha hc hu he hp hr hw hq
  · exact sheaf_waits hx hd hf ha hc hu he hp hr
  · obtain ⟨body, hb, ht⟩ := sheaf_inadmissible hx ha hd hc
    exact hb.trans (conclude_trapHere hal (checkSheaf_cause hc) ht)
  · intro s id x hx hf hw hd he ho hp w live hc hof
    exact ⟨fun hk => sheafSplit_places hx hf hw hd he ho hp hc hof hk,
      fun hk => sheafSplit_drops hx hf hw hd he ho hp hc hk⟩
  · intro s id x hx hf hw ho hp hk hpos hret htl hto hne hend
    have h : x.Unreturned := ⟨hk, hpos, hret, htl, hto, hne, hend⟩
    refine ⟨sheafSplit_starts hx hf hw h, fun hr hi => sheafSplit_issues hx hf hw hp hr h hi, fun hr hi he => ?_⟩
    exact ⟨sheafSplit_plain hx hf hw hp hr hi he h, fun hfit =>
      ⟨sheafSplit_uncoded hx hf hw hp hr hi he hfit h, sheafSplit_wide hx hf hw hp hr hi he hfit h,
        sheafSplit_fails hx hf hw hp hr hi he hfit ho⟩⟩
  · intro s s1 p q e x rows hd he hr hx hc hx1
    exact hubEncode_codes hd he hr hx hc hx1
  · intro s s1 id task tile p x recs hx hp ht hx1 hi hm hb hph htl hto hpos hr
    exact ⟨fun u hu hut hue hur hs => returnArrival_stores hx hp ht hx1 hi hm hb hph htl hr hpos hto hu hut hue hur hs,
      fun u hu hut _ hone _ => returnArrival_ends hx hp ht hx1 hi hm hb hph htl hr hpos hu hut hone⟩
  · intro s id x hx hp ht
    exact sheafTimeout_ends hx hp ht

end Sys2Proof.Laws
end

section
namespace Sys2Proof.Machine

/-! ### The state after a cold reset (R453) -/

theorem reset_queueReg (q : Nat) : State.reset.queueReg q = LaunchQueue.reset := rfl

theorem reset_core (p : Nat) : State.reset.core p = Core.reset := rfl

/-- A queue that a cold reset leaves is off and holds nothing (R97, R453). -/
theorem launchQueue_reset_off : bit LaunchQueue.reset.control.toNat 15 = false ∧ LaunchQueue.reset.head = 0 ∧
    LaunchQueue.reset.tail = 0 := by decide

/-- A core that a cold reset leaves has no team, and no granule of its scratchpad is live (log entry 5). -/
theorem core_reset_idle : Core.reset.resident = false ∧ Core.reset.live = 0 := ⟨rfl, rfl⟩

/-- Nothing owns the device after a cold reset (R92, R453). -/
theorem reset_ownerNow : State.reset.ownerNow = 0 := by decide

end Sys2Proof.Machine
end

section
namespace Sys2Proof.Laws
open Machine

/-- Settles O59: each table of the reset state is empty, so every entry of it is its default, the spec's reset value. -/
theorem resetValues : Obligations.ResetValues := by
  have hqueues (q : Nat) : bit (State.reset.queueReg q).control.toNat 15 = false ∧
      (State.reset.queueReg q).head = 0 ∧ (State.reset.queueReg q).tail = 0 := by
    rw [reset_queueReg]
    exact launchQueue_reset_off
  have hcores (p : Nat) : (State.reset.core p).resident = false ∧ (State.reset.core p).live = 0 := by
    rw [reset_core]
    exact core_reset_idle
  have hsheaf : bit State.reset.hub.sheafQ.control.toNat 15 = false := by decide
  exact ⟨reset_ownerNow, rfl, rfl, rfl, rfl, fun _ => rfl, fun _ => rfl, hqueues, hsheaf, rfl, rfl, rfl, rfl, hcores, rfl,
    fun _ => rfl, Tests.reset_mem_wf⟩

end Sys2Proof.Laws
end

section
namespace Sys2Proof.Machine

/-! ### Ownership of the device (R92 to R95) -/

/-- Steps that each send vectors or hold them do so together (R110). -/
theorem foldl_notified {α : Type} {f : State → α → State}
    (h : ∀ s x, ∃ m o, f s x = s.notified s.hub.evcount s.hub.evring m o) (l : List α) (s : State) :
    ∃ m o, l.foldl f s = s.notified s.hub.evcount s.hub.evring m o := by
  induction l generalizing s with
  | nil => exact ⟨_, _, rfl⟩
  | cons x l ih =>
    obtain ⟨m, o, hx⟩ := h s x
    rw [List.foldl_cons, hx]
    exact ih _

/-- The vectors that waited for an owner are sent or wait for a link (R110). -/
theorem sendHeld_eq (s : State) (port : Nat) : ∃ m o, s.sendHeld port = s.notified s.hub.evcount s.hub.evring m o := by
  unfold State.sendHeld
  dsimp only
  split
  · exact foldl_notified (fun _ _ => ⟨_, _, rfl⟩) _ _
  · exact foldl_notified (fun _ _ => ⟨_, _, rfl⟩) _ _

/-- What a claim of port 1 in this fabric cycle has sent waits again (R93, R110). -/
theorem takeBack_eq (s : State) : ∃ m o, s.takeBack = s.notified s.hub.evcount s.hub.evring m o :=
  foldl_notified (fun _ _ => ⟨_, _, rfl⟩) _ _

/-- A new owner's lease period starts (R94). -/
theorem becomeOwner_owner (s : State) (port : Nat) : (s.becomeOwner port).mem = s.mem ∧
    (s.becomeOwner port).hub.owner = port + 1 ∧ (s.becomeOwner port).hub.leaseStart = s.now := by
  obtain ⟨m, o, h⟩ := sendHeld_eq { s with hub := { s.hub with owner := port + 1, claimAt := none, leaseStart := s.now } }
    port
  rw [State.becomeOwner, h]
  exact ⟨rfl, rfl, rfl⟩

theorem claimBy_owner (s : State) (port : Nat) : (s.claimBy port).mem = s.mem ∧
    (s.claimBy port).hub.owner = port + 1 ∧ (s.claimBy port).hub.leaseStart = s.now := becomeOwner_owner s port

/-- A dropped write leaves memory and the ownership as they were (R92, R445). -/
theorem dropWrite_ownership (s : State) (port target : Nat) : (s.dropWrite port target).mem = s.mem ∧
    (s.dropWrite port target).hub.owner = s.hub.owner ∧ (s.dropWrite port target).hub.leaseMs = s.hub.leaseMs ∧
    (s.dropWrite port target).hub.leaseStart = s.hub.leaseStart := by
  obtain ⟨n, r, h⟩ := dropWrite_eq s port target
  rw [h]
  exact ⟨rfl, rfl, rfl, rfl⟩

section
variable {s : State} {port : BitVec 1} {v : W64}

/-- Over a port without a link a CLAIM does nothing (R453, R456). -/
theorem claim_unlinked (hl : s.portUp port.toNat = false) : exec (.claim ⟨port, v⟩) s = .next s :=
  congrArg Host.Outcome.next (if_pos (by simp [hl]))

/-- A CLAIM over a port with a link, from what the must-be-zero bits leave (R9, R93). -/
theorem claim_linked (hv : bit v.toNat 0 = true) (hl : s.portUp port.toNat = true) :
    ∃ n r, exec (.claim ⟨port, v⟩) s = .next
      (if s.ownerNow = 0 then (s.relogged n r).claimBy port.toNat
      else if s.claimTie port.toNat then ((s.relogged n r).takeBack.claimBy 0).dropWrite 1 0x0000
      else (s.relogged n r).dropWrite port.toNat 0x0000) := by
  obtain ⟨n, r, h⟩ := checkMbz_eq s port.toNat 0x0000 v.toNat (2 ^ 64 - 2)
  refine ⟨n, r, congrArg Host.Outcome.next ?_⟩
  rw [← h]
  refine (if_neg (by simp [hv, hl])).trans ?_
  simp only [h]
  rfl

/-- A device without an owner is the claimer's (R93). -/
theorem claim_free (hv : bit v.toNat 0 = true) (hl : s.portUp port.toNat = true) (ho : s.ownerNow = 0) :
    ∃ t, exec (.claim ⟨port, v⟩) s = .next t ∧ t.mem = s.mem ∧ t.hub.owner = port.toNat + 1 ∧
      t.hub.leaseStart = s.now := by
  obtain ⟨n, r, h⟩ := claim_linked hv hl
  rw [if_pos ho] at h
  exact ⟨_, h, claimBy_owner _ _⟩

/-- A device with an owner stays the owner's, but where port 0 claims in the fabric cycle of port 1's claim (R93). -/
theorem claim_owned (hv : bit v.toNat 0 = true) (hl : s.portUp port.toNat = true) (ho : s.ownerNow ≠ 0) :
    ∃ t, exec (.claim ⟨port, v⟩) s = .next t ∧ t.mem = s.mem ∧
      t.hub.owner = if s.claimTie port.toNat then 1 else s.hub.owner := by
  obtain ⟨n, r, h⟩ := claim_linked hv hl
  rw [if_neg ho] at h
  refine ⟨_, h, ?_⟩
  cases s.claimTie port.toNat
  · obtain ⟨hm, how, -, -⟩ := dropWrite_ownership (s.relogged n r) port.toNat 0x0000
    exact ⟨hm, how⟩
  · obtain ⟨m, o, hb⟩ := takeBack_eq (s.relogged n r)
    obtain ⟨hm, how, -⟩ := claimBy_owner (s.relogged n r).takeBack 0
    obtain ⟨hm', how', -, -⟩ := dropWrite_ownership ((s.relogged n r).takeBack.claimBy 0) 1 0x0000
    exact ⟨(hm'.trans hm).trans (by rw [hb]; rfl), how'.trans how⟩

/-- A write of a register that is the owner's alone, from another port, is dropped (R92). -/
theorem byOwner_refused {target : Nat} {f : State → State} (hl : s.portUp port.toNat = true)
    (ho : s.ownerNow ≠ port.toNat + 1) : (s.byOwner port.toNat target f).mem = s.mem ∧
      (s.byOwner port.toNat target f).hub.owner = s.hub.owner ∧
      (s.byOwner port.toNat target f).hub.leaseMs = s.hub.leaseMs ∧
      (s.byOwner port.toNat target f).hub.leaseStart = s.hub.leaseStart := by
  rw [byOwner_other hl ho]
  exact dropWrite_ownership ..

/-- The owner's LEASE_RENEW sets the period and starts it (R94). -/
theorem leaseRenew_owner (hl : s.portUp port.toNat = true) (ho : s.ownerNow = port.toNat + 1) :
    ∃ t, exec (.leaseRenew port v) s = .next t ∧ t.mem = s.mem ∧ t.hub.leaseMs = v.toNat % 2 ^ 16 ∧
      t.hub.leaseStart = s.now ∧ t.hub.owner = s.hub.owner := by
  obtain ⟨n, r, h⟩ := checkMbz_eq s port.toNat 0x0010 v.toNat (0xFFFF * 2 ^ 48)
  refine ⟨_, congrArg Host.Outcome.next (byOwner_owner hl ho _ _), ?_⟩
  rw [h]
  exact ⟨rfl, rfl, rfl, rfl⟩

theorem leaseRenew_other (hl : s.portUp port.toNat = true) (ho : s.ownerNow ≠ port.toNat + 1) :
    ∃ t, exec (.leaseRenew port v) s = .next t ∧ t.mem = s.mem ∧ t.hub.leaseMs = s.hub.leaseMs ∧
      t.hub.leaseStart = s.hub.leaseStart ∧ t.hub.owner = s.hub.owner := by
  refine ⟨_, rfl, ?_⟩
  obtain ⟨hm, how, hms, hst⟩ := byOwner_refused hl ho
  exact ⟨hm, hms, hst, how⟩

theorem ownershipLapse_over (h : s.leaseOver = true) :
    exec .ownershipLapse s = .next { s with hub := { s.hub with owner := 0 } } := congrArg Host.Outcome.next (if_pos h)

/-- The owner's HANDOVER makes the other port owner (R95). -/
theorem handover_owner (hv : bit v.toNat 0 = true) (hl : s.portUp port.toNat = true)
    (ho : s.ownerNow = port.toNat + 1) : ∃ t, exec (.handover ⟨port, v⟩) s = .next t ∧ t.mem = s.mem ∧
      t.hub.owner = 2 - port.toNat ∧ t.hub.leaseStart = s.now := by
  obtain ⟨n, r, h⟩ := checkMbz_eq s port.toNat 0x0018 v.toNat (2 ^ 64 - 2)
  obtain ⟨hm, how, hst⟩ := becomeOwner_owner (s.relogged n r) (1 - port.toNat)
  refine ⟨(s.relogged n r).becomeOwner (1 - port.toNat), congrArg Host.Outcome.next ?_, hm, how.trans ?_, hst⟩
  · refine (if_neg (by simp [hv])).trans ((byOwner_owner hl ho _ _).trans ?_)
    rw [h]
  · have := port.isLt
    omega

theorem handover_other (hv : bit v.toNat 0 = true) (hl : s.portUp port.toNat = true)
    (ho : s.ownerNow ≠ port.toNat + 1) : ∃ t, exec (.handover ⟨port, v⟩) s = .next t ∧ t.mem = s.mem ∧
      t.hub.owner = s.hub.owner ∧ t.hub.leaseMs = s.hub.leaseMs ∧ t.hub.leaseStart = s.hub.leaseStart :=
  ⟨_, congrArg Host.Outcome.next (if_neg (by simp [hv])), byOwner_refused hl ho⟩

end

end Sys2Proof.Machine
end

section
namespace Sys2Proof.Machine

/-! ### The registers of the launch queues and of the sheaf queue (R98, R99, R114) -/

@[simp] theorem relogged_queueReg (s : State) (n : Nat) (r : Table EventRec) (q : Nat) :
    (s.relogged n r).queueReg q = s.queueReg q := rfl

@[simp] theorem setSheafQ_mem (s : State) (x : SheafQueue) : (s.setSheafQ x).mem = s.mem := rfl

@[simp] theorem relogged_mem (s : State) (n : Nat) (r : Table EventRec) : (s.relogged n r).mem = s.mem := rfl

@[simp] theorem relogged_sheafQ (s : State) (n : Nat) (r : Table EventRec) :
    (s.relogged n r).hub.sheafQ = s.hub.sheafQ := rfl

theorem dropTimes_eq (s : State) (port target k : Nat) : ∃ n r, s.dropTimes port target k = s.relogged n r := by
  induction k generalizing s with
  | zero => exact ⟨_, _, rfl⟩
  | succ k ih =>
    obtain ⟨n, r, h⟩ := dropWrite_eq s port target
    rw [State.dropTimes, h]
    exact ih _

/-- QCTL's fields lie apart, so that a control word written with EN clear reads EN clear (R97). -/
theorem ctlWord_off {irqv log2 : Nat} (irq : Bool) (hn : log2 < 16) :
    bit (ctlWord irqv false irq log2).toNat 15 = false := by
  cases irq <;> simp [bit, ctlWord] <;> omega

theorem ctlLog2_lt (v : Nat) : ctlLog2 v < 16 := Nat.mod_lt _ (by decide)

/-- A write with EN clear to an enabled queue whose ring is empty clears EN (R98). -/
theorem ctlWrite_off (old : Nat) {new : Nat} (h : bit new 15 = false) :
    bit (ctlWrite old new true).1.toNat 15 = false := by
  have hen : ctlEn new = false := h
  simp only [ctlWrite, hen, Bool.not_true, Bool.or_self]
  exact ctlWord_off _ (ctlLog2_lt _)

/-- What QUEUE_ENABLE and SQ_ENABLE ask of a valid write (R98). -/
theorem ctl_admissible {v : Nat} (h4 : 4 ≤ bits v 0 4) (h12 : bits v 0 4 ≤ 12) (hi : bits v 16 8 < 64) :
    (ctlLog2Ok (ctlLog2 v) && ctlIrqvOk (ctlIrqv v)) = true := by
  simp only [ctlLog2Ok, ctlIrqvOk, ctlLog2, ctlIrqv, h4, h12, hi, decide_true, Bool.and_self]

/-- What QTAIL and SQTAIL ask of an admissible tail (R99). -/
theorem ctl_tailOk {c : Nat} {old head new : BitVec 32} (hx : bit c 15 = true)
    (ht : tailOk (bits c 0 4) old head new = true) :
    ¬ (!ctlEn c || !tailOk (ctlLog2 c) old head new) = true := by
  have hen : ctlEn c = true := hx
  have hok : tailOk (ctlLog2 c) old head new = true := ht
  rw [hen, hok]
  decide

/-- The sheaf queue with a new tail: each sheaf posted takes the next place in line (R114). -/
def State.sheavesPosted (s : State) (tail : BitVec 32) : State :=
  let n := (tail - s.hub.sheafQ.tail).toNat
  { s with hub := { s.hub with
    sheafQ := { s.hub.sheafQ with
      tail := tail
      posts := s.hub.sheafQ.posts ++ (List.range n).map fun i => s.hub.sheafTickets + i }
    sheafTickets := s.hub.sheafTickets + n } }

/-- Cancelling ends where the front has passed every count up to the tail (R103). -/
theorem cancelFrom_empties {s : State} {q : Nat} (fuel : Nat)
    (hd : (s.queueReg q).front ≠ .empty → (s.queueReg q).fseq ≠ (s.queueReg q).tail)
    (hn : ((s.queueReg q).tail - (s.queueReg q).fseq).toNat ≤ fuel) :
    ((s.cancelFrom q fuel).queueReg q).front = .empty ∧
      ((s.cancelFrom q fuel).queueReg q).tail = (s.queueReg q).tail := by
  induction fuel generalizing s with
  | zero =>
    have hend : (s.queueReg q).fseq = (s.queueReg q).tail := by bv_omega
    exact ⟨Classical.not_not.1 fun h => hd h hend, rfl⟩
  | succ n ih =>
    unfold State.cancelFrom
    dsimp only
    split_ifs with he
    · exact ⟨he, rfl⟩
    · obtain ⟨h, f, hreg⟩ := endFront_queueReg s q 4 0
      have hlast := hd he
      have htail : ((s.endFront q 4 0).queueReg q).tail = (s.queueReg q).tail := by rw [hreg]; rfl
      have hseq : ((s.endFront q 4 0).queueReg q).fseq = (s.queueReg q).fseq + 1 := by rw [hreg]; rfl
      have hfront : ((s.endFront q 4 0).queueReg q).front =
          if (s.queueReg q).fseq + 1 = (s.queueReg q).tail then .empty else .check := by rw [hreg]; rfl
      obtain ⟨hempty, hkeep⟩ := ih (s := s.endFront q 4 0)
        (fun hne heq => hne (hfront.trans (if_pos (by rw [← hseq, ← htail, heq]))))
        (by rw [htail, hseq]; bv_omega)
      exact ⟨hempty, hkeep.trans htail⟩

section
variable {s : State} {port : BitVec 1} (hl : s.portUp port.toNat = true) (ho : s.ownerNow = port.toNat + 1)
  (hr : s.hub.ready = true) (hf : s.hub.fatal = false)
include hl ho hr hf

/-- The owner's write of a queue register takes effect while the device is ready (R92, R454). -/
theorem byReady_owner (target : Nat) (f : State → State) : s.byReady port.toNat target f = f s := by
  rw [State.byReady, byOwner_owner hl ho]
  simp only [hr, hf, Bool.not_false, Bool.and_self, ↓reduceIte]

/-! #### A launch queue -/

section
variable {q : Nat} (hq : q < 16) {v : W64}
include hq

/-- A valid QUEUE_ENABLE of a disabled queue starts it empty (R98). -/
theorem queueEnable_starts (hv : bit v.toNat 15 = true) (hx : bit (s.queueReg q).control.toNat 15 = false)
    (h4 : 4 ≤ bits v.toNat 0 4) (h12 : bits v.toNat 0 4 ≤ 12) (hi : bits v.toNat 16 8 < 64)
    (hring : s.ringInMemory (bits (s.queueReg q).base.toNat 12 40 * 4096) (2 ^ bits v.toNat 0 4) 256 = true) :
    ∃ t, exec (.queueEnable port q v) s = .next t ∧ t.mem = s.mem ∧ t.queueReg q = { LaunchQueue.reset with
      base := (s.queueReg q).base
      control := BitVec.ofNat 64 (bits v.toNat 16 8 * 2 ^ 16 + 2 ^ 15 + (if bit v.toNat 14 then 2 ^ 14 else 0) +
        bits v.toNat 0 4) } := by
  obtain ⟨n, r, h⟩ := checkMbz_eq s port.toNat (queueOff q 0x08) v.toNat qctlMbz
  refine ⟨(s.relogged n r).setQueueReg q _, congrArg Host.Outcome.next ?_, rfl, State.queueReg_setQueueReg_same ..⟩
  have hen : ctlEn v.toNat = true := hv
  refine (if_neg (by simp [hq, hen])).trans ((byReady_owner hl ho hr hf _ _).trans ?_)
  rw [h]
  exact (if_neg (ne_true_of_eq_false hx)).trans (if_pos (Bool.and_eq_true_iff.2 ⟨ctl_admissible h4 h12 hi, hring⟩))

/-- QUEUE_DISABLE of a queue whose ring is empty stops it (R98). -/
theorem queueDisable_stops (hv : bit v.toNat 15 = false) (hx : bit (s.queueReg q).control.toNat 15 = true)
    (he : (s.queueReg q).head = (s.queueReg q).tail) :
    ∃ t, exec (.queueDisable port q v) s = .next t ∧ t.mem = s.mem ∧ bit (t.queueReg q).control.toNat 15 = false ∧
      (t.queueReg q).head = (s.queueReg q).head ∧ (t.queueReg q).tail = (s.queueReg q).tail := by
  obtain ⟨n, r, h⟩ := checkMbz_eq s port.toNat (queueOff q 0x08) v.toNat qctlMbz
  let w := ctlWrite (s.queueReg q).control.toNat v.toNat true
  let u := (s.relogged n r).setQueueReg q { s.queueReg q with control := w.1 }
  obtain ⟨n', r', h'⟩ := dropTimes_eq u port.toNat (queueOff q 0x08) w.2
  have hreg : (u.relogged n' r').queueReg q = { s.queueReg q with control := w.1 } := State.queueReg_setQueueReg_same ..
  have hempty : ((s.queueReg q).head == (s.queueReg q).tail) = true := beq_iff_eq.2 he
  have hen : ctlEn v.toNat = false := hv
  refine ⟨u.relogged n' r', congrArg Host.Outcome.next ?_, rfl, ?_⟩
  · refine (if_neg (by simp [hq, hen])).trans ((byReady_owner hl ho hr hf _ _).trans ?_)
    rw [h]
    simp only [relogged_queueReg, hempty]
    exact (if_pos hx).trans h'
  · rw [hreg]
    exact ⟨ctlWrite_off _ hv, rfl, rfl⟩

/-- An admissible QTAIL posts records; a front that was empty begins with the first (R99, R101). -/
theorem qtail_posts (hx : bit (s.queueReg q).control.toNat 15 = true)
    (ht : tailOk (bits (s.queueReg q).control.toNat 0 4) (s.queueReg q).tail (s.queueReg q).head
      (BitVec.ofNat 32 v.toNat) = true) :
    ∃ t, exec (.qtail port q v) s = .next t ∧ t.mem = s.mem ∧ t.queueReg q = { s.queueReg q with
      tail := BitVec.ofNat 32 v.toNat
      front := if (s.queueReg q).front = .empty ∧ BitVec.ofNat 32 v.toNat ≠ (s.queueReg q).fseq then .check
        else (s.queueReg q).front } := by
  obtain ⟨n, r, h⟩ := checkMbz_eq s port.toNat (queueOff q 0x10) v.toNat (0xFFFFFFFF * 2 ^ 32)
  refine ⟨(s.relogged n r).setQueueReg q _, congrArg Host.Outcome.next ?_, rfl, State.queueReg_setQueueReg_same ..⟩
  refine (if_neg (by omega)).trans ((byReady_owner hl ho hr hf _ _).trans ?_)
  rw [h]
  refine (if_neg (ctl_tailOk hx ht)).trans ?_
  congr 2
  exact if_congr (Bool.and_eq_true_iff.trans (and_congr decide_eq_true_iff bne_iff_ne)) rfl rfl

/-- ABORT cancels the counts from the front up to the tail, so that no front is left (R103). -/
theorem abort_empties (hx : bit (s.queueReg q).control.toNat 15 = true)
    (hd : (s.queueReg q).front ≠ .empty → (s.queueReg q).fseq ≠ (s.queueReg q).tail)
    (hn : ((s.queueReg q).tail - (s.queueReg q).fseq).toNat ≤ 4096) :
    ∃ t, exec (.abort port q) s = .next t ∧ (t.queueReg q).front = .empty ∧
      (t.queueReg q).tail = (s.queueReg q).tail :=
  ⟨s.cancelFrom q 4097, congrArg Host.Outcome.next ((if_neg (Nat.not_le.2 hq)).trans
    ((byReady_owner hl ho hr hf _ _).trans (if_pos hx))), cancelFrom_empties 4097 hd (hn.trans (by decide))⟩

/-- POKE rechecks the front, which becomes READY once its waits are met and its table is free (R101, R102). -/
theorem poke_readies {s1 s2 : State} (hx : bit (s.queueReg q).control.toNat 15 = true)
    (hw : (s.queueReg q).front = .waitdep) (h1 : s.waitMet (s.queueReg q).record false = (some true, s1))
    (h2 : s1.waitMet (s.queueReg q).record true = (some true, s2))
    (ht : s2.tableHeld (s.queueReg q).record = false) (hs : s2.queueReg q = s.queueReg q) :
    ∃ t, exec (.poke port q) s = .next t ∧ t.queueReg q = { s.queueReg q with front := .ready, t0 := s2.now } :=
  ⟨s2.setQueueReg q _, congrArg Host.Outcome.next ((if_neg (Nat.not_le.2 hq)).trans
    ((byReady_owner hl ho hr hf _ _).trans ((if_pos hx).trans (recheck_met hw h1 h2 hs ht)))),
    State.queueReg_setQueueReg_same ..⟩

end

/-! #### The sheaf queue -/

section
variable {v : W64}

/-- A valid SQ_ENABLE of the disabled sheaf queue starts it empty (R98, R114). -/
theorem sqEnable_starts (hv : bit v.toNat 15 = true) (hx : bit s.hub.sheafQ.control.toNat 15 = false)
    (h4 : 4 ≤ bits v.toNat 0 4) (h12 : bits v.toNat 0 4 ≤ 12) (hi : bits v.toNat 16 8 < 64)
    (hring : s.ringInMemory (bits s.hub.sheafQ.base.toNat 12 40 * 4096) (2 ^ bits v.toNat 0 4) 128 = true) :
    ∃ t, exec (.sqEnable port v) s = .next t ∧ t.mem = s.mem ∧ t.hub.sheafQ = ⟨s.hub.sheafQ.base,
      BitVec.ofNat 64 (bits v.toNat 16 8 * 2 ^ 16 + 2 ^ 15 + (if bit v.toNat 14 then 2 ^ 14 else 0) + bits v.toNat 0 4),
      0, 0, []⟩ := by
  obtain ⟨n, r, h⟩ := checkMbz_eq s port.toNat 0x1408 v.toNat sqctlMbz
  refine ⟨(s.relogged n r).setSheafQ _, congrArg Host.Outcome.next ?_, setSheafQ_mem _ _, rfl⟩
  have hen : ctlEn v.toNat = true := hv
  refine (if_neg (by simp [hen])).trans ((byReady_owner hl ho hr hf _ _).trans ?_)
  rw [h]
  exact (if_neg (ne_true_of_eq_false hx)).trans (if_pos (Bool.and_eq_true_iff.2 ⟨ctl_admissible h4 h12 hi, hring⟩))

/-- SQ_DISABLE of the sheaf queue, its ring empty, stops it (R98, R114). -/
theorem sqDisable_stops (hv : bit v.toNat 15 = false) (hx : bit s.hub.sheafQ.control.toNat 15 = true)
    (he : s.hub.sheafQ.head = s.hub.sheafQ.tail) :
    ∃ t, exec (.sqDisable port v) s = .next t ∧ t.mem = s.mem ∧ bit t.hub.sheafQ.control.toNat 15 = false := by
  obtain ⟨n, r, h⟩ := checkMbz_eq s port.toNat 0x1408 v.toNat sqctlMbz
  let w := ctlWrite s.hub.sheafQ.control.toNat v.toNat true
  let u := (s.relogged n r).setSheafQ { s.hub.sheafQ with control := w.1 }
  obtain ⟨n', r', h'⟩ := dropTimes_eq u port.toNat 0x1408 w.2
  have hmem : u.mem = s.mem := setSheafQ_mem _ _
  have hempty : (s.hub.sheafQ.head == s.hub.sheafQ.tail) = true := beq_iff_eq.2 he
  have hen : ctlEn v.toNat = false := hv
  refine ⟨u.relogged n' r', congrArg Host.Outcome.next ?_, (relogged_mem u n' r').trans hmem,
    ctlWrite_off s.hub.sheafQ.control.toNat hv⟩
  refine (if_neg (by simp [hen])).trans ((byReady_owner hl ho hr hf _ _).trans ?_)
  rw [h]
  simp only [relogged_sheafQ, hempty]
  exact (if_pos hx).trans h'

/-- An admissible SQTAIL posts as many sheaves as the tail has moved (R99, R114). -/
theorem sqtail_posts (hx : bit s.hub.sheafQ.control.toNat 15 = true)
    (ht : tailOk (bits s.hub.sheafQ.control.toNat 0 4) s.hub.sheafQ.tail s.hub.sheafQ.head
      (BitVec.ofNat 32 v.toNat) = true) :
    ∃ t, exec (.sqtail port v) s = .next t ∧ t.mem = s.mem ∧ t.hub.sheafQ.tail = BitVec.ofNat 32 v.toNat ∧
      t.hub.sheafQ.head = s.hub.sheafQ.head ∧ t.hub.sheafQ.posts.length = s.hub.sheafQ.posts.length +
        (BitVec.ofNat 32 v.toNat - s.hub.sheafQ.tail).toNat := by
  obtain ⟨n, r, h⟩ := checkMbz_eq s port.toNat 0x1410 v.toNat (0xFFFFFFFF * 2 ^ 32)
  refine ⟨(s.relogged n r).sheavesPosted (BitVec.ofNat 32 v.toNat),
    congrArg Host.Outcome.next ((byReady_owner hl ho hr hf _ _).trans ?_), rfl, rfl, rfl, ?_⟩
  · rw [h]
    exact if_neg (ctl_tailOk hx ht)
  · simp [State.sheavesPosted]

end

end

end Sys2Proof.Machine
end

section
namespace Sys2Proof.Laws
open Machine

/-- Settles O49: each write of a register is the effect of its step beside what the event recorder has; ABORT ends where
the front has passed every count up to the tail. -/
theorem queuesAreDriven : Obligations.QueuesAreDriven := by
  refine ⟨fun s port v hv => ⟨claim_unlinked, claim_free hv, claim_owned hv⟩,
    fun s port v hl => ⟨leaseRenew_owner hl, leaseRenew_other hl⟩, fun s => ownershipLapse_over,
    fun s port v hv hl => ⟨handover_owner hv hl, handover_other hv hl⟩, ?_, ?_⟩
  · intro s port q v hq hl ho hr hf
    refine ⟨queueEnable_starts hl ho hr hf hq, queueDisable_stops hl ho hr hf hq, qtail_posts hl ho hr hf hq,
      abort_empties hl ho hr hf hq, fun s1 s2 => poke_readies hl ho hr hf hq⟩
  · intro s port v hl ho hr hf
    exact ⟨sqEnable_starts hl ho hr hf, sqDisable_stops hl ho hr hf, sqtail_posts hl ho hr hf⟩

end Sys2Proof.Laws
end

section
namespace Sys2Proof.Machine

/-! ### HALT (R214, R271, R421) -/

/-- While another context of the team runs, a HALT has no further consequence (R214). -/
theorem afterHalt_running {s : State} {p j : Nat} (hj : j < (s.team p).width) (h : (s.ctx p j).halted = false) :
    s.afterHalt p = s := by
  have hrun : (s.team p).allHalted = false :=
    List.all_eq_false.2 ⟨j, List.mem_range.2 hj, ne_true_of_eq_false h⟩
  simp only [State.afterHalt, hrun, Bool.not_false, ↓reduceIte]

/-- A HALT that issues alone, with nothing outstanding, halts its context (R214, R332). -/
theorem halt_halts {s : State} {j : Nat} (ha : s.issue.alone = true) (hacc : s.cur.accesses = [])
    (hres : s.cur.reserved = false) (hrep : s.cur.faultReports = []) (hout : s.curTeam.outstanding s.issue.ctx = 0)
    (hreq : s.cur.requestCause = none) (hst : s.cur.storeFaults = []) (hne : j ≠ s.issue.ctx)
    (hj : j < s.curTeam.width) (hrun : (s.ctx s.issue.core j).halted = false) :
    exec .halt s = .next (s.setCur s.cur.halt) := by
  have hteam : (s.setCur s.cur.halt).team s.issue.core = (s.team s.issue.core).setCtx s.issue.ctx s.cur.halt :=
    State.team_setCtx_same ..
  have hother : (s.setCur s.cur.halt).ctx s.issue.core j = s.ctx s.issue.core j := by
    rw [State.ctx, hteam]
    exact Team.ctx_setCtx_other _ _ _ _ hne
  have hafter : (s.setCur s.cur.halt).afterHalt s.issue.core = s.setCur s.cur.halt :=
    afterHalt_running (by rw [hteam]; exact hj) (by rw [hother]; exact hrun)
  show execHalt s = _
  simp only [execHalt, ha, Bool.not_true, Bool.false_eq_true, ↓reduceIte, concludeWith, Act.bind_apply, Act.get_apply,
    hacc, hres, hrep, hout, hreq, List.isEmpty_nil, Bool.not_false, beq_self_eq_true, Option.isNone_none, Bool.and_self,
    Act.holdUnless_apply, raisePending, Act.getCtx_apply, hst, Act.pure_apply]
  exact congrArg Host.Outcome.next hafter

/-! ### The halves of a bundle's HALT and ERET (R160, R214, R402) -/

/-- In a bundle a syllable that issues later joins the bundle's waits (R160). -/
theorem issueLater_joins {s : State} (ha : s.issue.alone = false) (w : WaitFor) :
    concludeSyllable (issueLater w) s =
      .next { s with issue := { s.issue with waits := s.issue.waits ++ [(s.issue.cluster, w, [])] } } := by
  simp only [concludeSyllable, issueLater, Act.modify_apply, ha, Bool.false_eq_true, ↓reduceIte]

theorem halt_joins {s : State} (ha : s.issue.alone = false) :
    exec .halt s = .next { s with issue := { s.issue with waits := s.issue.waits ++ [(s.issue.cluster, .halt, [])] } } :=
  (if_pos (by rw [ha]; rfl)).trans (issueLater_joins ha .halt)

theorem eret_joins {s : State} {x : Section} (ha : s.issue.alone = false) (hs : s.cur.sup = true)
    (hx : s.cur.saved = some x) :
    exec .eret s =
      .next { s with issue := { s.issue with waits := s.issue.waits ++ [(s.issue.cluster, .eret, [])] } } := by
  have hbody : eretIssue s = issueLater .eret s := by
    simp only [eretIssue, supervisorOnly, Act.bind_apply, Act.getCtx_apply, hs, hx, ↓reduceIte, Act.pure_apply,
      Option.isNone_some, Bool.false_eq_true]
  have hconclude : concludeSyllable eretIssue s = concludeSyllable (issueLater .eret) s := by
    simp only [concludeSyllable, hbody]
  exact (if_neg (by rw [ha]; decide)).trans (hconclude.trans (issueLater_joins ha .eret))

section
variable {s : State} {p k : Nat} {cl : Cluster} {i : Instr} (hres : (s.core p).resident = true)
  (hstop : (s.core p).stopping = false) (hhalt : (s.ctx p k).halted = false) (hdue : (s.ctx p k).trapDue = none)
  (hreq : (s.ctx p k).requestCause = none) (hfin : (s.ctx p k).finishing = some i)
include hres hstop hhalt hdue hreq hfin

/-- A context that waits to finish a HALT or an ERET finishes it, whichever cluster is to issue (R214, R402). -/
theorem issueAt_finishes : issueAt exec s p k cl =
    finishIssue (exec i (s.beginSlot p k .c (s.ctx p k).c.pc 0 true)) := by
  simp only [issueAt, hres, hstop, hhalt, hdue, Bool.not_true, Bool.or_self, Option.isSome_none, Bool.false_eq_true,
    ↓reduceIte, hfin, Option.isSome_some, hreq, ownTrapFirst, tryIssue, finishLate]

/-- So does the machine when that context is due to move. -/
theorem step_finishes {ms : List Mover} (ht : s.turn = .issue p k cl :: ms) :
    step s = finishIssue (exec i (State.beginSlot { s with turn := ms } p k .c (s.ctx p k).c.pc 0 true)) := by
  have hmove : step s = issueAt exec { s with turn := ms } p k cl := by simp only [step, nextMove, ht, moveWith]
  exact hmove.trans (issueAt_finishes (s := { s with turn := ms }) hres hstop hhalt hdue hreq hfin)

end

end Sys2Proof.Machine
end

section
namespace Sys2Proof.Machine

/-! ### How a system syllable that issues alone concludes -/

theorem modCore_keeps_team {s : State} {p : Nat} {f : Core → Core} (h : (f (s.core p)).team = (s.core p).team) (q : Nat) :
    (s.modCore p f).team q = s.team q := by
  by_cases hq : q = p
  · subst hq
    simp only [State.team, State.modCore, State.core_setCore_same, h]
  · simp only [State.team, State.modCore, State.core_setCore_other _ _ _ _ hq]

/-- Taking a move changes no team (R415, R416). -/
theorem takeMove_team (s : State) (p : Nat) (m : MigRequest) (q : Nat) : (s.takeMove p m).team q = s.team q := by
  unfold State.takeMove
  split
  · exact modCore_keeps_team rfl q
  · exact modCore_keeps_team rfl q

/-- A migration point leaves the teams, the issue, memory and the time as they are (R415). -/
theorem reachPoint_leaves (s : State) (p : Nat) : (∀ q, (s.reachPoint p).team q = s.team q) ∧
    (s.reachPoint p).issue = s.issue ∧ (s.reachPoint p).mem = s.mem ∧ (s.reachPoint p).now = s.now := by
  unfold State.reachPoint
  split
  · rename_i m _
    split_ifs
    · refine ⟨takeMove_team s p m, ?_⟩
      unfold State.takeMove
      split <;> exact ⟨rfl, rfl, rfl⟩
    · exact ⟨fun _ => rfl, rfl, rfl, rfl⟩
  · exact ⟨fun _ => rfl, rfl, rfl, rfl⟩

theorem reachPoint_curTeam (s : State) (p : Nat) : (s.reachPoint p).curTeam = s.curTeam := by
  obtain ⟨hteam, hissue, -, -⟩ := reachPoint_leaves s p
  rw [State.curTeam, hteam, hissue]
  rfl

theorem reachPoint_cur (s : State) (p : Nat) : (s.reachPoint p).cur = s.cur := by
  obtain ⟨hteam, hissue, -, -⟩ := reachPoint_leaves s p
  rw [State.cur, State.ctx, hteam, hissue]
  rfl

/-- With no request pending, no move waits for a migration point (R215, R415). -/
theorem reachPoint_of_not_requestPending {s : State} {p k : Nat} (h : s.requestPending p k = false) :
    s.reachPoint p = s := by
  have hm : (s.core p).migration = none := by
    simp only [State.requestPending, Bool.or_eq_false_iff, Option.isSome_eq_false_iff, Option.isNone_iff_eq_none] at h
    exact h.2
  simp only [State.reachPoint, hm]

/-- A syllable that may not issue yet changes nothing. -/
theorem conclude_hold {body : Act Unit} {s : State} (ha : s.issue.alone = true) (hb : body s = .error .hold) :
    concludeSyllable body s = .next s := by
  simp only [concludeSyllable, hb, ha, ↓reduceIte, State.stopped]

/-- A context whose cluster has issued a wait and stands in it (R210, R393). -/
def Ctx.standing (c : Ctx) (cl : Cluster) (w : WaitFor) (po : List Popped) (now : Nat) : Ctx :=
  (Ctx.setCluster c cl { Ctx.cluster c cl with status := .waiting w po }).counted now

theorem standing_waitsFor (c : Ctx) (cl : Cluster) (w : WaitFor) (po : List Popped) (now : Nat) :
    (c.standing cl w po now).waitsFor cl w := ⟨po, by cases cl <;> rfl⟩

theorem standing_pc (c : Ctx) (cl : Cluster) (w : WaitFor) (po : List Popped) (now : Nat) :
    (Ctx.cluster (c.standing cl w po now) cl).pc = (Ctx.cluster c cl).pc := by cases cl <;> rfl

theorem standing_scalars (c : Ctx) (cl : Cluster) (w : WaitFor) (po : List Popped) (now : Nat) :
    (c.standing cl w po now).scalars = c.scalars := Ctx.setCluster_scalars _ _ _

section
variable {body : Act Unit} {s u : State} (hf : s.freshIssue = true)
include hf

/-- A syllable whose body leaves no write and no wait ends with its context passed, and no syllable noted. -/
theorem conclude_passes (hi : u.issue = { s.issue with popped := u.issue.popped }) (hb : body s = .ok ((), u)) :
    concludeSyllable body s = .next { u.setCur (u.cur.past s.issue.cluster u.now) with
      issue := { u.issue with writes := [], popped := [], waits := [] } } := by
  obtain ⟨ha, hw, hwt, -⟩ := fresh_after hf hi
  exact conclude_settle ha hb (settle_past hw rfl rfl rfl hwt)

/-- A syllable whose body sets its own context. -/
theorem conclude_setCur {c : Ctx} (hb : body s = .ok ((), s.setCur c)) :
    ∃ t, concludeSyllable body s = .next t ∧ Elsewhere s t ∧ t.cur = c.past s.issue.cluster s.now := by
  obtain ⟨t, ht, hte, htc⟩ := conclude_done (u := s.setCur c) hf rfl rfl hb
  rw [State.cur_setCur] at htc
  exact ⟨t, ht, (elsewhere_setCur s c s.issue).trans hte rfl rfl, htc⟩

/-- A syllable whose body leaves a wait: its cluster stands in it, its counter where it was (R393). -/
theorem conclude_stands {w : WaitFor} {po : List Popped} (hb : body s = .ok ((), { s with issue := { s.issue with
      waits := s.issue.waits ++ [(s.issue.cluster, w, po)] } })) :
    ∃ t, concludeSyllable body s = .next t ∧ Elsewhere s t ∧ t.cur = s.cur.standing s.issue.cluster w po s.now := by
  obtain ⟨ha, hw, hwt, -⟩ := fresh_after hf (u := s) rfl
  have hst : ({ s with issue := { s.issue with waits := s.issue.waits ++ [(s.issue.cluster, w, po)] } } : State).settle
      [s.issue.cluster] = .ok { s.setCur (s.cur.standing s.issue.cluster w po s.now) with
        issue := { s.issue with writes := [], popped := [], waits := [] } } := by
    simp only [State.settle, hw, hwt, settleAll, trapAfterOf, List.nil_append, List.findSome?_nil, List.any_nil,
      List.any_cons, List.foldl_cons, List.foldl_nil, beq_self_eq_true, Bool.or_false, Bool.false_eq_true, ↓reduceIte,
      Ctx.enterWait]
    rfl
  exact ⟨_, conclude_settle ha hb hst, elsewhere_setCur _ _ _, State.cur_setCur s _⟩

end

end Sys2Proof.Machine
end

section
namespace Sys2Proof.Machine

/-! ### WAITI (R215, R407) -/

theorem supervisorOnly_ok {s : State} (hs : s.cur.sup = true) : supervisorOnly s = .ok ((), s) := by
  simp only [supervisorOnly, Act.bind_apply, Act.getCtx_apply, hs, ↓reduceIte, Act.pure_apply]

section
variable {s : State} (hf : s.freshIssue = true) (hs : s.cur.sup = true)
include hf hs

/-- With no request pending C waits at the WAITI (R215). -/
theorem waiti_waits (hq : s.requestPending s.issue.core s.issue.ctx = false) :
    ∃ t, exec .waiti s = .next t ∧ Elsewhere s t ∧ t.cur.waitsFor s.issue.cluster .interrupt ∧
      (Ctx.cluster t.cur s.issue.cluster).pc = (Ctx.cluster s.cur s.issue.cluster).pc ∧
      t.cur.scalars = s.cur.scalars := by
  obtain ⟨t, ht, hte, htc⟩ : ∃ t, exec .waiti s = .next t ∧ Elsewhere s t ∧
      t.cur = s.cur.standing s.issue.cluster .interrupt s.issue.popped s.now := by
    refine conclude_stands hf ?_
    simp only [Act.bind_apply, supervisorOnly_ok hs, Act.get_apply, hq, Bool.false_eq_true, ↓reduceIte, beginWait,
      migrationPoint, Act.modify_apply, reachPoint_of_not_requestPending hq]
  refine ⟨t, ht, hte, ?_⟩
  rw [htc]
  exact ⟨standing_waitsFor .., standing_pc .., standing_scalars ..⟩

/-- A request that is no cause, a move or a save, completes the WAITI at once, which is a migration point (R215,
R415). -/
theorem waiti_completes (hq : s.requestPending s.issue.core s.issue.ctx = true) (hn : s.cur.requestCause = none) :
    ∃ t, exec .waiti s = .next t ∧ Elsewhere (s.reachPoint s.issue.core) t ∧
      t.cur = s.cur.past s.issue.cluster s.now := by
  obtain ⟨-, hissue, -, hnow⟩ := reachPoint_leaves s s.issue.core
  have hcur := reachPoint_cur s s.issue.core
  rw [← hcur]
  refine conclude_done (u := s.reachPoint s.issue.core) hf (by rw [hissue]) hnow ?_
  simp only [Act.bind_apply, supervisorOnly_ok hs, Act.get_apply, hq, ↓reduceIte, migrationPoint, Act.modify_apply,
    takeRequest, Act.getCtx_apply, hcur, hn, Act.pure_apply]

end

/-- The causes that are pending are the same once a wait has ended. -/
theorem requestCause_resumed (c : Ctx) (cl : Cluster) : (c.resumed cl).requestCause = c.requestCause := by
  cases cl <;> rfl

section
variable {s : State} {p k : Nat} {po : List Popped} (hw : (s.ctx p k).c.status = .waiting .interrupt po)
include hw

theorem waitOf_of_waiting : (s.ctx p k).waitOf .c = some .interrupt := by simp only [Ctx.waitOf, Ctx.cluster, hw]

variable (hq : s.requestPending p k = true)
include hq

/-- A request that is no cause ends the wait of a WAITI (R215). -/
theorem waitiEnd_resumes (hn : (s.ctx p k).requestCause = none) :
    exec (.waitiEnd ⟨p, k⟩) s = .next (s.setCtx p k ((s.ctx p k).resumed .c)) := by
  show execWaitiEnd ⟨p, k⟩ s = _
  simp only [execWaitiEnd, concludeEvent, waitOf_of_waiting hw, hq, beq_self_eq_true, Bool.and_self, ↓reduceIte,
    Ctx.endWait_eq_resumed, requestCause_resumed, hn]

/-- A request that is a cause ends the wait of a WAITI, and the context takes it there (R215, R407). -/
theorem waitiEnd_raises {x : CauseRec} (hx : (s.ctx p k).requestCause = some x) :
    exec (.waitiEnd ⟨p, k⟩) s =
      .next ((s.setCtx p k (((s.ctx p k).resumed .c).dropCause x)).raise p k x) := by
  show execWaitiEnd ⟨p, k⟩ s = _
  simp only [execWaitiEnd, concludeEvent, waitOf_of_waiting hw, hq, beq_self_eq_true, Bool.and_self, ↓reduceIte,
    Ctx.endWait_eq_resumed, requestCause_resumed, hx]

end

/-! ### FENCEI (R216) -/

/-- FENCEI: the clusters see memory as it is now, once what it waits for has performed (R216). -/
theorem fencei_refetches {s : State} (hf : s.freshIssue = true) (ha : s.cur.aBehind = false)
    (hq : ∀ a ∈ s.cur.storeQ ++ s.cur.replay, a.changesMemory = false) :
    ∃ t, exec .fencei s = .next t ∧ Elsewhere s t ∧
      t.cur = ({ s.cur with code := s.codeView } : Ctx).past s.issue.cluster s.now := by
  refine conclude_setCur hf ?_
  have hall : ((s.cur.storeQ ++ s.cur.replay).all fun a => !a.changesMemory) = true :=
    List.all_eq_true.2 fun a h => by rw [hq a h]; rfl
  simp only [Act.bind_apply, Act.getCtx_apply, ha, hall, Bool.not_false, Bool.and_self, Act.holdUnless_apply, ↓reduceIte,
    Act.modify_apply]
  rfl

/-- FENCEI waits behind A, and for each store, reduction and AMO (R216). -/
theorem fencei_waits {s : State} (h1 : s.issue.alone = true)
    (hq : s.cur.aBehind = true ∨ ∃ a ∈ s.cur.storeQ ++ s.cur.replay, a.changesMemory = true) :
    exec .fencei s = .next s := by
  refine conclude_hold h1 ?_
  have hwait : (!s.cur.aBehind && (s.cur.storeQ ++ s.cur.replay).all fun a => !a.changesMemory) = false := by
    obtain h | ⟨a, hm, hc⟩ := hq
    · rw [h]
      rfl
    · refine Bool.and_eq_false_iff.2 (.inr (List.all_eq_false.2 ⟨a, hm, ?_⟩))
      rw [hc]
      decide
  simp only [Act.bind_apply, Act.getCtx_apply, hwait, Act.holdUnless_apply, Bool.false_eq_true, ↓reduceIte]

/-! ### COMMIT (R405) -/

/-- The team of a syllable that has settled: its context is set. -/
theorem settled_curTeam (u : State) (c : Ctx) : State.curTeam { u.setCur c with
    issue := { u.issue with writes := [], popped := [], waits := [] } } = u.curTeam.setCtx u.issue.ctx c :=
  State.team_setCtx_same ..

theorem logCommit_done {s : State} {p : Nat} (h : (s.team p).commit ≠ .none) : s.logCommit p = s :=
  if_pos (bne_iff_ne.2 h)

/-- A team that committed at a cycle. -/
def Team.committedAt (cycles : Nat) (t : Team) : Team := { t with commit := .done cycles }

/-- A first COMMIT marks its team, and its launch's plot log (R136, R405). -/
theorem logCommit_first {s : State} {p : Nat} (h : (s.team p).commit = .none) : ∃ l,
    s.logCommit p = { s.modTeam p (Team.committedAt s.cycles) with launches := l } := by
  unfold State.logCommit
  simp only [h, bne_self_eq_false, Bool.false_eq_true, ↓reduceIte]
  split
  · split
    · split
      · exact ⟨_, rfl⟩
      · exact ⟨_, rfl⟩
    · exact ⟨_, rfl⟩
  · exact ⟨_, rfl⟩

/-- The issue of a state in which a COMMIT has still to settle. -/
def State.committing (s : State) : State := { s with issue := { s.issue with writes := [.commit] } }

section
variable {s : State} (hf : s.freshIssue = true)
include hf

/-- A COMMIT that need not wait settles: the team commits, and the syllable is passed (R405). -/
theorem commit_settles (hgo : (s.curTeam.commit != .none ||
    (!s.logBusy s.curTeam && s.curTeam.woundsDue.isEmpty && !s.curTeam.tctlWaits)) = true)
    {t : State} (ht : s.committing.logCommit s.issue.core = t) (hti : t.issue = s.committing.issue) :
    exec .commit s = .next { t.setCur (t.cur.past s.issue.cluster t.now) with
      issue := { t.issue with writes := [], popped := [], waits := [] } } := by
  obtain ⟨ha, hw, hwt, -⟩ := fresh_after hf (u := s) rfl
  have hsettle : settleAll s.committing [.commit] = .ok t := by
    show Except.ok (s.committing.logCommit s.issue.core) = _
    rw [ht]
  refine conclude_settle (v := s.committing) ha ?_
    (settle_past (s := s.committing) rfl hsettle rfl rfl (by rw [hti]; exact hwt))
  simp only [Act.bind_apply, Act.get_apply, hgo, Act.holdUnless_apply, ↓reduceIte, Act.defer_apply, hw, List.nil_append]
  rfl

/-- The first COMMIT marks its team committed (R405). -/
theorem commit_first (hc : s.curTeam.commit = .none) (hl : s.logBusy s.curTeam = false) (hd : s.curTeam.woundsDue = [])
    (ht : s.curTeam.tctlWaits = false) :
    ∃ t, exec .commit s = .next t ∧ t.mem = s.mem ∧ t.curTeam.commit = .done s.cycles ∧
      t.cur = s.cur.past s.issue.cluster s.now := by
  obtain ⟨l, h⟩ := logCommit_first (s := s.committing) (p := s.issue.core) hc
  let u : State := { s.committing.modTeam s.issue.core (Team.committedAt s.cycles) with launches := l }
  have hteam : u.curTeam = s.curTeam.committedAt s.cycles := State.team_modTeam_same s.committing _ _
  have hcur : u.cur = s.cur := modTeam_ctx (s := s.committing) (f := Team.committedAt s.cycles) rfl _ _
  refine ⟨_, commit_settles (t := u) hf (by rw [hl, hd, ht]; simp) h rfl, rfl, ?_, ?_⟩
  · rw [settled_curTeam, hteam]
    rfl
  · rw [← hcur]
    exact State.cur_setCur u _

/-- A later COMMIT changes nothing (R405). -/
theorem commit_again (hc : s.curTeam.commit ≠ .none) :
    ∃ t, exec .commit s = .next t ∧ Elsewhere s t ∧ t.cur = s.cur.past s.issue.cluster s.now :=
  ⟨_, commit_settles hf (by rw [bne_iff_ne.2 hc, Bool.true_or]) (logCommit_done hc) rfl, elsewhere_setCur s _ _,
    State.cur_setCur s _⟩

end

/-! ### YIELD (R131, R406) -/

section
variable {s : State} (hf : s.freshIssue = true)
include hf

/-- YIELD of a persistent team: the team is to be swapped out (R406). -/
theorem yield_stops (hp : s.curTeam.persist = true) :
    ∃ t, exec .yield s = .next t ∧ t.mem = s.mem ∧ t.curTeam.yielded = true ∧
      t.cur = s.cur.past s.issue.cluster s.now := by
  let u := (s.reachPoint s.issue.core).modTeam s.issue.core fun t => { t with yielded := true }
  obtain ⟨-, hissue, hmem, hnow⟩ := reachPoint_leaves s s.issue.core
  have hui : u.issue = s.issue := hissue
  have hcur : u.cur = s.cur := by
    rw [State.cur, hui]
    exact (modTeam_ctx rfl _ _).trans (congrArg (Team.ctx · _) ((reachPoint_leaves s s.issue.core).1 _))
  have hyield : u.curTeam.yielded = true := by
    rw [State.curTeam, hui, State.team_modTeam_same]
  have hrun : exec .yield s = .next { u.setCur (u.cur.past s.issue.cluster u.now) with
      issue := { u.issue with writes := [], popped := [], waits := [] } } := by
    refine conclude_passes hf (by rw [hui]) ?_
    simp only [migrationPoint, Act.bind_apply, Act.modify_apply, Act.getTeam_apply, reachPoint_curTeam, hp, ↓reduceIte,
      Act.modTeamA_apply, hissue]
    rfl
  refine ⟨_, hrun, hmem, ?_, ?_⟩
  · rw [settled_curTeam]
    exact hyield
  · rw [← hcur, ← hnow]
    exact State.cur_setCur u _

/-- YIELD of any other team is a migration point (R131, R415). -/
theorem yield_completes (hp : s.curTeam.persist = false) (hn : s.cur.requestCause = none) :
    ∃ t, exec .yield s = .next t ∧ Elsewhere (s.reachPoint s.issue.core) t ∧
      t.cur = s.cur.past s.issue.cluster s.now := by
  obtain ⟨-, hissue, -, hnow⟩ := reachPoint_leaves s s.issue.core
  have hcur := reachPoint_cur s s.issue.core
  rw [← hcur]
  refine conclude_done (u := s.reachPoint s.issue.core) hf (by rw [hissue]) hnow ?_
  simp only [migrationPoint, Act.bind_apply, Act.modify_apply, Act.getTeam_apply, reachPoint_curTeam, hp,
    Bool.false_eq_true, ↓reduceIte, takeRequest, Act.getCtx_apply, hcur, hn, Act.pure_apply]

/-! ### PHASE (R217, R419, R462) -/

/-- PHASE sets the marker, notes the points its key asks for, and the phase left where that lasted 100 us. -/
theorem phase_marks (n : BitVec 8) : ∃ t, exec (.phase n) s = .next t ∧ Elsewhere s t ∧
    t.cur = ({ s.cur with
      mark := n
      phase := n
      asked := some ⟨s.now, s.hub.requests s.curTeam.kernel n.toNat⟩
      phaseDone := if s.phaseSince s.curTeam s.cur + 720000 ≤ s.now then some s.cur.phase else s.cur.phaseDone } :
        Ctx).past s.issue.cluster s.now := by
  show ∃ t, execPhase n s = .next t ∧ Elsewhere s t ∧ t.cur = _
  exact conclude_setCur hf rfl

/-! ### RPLREL (R404) -/

/-- RPLREL outside a trap handler has nothing to release. -/
theorem rplrel_unsaved (hs : s.cur.sup = true) (hx : s.cur.saved = none) :
    ∃ t, exec .rplrel s = .next t ∧ Elsewhere s t ∧ t.cur = s.cur.past s.issue.cluster s.now := by
  refine conclude_done (u := s) hf rfl rfl ?_
  simp only [Act.bind_apply, supervisorOnly_ok hs, Act.get_apply, hx, Act.pure_apply]

/-- RPLREL of a section with nothing parked leaves nothing parked. -/
theorem rplrel_unparked {x : Section} (hs : s.cur.sup = true) (hx : s.cur.saved = some x) (hp : x.parkedNow = []) :
    ∃ t, exec .rplrel s = .next t ∧ Elsewhere s t ∧
      t.cur = ({ s.cur with saved := some (x.reparked []) } : Ctx).past s.issue.cluster s.now := by
  refine conclude_setCur hf ?_
  simp only [Act.bind_apply, supervisorOnly_ok hs, Act.get_apply, hx, hp, List.all_nil, Act.holdUnless_apply, ↓reduceIte,
    State.releaseAllParked, Act.set_apply]
  rfl

end

/-! ### A wedge (R188) -/

/-- A wedge raises QOVF or QUNF at its lowest stalled cluster, as that stalls for room or for an entry. -/
theorem wedge_raises {s : State} {p k : Nat} {cl : Cluster} {room : Bool} {reg held : Nat} (hw : s.wedged p k = some cl)
    (hst : (Ctx.cluster (s.ctx p k) cl).status = .stalled room reg held) :
    exec (.wedge ⟨p, k⟩) s = .next (s.raise p k
      ⟨if room then causeQOVF else causeQUNF, BitVec.ofNat 64 (reg % 64), cl, false⟩) := by
  show execWedge ⟨p, k⟩ s = _
  simp only [execWedge, concludeEvent, hw, hst]

end Sys2Proof.Machine
end

section
namespace Sys2Proof.Laws
open Machine

/-- Settles O30: each syllable's body changes its own context, its team's mark or the wait it begins, and what is common
to all syllables settles that; a bundle's HALT or ERET runs later as it does alone. -/
theorem systemSyllables : Obligations.SystemSyllables := by
  refine ⟨?_, fun s ha => ⟨halt_joins ha, fun x => eret_joins ha⟩, ?_, fun s => waiti_waits,
    fun s => waiti_completes, ?_, fun s => fencei_refetches, fun s => fencei_waits, fun s => commit_first,
    fun s => commit_again, fun s => yield_stops, fun s => yield_completes, fun s n hf => phase_marks hf n,
    fun s => rplrel_unsaved, fun s x hf => rplrel_unparked hf, ?_⟩
  · intro s j ha hacc hres hrep hout hreq hst hne hj hrun
    exact ⟨_, halt_halts ha hacc hres hrep hout hreq hst hne hj hrun, elsewhere_setCur s _ s.issue,
      State.cur_setCur s _⟩
  · intro s ms p k cl i ht hres hstop hhalt hdue hreq hfin
    exact step_finishes hres hstop hhalt hdue hreq hfin ht
  · intro s p k po hw hq
    exact ⟨waitiEnd_resumes hw hq, fun x => waitiEnd_raises hw hq⟩
  · intro s p k cl room reg held hw hst
    exact wedge_raises hw hst

end Sys2Proof.Laws
end

section
namespace Sys2Proof.Machine

/-! ### Cores and contexts, each seen but for some of its parts -/

/-- Every core and every context, as two functions show them. -/
def State.seen (g : Core → Core) (h : Ctx → Ctx) (s : State) : (Nat → Core) × (Nat → Nat → Ctx) :=
  (fun p => g (s.core p), fun p k => h (s.ctx p k))

theorem setCore_seen {g : Core → Core} {h : Ctx → Ctx} {s : State} {p : Nat} {c : Core} (hc : g c = g (s.core p))
    (hk : ∀ k, h (c.team.ctx k) = h (s.ctx p k)) : (s.setCore p c).seen g h = s.seen g h := by
  refine Prod.ext (funext fun q => ?_) (funext fun q => funext fun k => ?_)
  · by_cases hq : q = p
    · simp [State.seen, hq, hc]
    · simp [State.seen, hq]
  · by_cases hq : q = p
    · simpa [State.seen, State.ctx, State.team, hq] using hk k
    · simp [State.seen, State.ctx, State.team, hq]

theorem modCtx_seen {g : Core → Core} {h : Ctx → Ctx} {s : State} {p k : Nat} {f : Ctx → Ctx}
    (hc : g { s.core p with team := (s.team p).setCtx k (f (s.ctx p k)) } = g (s.core p))
    (hk : h (f (s.ctx p k)) = h (s.ctx p k)) : (s.modCtx p k f).seen g h = s.seen g h := by
  refine setCore_seen hc fun j => ?_
  show h (((s.team p).setCtx k _).ctx j) = _
  by_cases hj : j = k
  · rw [hj, Team.ctx_setCtx_same, hk]
  · rw [Team.ctx_setCtx_other _ _ _ _ hj]
    rfl

/-! ### What lock managers leave (R361 to R373)

Grants, wounds, withdrawals and releases touch the managers' entries, the status words and store queues of contexts, the
L1 copies that an acquire discards, and the wounds on their way to teams. -/

/-- A context without its scalar registers and its store queue. -/
def Ctx.apartLocks (c : Ctx) : Ctx := { c with scalars := [], storeQ := [] }

/-- A core without its L1, its team's contexts and the wounds due at its team. -/
def Core.apartLocks (c : Core) : Core := { c with l1 := [], team := { c.team with ctxs := [], woundsDue := [] } }

/-- An image without the wounds due at its team. -/
def Image.apartLocks (i : Image) : Image := { i with team := { i.team with woundsDue := [] } }

/-- What stands beside the lock managers: the state without them, its cores and its contexts. -/
def State.besideLocks (s : State) : State × (Nat → Core) × (Nat → Nat → Ctx) :=
  ({ s with locks := [], cores := [], images := s.images.map Image.apartLocks }, s.seen Core.apartLocks Ctx.apartLocks)

theorem foldl_besideLocks {α : Type} {f : State → α → State} (h : ∀ s x, (f s x).besideLocks = s.besideLocks)
    (l : List α) (s : State) : (l.foldl f s).besideLocks = s.besideLocks := foldl_leaves State.besideLocks h l s

theorem setCore_besideLocks {s : State} {p : Nat} {c : Core} (h : c.apartLocks = (s.core p).apartLocks)
    (hk : ∀ k, (c.team.ctx k).apartLocks = (s.ctx p k).apartLocks) : (s.setCore p c).besideLocks = s.besideLocks :=
  Prod.ext rfl (setCore_seen h hk)

theorem modCore_besideLocks {s : State} {p : Nat} {f : Core → Core}
    (h : (f (s.core p)).apartLocks = (s.core p).apartLocks)
    (hk : ∀ k, ((f (s.core p)).team.ctx k).apartLocks = (s.ctx p k).apartLocks) :
    (s.modCore p f).besideLocks = s.besideLocks := setCore_besideLocks h hk

theorem modCtx_besideLocks {s : State} {p k : Nat} {f : Ctx → Ctx} (h : (f (s.ctx p k)).apartLocks = (s.ctx p k).apartLocks) :
    (s.modCtx p k f).besideLocks = s.besideLocks := Prod.ext rfl (modCtx_seen rfl h)

theorem lockDone_besideLocks (s : State) (p k tag : Nat) (w : W64) : (s.lockDone p k tag w).besideLocks = s.besideLocks := by
  unfold State.lockDone
  exact Eq.trans (modCore_besideLocks rfl fun _ => rfl) (modCtx_besideLocks (by rfl))

theorem fillLocks_besideLocks (s : State) (team : Nat) (fills : List (Nat × Nat)) (w : W64) :
    (s.fillLocks team fills w).besideLocks = s.besideLocks := by
  unfold State.fillLocks
  split
  · rfl
  · exact foldl_besideLocks (fun s c => lockDone_besideLocks s _ c.1 c.2 w) fills s

theorem sendWound_besideLocks (s : State) (holder by_ : Nat) (word : W64) :
    (s.sendWound holder by_ word).besideLocks = s.besideLocks := by
  unfold State.sendWound
  split
  · exact setCore_besideLocks rfl fun _ => rfl
  · refine Prod.ext (congrArg (fun l => { s with locks := [], cores := [], images := l }) ?_) rfl
    show (s.images.map _).map _ = _
    rw [List.map_map]
    refine List.map_congr_left fun i _ => ?_
    dsimp only [Function.comp]
    split <;> rfl

theorem woundFor_besideLocks (s : State) (e : LockEntry) (w : Waiter) : (s.woundFor e w).besideLocks = s.besideLocks := by
  refine foldl_besideLocks (fun s h => ?_) e.holders s
  split
  · exact sendWound_besideLocks ..
  · rfl

theorem scanWaiters_besideLocks (s : State) (e : LockEntry) (ws ahead : List Waiter) :
    (s.scanWaiters e ws ahead).1.besideLocks = s.besideLocks := by
  induction ws generalizing s e ahead with
  | nil => rfl
  | cons w ws ih =>
    unfold State.scanWaiters
    split
    · exact (ih _ _ _).trans ((foldl_besideLocks (fun s x => woundFor_besideLocks s _ x) _ _).trans
        (fillLocks_besideLocks ..))
    · exact ih _ _ _

theorem rescan_besideLocks (s : State) (n : LockName) : (s.rescan n).besideLocks = s.besideLocks :=
  scanWaiters_besideLocks _ _ _ _

theorem withdraw_besideLocks (s : State) (team : Nat) (f : LockName → Bool) :
    (s.withdraw team f).besideLocks = s.besideLocks := by
  refine foldl_besideLocks (fun s e0 => ?_) s.locks s
  dsimp only
  split
  · split
    · rfl
    · exact (rescan_besideLocks ..).trans (fillLocks_besideLocks ..)
  · rfl

theorem releaseAll_besideLocks (s : State) (team : Nat) : (s.releaseAll team).besideLocks = s.besideLocks := by
  refine (foldl_besideLocks (fun s e0 => ?_) _ _).trans (withdraw_besideLocks s team _)
  dsimp only
  split
  · exact rescan_besideLocks ..
  · rfl

/-! #### What it comes to for the parts of the state -/

section
variable {s t : State} (h : t.besideLocks = s.besideLocks)
include h

theorem mem_of_besideLocks : t.mem = s.mem := (congrArg (fun x => x.1.mem) h :)

theorem launches_of_besideLocks : t.launches = s.launches := (congrArg (fun x => x.1.launches) h :)

theorem hub_of_besideLocks : t.hub = s.hub := (congrArg (fun x => x.1.hub) h :)

theorem core_of_besideLocks (p : Nat) : (t.core p).apartLocks = (s.core p).apartLocks :=
  (congrArg (fun x => x.2.1 p) h :)

theorem ctx_of_besideLocks (p k : Nat) : (t.ctx p k).apartLocks = (s.ctx p k).apartLocks :=
  (congrArg (fun x => x.2.2 p k) h :)

theorem resident_of_besideLocks (p : Nat) : (t.core p).resident = (s.core p).resident :=
  (congrArg Core.resident (core_of_besideLocks h p) :)

theorem team_of_besideLocks (p : Nat) : ({ t.team p with ctxs := [], woundsDue := [] } : Team) =
    { s.team p with ctxs := [], woundsDue := [] } := (congrArg Core.team (core_of_besideLocks h p) :)

theorem work_of_besideLocks (p : Nat) : (t.team p).work = (s.team p).work :=
  (congrArg Team.work (team_of_besideLocks h p) :)

end

/-- With no locks there is nothing to withdraw. -/
theorem withdraw_of_no_locks {s : State} (h : s.locks = []) (team : Nat) (f : LockName → Bool) : s.withdraw team f = s := by
  rw [State.withdraw, h, List.foldl_nil]

end Sys2Proof.Machine
end

section
namespace Sys2Proof.Machine

/-! ### Teams that leave their cores (R371, R408, R416, R422)

A team that is dropped gives up its locks, its REDs at ports, a move under way and its core.  Memory, launches and the
places of the remap entries stay, and no core gets a team. -/

theorem idleCore_leaves (s : State) (p : Nat) : (s.idleCore p).mem = s.mem ∧ (s.idleCore p).launches = s.launches ∧
    (s.idleCore p).hub = s.hub ∧ (s.idleCore p).images = s.images := by
  unfold State.idleCore
  dsimp only
  split <;> exact ⟨rfl, rfl, rfl, rfl⟩

/-- From one state to another teams have at most left their cores. -/
structure Released (s t : State) : Prop where
  mem : t.mem = s.mem
  launches : t.launches = s.launches
  phys : ∀ l, (t.remap l).phys = (s.remap l).phys
  resident : ∀ p, (t.core p).resident = true → (s.core p).resident = true

theorem Released.refl (s : State) : Released s s := ⟨rfl, rfl, fun _ => rfl, fun _ h => h⟩

theorem Released.trans {s t u : State} (h : Released s t) (k : Released t u) : Released s u where
  mem := k.mem.trans h.mem
  launches := k.launches.trans h.launches
  phys l := (k.phys l).trans (h.phys l)
  resident p hp := h.resident p (k.resident p hp)

theorem Released.foldl {α : Type} {f : State → α → State} (h : ∀ s x, Released s (f s x)) (l : List α) (s : State) :
    Released s (l.foldl f s) := by
  induction l generalizing s with
  | nil => exact .refl s
  | cons x l ih => exact (h s x).trans (ih _)

/-- A core without a team stays so. -/
theorem Released.not_resident {s t : State} (h : Released s t) {p : Nat} (hp : (s.core p).resident = false) :
    (t.core p).resident = false := by
  cases ht : (t.core p).resident with
  | false => rfl
  | true => exact absurd (h.resident p ht) (by simp [hp])

theorem Released.launch {s t : State} (h : Released s t) (slot : Nat) : t.launch slot = s.launch slot :=
  congrArg (tget none · slot) h.launches

theorem Released.of_besideLocks {s t : State} (h : t.besideLocks = s.besideLocks) : Released s t where
  mem := mem_of_besideLocks h
  launches := launches_of_besideLocks h
  phys l := by rw [State.remap, hub_of_besideLocks h]; rfl
  resident p hp := (resident_of_besideLocks h p).symm.trans hp

theorem Released.modCore (s : State) (p : Nat) {f : Core → Core}
    (h : (f (s.core p)).resident = true → (s.core p).resident = true) : Released s (s.modCore p f) where
  mem := rfl
  launches := rfl
  phys _ := rfl
  resident q hq := by
    by_cases hqp : q = p
    · subst hqp
      rw [State.modCore, State.core_setCore_same] at hq
      exact h hq
    · rwa [State.modCore, State.core_setCore_other _ _ _ _ hqp] at hq

theorem Released.images (s : State) (l : List Image) : Released s { s with images := l } :=
  ⟨rfl, rfl, fun _ => rfl, fun _ h => h⟩

theorem Released.idleCore (s : State) (p : Nat) : Released s (s.idleCore p) where
  mem := (idleCore_leaves s p).1
  launches := (idleCore_leaves s p).2.1
  phys l := by rw [State.remap, (idleCore_leaves s p).2.2.1]; rfl
  resident q hq := by rwa [idleCore_core] at hq

theorem Released.setRemap (s : State) (n : Nat) {x : Remap} (h : x.phys = (s.remap n).phys) :
    Released s (s.setRemap n x) where
  mem := rfl
  launches := rfl
  phys l := by
    by_cases hl : l = n
    · rw [hl, State.remap_setRemap_same, h]
    · rw [remap_setRemap_other _ _ hl]
  resident _ h := h

theorem Released.releaseLocks (s : State) (p : Nat) : Released s (s.releaseLocks p) := by
  unfold State.releaseLocks
  split
  · exact .refl s
  · exact .of_besideLocks (releaseAll_besideLocks ..)

theorem Released.endMove (s : State) (p : Nat) : Released s (s.endMove p) := by
  unfold State.endMove
  split
  · exact Released.trans (.setRemap s _ (by rfl)) (.idleCore ..)
  · exact .refl s

theorem Released.dropTeam (s : State) (p : Nat) : Released s (s.dropTeam p) := by
  have hred : Released (s.releaseLocks p) ((s.releaseLocks p).forgetReds p) := ⟨rfl, rfl, fun _ => rfl, fun _ h => h⟩
  have hout := (Released.releaseLocks s p).trans (hred.trans (.endMove _ p))
  exact hout.trans (Released.trans (.modCore _ p fun h => by cases h) (.idleCore ..))

/-- A core that owed a start or a resumption becomes idle. -/
theorem Released.unassign (s : State) (p : Nat) :
    Released s ((s.modCore p fun c => { c with assign := none }).idleCore p) :=
  (Released.modCore s p id).trans (.idleCore ..)

/-- Every core of a list whose teams are dropped one after another ends without one. -/
theorem dropTeams_resident {α : Type} {f : State → α → State} {g : α → Nat} (hf : ∀ s x, Released s (f s x))
    (hg : ∀ s x, ((f s x).core (g x)).resident = false) {l : List α} {x : α} (hx : x ∈ l) (s : State) :
    ((l.foldl f s).core (g x)).resident = false := by
  induction l generalizing s with
  | nil => cases hx
  | cons y l ih =>
    rcases List.mem_cons.1 hx with rfl | hx
    · exact (Released.foldl hf l _).not_resident (hg s x)
    · exact ih hx _

/-! #### The cores that hold a launch's teams -/

/-- A core with a team is listed. -/
theorem mem_residents {s : State} {p : Nat} (h : (s.core p).resident = true) : (p, s.core p) ∈ s.residents := by
  refine List.mem_filter.2 ⟨mem_of_tfind ?_, h⟩
  unfold State.core tget at *
  cases hc : tfind s.cores p with
  | some c => rfl
  | none => simp [hc, Core.reset] at h

theorem mem_plotCores {s : State} {p slot plot : Nat} (h : (s.core p).resident = true)
    (hw : (s.team p).work.ofPlot slot plot = true) : p ∈ s.plotCores slot plot :=
  List.mem_map.2 ⟨_, List.mem_filter.2 ⟨mem_residents h, hw⟩, rfl⟩

/-- A core that runs a run of a pair is one of the plot's. -/
theorem runCore_mem {s : State} {slot plot run p : Nat} (h : s.runCore slot plot run = some p) :
    p ∈ s.plotCores slot plot := by
  obtain ⟨e, he, rfl⟩ := Option.map_eq_some_iff.1 h
  have hrun := List.find?_some he
  simp only [Bool.and_eq_true] at hrun
  exact List.mem_map.2 ⟨e, List.mem_filter.2 ⟨List.mem_of_find?_eq_some he, hrun.1⟩, rfl⟩

/-! #### The end of a launch (R422) -/

/-- A launch that has ended FAULT: nothing of it is left to hand out. -/
def Launch.faulted (l : Launch) (cause detail : Nat) : Launch :=
  { l with
    ended := match l.ended with | some e => some e | none => some (3, cause, detail % 2 ^ 24)
    ranges := [] }

theorem Launch.faulted_ended {l : Launch} (h : l.ended = none) (cause detail : Nat) :
    (l.faulted cause detail).ended = some (3, cause, detail % 2 ^ 24) := by rw [Launch.faulted, h]

/-- One of a launch's teams is dropped, its stores kept as orphans. -/
def State.discardTeam (slot : Nat) (s : State) (e : Nat × Core) : State :=
  { s with orphans := s.orphans ++ s.orphansOf slot e.1 }.dropTeam e.1

theorem Released.discardTeam (slot : Nat) (s : State) (e : Nat × Core) : Released s (s.discardTeam slot e) :=
  Released.trans (t := { s with orphans := s.orphans ++ s.orphansOf slot e.1 }) ⟨rfl, rfl, fun _ => rfl, fun _ h => h⟩
    (.dropTeam ..)

/-- The end of a launch beyond its table entry: its teams go, and what stood behind them. -/
theorem faultLaunch_leaves {s : State} {slot : Nat} {l : Launch} (h : s.launch slot = some l) (cause detail : Nat) :
    Released (((s.residents.filter fun e => e.2.team.ofLaunch slot).foldl (State.discardTeam slot)
      (s.setLaunch slot (some (l.faulted cause detail))))) (s.faultLaunch slot cause detail) := by
  unfold State.faultLaunch
  rw [h]
  refine Released.trans ?_ (.foldl (fun s (e : Nat × Core) => .unassign s e.1) _ _)
  exact Released.trans (.foldl (fun s (i : Image) => .of_besideLocks (releaseAll_besideLocks s i.team.age)) _ _)
    (.images ..)

theorem faultLaunch_released {s : State} {slot : Nat} {l : Launch} (h : s.launch slot = some l) (cause detail : Nat) :
    Released (s.setLaunch slot (some (l.faulted cause detail))) (s.faultLaunch slot cause detail) :=
  (Released.foldl (Released.discardTeam slot) _ _).trans (faultLaunch_leaves h cause detail)

/-- A launch that ends FAULT has the cause and the detail, unless it had ended before. -/
theorem faultLaunch_launch {s : State} {slot : Nat} {l : Launch} (h : s.launch slot = some l) (cause detail : Nat) :
    (s.faultLaunch slot cause detail).launch slot = some (l.faulted cause detail) := by
  rw [(faultLaunch_released h cause detail).launch, State.launch_setLaunch_same]

theorem faultLaunch_mem (s : State) (slot cause detail : Nat) : (s.faultLaunch slot cause detail).mem = s.mem := by
  cases h : s.launch slot with
  | none => rw [State.faultLaunch, h]
  | some l => exact (faultLaunch_released h cause detail).mem

/-- No core runs a team of it. -/
theorem faultLaunch_resident {s : State} {slot p : Nat} {l : Launch} (h : s.launch slot = some l) (cause detail : Nat)
    (hw : (s.team p).ofLaunch slot = true) : ((s.faultLaunch slot cause detail).core p).resident = false := by
  cases hp : (s.core p).resident with
  | false => exact (faultLaunch_released h cause detail).not_resident hp
  | true =>
    exact (faultLaunch_leaves h cause detail).not_resident (dropTeams_resident (g := Prod.fst) (Released.discardTeam slot)
      (fun _ _ => dropTeam_resident ..) (List.mem_filter.2 ⟨mem_residents hp, hw⟩) _)

/-! #### A discarded plot (R408) -/

/-- What is left of a plot once its teams are dropped: the cores that owed a run of it are idle, its images are gone. -/
def State.forgetPlot (s : State) (slot plot : Nat) : State :=
  let owed := s.cores.filter fun e => (e.2.assign.map fun a => a.work.ofPlot slot plot).getD false
  let s := owed.foldl (fun s e => (s.modCore e.1 fun c => { c with assign := none }).idleCore e.1) s
  { s with images := s.images.filter fun i => !i.team.work.ofPlot slot plot }

theorem Released.forgetPlot (s : State) (slot plot : Nat) : Released s (s.forgetPlot slot plot) :=
  (Released.foldl (fun s (e : Nat × Core) => .unassign s e.1) _ _).trans (.images ..)

theorem discardPlot_eq {s : State} {p slot plot pos : Nat} (hw : (s.team p).work = .launch slot plot pos)
    (ch : DiscardChoice) : s.discardPlot p ch =
      let u := ch.stores.foldl (fun s e => s.performChosen p e.1 e.2) s
      (((u.plotCores slot plot).foldl State.dropTeam u).forgetPlot slot plot).returnPosition slot plot pos (chipOf p) := by
  unfold State.discardPlot
  rw [hw]
  rfl

theorem returnPosition_leaves (s : State) (slot plot pos chip : Nat) :
    (s.returnPosition slot plot pos chip).mem = s.mem ∧ (s.returnPosition slot plot pos chip).cores = s.cores ∧
      (s.returnPosition slot plot pos chip).hub = s.hub := by
  unfold State.returnPosition
  split <;> exact ⟨rfl, rfl, rfl⟩

/-- A launch that has had a plot's position back on a chiplet. -/
def Launch.returned (l : Launch) (plot pos chip : Nat) : Launch :=
  { l with
    log := match (tfind l.log plot).bind PlotState.age with
      | some a => tput l.log plot (.returned a)
      | none => l.log
    ranges := returnTo chip pos l.ranges }

theorem returnPosition_launch {s : State} {slot : Nat} {l : Launch} (h : s.launch slot = some l) (plot pos chip : Nat) :
    s.returnPosition slot plot pos chip = s.setLaunch slot (some (l.returned plot pos chip)) := by
  rw [State.returnPosition, h]
  rfl

theorem returnTo_mem (chip pos : Nat) (rs : List Range) : ∃ r ∈ returnTo chip pos rs, r.chip = chip ∧ pos ∈ r.returned := by
  induction rs with
  | nil => exact ⟨_, List.mem_singleton_self _, rfl, List.mem_singleton_self _⟩
  | cons r rs ih =>
    by_cases hr : r.chip = chip
    · rw [returnTo, if_pos hr]
      exact ⟨_, List.mem_cons_self, hr, List.mem_cons_self⟩
    · obtain ⟨x, hx, hc⟩ := ih
      rw [returnTo, if_neg hr]
      exact ⟨x, List.mem_cons_of_mem _ hx, hc⟩

/-- A plot whose stores all stay unperformed is discarded: its core is free, its position returns, and memory stays. -/
theorem discardPlot_returns {s : State} {p slot plot pos : Nat} {l : Launch} {ch : DiscardChoice}
    (hp : (s.core p).resident = true) (hw : (s.team p).work = .launch slot plot pos) (hl : s.launch slot = some l)
    (hch : ch.stores = []) : (s.discardPlot p ch).mem = s.mem ∧ ((s.discardPlot p ch).core p).resident = false ∧
      (s.discardPlot p ch).launch slot = some (l.returned plot pos (chipOf p)) := by
  rw [discardPlot_eq hw, hch]
  dsimp only [List.foldl_nil]
  have hdrop := (Released.foldl Released.dropTeam (s.plotCores slot plot) s)
  have hrel := hdrop.trans (.forgetPlot _ slot plot)
  have hfree := dropTeams_resident (g := id) Released.dropTeam dropTeam_resident
    (mem_plotCores (slot := slot) (plot := plot) hp (by simp [hw, Work.ofPlot])) s
  have hres := (Released.forgetPlot _ slot plot).not_resident hfree
  rw [returnPosition_launch ((hrel.launch slot).trans hl)]
  exact ⟨hrel.mem, hres, State.launch_setLaunch_same ..⟩

end Sys2Proof.Machine
end

section
namespace Sys2Proof.Machine

/-! ### PLOT_RETIRE and PAIR_COMPARE (R420, R421, R436) -/

/-- A launch one more of whose plots has retired. -/
def Launch.retire (l : Launch) (plot : Nat) : Launch :=
  { l with
    log := tput l.log plot .retired
    retiredCount := l.retiredCount + 1 }

theorem retirePlot_launch {s : State} {slot : Nat} {l : Launch} (h : s.launch slot = some l) (plot : Nat) :
    (s.retirePlot slot plot).launch slot = some (l.retire plot) := by
  have hl : s.writebackHost.1.launch slot = some l := by
    rw [State.launch, launches_of_beside (writebackHost_beside s)]
    exact h
  unfold State.retirePlot
  dsimp only
  rw [hl]
  exact State.launch_setLaunch_same ..

theorem logOpen_of_launch {s : State} {slot : Nat} {l : Launch} (h : s.launch slot = some l) (he : l.electing = false) :
    s.logOpen slot = true := by simp [State.logOpen, h, he]

theorem noteWaits_core (s : State) (p : Nat) : s.noteWaits.core p = s.core p := rfl

theorem noteWaits_team (s : State) (p : Nat) : s.noteWaits.team p = s.team p := rfl

theorem noteWaits_free {s : State} {p : Nat} (h : (s.core p).resident = false) :
    (s.noteWaits.core p).resident = false := (congrArg Core.resident (noteWaits_core s p)).trans h

/-- A launch after a step of placing: noting waits touches since when it waits and asks alone. -/
theorem noteWaits_retire {s : State} {slot plot : Nat} {l : Launch} (h : s.launch slot = some (l.retire plot)) :
    ∃ m, s.noteWaits.launch slot = some m ∧ tfind m.log plot = some .retired ∧ m.retiredCount = l.retiredCount + 1 := by
  obtain ⟨w, a, hn⟩ := noteWaits_launch_some h
  exact ⟨_, hn, tfind_tput_same .., rfl⟩

theorem plotRetire_retires {s : State} {p slot plot pos : Nat} {l : Launch} (hw : (s.team p).work = .launch slot plot pos)
    (hr : (s.team p).pairRun = 0) (hd : s.drained p = true) (hl : s.launch slot = some l) (he : l.electing = false) :
    exec (.plotRetire p) s = .next ((s.retirePlot slot plot).dropTeam p).noteWaits := by
  show execPlotRetire p s = _
  simp only [execPlotRetire, concludePlacing, hw, hr, hd, logOpen_of_launch hl he, decide_true, Bool.and_self, ↓reduceIte]

theorem pairCompare_retires {s : State} {slot plot p1 p2 : Nat} {l : Launch} (h1 : s.runCore slot plot 1 = some p1)
    (h2 : s.runCore slot plot 2 = some p2) (hd1 : s.drained p1 = true) (hd2 : s.drained p2 = true)
    (hl : s.launch slot = some l) (he : l.electing = false) (hsig : (s.team p1).pairSig = (s.team p2).pairSig) :
    exec (.pairCompare slot plot) s = .next (s.retirePair slot plot).noteWaits := by
  show execPairCompare slot plot s = _
  simp only [execPairCompare, concludePlacing, h1, h2, hd1, hd2, logOpen_of_launch hl he, hsig, Bool.not_true,
    Bool.or_self, Bool.false_eq_true, ↓reduceIte]

/-- The cores of a paired plot that retires are free. -/
theorem retirePair_resident {s : State} {slot plot p : Nat} (h : p ∈ s.plotCores slot plot) :
    ((s.retirePair slot plot).core p).resident = false :=
  dropTeams_resident (g := id) Released.dropTeam dropTeam_resident h _

theorem retirePair_launch {s : State} {slot plot : Nat} {l : Launch} (h : s.launch slot = some l) :
    (s.retirePair slot plot).launch slot = some (l.retire plot) :=
  ((Released.foldl Released.dropTeam _ _).launch slot).trans (retirePlot_launch h plot)

end Sys2Proof.Machine
end

section
namespace Sys2Proof.Machine

/-! ### WOUND (R372, R408) -/

/-- A context that WOUND reaches. -/
def Ctx.wounded (c : Ctx) (word : W64) : Ctx :=
  if c.halted then c else { c with pending := c.pending ++ [⟨causeWOUND, word, .c, true⟩] }

/-- WOUND reaches one context of a team. -/
def Team.woundCtx (word : W64) (t : Team) (k : Nat) : Team :=
  if (t.ctx k).halted then t else t.setCtx k { t.ctx k with pending := (t.ctx k).pending ++ [⟨causeWOUND, word, .c, true⟩] }

theorem deliverWound_eq (t : Team) (word : W64) : t.deliverWound word = (List.range t.width).foldl (Team.woundCtx word) t := rfl

theorem woundCtx_ctx (word : W64) (t : Team) (k j : Nat) :
    (t.woundCtx word k).ctx j = if j = k then (t.ctx j).wounded word else t.ctx j := by
  unfold Team.woundCtx Ctx.wounded
  by_cases hj : j = k
  · subst hj
    cases hh : (t.ctx j).halted <;> simp [hh]
  · cases hh : (t.ctx k).halted <;> simp [hj]

/-- Delivery reaches each context of the team once. -/
theorem deliverWound_ctx (t : Team) (word : W64) (k : Nat) :
    (t.deliverWound word).ctx k = if k < t.width then (t.ctx k).wounded word else t.ctx k := by
  have hfold : ∀ (l : List Nat), l.Nodup → ∀ t : Team, (l.foldl (Team.woundCtx word) t).ctx k =
      if k ∈ l then (t.ctx k).wounded word else t.ctx k := by
    intro l
    induction l with
    | nil => simp
    | cons j l ih =>
      intro hl t
      obtain ⟨hj, hl⟩ := List.nodup_cons.1 hl
      rw [List.foldl_cons, ih hl, woundCtx_ctx]
      by_cases hk : k = j
      · simp [hk, hj]
      · simp [hk]
  rw [deliverWound_eq, hfold _ List.nodup_range]
  simp

/-- Delivery touches the contexts alone. -/
theorem deliverWound_rest (t : Team) (word : W64) : ({ t.deliverWound word with ctxs := [] } : Team) = { t with ctxs := [] } := by
  rw [deliverWound_eq]
  refine foldl_leaves (fun t : Team => ({ t with ctxs := [] } : Team)) (fun t k => ?_) _ t
  unfold Team.woundCtx
  split <;> rfl

/-- A team that has been told of its oldest wound: by whom, and for which name. -/
def Team.told (t : Team) (age : Nat) (w : W64) (more : List (Nat × W64)) : Team :=
  { t with
    woundsDue := more
    lkwage := BitVec.ofNat 48 age
    lkwname := w }

/-- The state in which a wound lands: the team is told, the launch keeps the record, and the team's requests end. -/
def State.woundLands (s : State) (p age : Nat) (w : W64) (more : List (Nat × W64)) : State :=
  ((s.modTeam p fun t => t.told age w more).noteWound p age w).withdraw (s.team p).age (fun _ => true)

theorem wound_lands {s : State} {p age : Nat} {w : W64} {more : List (Nat × W64)} (ch : DiscardChoice)
    (hp : (s.core p).resident = true) (hd : (s.team p).woundsDue = (age, w) :: more) (hc : (s.team p).commit = .none) :
    exec (.wound p ch) s = .next (if (s.team p).save then
      (s.woundLands p age w more).modTeam p fun t => t.deliverWound w
      else (s.woundLands p age w more).discardPlot p ch).noteWaits := by
  show execWound p ch s = _
  have hres : ((s.modTeam p fun t => { t with woundsDue := more }).core p).resident = true := by
    rw [State.core_modTeam_same]
    exact hp
  have htold : ((s.modTeam p fun t => { t with woundsDue := more }).modTeam p fun t =>
      { t with lkwage := BitVec.ofNat 48 age, lkwname := w }) = s.modTeam p fun t => t.told age w more := by
    rw [State.modTeam, State.team_modTeam_same, State.modTeam, State.setTeam_setTeam]
    rfl
  simp only [execWound, concludePlacing, hd, hc, hres, htold, Bool.not_true, Bool.false_or, bne_self_eq_false,
    Bool.false_eq_true, ↓reduceIte]
  rfl

theorem noteWound_leaves (s : State) (p age : Nat) (w : W64) : (s.noteWound p age w).mem = s.mem ∧
    (s.noteWound p age w).cores = s.cores ∧ (s.noteWound p age w).locks = s.locks := by
  unfold State.noteWound
  split
  · split <;> exact ⟨rfl, rfl, rfl⟩
  · exact ⟨rfl, rfl, rfl⟩

/-- The team and its contexts as the wound finds them, but for what locks do. -/
theorem woundLands_parts (s : State) (p age : Nat) (w : W64) (more : List (Nat × W64)) :
    (s.woundLands p age w more).mem = s.mem ∧
    ((s.woundLands p age w more).core p).resident = (s.core p).resident ∧
    ({ (s.woundLands p age w more).team p with ctxs := [], woundsDue := [] } : Team) =
      { (s.team p).told age w more with ctxs := [], woundsDue := [] } ∧
    (∀ k, ((s.woundLands p age w more).ctx p k).apartLocks = (s.ctx p k).apartLocks) := by
  obtain ⟨hm, hc, -⟩ := noteWound_leaves (s.modTeam p fun t => t.told age w more) p age w
  have hcore : ((s.modTeam p fun t => t.told age w more).noteWound p age w).core p =
      { s.core p with team := (s.team p).told age w more } := by
    rw [State.core, hc]
    exact State.core_modTeam_same ..
  have hlocks : (s.woundLands p age w more).besideLocks = _ := withdraw_besideLocks _ _ _
  refine ⟨(mem_of_besideLocks hlocks).trans hm, ?_, ?_, fun k => ?_⟩
  · rw [resident_of_besideLocks hlocks, hcore]
  · rw [team_of_besideLocks hlocks, State.team, hcore]
  · rw [ctx_of_besideLocks hlocks, State.ctx, State.team, hcore]
    rfl

theorem woundLands_woundsDue {s : State} (h : s.locks = []) (p age : Nat) (w : W64) (more : List (Nat × W64)) :
    ((s.woundLands p age w more).team p).woundsDue = more := by
  obtain ⟨-, hc, hl⟩ := noteWound_leaves (s.modTeam p fun t => t.told age w more) p age w
  rw [State.woundLands, withdraw_of_no_locks (hl.trans h), State.team, State.core, hc]
  show ((s.modTeam p fun t => t.told age w more).team p).woundsDue = more
  rw [State.team_modTeam_same]
  rfl

/-- The launch of a wounded team keeps the record of the wound. -/
theorem woundLands_launch {s : State} {p slot plot pos : Nat} {l : Launch} (hw : (s.team p).work = .launch slot plot pos)
    (hl : s.launch slot = some l) (age : Nat) (w : W64) (more : List (Nat × W64)) :
    (s.woundLands p age w more).launch slot = some { l with wounds := tput l.wounds plot (age, w) } := by
  have hw' : ((s.modTeam p fun t => t.told age w more).team p).work = .launch slot plot pos := by
    rw [State.team_modTeam_same]
    exact hw
  have hl' : (s.modTeam p fun t => t.told age w more).launch slot = some l := hl
  rw [State.woundLands, State.launch, launches_of_besideLocks (withdraw_besideLocks ..), State.noteWound, hw']
  dsimp only
  rw [hl']
  exact State.launch_setLaunch_same ..

/-- A SAVE team is told, and WOUND is pending in its contexts. -/
theorem wound_told {s : State} {p age : Nat} {w : W64} {more : List (Nat × W64)} (ch : DiscardChoice)
    (hp : (s.core p).resident = true) (hd : (s.team p).woundsDue = (age, w) :: more) (hc : (s.team p).commit = .none)
    (hs : (s.team p).save = true) : ∃ t, exec (.wound p ch) s = .next t ∧ t.mem = s.mem ∧
      (s.locks = [] → (t.team p).woundsDue = more) ∧ (t.team p).lkwage = BitVec.ofNat 48 age ∧ (t.team p).lkwname = w ∧
      ∀ k, k < (s.team p).width → (s.ctx p k).halted = false →
        (t.ctx p k).pending = (s.ctx p k).pending ++ [⟨causeWOUND, w, .c, true⟩] := by
  obtain ⟨hm, -, ht, hk⟩ := woundLands_parts s p age w more
  have hnext := wound_lands ch hp hd hc
  rw [if_pos hs] at hnext
  have hteam : (((s.woundLands p age w more).modTeam p fun t => t.deliverWound w).noteWaits.team p) =
      ((s.woundLands p age w more).team p).deliverWound w :=
    (noteWaits_team ..).trans (State.team_modTeam_same ..)
  have hrest := deliverWound_rest ((s.woundLands p age w more).team p) w
  refine ⟨_, hnext, hm, fun hlocks => ?_, ?_, ?_, fun k hkw hh => ?_⟩
  · rw [hteam]
    exact (congrArg Team.woundsDue hrest :).trans (woundLands_woundsDue hlocks ..)
  · rw [hteam]
    exact (congrArg Team.lkwage hrest :).trans (congrArg Team.lkwage ht :)
  · rw [hteam]
    exact (congrArg Team.lkwname hrest :).trans (congrArg Team.lkwname ht :)
  · have hwidth : ((s.woundLands p age w more).team p).width = (s.team p).width := (congrArg Team.width ht :)
    have hhalt : (((s.woundLands p age w more).team p).ctx k).halted = (s.ctx p k).halted := (congrArg Ctx.halted (hk k) :)
    have hpend : (((s.woundLands p age w more).team p).ctx k).pending = (s.ctx p k).pending :=
      (congrArg Ctx.pending (hk k) :)
    rw [State.ctx, hteam, deliverWound_ctx, if_pos (hwidth ▸ hkw), Ctx.wounded, hhalt, hh]
    simp only [Bool.false_eq_true, ↓reduceIte, hpend]

/-- A DISCARD team is discarded: its position returns, and the launch keeps the record. -/
theorem wound_discards {s : State} {p age slot plot pos : Nat} {w : W64} {more : List (Nat × W64)} {l : Launch}
    {ch : DiscardChoice} (hp : (s.core p).resident = true) (hd : (s.team p).woundsDue = (age, w) :: more)
    (hc : (s.team p).commit = .none) (hs : (s.team p).save = false) (hw : (s.team p).work = .launch slot plot pos)
    (hl : s.launch slot = some l) (hch : ch.stores = []) :
    ∃ t m, exec (.wound p ch) s = .next t ∧ t.mem = s.mem ∧ (t.core p).resident = false ∧ t.launch slot = some m ∧
      tfind m.wounds plot = some (age, w) ∧ ∃ r, r ∈ m.ranges ∧ r.chip = chipOf p ∧ pos ∈ r.returned := by
  obtain ⟨hm, hres, ht, -⟩ := woundLands_parts s p age w more
  have hnext := wound_lands ch hp hd hc
  rw [if_neg (by simp [hs])] at hnext
  obtain ⟨hdm, hdr, hdl⟩ := discardPlot_returns (hres.trans hp) ((congrArg Team.work ht :).trans hw)
    (woundLands_launch hw hl age w more) hch
  obtain ⟨x, a, hn⟩ := noteWaits_launch_some hdl
  exact ⟨_, _, hnext, hdm.trans hm, hdr, hn, tfind_tput_same .., returnTo_mem ..⟩

end Sys2Proof.Machine
end

section
namespace Sys2Proof.Machine

/-! ### TCTL_REQUEUE, TCTL_FATAL and COMMIT_WINDOW_EXPIRY (R398, R405) -/

/-- A TCTL write that waits stands at a core that holds a team. -/
theorem tctlValue_resident {s : State} {p k v : Nat} (h : s.tctlValue ⟨p, k⟩ = some v) : (s.core p).resident = true := by
  unfold State.tctlValue at h
  split at h
  · split_ifs at h with hn
    exact (Bool.and_eq_true_iff.1 hn).2
  · cases h

theorem tctlRequeue_discards {s : State} {p k v slot plot pos : Nat} {l : Launch} {ch : DiscardChoice}
    (hv : s.tctlValue ⟨p, k⟩ = some v) (hw : (s.team p).work = .launch slot plot pos) (hl : s.launch slot = some l)
    (hch : ch.stores = []) (h0 : v % 256 = 0) (h8 : bit v 8 = true) :
    ∃ t m, exec (.tctlRequeue ⟨p, k⟩ ch) s = .next t ∧ t.mem = s.mem ∧ (t.core p).resident = false ∧
      t.launch slot = some m ∧ ∃ r, r ∈ m.ranges ∧ r.chip = chipOf p ∧ pos ∈ r.returned := by
  obtain ⟨hm, hr, hd⟩ := discardPlot_returns (tctlValue_resident hv) hw hl hch
  obtain ⟨x, a, hn⟩ := noteWaits_launch_some hd
  have hnext : exec (.tctlRequeue ⟨p, k⟩ ch) s = .next (s.discardPlot p ch).noteWaits := by
    show execTctlRequeue _ _ s = _
    simp only [execTctlRequeue, concludePlacing, hv, h0, h8, decide_true, Bool.and_self, ↓reduceIte]
  exact ⟨_, _, hnext, hm, hr, hn, returnTo_mem ..⟩

/-- A launch that ends FAULT by a step of placing. -/
theorem faultLaunch_ends {s : State} {p slot plot pos : Nat} {l : Launch} (cause : Nat)
    (hw : (s.team p).work = .launch slot plot pos) (hl : s.launch slot = some l) (he : l.ended = none) :
    ∃ m, (s.faultLaunch slot cause plot).noteWaits.mem = s.mem ∧
      ((s.faultLaunch slot cause plot).noteWaits.core p).resident = false ∧
      (s.faultLaunch slot cause plot).noteWaits.launch slot = some m ∧ m.ended = some (3, cause, plot % 2 ^ 24) := by
  obtain ⟨x, a, hn⟩ := noteWaits_launch_some (faultLaunch_launch hl cause plot)
  have hof : (s.team p).ofLaunch slot = true := by simp [Team.ofLaunch, hw, Work.ofLaunch]
  exact ⟨_, faultLaunch_mem .., faultLaunch_resident hl cause plot hof, hn, Launch.faulted_ended he ..⟩

theorem tctlFatal_ends {s : State} {p k v slot plot pos : Nat} {l : Launch} {cause : BitVec 8}
    (hv : s.tctlValue ⟨p, k⟩ = some v) (hw : (s.team p).work = .launch slot plot pos) (hl : s.launch slot = some l)
    (he : l.ended = none) (hc : cause ≠ 0) (h : v % 256 = cause.toNat) :
    ∃ t m, exec (.tctlFatal ⟨p, k⟩ cause) s = .next t ∧ t.mem = s.mem ∧ (t.core p).resident = false ∧
      t.launch slot = some m ∧ m.ended = some (3, cause.toNat, plot % 2 ^ 24) := by
  obtain ⟨m, hm⟩ := faultLaunch_ends cause.toNat hw hl he
  have hnext : exec (.tctlFatal ⟨p, k⟩ cause) s = .next (s.faultLaunch slot cause.toNat plot).noteWaits := by
    show execTctlFatal _ _ s = _
    simp only [execTctlFatal, concludePlacing, hv, h, bne_iff_ne.2 hc, decide_true, Bool.and_self, ↓reduceIte,
      State.endByTrap, hw]
  exact ⟨_, m, hnext, hm⟩

theorem commitWindowExpiry_ends {s : State} {p slot plot pos done : Nat} {l : Launch} (hp : (s.core p).resident = true)
    (hw : (s.team p).work = .launch slot plot pos) (hc : (s.team p).commit = .done done) (hl : s.launch slot = some l)
    (he : l.ended = none) (hd : done + commitWindow l.record ≤ s.cycles) :
    ∃ t m, exec (.commitWindowExpiry p) s = .next t ∧ t.mem = s.mem ∧ (t.core p).resident = false ∧
      t.launch slot = some m ∧ m.ended = some (3, 0, plot % 2 ^ 24) := by
  obtain ⟨m, hm⟩ := faultLaunch_ends 0 hw hl he
  have hnext : exec (.commitWindowExpiry p) s = .next (s.faultLaunch slot 0 plot).noteWaits := by
    show execCommitWindowExpiry p s = _
    simp only [execCommitWindowExpiry, concludePlacing, hw, hc, hl, hp, hd, decide_true, Bool.and_self, ↓reduceIte]
  exact ⟨_, m, hnext, hm⟩

end Sys2Proof.Machine
end

section
namespace Sys2Proof.Laws
open Machine

/-- Settles O48: a team that ends leaves its core through one operation, which touches neither memory nor launches; what
each end writes into its launch stands beside that. -/
theorem teamsEnd : Obligations.TeamsEnd := by
  unfold Obligations.TeamsEnd
  refine ⟨?_, ?_, ?_, ?_, ?_⟩
  · intro s p slot plot pos l hw hr hd hl he
    have hlaunch := ((Released.dropTeam (s.retirePlot slot plot) p).launch slot).trans (retirePlot_launch hl plot)
    obtain ⟨m, hm, hlog, hcount⟩ := noteWaits_retire hlaunch
    exact ⟨_, m, plotRetire_retires hw hr hd hl he, hm, hlog, hcount, noteWaits_free (dropTeam_resident ..)⟩
  · intro s slot plot p1 p2 l h1 h2 hd1 hd2 hl he hsig
    obtain ⟨m, hm, hlog, hcount⟩ := noteWaits_retire (retirePair_launch (plot := plot) hl)
    exact ⟨_, m, pairCompare_retires h1 h2 hd1 hd2 hl he hsig, hm, hlog, hcount,
      noteWaits_free (retirePair_resident (runCore_mem h1)), noteWaits_free (retirePair_resident (runCore_mem h2))⟩
  · intro s p age w more ch hp hd hc
    exact ⟨wound_told ch hp hd hc, fun slot plot pos l hs hw hl hch => wound_discards hp hd hc hs hw hl hch⟩
  · intro s p k v slot plot pos l hv hw hl he
    exact ⟨fun ch hch => tctlRequeue_discards hv hw hl hch, fun cause => tctlFatal_ends hv hw hl he⟩
  · intro s p slot plot pos done l hp hw hc hl he hd
    exact commitWindowExpiry_ends hp hw hc hl he hd

end Sys2Proof.Laws
end

section
namespace Sys2Proof.Machine

/-! ### CORE_HANDOUT (R123, R124, R126) -/

theorem assignCore_parts (s : State) (q : Nat) (a : Assign) : (s.assignCore q a).mem = s.mem ∧
    (s.assignCore q a).images = s.images ∧ ((s.assignCore q a).core q).assign = some a ∧
    ((s.assignCore q a).core q).resident = (s.core q).resident ∧ q ∉ ((s.assignCore q a).chip (chipOf q)).fifo := by
  unfold State.assignCore
  dsimp only
  refine ⟨rfl, rfl, ?_, ?_, ?_⟩
  · rw [State.modCore, State.core_setCore_same]
  · rw [State.modCore, State.core_setCore_same]
    rfl
  · show q ∉ ((s.setChip (chipOf q) _).chip (chipOf q)).fifo
    rw [State.chip_setChip_same]
    simp

theorem receivedCore_mem (s : State) (chip : Nat) (w : Work) : (s.receivedCore chip w).mem = s.mem := by
  unfold State.receivedCore
  split
  · split <;> rfl
  · rfl

section
variable {s : State} {chip : Nat} (hf : s.hub.fatal = false) (hlive : (s.chip chip).live = true)
include hf hlive

/-- A pair that waits gets its second core. -/
theorem coreHandout_second {q : Nat} {a : Assign} (h : s.secondCore chip = some (q, a)) :
    exec (.coreHandout chip) s = .next ((s.receivedCore chip a.work).assignCore q a).noteWaits := by
  show execCoreHandout chip s = _
  simp only [execCoreHandout, concludePlacing, hf, hlive, h, Bool.not_true, Bool.or_self, Bool.false_eq_true, ↓reduceIte]

variable {p : Nat} {rest : List Nat} {c : Claimant} (h2 : s.secondCore chip = none) (hq : (s.chip chip).fifo = p :: rest)
  (hc : bestClaimant (s.claimants chip) = some c)
include h2 hq hc

/-- The head core goes to the launch that R124 selects. -/
theorem coreHandout_launch {l : Launch} {a : Assign} (ht : c.task = none) (hl : s.launch c.id = some l)
    (hg : s.launchGives c.id l chip = some a) :
    exec (.coreHandout chip) s = .next ((s.tookFrom c.id chip l a).assignCore p a).noteWaits := by
  show execCoreHandout chip s = _
  simp only [execCoreHandout, concludePlacing, hf, hlive, h2, hq, hc, ht, hl, hg, Bool.not_true, Bool.or_self,
    Bool.false_eq_true, ↓reduceIte]

/-- The head core goes to the sheaf's task that R124 selects. -/
theorem coreHandout_task {x : Sheaf} {y : Task} {task : Nat} (ht : c.task = some task) (hx : s.sheafOf c.id = some x)
    (hy : (x.tasks.find? fun t => t.id == task) = some y) : ∃ u : State, u.mem = s.mem ∧
      exec (.coreHandout chip) s = .next (u.assignCore p (s.taskGives x y)).noteWaits := by
  refine ⟨s.modSheaf x.id fun z => z.modTask task fun t => { t with
    lastGot := s.now
    next := if (s.taskGives x y).resume then t.next else t.next + 1 }, rfl, ?_⟩
  show execCoreHandout chip s = _
  simp only [execCoreHandout, concludePlacing, hf, hlive, h2, hq, hc, ht, hx, hy, Bool.not_true, Bool.or_self,
    Bool.false_eq_true, ↓reduceIte]

end

/-- The state after a core has been assigned its work. -/
theorem assigned {u : State} {chip p : Nat} {m : Mem} (hm : u.mem = m) (hp : chipOf p = chip) (a : Assign) :
    (u.assignCore p a).noteWaits.mem = m ∧ ((u.assignCore p a).noteWaits.core p).assign = some a ∧
      p ∉ ((u.assignCore p a).noteWaits.chip chip).fifo := by
  obtain ⟨hmem, -, ha, -, hfifo⟩ := assignCore_parts u p a
  subst hp
  exact ⟨hmem.trans hm, ha, hfifo⟩

end Sys2Proof.Machine
end

section
namespace Sys2Proof.Machine

/-! ### PLOT_START (R127 to R129, R145) -/

theorem tfind_map_pair {α : Type} (f : Nat → α) (l : List Nat) (n : Nat) :
    tfind (l.map fun k => (k, f k)) n = if n ∈ l then some (f n) else none := by
  induction l with
  | nil => simp [tfind]
  | cons k l ih =>
    by_cases hk : k = n
    · simp [tfind, hk]
    · simp [tfind, hk, ih, Ne.symm hk]

/-- A core as a plot of a launch in a table entry finds it: as it was left where the same launch ran there last. -/
def State.clearedFor (s : State) (p slot : Nat) : State :=
  if (s.core p).lastLaunch == some slot then s else s.clearCore p

theorem clearCore_other (s : State) {p q : Nat} (h : q ≠ p) : (s.clearCore p).core q = s.core q :=
  State.core_setCore_other _ _ _ _ h

theorem clearedFor_leaves (s : State) (p slot : Nat) : (s.clearedFor p slot).mem = s.mem ∧
    (s.clearedFor p slot).hub = s.hub ∧ (∀ q, q ≠ p → (s.clearedFor p slot).core q = s.core q) := by
  unfold State.clearedFor
  split
  · exact ⟨rfl, rfl, fun _ _ => rfl⟩
  · exact ⟨rfl, rfl, fun _ => clearCore_other s⟩

theorem seat_core (s : State) (p : Nat) (t : Team) (last : Option Nat) : ((s.seat p t last).core p) =
    { s.core p with resident := true, assign := none, team := t, lastLaunch := last } := State.core_setCore_same ..

theorem seat_other (s : State) {p q : Nat} (t : Team) (last : Option Nat) (h : q ≠ p) :
    (s.seat p t last).core q = s.core q := State.core_setCore_other _ _ _ _ h

theorem plotAge_leaves (s : State) (l : Launch) (plot : Nat) : (s.plotAge l plot).2.mem = s.mem ∧
    (s.plotAge l plot).2.cores = s.cores := by
  unfold State.plotAge
  split <;> exact ⟨rfl, rfl⟩

/-- A plot never logged takes the next age. -/
theorem plotAge_fresh {s : State} {l : Launch} {plot : Nat} (h : tfind l.log plot = none) : s.plotAge l plot =
    (s.hub.ageCounter, { s with hub := { s.hub with ageCounter := s.hub.ageCounter + 1 } }) := by
  rw [State.plotAge, h]
  rfl

/-- The context of a number in a plot's team. -/
theorem startTeam_ctx (s : State) (l : Launch) (slot plot pos run age : Nat) {k : Nat} (h : k < launchWidth l.record) :
    (s.startTeam l slot plot pos run age).ctx k = startCtx l.record plot s.cycles l.code := by
  show tget Ctx.start ((List.range _).map fun k => (k, startCtx l.record plot s.cycles l.code)) k = _
  rw [tget, tfind_map_pair, if_pos (List.mem_range.2 h)]
  rfl

/-- What R128 gives a context: its indices and ARG in the first five registers, every cluster at ENTRY. -/
theorem startCtx_registers (r : Rec) (plot cycles : Nat) (code : Mem) :
    let c := startCtx r plot cycles code
    (∀ i, i < 4 → (c.squeue i).entries = [.ready (BitVec.ofNat 64 (plotIndex r plot i)) false]) ∧
    (c.squeue 4).entries = [.ready (BitVec.ofNat 64 (launchArg r)) false] ∧
    (∀ n, 4 < n → (c.squeue n).entries = []) ∧ c.vectors = [] ∧ c.sup = launchSup r ∧ c.halted = false ∧
    ∀ cl, Ctx.cluster c cl = ⟨BitVec.ofNat 64 (launchEntry r), .running, 1, none⟩ := by
  refine ⟨fun i hi => ?_, rfl, fun n hn => ?_, rfl, rfl, rfl, fun cl => by cases cl <;> rfl⟩
  · match i, hi with
    | 0, _ => rfl
    | 1, _ => rfl
    | 2, _ => rfl
    | 3, _ => rfl
  · have h0 : ∀ m, m ≤ 4 → m ≠ n := fun m hm => by omega
    simp only [startCtx, Ctx.squeue, tget, tfind, h0 0 (by omega), h0 1 (by omega), h0 2 (by omega), h0 3 (by omega),
      h0 4 (by omega), ↓reduceIte, Option.getD_none]
    rfl

/-- The state in which a plot of a launch starts: its age is taken and its core made ready. -/
def State.atStart (s : State) (p slot plot : Nat) (l : Launch) : State := (s.plotAge l plot).2.clearedFor p slot

theorem plotStart_launch {s : State} {p slot plot pos run : Nat} {l : Launch}
    (ha : (s.core p).assign = some ⟨.launch slot plot pos, run, false⟩) (hl : s.launch slot = some l)
    (he : l.electing = false) (hr : s.pairReady slot plot run = true) : exec (.plotStart p) s =
      .next (((s.atStart p slot plot l).seat p
        ((s.atStart p slot plot l).startTeam l slot plot pos run (s.plotAge l plot).1) (some slot)).setLaunch slot
        (some (l.logStart plot (s.plotAge l plot).1 p))).noteWaits := by
  show execPlotStart p s = _
  simp only [execPlotStart, concludePlacing, ha, hl, he, hr, Bool.not_true, Bool.or_self, Bool.false_eq_true, ↓reduceIte]
  rfl

/-- A plot of a launch starts with the state of R128. -/
theorem plotStart_seats {s : State} {p slot plot pos run : Nat} {l : Launch}
    (ha : (s.core p).assign = some ⟨.launch slot plot pos, run, false⟩) (hl : s.launch slot = some l)
    (he : l.electing = false) (hr : s.pairReady slot plot run = true) :
    ∃ t, exec (.plotStart p) s = .next t ∧ t.mem = s.mem ∧ (t.core p).resident = true ∧
      (t.team p).work = .launch slot plot pos ∧ (t.team p).asid = launchAsid l.record ∧
      (tfind l.log plot = none → (t.team p).age = s.hub.ageCounter ∧ t.hub.ageCounter = s.hub.ageCounter + 1) ∧
      (∀ k, k < launchWidth l.record → ∃ u : State, t.ctx p k = startCtx l.record plot u.cycles l.code) ∧
      (∀ q, q ≠ p → t.core q = s.core q) := by
  obtain ⟨hm, hc⟩ := plotAge_leaves s l plot
  obtain ⟨hm', hh, hq⟩ := clearedFor_leaves (s.plotAge l plot).2 p slot
  have hnext := plotStart_launch ha hl he hr
  generalize hu : s.atStart p slot plot l = u at hnext
  have hcore : ∀ q, q ≠ p → u.core q = s.core q := fun q hqp => by
    rw [← hu, State.atStart, hq q hqp, State.core, hc]
    rfl
  have hteam : (((u.seat p (u.startTeam l slot plot pos run (s.plotAge l plot).1) (some slot)).setLaunch slot
      (some (l.logStart plot (s.plotAge l plot).1 p))).noteWaits.core p) = _ := seat_core ..
  refine ⟨_, hnext, ?_, congrArg Core.resident hteam, congrArg (fun c => c.team.work) hteam,
    congrArg (fun c => c.team.asid) hteam, fun hlog => ?_, fun k hk => ⟨u, ?_⟩, fun q hqp => ?_⟩
  · exact (congrArg State.mem hu).symm.trans (hm'.trans hm)
  · refine ⟨(congrArg (fun c => c.team.age) hteam).trans (congrArg Prod.fst (plotAge_fresh hlog)), ?_⟩
    show u.hub.ageCounter = _
    rw [← hu, State.atStart, hh, plotAge_fresh hlog]
  · exact (congrArg (fun c => c.team.ctx k) hteam).trans (startTeam_ctx u l slot plot pos run _ hk)
  · exact (seat_other u _ _ hqp).trans (hcore q hqp)

/-- The state in which a tile of a sheaf's task starts: it takes the next age, on a core made ready. -/
def State.atTile (s : State) (p : Nat) : State :=
  { s.clearCore p with hub := { s.hub with ageCounter := s.hub.ageCounter + 1 } }

/-- A tile of a sheaf's task starts in one supervisor context that holds every operand slot. -/
theorem plotStart_tile {s : State} {p id task tile run : Nat} {x : Sheaf}
    (ha : (s.core p).assign = some ⟨.sheaf id task tile, run, false⟩) (hx : s.sheafOf id = some x) :
    ∃ t, exec (.plotStart p) s = .next t ∧ t.mem = s.mem ∧ (t.core p).resident = true ∧
      (t.team p).work = .sheaf id task tile ∧ (t.team p).width = 1 ∧ (t.ctx p 0).sup = true ∧
      (∀ i, i < 64 → ((t.team p).slot i).owner = some 0) := by
  have hnext : exec (.plotStart p) s = .next ((s.atTile p).seat p
      ((s.atTile p).taskTeam x task tile s.hub.ageCounter) none).noteWaits := by
    show execPlotStart p s = _
    simp only [execPlotStart, concludePlacing, ha, hx]
    rfl
  have hteam : ((s.atTile p).seat p ((s.atTile p).taskTeam x task tile s.hub.ageCounter) none).noteWaits.core p = _ :=
    seat_core ..
  refine ⟨_, hnext, rfl, congrArg Core.resident hteam, ?_, congrArg (fun c => c.team.width) hteam,
    congrArg (fun c => (c.team.ctx 0).sup) hteam, fun i hi => ?_⟩
  · exact (congrArg (fun c => c.team.work) hteam).trans (congrArg (Work.sheaf · task tile) (sheafOf_id hx))
  · refine (congrArg (fun c => (c.team.slot i).owner) hteam).trans ?_
    show (tget OpSlot.empty ((List.range 64).map fun i => (i, { OpSlot.empty with owner := some 0 })) i).owner = _
    rw [tget, tfind_map_pair, if_pos (List.mem_range.2 hi)]
    rfl

end Sys2Proof.Machine
end

section
namespace Sys2Proof.Machine

/-! ### What translations and pins leave (R243 to R246, R251)

A walk fills the micro-TLB and the chiplet's TLB and counts into its context; pinning is walks. -/

/-- A context without its traffic counters. -/
def Ctx.apartWalks (c : Ctx) : Ctx := { c with counters := [] }

/-- A core without its micro-TLBs and its team's contexts. -/
def Core.apartWalks (c : Core) : Core := { c with itlb := [], dtlb := [], team := { c.team with ctxs := [] } }

/-- What stands beside the walks: the state without TLBs, its cores and its contexts. -/
def State.besideWalks (s : State) : State × (Nat → Core) × (Nat → Nat → Ctx) :=
  ({ s with chips := [], cores := [] }, s.seen Core.apartWalks Ctx.apartWalks)

theorem modCore_besideWalks {s : State} {p : Nat} {f : Core → Core}
    (h : (f (s.core p)).apartWalks = (s.core p).apartWalks)
    (hk : ∀ k, ((f (s.core p)).team.ctx k).apartWalks = (s.ctx p k).apartWalks) :
    (s.modCore p f).besideWalks = s.besideWalks := Prod.ext rfl (setCore_seen h hk)

theorem setChip_besideWalks (s : State) (n : Nat) (x : Chip) : (s.setChip n x).besideWalks = s.besideWalks := rfl

theorem modCtx_besideWalks {s : State} {p k : Nat} {f : Ctx → Ctx} (h : (f (s.ctx p k)).apartWalks = (s.ctx p k).apartWalks) :
    (s.modCtx p k f).besideWalks = s.besideWalks := Prod.ext rfl (modCtx_seen rfl h)

theorem count_besideWalks (s : State) (p k ix n : Nat) : (s.count p k ix n).besideWalks = s.besideWalks :=
  modCtx_besideWalks rfl

theorem findPage_besideWalks (s : State) (p k : Nat) (fetch : Bool) (asid va : Nat) :
    (s.findPage p k fetch asid va).2.besideWalks = s.besideWalks := by
  have hput : ∀ (u : State) (e : TlbEntry), (u.modCore p fun c =>
      if fetch then { c with itlb := tlbInsert 16 c.itlb e } else { c with dtlb := tlbInsert 64 c.dtlb e }).besideWalks =
      u.besideWalks := fun u e => modCore_besideWalks (by cases fetch <;> rfl) fun k => by cases fetch <;> rfl
  have hcount := count_besideWalks s p k xwalkIx 1
  -- The walk of the tables is a variable here, so that no check of the proof evaluates it.
  obtain ⟨walk, hwalk⟩ : ∃ w, State.walk = w := ⟨_, rfl⟩
  rw [State.findPage, hwalk]
  dsimp only
  split
  · rfl
  · split
    · exact hput ..
    · split
      · exact hcount
      · exact (hput ..).trans ((setChip_besideWalks ..).trans hcount)

theorem pinRun_besideWalks (s : State) (p k : Nat) (kind : AccessKind) (user : Bool) (fuel va last : Nat)
    (acc : List TlbEntry) : (s.pinRun p k kind user fuel va last acc).2.besideWalks = s.besideWalks := by
  induction fuel generalizing s va acc with
  | zero => rfl
  | succ fuel ih =>
    have hpage := findPage_besideWalks s p k false (s.team p).asid.toNat va
    unfold State.pinRun
    split
    · rfl
    split
    · rfl
    split
    · rwa [‹s.findPage p k false _ va = _›] at hpage
    · rw [‹s.findPage p k false _ va = _›] at hpage
      split
      · exact hpage
      · exact (ih ..).trans hpage

theorem pinRuns_besideWalks (s : State) (p k : Nat) (user : Bool) (bad : Option (Nat × Nat)) (l : List Extent)
    (acc : List TlbEntry) : (s.pinRuns p k user bad l acc).2.besideWalks = s.besideWalks := by
  induction l generalizing s bad acc with
  | nil => rfl
  | cons x l ih =>
    have hrun := pinRun_besideWalks s p k x.kind user (x.len / 65536 + 2) x.va (x.va + x.len - 1) acc
    unfold State.pinRuns
    split
    · exact ih ..
    split
    · rw [‹s.pinRun .. = _›] at hrun
      exact (ih ..).trans hrun
    · rw [‹s.pinRun .. = _›] at hrun
      exact (ih ..).trans hrun

theorem pinFootprint_besideWalks (s : State) (p k : Nat) (user : Bool) (r : Rec) :
    (s.pinFootprint p k user r).2.besideWalks = s.besideWalks := by
  have hruns := pinRuns_besideWalks s p k user none (sortExtents (cmdRuns r)) []
  unfold State.pinFootprint
  split
  · rwa [‹s.pinRuns .. = _›] at hruns
  · exact hruns

theorem repinCmds_besideWalks (s : State) (p : Nat) (l : List Command) :
    (s.repinCmds p l).2.2.besideWalks = s.besideWalks := by
  induction l generalizing s with
  | nil => rfl
  | cons c l ih =>
    have hpin := pinFootprint_besideWalks s p c.ctx c.user c.bytes
    unfold State.repinCmds
    split
    · exact ih s
    split
    · rw [‹s.pinFootprint .. = _›] at hpin
      exact (ih _).trans hpin
    · rw [‹s.pinFootprint .. = _›] at hpin
      exact (ih _).trans hpin

theorem allHalted_congr {t u : Team} (hw : t.width = u.width) (hh : ∀ k, (t.ctx k).halted = (u.ctx k).halted) :
    t.allHalted = u.allHalted := by simp only [Team.allHalted, hw, hh]

section
variable {s t : State} (h : t.besideWalks = s.besideWalks)
include h

theorem mem_of_besideWalks : t.mem = s.mem := (congrArg (fun x => x.1.mem) h :)

theorem core_of_besideWalks (p : Nat) : (t.core p).apartWalks = (s.core p).apartWalks :=
  (congrArg (fun x => x.2.1 p) h :)

theorem ctx_of_besideWalks (p k : Nat) : (t.ctx p k).apartWalks = (s.ctx p k).apartWalks :=
  (congrArg (fun x => x.2.2 p k) h :)

theorem team_of_besideWalks (p : Nat) : ({ t.team p with ctxs := [] } : Team) = { s.team p with ctxs := [] } :=
  (congrArg Core.team (core_of_besideWalks h p) :)

theorem allHalted_of_besideWalks (p : Nat) : (t.team p).allHalted = (s.team p).allHalted :=
  allHalted_congr (t := t.team p) (u := s.team p) (congrArg Team.width (team_of_besideWalks h p) :)
    fun k => (congrArg Ctx.halted (ctx_of_besideWalks h p k) :)

end

end Sys2Proof.Machine
end

section
namespace Sys2Proof.Machine

/-! ### TEAM_RESUME (R410) -/

/-! #### The team that comes back -/

/-- A team without its contexts and the wounds that reached it. -/
def Team.apartWounds (t : Team) : Team := { t with ctxs := [], woundsDue := [], lkwage := 0, lkwname := 0 }

theorem wounded_pending (c : Ctx) (word : W64) : ({ c.wounded word with pending := [] } : Ctx) = { c with pending := [] } := by
  unfold Ctx.wounded
  split <;> rfl

/-- A team that takes up one wound. -/
def Team.takeWound (t : Team) (w : Nat × W64) : Team :=
  { t with lkwage := BitVec.ofNat 48 w.1, lkwname := w.2 }.deliverWound w.2

theorem takeWound_leaves (t : Team) (w : Nat × W64) : (t.takeWound w).apartWounds = t.apartWounds :=
  (congrArg (fun u : Team => ({ u with woundsDue := [], lkwage := 0, lkwname := 0 } : Team))
    (deliverWound_rest { t with lkwage := BitVec.ofNat 48 w.1, lkwname := w.2 } w.2) :)

theorem takeWound_ctx (t : Team) (w : Nat × W64) (k : Nat) :
    ({ (t.takeWound w).ctx k with pending := [] } : Ctx) = { t.ctx k with pending := [] } := by
  rw [Team.takeWound, deliverWound_ctx]
  split
  · exact wounded_pending ..
  · rfl

/-- Wounds taken up touch the team's wounds and what is pending in its contexts. -/
theorem takeWounds_leaves (t : Team) : t.takeWounds.apartWounds = t.apartWounds ∧
    ∀ k, ({ t.takeWounds.ctx k with pending := [] } : Ctx) = { t.ctx k with pending := [] } := by
  unfold Team.takeWounds
  split
  · exact ⟨rfl, fun _ => rfl⟩
  split
  · exact ⟨rfl, fun _ => rfl⟩
  · exact ⟨foldl_leaves Team.apartWounds takeWound_leaves t.woundsDue { t with woundsDue := [] },
      fun k => foldl_leaves (fun t : Team => ({ t.ctx k with pending := [] } : Ctx)) (fun t w => takeWound_ctx t w k)
        t.woundsDue { t with woundsDue := [] }⟩

/-- A context with its cycle count taken from another base. -/
def Ctx.rebased (c : Ctx) (cycles : Nat) : Ctx := { c with cycleBase := cycles }

theorem comeBack_ctx (t : Team) (cycles k : Nat) : ((t.comeBack cycles).ctx k).rebased 0 = (t.ctx k).rebased 0 := by
  show (tget Ctx.start (t.ctxs.map fun e => (e.1, e.2.rebased cycles)) k).rebased 0 = (tget Ctx.start t.ctxs k).rebased 0
  rw [tget, tfind_map_value (Ctx.rebased · cycles), tget]
  cases tfind t.ctxs k <;> rfl

/-- The team of an image as it takes a core. -/
def Image.back (i : Image) (cycles now : Nat) : Team :=
  { (i.team.comeBack cycles).takeWounds with sliceStart := now }

/-- The parts of a context that no wound, no count of cycles and no walk touches. -/
def Ctx.kept (c : Ctx) : Ctx := { c with pending := [], cycleBase := 0, counters := [] }

theorem back_ctx (i : Image) (cycles now k : Nat) : ((i.back cycles now).ctx k).kept = (i.team.ctx k).kept := by
  have hwound := (takeWounds_leaves (i.team.comeBack cycles)).2 k
  have hback := comeBack_ctx i.team cycles k
  calc ((i.back cycles now).ctx k).kept
      = Ctx.kept { (i.team.comeBack cycles).takeWounds.ctx k with pending := [] } := rfl
    _ = Ctx.kept { (i.team.comeBack cycles).ctx k with pending := [] } := by rw [hwound]
    _ = Ctx.kept (((i.team.comeBack cycles).ctx k).rebased 0) := rfl
    _ = Ctx.kept ((i.team.ctx k).rebased 0) := by rw [hback]
    _ = (i.team.ctx k).kept := rfl

theorem back_parts (i : Image) (cycles now : Nat) : (i.back cycles now).work = i.team.work ∧
    (i.back cycles now).age = i.team.age ∧ (i.back cycles now).width = i.team.width ∧
    (i.back cycles now).queues = i.team.queues := by
  have hparts := (takeWounds_leaves (i.team.comeBack cycles)).1
  exact ⟨(congrArg Team.work hparts :), (congrArg Team.age hparts :), (congrArg Team.width hparts :),
    (congrArg Team.queues hparts :)⟩

/-! #### The core that takes it -/

/-- The team may have its commands pinned again without its launch ending: it has none, or a context still runs. -/
def Team.repinnable (t : Team) : Prop := (∀ q, (t.queue q).cmds = []) ∨ t.allHalted = false

/-- An image stands on a core: its team and its pool are there, but for wounds, counts, translations and pins. -/
structure Resumed (m : Mem) (i : Image) (p : Nat) (s : State) : Prop where
  mem : s.mem = m
  resident : (s.core p).resident = true
  pool : (s.core p).pool = i.pool
  work : (s.team p).work = i.team.work
  age : (s.team p).age = i.team.age
  ctx : ∀ k, (s.ctx p k).kept = (i.team.ctx k).kept
  repinnable : (s.team p).repinnable

theorem restore_core (s : State) (p : Nat) (i : Image) : ((s.restore p i).core p).resident = true ∧
    ((s.restore p i).core p).pool = i.pool ∧ (s.restore p i).team p = i.back s.cycles s.now := by
  unfold State.restore
  dsimp only
  refine ⟨?_, ?_, ?_⟩
  · rw [State.modCore, State.core_setCore_same, seat_core]
  · rw [State.modCore, State.core_setCore_same]
  · rw [State.team, State.modCore, State.core_setCore_same, seat_core]
    rfl

theorem restore_resumed (s : State) (p : Nat) {i : Image} (h : i.team.repinnable) :
    Resumed s.mem i p (s.restore p i) := by
  obtain ⟨hres, hpool, hteam⟩ := restore_core s p i
  obtain ⟨hwork, hage, hwidth, hqueues⟩ := back_parts i s.cycles s.now
  have hctx := back_ctx i s.cycles s.now
  refine ⟨rfl, hres, hpool, hteam ▸ hwork, hteam ▸ hage, fun k => ?_, ?_⟩
  · rw [State.ctx, hteam]
    exact hctx k
  · rw [hteam]
    refine h.imp (fun hq q => ?_) fun hh => ?_
    · rw [Team.queue, hqueues]
      exact hq q
    · rw [allHalted_congr hwidth fun k => (congrArg Ctx.halted (hctx k) :)]
      exact hh

theorem Resumed.of_besideWalks {m : Mem} {i : Image} {p : Nat} {s t : State} (h : t.besideWalks = s.besideWalks)
    (hs : Resumed m i p s) : Resumed m i p t := by
  have hcore := core_of_besideWalks h p
  have hteam := team_of_besideWalks h p
  have hctx := ctx_of_besideWalks h p
  refine ⟨(mem_of_besideWalks h).trans hs.mem, (congrArg Core.resident hcore :).trans hs.resident,
    (congrArg Core.pool hcore :).trans hs.pool, (congrArg Team.work hteam :).trans hs.work,
    (congrArg Team.age hteam :).trans hs.age, fun k => (congrArg Ctx.kept (hctx k) :).trans (hs.ctx k), ?_⟩
  refine hs.repinnable.imp (fun hq q => ?_) fun hh => ?_
  · exact (congrArg (fun t => (Team.queue t q).cmds) hteam :).trans (hq q)
  · exact (allHalted_of_besideWalks h p).trans hh

/-- A queue of the team is written. -/
theorem Resumed.setQueue {m : Mem} {i : Image} {p : Nat} {s : State} (hs : Resumed m i p s) {q : Nat} {e : EngineQueue}
    (hr : ((s.team p).setQueue q e).repinnable) : Resumed m i p (s.setTeam p ((s.team p).setQueue q e)) := by
  have hteam : (s.setTeam p ((s.team p).setQueue q e)).team p = (s.team p).setQueue q e := State.team_setTeam_same ..
  have hcore : (s.setTeam p ((s.team p).setQueue q e)).core p = { s.core p with team := (s.team p).setQueue q e } :=
    State.core_setTeam_same ..
  exact ⟨hs.mem, (congrArg Core.resident hcore).trans hs.resident, (congrArg Core.pool hcore).trans hs.pool,
    (congrArg Team.work hteam).trans hs.work, (congrArg Team.age hteam).trans hs.age,
    fun k => (congrArg (fun t => (Team.ctx t k).kept) hteam).trans (hs.ctx k), by rw [hteam]; exact hr⟩

/-- With no command to pin, a queue stands as it stood. -/
theorem repinQueue_empty {s : State} {p q : Nat} (h : ((s.team p).queue q).cmds = []) : s.repinQueue p q =
    s.setTeam p ((s.team p).setQueue q { (s.team p).queue q with cmds := [] }) := by
  unfold State.repinQueue
  rw [h]
  rfl

/-- Pinning a queue's commands again writes that queue, and halts it where a command faults. -/
theorem Resumed.repinQueue {m : Mem} {i : Image} {p : Nat} {s : State} (hs : Resumed m i p s) (q : Nat) :
    Resumed m i p (s.repinQueue p q) := by
  rcases hs.repinnable with hq | hh
  · rw [repinQueue_empty (hq q)]
    refine hs.setQueue (.inl fun r => ?_)
    by_cases hr : r = q
    · rw [hr, Team.queue_setQueue_same]
    · rw [Team.queue, Team.setQueue, tget_tput_other _ _ _ _ _ hr]
      exact hq r
  · have hwalks := repinCmds_besideWalks s p ((s.team p).queue q).cmds
    unfold State.repinQueue
    rcases hr : s.repinCmds p ((s.team p).queue q).cmds with ⟨ds, e, u⟩
    rw [hr] at hwalks
    have hu := hs.of_besideWalks hwalks
    have hrun : (u.team p).allHalted = false := (allHalted_of_besideWalks hwalks p).trans hh
    have hset := hu.setQueue (q := q) (e := { (u.team p).queue q with cmds := ds }) (.inr hrun)
    have hrun' : ((u.modTeam p fun t => t.setQueue q { t.queue q with cmds := ds }).team p).allHalted = false := by
      rw [State.team_modTeam_same]
      exact hrun
    dsimp only
    split
    · split
      · exact hset
      · rw [haltQueue_eq hrun']
        exact hset.setQueue (.inr hrun')
    · exact hset

theorem Resumed.repinAll {m : Mem} {i : Image} {p : Nat} {s : State} (hs : Resumed m i p s) :
    Resumed m i p (s.repinAll p) := by
  unfold State.repinAll
  induction List.range 4 generalizing s with
  | nil => exact hs
  | cons q l ih =>
    rw [List.foldl_cons, if_pos hs.resident]
    exact ih (hs.repinQueue q)

theorem Resumed.noteWaits {m : Mem} {i : Image} {p : Nat} {s : State} (hs : Resumed m i p s) :
    Resumed m i p s.noteWaits :=
  ⟨hs.mem, hs.resident, hs.pool, hs.work, hs.age, hs.ctx, hs.repinnable⟩

/-- TEAM_RESUME puts the saved team and its pool back. -/
theorem teamResume_resumes {s : State} {p : Nat} {i : Image} (h : s.owedImage p = some i) (hr : i.team.repinnable) :
    ∃ t, exec (.teamResume p) s = .next t ∧ Resumed s.mem i p t := by
  have hnext : exec (.teamResume p) s = .next ((s.restore p i).repinAll p).noteWaits := by
    show execTeamResume p s = _
    simp only [execTeamResume, concludePlacing, h]
  exact ⟨_, hnext, (restore_resumed s p hr).repinAll.noteWaits⟩

end Sys2Proof.Machine
end

section
namespace Sys2Proof.Machine

/-! ### What each core runs

Stores and AMOs that perform, locks that are withdrawn and teams that are stopped leave every core its work. -/

/-- Whether each core holds a team, and that team's work. -/
def State.seats (s : State) (p : Nat) : Bool × Work := ((s.core p).resident, (s.team p).work)

theorem work_of_seats {s t : State} (h : t.seats = s.seats) (p : Nat) : (t.team p).work = (s.team p).work :=
  congrArg Prod.snd (congrFun h p)

theorem seats_of_beside {s t : State} (h : t.beside = s.beside) : t.seats = s.seats :=
  funext fun p => Prod.ext (resident_of_beside h p)
    (congrArg Team.work (Core.team_of_desk (core_desk_of_beside h p)) :)

theorem seats_of_besideLocks {s t : State} (h : t.besideLocks = s.besideLocks) : t.seats = s.seats :=
  funext fun p => Prod.ext (resident_of_besideLocks h p) (work_of_besideLocks h p)

theorem setCore_seats {s : State} {p : Nat} {c : Core} (hr : c.resident = (s.core p).resident)
    (hw : c.team.work = (s.team p).work) : (s.setCore p c).seats = s.seats := by
  funext q
  by_cases hq : q = p
  · rw [hq, State.seats, State.team, State.core_setCore_same]
    exact Prod.ext hr hw
  · rw [State.seats, State.team, State.core_setCore_other _ _ _ _ hq]
    rfl

theorem modTeam_seats {s : State} {p : Nat} {f : Team → Team} (h : (f (s.team p)).work = (s.team p).work) :
    (s.modTeam p f).seats = s.seats := setCore_seats rfl h

/-! #### Accesses that perform (R356, R382, R408) -/

theorem writeOwn_seats (s : State) (p k : Nat) (y : Spot) (bs : List Byte) (bad : Bool) :
    (s.writeOwn p k y bs bad).seats = s.seats := seats_of_beside (writeSpot_beside ..)

theorem releaseAt_seats (s : State) (p k : Nat) (sc : Option Scope) : (s.releaseAt p k sc).seats = s.seats := by
  unfold State.releaseAt
  split
  · exact seats_of_beside ((count_beside ..).trans (writebackHost_beside s))
  · rfl

theorem acquireAt_seats (s : State) (p : Nat) (sc : Option Scope) : (s.acquireAt p sc).seats = s.seats := by
  unfold State.acquireAt
  split
  · split
    · exact setCore_seats rfl rfl
    · rfl
  · rfl

theorem killPieces_seats (s : State) (l : List (Piece × Spot)) : (s.killPieces l).seats = s.seats := by
  refine foldl_leaves State.seats (fun s x => ?_) l s
  split
  · exact setCore_seats rfl rfl
  · rfl

theorem popStore_seats (s : State) (p k seq : Nat) : (s.popStore p k seq).seats = s.seats :=
  seats_of_beside (modCtx_beside ..)

theorem performStore_seats (s : State) (p k : Nat) (a : Access) (data : List Byte) :
    (s.performStore p k a data).seats = s.seats := by
  unfold State.performStore
  split
  · rfl
  · exact (seats_of_beside (modCtx_beside ..)).trans (popStore_seats ..)
  · next spots _ =>
    have hwrites : (spots.foldl (fun s x => s.writeOwn p k x.2 (pieceData data x.1) (piecePoison a.poison x.1))
        (s.releaseAt p k a.release)).seats = s.seats :=
      (foldl_leaves State.seats (fun s x => writeOwn_seats ..) _ _).trans (releaseAt_seats ..)
    dsimp only
    rw [seats_of_beside (modCtx_beside ..), popStore_seats]
    split
    · exact (killPieces_seats ..).trans hwrites
    · exact hwrites

theorem finishAmo_seats (s : State) (p k : Nat) (a : Access) (tag : Nat) (e : SEntry) (log : Bool) :
    (s.finishAmo p k a tag e log).seats = s.seats := by
  have hfill : ((s.popStore p k a.seq).modCtx p k fun c => c.fillLq tag e).seats = s.seats :=
    (seats_of_beside (modCtx_beside ..)).trans (popStore_seats ..)
  unfold State.finishAmo
  refine (acquireAt_seats ..).trans ?_
  split
  · exact (modTeam_seats rfl).trans hfill
  · exact hfill

theorem ite_seats {c : Prop} [Decidable c] {s t : State} {w : Nat → Bool × Work} (hs : s.seats = w) (ht : t.seats = w) :
    (if c then s else t).seats = w := by
  split
  · exact hs
  · exact ht

theorem oldWord_seats (s : State) (p k : Nat) (y : Spot) (n : Nat) (ecc : Ecc) :
    (s.oldWord p k y n ecc).2.2.seats = s.seats := by
  cases y with
  | pool q a =>
    have hwake : ((s.flushReds (some q) a n).modCore q fun c => c.wake s.cycles a n).seats = s.seats :=
      (setCore_seats (by rfl) (by rfl)).trans (seats_of_beside (flushReds_beside ..))
    unfold State.oldWord
    dsimp only
    split <;> exact hwake
  | mem pa cached =>
    have hflush : (if cached then s.flushReds none pa n else s).beside = s.beside := by
      rw [ite_beside, flushReds_beside, ite_self]
    have hread := fun cl => seats_of_beside ((homeRead_beside _ cl pa n cached ecc).trans hflush)
    exact ite_seats ((setCore_seats (by rfl) (by rfl)).trans (hread _)) (hread _)

theorem performAmo_seats (s : State) (p k : Nat) (a : Access) (op : AmoOp) (ty : AmoTy) (b c : W64) (tag : Nat)
    (supported : Bool) (ecc : Ecc) : (s.performAmo p k a op ty b c tag supported ecc).seats = s.seats := by
  unfold State.performAmo
  split
  case h_1 | h_3 => rfl
  case h_2 => exact finishAmo_seats ..
  case h_4 x y _ _ =>
    have hrel := releaseAt_seats s p k a.release
    have hold := (oldWord_seats (s.releaseAt p k a.release) p k y x.len ecc).trans hrel
    refine ite_seats ?_ (ite_seats ((finishAmo_seats ..).trans hrel)
      (ite_seats ((finishAmo_seats ..).trans hold) ((finishAmo_seats ..).trans ?_)))
    · split
      · split
        · exact finishAmo_seats ..
        · rfl
      · rfl
    · split
      · exact (writeOwn_seats ..).trans hold
      · exact hold

theorem performChosen_seats (s : State) (p k : Nat) (ixs : List Nat) : (s.performChosen p k ixs).seats = s.seats := by
  refine foldl_leaves State.seats (fun s a => ?_) _ s
  split
  · rfl
  · split
    · exact performStore_seats ..
    · exact performAmo_seats ..
    · split
      · exact (writeOwn_seats ..).trans (oldWord_seats ..)
      · rfl
    · rfl

/-- Once a plot's teams are dropped its core is free. -/
theorem dropPlot_free {s : State} {p slot plot pos : Nat} (hw : (s.team p).work = .launch slot plot pos) :
    (((s.plotCores slot plot).foldl State.dropTeam s).core p).resident = false := by
  cases hp : (s.core p).resident with
  | false => exact (Released.foldl Released.dropTeam _ s).not_resident hp
  | true =>
    exact dropTeams_resident (g := id) Released.dropTeam dropTeam_resident
      (mem_plotCores (slot := slot) (plot := plot) hp (by simp [hw, Work.ofPlot])) s

theorem returnPosition_core (s : State) (slot plot pos chip p : Nat) :
    (s.returnPosition slot plot pos chip).core p = s.core p :=
  congrArg (tget Core.reset · p) (returnPosition_leaves s slot plot pos chip).2.1

theorem performAll_seats (s : State) (p : Nat) (l : List (Nat × List Nat)) :
    (l.foldl (fun s e => s.performChosen p e.1 e.2) s).seats = s.seats :=
  foldl_leaves State.seats (fun _ _ => performChosen_seats ..) l s

/-- A discarded plot's core is free, whichever of its stores perform. -/
theorem discardPlot_free {s : State} {p slot plot pos : Nat} (hw : (s.team p).work = .launch slot plot pos)
    (ch : DiscardChoice) : ((s.discardPlot p ch).core p).resident = false := by
  have hwork : ((ch.stores.foldl (fun s e => s.performChosen p e.1 e.2) s).team p).work = .launch slot plot pos :=
    (work_of_seats (performAll_seats s p ch.stores) p).trans hw
  rw [discardPlot_eq hw, returnPosition_core]
  exact (Released.forgetPlot _ slot plot).not_resident (dropPlot_free hwork)

/-! ### Teams that are saved (R125, R409) -/

theorem withdrawOwn_seats (s : State) (p : Nat) : (s.withdrawOwn p).seats = s.seats := by
  unfold State.withdrawOwn
  split
  · rfl
  · exact seats_of_besideLocks (withdraw_besideLocks ..)

theorem stopAll_work (t : Team) : t.stopAll.work = t.work := by
  refine foldl_leaves Team.work (fun t k => ?_) _ t
  dsimp only
  split <;> rfl

theorem stopTeam_seats (s : State) (p : Nat) : (s.stopTeam p).seats = s.seats :=
  (seats_of_beside (foldl_beside performRed_beside _ _)).trans
    ((modTeam_seats (stopAll_work _)).trans (withdrawOwn_seats s p))

theorem endMove_core (s : State) (p q : Nat) : (s.endMove p).core q = s.core q := by
  unfold State.endMove
  split
  · exact idleCore_core ..
  · rfl

/-- A core's team has left it, its work and its pool in an image. -/
structure Saved (p : Nat) (w : Work) (pool : Mem) (s : State) : Prop where
  free : (s.core p).resident = false
  image : ∃ i ∈ s.images, i.team.work = w ∧ i.pool = pool

theorem imageOf_work (s : State) (p : Nat) : (s.imageOf p).team.work = (s.team p).work := rfl

theorem imageOf_pool (s : State) (p : Nat) : (s.imageOf p).pool = (s.core p).pool := rfl

theorem vacate_free (s : State) (p : Nat) : ((s.vacate p).core p).resident = false := by
  rw [State.vacate, State.modCore, State.core_setCore_same]

theorem saveTeam_saved (s : State) (p : Nat) : Saved p (s.team p).work (s.core p).pool (s.saveTeam p) := by
  have hcore : ((s.recallMessages (s.team p).age).endMove p).core p = s.core p := endMove_core ..
  have himage : ((s.recallMessages (s.team p).age).endMove p).imageOf p ∈ (s.saveTeam p).images :=
    List.mem_append_right _ (List.mem_singleton_self _)
  refine ⟨vacate_free .., _, himage, ?_, ?_⟩
  · rw [imageOf_work, State.team, hcore, State.team]
  · rw [imageOf_pool, hcore]

theorem Saved.idleCore {p : Nat} {w : Work} {pool : Mem} {s : State} (h : Saved p w pool s) (q : Nat) :
    Saved p w pool (s.idleCore q) where
  free := by rw [idleCore_core]; exact h.free
  image := by rw [(idleCore_leaves s q).2.2.2]; exact h.image

theorem Saved.setLaunch {p : Nat} {w : Work} {pool : Mem} {s : State} (h : Saved p w pool s) (slot : Nat)
    (l : Option Launch) : Saved p w pool (s.setLaunch slot l) := ⟨h.free, h.image⟩

theorem Saved.assignCore {p : Nat} {w : Work} {pool : Mem} {s : State} (h : Saved p w pool s) (q : Nat) (a : Assign) :
    Saved p w pool (s.assignCore q a) where
  free := by
    by_cases hp : p = q
    · subst hp
      show (((State.modCore _ p _).core p).resident) = false
      rw [State.modCore, State.core_setCore_same]
      exact h.free
    · show (((State.modCore _ q _).core p).resident) = false
      rw [State.modCore, State.core_setCore_other _ _ _ _ hp]
      exact h.free
  image := h.image

theorem Saved.noteWaits {p : Nat} {w : Work} {pool : Mem} {s : State} (h : Saved p w pool s) :
    Saved p w pool s.noteWaits := ⟨h.free, h.image⟩

/-- WALKER_PREEMPT of a victim that is discarded. -/
theorem walkerPreempt_discards {s : State} {chip p : Nat} {c : Claimant} (ch : DiscardChoice)
    (hnone : (s.residents.find? fun e => chipOf e.1 == chip && e.2.team.preemptDue) = none)
    (hc : s.noteWaits.pressing chip = some c) (hv : s.noteWaits.victim chip c.prio = some p)
    (hd : s.noteWaits.discards (s.team p) = true) :
    exec (.walkerPreempt chip ch) s = .next (s.noteWaits.discardPlot p ch).noteWaits := by
  show execWalkerPreempt chip ch s = _
  have hnone' : (s.noteWaits.residents.find? fun e => chipOf e.1 == chip && e.2.team.preemptDue) = none := hnone
  have hd' : s.noteWaits.discards (s.noteWaits.team p) = true := hd
  simp only [execWalkerPreempt, concludePlacing, hnone', hc, hv, Option.bind_some, hd', ↓reduceIte]

/-- WALKER_PREEMPT of a victim that is saved, and has stopped. -/
theorem walkerPreempt_saves {s : State} {chip p : Nat} {c : Claimant} (ch : DiscardChoice)
    (hnone : (s.residents.find? fun e => chipOf e.1 == chip && e.2.team.preemptDue) = none)
    (hc : s.noteWaits.pressing chip = some c) (hv : s.noteWaits.victim chip c.prio = some p)
    (hd : s.noteWaits.discards (s.team p) = false)
    (hset : (((s.noteWaits.stopTeam p).modTeam p fun t => { t with preemptDue := true }).withdrawOwn p).settled p = true) :
    exec (.walkerPreempt chip ch) s = .next (((((s.noteWaits.stopTeam p).modTeam p fun t =>
      { t with preemptDue := true }).withdrawOwn p).saveTeam p).idleCore p).noteWaits := by
  show execWalkerPreempt chip ch s = _
  have hnone' : (s.noteWaits.residents.find? fun e => chipOf e.1 == chip && e.2.team.preemptDue) = none := hnone
  have hd' : s.noteWaits.discards (s.noteWaits.team p) = false := hd
  simp only [execWalkerPreempt, concludePlacing, hnone', hc, hv, Option.bind_some, hd', State.saveIdle, hset,
    Bool.false_eq_true, ↓reduceIte]

theorem discards_launch {s : State} {t : Team} (h : s.discards t = true) : ∃ slot plot pos, t.work = .launch slot plot pos := by
  unfold State.discards at h
  cases hw : t.work with
  | launch slot plot pos => exact ⟨slot, plot, pos, rfl⟩
  | sheaf => simp [hw] at h

/-- PERSISTENT_SWAP of a team whose swap is due. -/
theorem persistentSwap_due {s : State} {p slot plot pos : Nat} (hp : (s.core p).resident = true)
    (hw : (s.team p).work = .launch slot plot pos) (hpersist : (s.team p).persist = true)
    (hpre : (s.team p).preemptDue = false) (hdue : (s.team p).swapDue = true) :
    exec (.persistentSwap p) s = .next (s.finishSwap p slot).noteWaits := by
  show execPersistentSwap p s = _
  simp only [execPersistentSwap, concludePlacing, hw, hp, hpersist, hpre, hdue, Bool.not_true, Bool.or_false,
    Bool.false_eq_true, ↓reduceIte]

theorem finishSwap_saved {s : State} {p slot : Nat} (hset : (s.withdrawOwn p).settled p = true)
    (hel : (s.withdrawOwn p).electing slot = false) :
    Saved p ((s.withdrawOwn p).team p).work ((s.withdrawOwn p).core p).pool (s.finishSwap p slot) := by
  have hsave := saveTeam_saved (s.withdrawOwn p) p
  unfold State.finishSwap
  simp only [hset, hel, Bool.not_true, Bool.or_self, Bool.false_eq_true, ↓reduceIte]
  split
  · exact (hsave.setLaunch ..).assignCore ..
  · exact hsave.idleCore p

end Sys2Proof.Machine
end

section
namespace Sys2Proof.Machine

/-- TEAM_RESUME's image stands on its core as far as programs can see. -/
theorem Resumed.contexts {m : Mem} {i : Image} {p : Nat} {s : State} (h : Resumed m i p s) (k : Nat) :
    (s.ctx p k).scalars = (i.team.ctx k).scalars ∧ (s.ctx p k).vectors = (i.team.ctx k).vectors ∧
      (s.ctx p k).c = (i.team.ctx k).c :=
  ⟨(congrArg Ctx.scalars (h.ctx k) :), (congrArg Ctx.vectors (h.ctx k) :), (congrArg Ctx.c (h.ctx k) :)⟩

/-- The work of a victim that stops on its way to an image. -/
theorem preempted_work (s : State) (p : Nat) : ((((s.noteWaits.stopTeam p).modTeam p fun t =>
    { t with preemptDue := true }).withdrawOwn p).team p).work = (s.team p).work :=
  work_of_seats ((withdrawOwn_seats ..).trans ((modTeam_seats (by rfl)).trans (stopTeam_seats ..))) p

end Sys2Proof.Machine
end

section
namespace Sys2Proof.Laws
open Machine

/-- Settles O51: each operation's equation first, then what the state it leaves shows. -/
theorem teamsComeAndGo : Obligations.TeamsComeAndGo := by
  unfold Obligations.TeamsComeAndGo
  refine ⟨fun s chip p rest hf hlive => ⟨?_, ?_, ?_⟩, ?_, ?_, ?_, ?_, ?_⟩
  · intro q a h
    obtain ⟨hmem, ha, -⟩ := assigned (p := q) (receivedCore_mem s chip a.work) rfl a
    exact ⟨_, coreHandout_second hf hlive h, hmem, ha⟩
  · intro c l a h2 hq hp hc ht hl hg
    exact ⟨_, coreHandout_launch hf hlive h2 hq hc ht hl hg, assigned (u := s.tookFrom c.id chip l a) rfl hp a⟩
  · intro c x y task h2 hq hp hc ht hx hy
    obtain ⟨u, hu, hnext⟩ := coreHandout_task hf hlive h2 hq hc ht hx hy
    exact ⟨_, hnext, assigned hu hp _⟩
  · intro s p slot plot pos run l ha hl he hr
    obtain ⟨t, hnext, hmem, hres, hwork, hasid, hage, hctx, hother⟩ := plotStart_seats ha hl he hr
    refine ⟨t, hnext, hmem, hres, hwork, hasid, hage, fun k hk => ?_, hother⟩
    obtain ⟨u, hu⟩ := hctx k hk
    rw [hu]
    exact startCtx_registers l.record plot u.cycles l.code
  · intro s p id task tile run x ha hx
    exact plotStart_tile ha hx
  · intro s p i hi hr
    obtain ⟨t, hnext, ht⟩ := teamResume_resumes hi hr
    exact ⟨t, hnext, ht.mem, ht.resident, ht.work, ht.age, ht.pool, ht.contexts⟩
  · intro s chip p c ch hnone n hc hv hp
    refine ⟨fun hd => ?_, fun hd => ?_⟩
    · obtain ⟨slot, plot, pos, hw⟩ := discards_launch hd
      exact ⟨_, walkerPreempt_discards ch hnone hc hv hd, noteWaits_free (discardPlot_free (s := n) hw ch)⟩
    · intro b hset
      obtain ⟨hfree, i, hi, hwork, hpool⟩ := ((saveTeam_saved b p).idleCore p).noteWaits
      exact ⟨_, i, walkerPreempt_saves ch hnone hc hv hd hset, hfree, hi, hwork.trans (preempted_work s p), hpool⟩
  · intro s p slot plot pos hp hw hpersist hpre hdue b hset hel
    obtain ⟨hfree, i, hi, hwork, hpool⟩ := (finishSwap_saved hset hel).noteWaits
    exact ⟨_, i, persistentSwap_due hp hw hpersist hpre hdue, hfree, hi,
      hwork.trans ((work_of_seats (withdrawOwn_seats ..) p).trans hw), hpool⟩

end Sys2Proof.Laws
end

section
namespace Sys2Proof.Machine

/-! ### DEVICE_FATAL (R443) -/

/-- A device that has stopped: its work is gone, FATAL is set, READY clear, and the fault logged. -/
def State.deadDevice (s : State) (cause : Nat) : State :=
  let t := s.dropWork.post evDEVFATAL cause srcHub 0 cause
  { t with hub := { t.hub with fatal := true, ready := false } }

theorem deviceFatal_eq {s : State} (h : s.hub.fatal = false) (cause : BitVec 8) :
    exec (.deviceFatal cause) s = .next (s.deadDevice cause.toNat) := by
  show execDeviceFatal cause s = _
  simp only [execDeviceFatal, concludeEvent, State.deviceFatal, h, Bool.false_eq_true, ↓reduceIte, State.deadDevice]

theorem dropWork_resident (s : State) (p : Nat) : (s.dropWork.core p).resident = false := by
  show (tget Core.reset (s.cores.map fun e => (e.1, e.2.emptied)) p).resident = false
  rw [tget, tfind_map_value]
  cases tfind s.cores p <;> rfl

theorem deadDevice_parts (s : State) (cause : Nat) : (s.deadDevice cause).mem = s.mem ∧ (s.deadDevice cause).poison = s.poison ∧
    (s.deadDevice cause).launches = [] ∧ (s.deadDevice cause).sheaves = [] ∧ (s.deadDevice cause).locks = [] ∧
    (s.deadDevice cause).images = [] ∧ (s.deadDevice cause).cores = s.dropWork.cores := by
  obtain ⟨m, o, h⟩ := post_eq s.dropWork evDEVFATAL cause srcHub 0 cause
  rw [State.deadDevice, h]
  exact ⟨rfl, rfl, rfl, rfl, rfl, rfl, rfl⟩

theorem deadDevice_resident (s : State) (cause p : Nat) : ((s.deadDevice cause).core p).resident = false := by
  have hcore : (s.deadDevice cause).core p = s.dropWork.core p :=
    congrArg (tget Core.reset · p) (deadDevice_parts s cause).2.2.2.2.2.2
  rw [hcore, dropWork_resident]

theorem deadDevice_lastEvent (s : State) (cause : Nat) : (s.deadDevice cause).lastEvent evDEVFATAL cause srcHub 0 cause :=
  post_lastEvent s.dropWork evDEVFATAL cause srcHub 0 cause

end Sys2Proof.Machine
end

section
namespace Sys2Proof.Machine

/-! ### FENCECTL's two halves (R138, R139) -/

/-- A value of 32 bits has none of FENCECTL's must-be-zero bits. -/
theorem and_fencectlMbz {v : Nat} (h : v < 2 ^ 32) : v &&& fencectlMbz = 0 := by
  have hmask : fencectlMbz = (2 ^ 32 - 1) * 2 ^ 32 := rfl
  refine Nat.eq_of_testBit_eq fun i => ?_
  rw [hmask, Nat.testBit_and, Nat.testBit_mul_two_pow, Nat.zero_testBit]
  by_cases hi : i < 32
  · simp [Nat.not_le.2 hi]
  · have hv : v.testBit i = false := Nat.testBit_lt_two_pow (h.trans_le (Nat.pow_le_pow_right (by omega) (by omega)))
    simp [hv]

theorem checkMbz_fencectl {v : Nat} (h : v < 2 ^ 32) (s : State) (port target : Nat) :
    s.checkMbz port target v fencectlMbz = s := by rw [State.checkMbz, if_pos (and_fencectlMbz h)]

/-- A chiplet of FENCECTL's mask, fenced with CAUSE 0, its scan failing or not as a free value says. -/
def State.fenceDrawn (s : State) (c : Nat) : State := s.draw.chipletFatal c 0 (Config.scanFails s.freeSeed)

/-- The chiplets of a mask fence in ascending order. -/
theorem foldl_fenceField (v : W64) (s : State) :
    (List.range 16).foldl (fun s c => if (fenceField v.toNat).getLsbD c then s.fenceDrawn c else s) s =
      ((List.range 16).filter fun c => v.getLsbD c).foldl State.fenceDrawn s := by
  rw [← List.foldl_filter]
  congr 1
  refine List.filter_congr fun c hc => ?_
  rw [fenceField, BitVec.getLsbD_ofNat, BitVec.testBit_toNat, decide_eq_true (List.mem_range.1 hc), Bool.true_and]

theorem fenceField_ne_zero {v : Nat} (h : v % 2 ^ 16 ≠ 0) : fenceField v ≠ 0 := fun h0 =>
  h (by simpa [fenceField] using congrArg BitVec.toNat h0)

section
variable {s : State} {port : BitVec 1} {v : W64} (hl : s.portUp port.toNat = true)
include hl

theorem fencectlFence_owner (ho : s.ownerNow = port.toNat + 1) (hv : v.toNat % 2 ^ 16 ≠ 0) (hb : v.toNat < 2 ^ 32) :
    exec (.fencectlFence port v) s =
      .next (((List.range 16).filter fun c => v.getLsbD c).foldl State.fenceDrawn s).noteWaits := by
  show execFencectlFence port v s = _
  rw [← foldl_fenceField]
  simp only [execFencectlFence, concludePlacing, fenceField_ne_zero hv, byOwner_owner hl ho, checkMbz_fencectl hb,
    ↓reduceIte, State.fenceDrawn]

theorem fencectlFence_other (ho : s.ownerNow ≠ port.toNat + 1) (hv : v.toNat % 2 ^ 16 ≠ 0) :
    exec (.fencectlFence port v) s = .next (s.dropWrite port.toNat 0x2020).noteWaits := by
  show execFencectlFence port v s = _
  simp only [execFencectlFence, concludePlacing, fenceField_ne_zero hv, byOwner_other hl ho, ↓reduceIte]

/-- UNFENCE starts a bring-up of the fenced chiplets it names, whether FENCE was written beside it or not. -/
theorem unfence_owner (ho : s.ownerNow = port.toNat + 1) (hb : v.toNat < 2 ^ 32) : exec (.unfence port v) s =
    .next { s with hub := { s.hub with
      unfencing := s.hub.unfencing ||| (unfenceField v.toNat &&& s.hub.fencemask) } } := by
  show execUnfence port v s = _
  unfold execUnfence concludeEvent
  dsimp only
  by_cases h0 : unfenceField v.toNat = 0
  · have hnone : s.hub.unfencing ||| (0 &&& s.hub.fencemask) = s.hub.unfencing := by simp
    rw [if_pos h0, h0, hnone]
  rw [if_neg h0]
  by_cases hf : fenceField v.toNat = 0
  · rw [if_pos hf, byOwner_owner hl ho, checkMbz_fencectl hb]
  · rw [if_neg hf, if_pos (by simp [hl, ho])]

end

/-- The mask of one chiplet names that chiplet. -/
theorem filter_shiftLeft_one {chip : Nat} (h : chip < 16) :
    ((List.range 16).filter fun c => (1#64 <<< chip).getLsbD c) = [chip] := by
  have hall : ∀ n : Fin 16, ((List.range 16).filter fun c => (1#64 <<< n.val).getLsbD c) = [n.val] := by decide
  exact hall ⟨chip, h⟩

theorem toNat_shiftLeft_one {chip : Nat} (h : chip < 16) : (1#64 <<< chip).toNat = 2 ^ chip := by
  have hall : ∀ n : Fin 16, (1#64 <<< n.val).toNat = 2 ^ n.val := by decide
  exact hall ⟨chip, h⟩

theorem chipletFatal_exec {s : State} {chip : Nat} (h : chip < 16) (cause : BitVec 8) (b : Bool) :
    exec (.chipletFatal chip cause b) s = .next (s.chipletFatal chip cause.toNat b).noteWaits := by
  show execChipletFatal chip cause b s = _
  simp only [execChipletFatal, concludePlacing, Nat.not_le.2 h, ↓reduceIte]

/-! ### UNFENCE_COMPLETE (R138) -/

theorem identityRemap_fold (base : Nat) (l : List Nat) (s : State) {i : Nat} :
    (l.foldl (fun s i => s.setRemap (base + i) ⟨true, false, base + i⟩) s).remap (base + i) =
      if i ∈ l then ⟨true, false, base + i⟩ else s.remap (base + i) := by
  induction l generalizing s with
  | nil => rfl
  | cons j l ih =>
    rw [List.foldl_cons, ih]
    by_cases hl : i ∈ l
    · rw [if_pos hl, if_pos (List.mem_cons_of_mem _ hl)]
    · by_cases hj : i = j
      · rw [if_neg hl, hj, State.remap_setRemap_same, if_pos List.mem_cons_self]
      · rw [if_neg hl, remap_setRemap_other _ _ (by omega), if_neg (by simp [hl, hj])]

theorem identityRemap_remap (s : State) {chip i : Nat} (h : i < 256) :
    (s.identityRemap chip).remap (256 * chip + i) = ⟨true, false, 256 * chip + i⟩ := by
  rw [State.identityRemap, identityRemap_fold, if_pos (List.mem_range.2 h)]

theorem identityRemap_apartRemap (s : State) (chip : Nat) : (s.identityRemap chip).apartRemap = s.apartRemap := by
  unfold State.identityRemap
  generalize List.range 256 = l
  exact foldl_leaves State.apartRemap (fun s i => setRemap_apart s (256 * chip + i) _) l s

/-- A chiplet that starts is live, and its idle cores are those that are not hot. -/
theorem startChip_chip (s : State) (chip : Nat) : ((s.startChip chip).chip chip).live = true ∧
    ∀ p, p ∈ ((s.startChip chip).chip chip).fifo ↔ chipOf p = chip ∧ (s.core p).hot = false := by
  unfold State.startChip
  rw [State.chip_setChip_same]
  refine ⟨rfl, fun p => ?_⟩
  simp only [List.mem_filter, List.mem_map, List.mem_range, Bool.not_eq_true', chipOf]
  refine and_congr_left fun _ => ⟨?_, fun h => ⟨p % 256, Nat.mod_lt _ (by decide), by omega⟩⟩
  rintro ⟨i, hi, rfl⟩
  omega

/-- UNFENCING loses a chiplet whose bring-up is over. -/
def State.unfenced (s : State) (chip : Nat) : State :=
  { s with hub := { s.hub with unfencing := s.hub.unfencing &&& ~~~(1#16 <<< chip) } }

/-- A chiplet opens: its FIFO as at bring-up, its bits of the two masks. -/
def State.opened (s : State) (chip : Nat) : State :=
  let t := s.startChip chip
  { t with hub := { t.hub with
    livemask := t.hub.livemask ||| (1#16 <<< chip)
    fencemask := t.hub.fencemask &&& ~~~(1#16 <<< chip) } }

section
variable {s : State} {chip : Nat} (hc : chip < 16) (hu : s.hub.unfencing.getLsbD chip = true)
include hc hu

theorem unfenceComplete_passed : exec (.unfenceComplete chip true) s =
    .next (((s.unfenced chip).identityRemap chip).opened chip).noteWaits := by
  show execUnfenceComplete chip true s = _
  simp only [execUnfenceComplete, concludePlacing, Nat.not_le.2 hc, hu, decide_false, Bool.not_true, Bool.or_self,
    Bool.false_eq_true, ↓reduceIte, State.opened, State.unfenced]

theorem unfenceComplete_failed : exec (.unfenceComplete chip false) s = .next (s.unfenced chip).noteWaits := by
  show execUnfenceComplete chip false s = _
  simp only [execUnfenceComplete, concludePlacing, Nat.not_le.2 hc, hu, decide_false, Bool.not_true, Bool.or_self,
    Bool.not_false, Bool.false_eq_true, ↓reduceIte, State.unfenced]

end

theorem unfenced_unfencing (s : State) (chip : Nat) : (s.unfenced chip).hub.unfencing.getLsbD chip = false := by
  simp [State.unfenced]

theorem opened_leaves (s : State) (chip : Nat) : (s.opened chip).mem = s.mem ∧
    (s.opened chip).hub.unfencing = s.hub.unfencing ∧ ∀ n, (s.opened chip).remap n = s.remap n :=
  ⟨rfl, rfl, fun _ => rfl⟩

theorem opened_marks (s : State) {chip : Nat} (hc : chip < 16) : ((s.opened chip).chip chip).live = true ∧
    (s.opened chip).hub.livemask.getLsbD chip = true ∧ (s.opened chip).hub.fencemask.getLsbD chip = false ∧
    ∀ p, p ∈ ((s.opened chip).chip chip).fifo ↔ chipOf p = chip ∧ (s.core p).hot = false := by
  obtain ⟨hlive, hfifo⟩ := startChip_chip s chip
  refine ⟨hlive, ?_, ?_, hfifo⟩
  · show (_ ||| (1#16 <<< chip)).getLsbD chip = true
    simp [hc]
  · show (_ &&& ~~~(1#16 <<< chip)).getLsbD chip = false
    simp

theorem parts_of_apartRemap {s t : State} (h : t.apartRemap = s.apartRemap) : t.mem = s.mem ∧
    t.hub.unfencing = s.hub.unfencing ∧ ∀ p, t.core p = s.core p :=
  ⟨(congrArg State.mem h :), (congrArg (fun s : State => s.hub.unfencing) h :),
    fun p => (congrArg (fun s : State => s.core p) h :)⟩

/-- A chiplet that a bring-up gave its identity remap is open. -/
theorem opened_opens {s u : State} {chip : Nat} (hc : chip < 16) (hu : u.apartRemap = s.apartRemap)
    (hremap : ∀ i, i < 256 → u.remap (256 * chip + i) = ⟨true, false, 256 * chip + i⟩)
    (hunf : s.hub.unfencing.getLsbD chip = false) :
    let t := (u.opened chip).noteWaits
    t.mem = s.mem ∧ (t.chip chip).live = true ∧ t.hub.livemask.getLsbD chip = true ∧
      t.hub.fencemask.getLsbD chip = false ∧ t.hub.unfencing.getLsbD chip = false ∧
      (∀ i, i < 256 → t.remap (256 * chip + i) = ⟨true, false, 256 * chip + i⟩) ∧
      (∀ p, p ∈ (t.chip chip).fifo ↔ chipOf p = chip ∧ (s.core p).hot = false) := by
  obtain ⟨hmem, hunf', hcore⟩ := parts_of_apartRemap hu
  obtain ⟨homem, hounf, horemap⟩ := opened_leaves u chip
  obtain ⟨hlive, hmask, hfence, hfifo⟩ := opened_marks u hc
  refine ⟨homem.trans hmem, hlive, hmask, hfence, ?_, fun i hi => (horemap _).trans (hremap i hi), fun p => ?_⟩
  · rw [noteWaits_hub, hounf, hunf', hunf]
  · exact (hfifo p).trans (by rw [hcore])

/-- UNFENCE_COMPLETE of a chiplet whose bring-up passed. -/
theorem unfenceComplete_opens {s : State} {chip : Nat} (hc : chip < 16) (hu : s.hub.unfencing.getLsbD chip = true) :
    ∃ t : State, exec (.unfenceComplete chip true) s = .next t ∧ t.mem = s.mem ∧ (t.chip chip).live = true ∧
      t.hub.livemask.getLsbD chip = true ∧ t.hub.fencemask.getLsbD chip = false ∧
      t.hub.unfencing.getLsbD chip = false ∧
      (∀ i, i < 256 → t.remap (256 * chip + i) = ⟨true, false, 256 * chip + i⟩) ∧
      (∀ p, p ∈ (t.chip chip).fifo ↔ chipOf p = chip ∧ (s.core p).hot = false) :=
  ⟨_, unfenceComplete_passed hc hu, opened_opens (s := s.unfenced chip) hc (identityRemap_apartRemap ..)
    (fun _ hi => identityRemap_remap _ hi) (unfenced_unfencing s chip)⟩

/-- UNFENCE_COMPLETE of a chiplet whose bring-up failed. -/
theorem unfenceComplete_stays {s : State} {chip : Nat} (hc : chip < 16) (hu : s.hub.unfencing.getLsbD chip = true) :
    ∃ t : State, exec (.unfenceComplete chip false) s = .next t ∧ t.mem = s.mem ∧ t.chips = s.chips ∧
      t.hub.fencemask = s.hub.fencemask ∧ t.hub.unfencing.getLsbD chip = false :=
  ⟨_, unfenceComplete_failed hc hu, rfl, rfl, rfl, unfenced_unfencing s chip⟩

end Sys2Proof.Machine
end

section
namespace Sys2Proof.Machine

/-! ### What a fence takes on the way to it (R135, R139, R363, R423, R444)

Tasks end, writes in flight are dropped, teams, images and locks go, and positions are given back.  Through all of it a
launch keeps its members and how it ended, remap entries keep their places, and no core gets a team. -/

/-- The members of a launch, those it lost, and how it ended. -/
def Launch.membership (l : Launch) : BitVec 16 × BitVec 16 × Option (Nat × Nat × Nat) := (l.chips, l.lost, l.ended)

/-- From one state to another work has at most been taken away. -/
structure Stripping (s t : State) : Prop where
  launch : ∀ slot l, s.launch slot = some l → ∃ m, t.launch slot = some m ∧ m.membership = l.membership
  phys : ∀ l, (t.remap l).phys = (s.remap l).phys
  resident : ∀ p, (t.core p).resident = true → (s.core p).resident = true

theorem Stripping.refl (s : State) : Stripping s s := ⟨fun _ l h => ⟨l, h, rfl⟩, fun _ => rfl, fun _ h => h⟩

theorem Stripping.trans {s t u : State} (h : Stripping s t) (k : Stripping t u) : Stripping s u where
  launch slot l hl := by
    obtain ⟨m, hm, hlm⟩ := h.launch slot l hl
    obtain ⟨n, hn, hmn⟩ := k.launch slot m hm
    exact ⟨n, hn, hmn.trans hlm⟩
  phys l := (k.phys l).trans (h.phys l)
  resident p hp := h.resident p (k.resident p hp)

theorem Stripping.foldl {α : Type} {f : State → α → State} (h : ∀ s x, Stripping s (f s x)) (l : List α) (s : State) :
    Stripping s (l.foldl f s) := by
  induction l generalizing s with
  | nil => exact .refl s
  | cons x l ih => exact (h s x).trans (ih _)

theorem Stripping.not_resident {s t : State} (h : Stripping s t) {p : Nat} (hp : (s.core p).resident = false) :
    (t.core p).resident = false := by
  cases ht : (t.core p).resident with
  | false => rfl
  | true => exact absurd (h.resident p ht) (by simp [hp])

theorem Released.stripping {s t : State} (h : Released s t) : Stripping s t :=
  ⟨fun slot l hl => ⟨l, (h.launch slot).trans hl, rfl⟩, h.phys, h.resident⟩

/-- Launches, remap entries and the cores' teams stay as they are. -/
theorem Stripping.of_same {s t : State} (hl : t.launches = s.launches) (hr : t.hub.remap = s.hub.remap)
    (hc : ∀ p, (t.core p).resident = (s.core p).resident) : Stripping s t where
  launch slot l h := ⟨l, (congrArg (tget none · slot) hl).trans h, rfl⟩
  phys l := congrArg (fun t => ((tfind t l).getD ⟨true, false, l⟩ : Remap).phys) hr
  resident p h := (hc p).symm.trans h

theorem Stripping.of_besideSheaves {s t : State} (h : t.besideSheaves = s.besideSheaves) : Stripping s t :=
  .of_same (congrArg Beside.launches h :) (congrArg (fun b : Beside => b.hub.remap) h :) (resident_of_besideSheaves h)

theorem Stripping.of_beside {s t : State} (h : t.beside = s.beside) : Stripping s t :=
  .of_besideSheaves (besideSheaves_of_beside h)

/-! #### Tasks and writes in flight -/

theorem Stripping.endTask (s : State) (id task cause : Nat) : Stripping s (s.endTask id task cause) := by
  have hsheaves : ∀ (u : State) (l : List Sheaf), Released u { u with sheaves := l } :=
    fun u l => ⟨rfl, rfl, fun _ => rfl, fun _ h => h⟩
  refine Released.stripping ?_
  unfold State.endTask
  exact (hsheaves s _).trans ((Released.foldl (fun s (e : Nat × Core) => .dropTeam s e.1) _ _).trans
    ((Released.images ..).trans (.foldl (fun s (e : Nat × Core) => .unassign s e.1) _ _)))

theorem Stripping.advanceSheaf (s : State) (id : Nat) : Stripping s (s.advanceSheaf id) := by
  refine .of_besideSheaves ?_
  unfold State.advanceSheaf
  refine (sweepSheaves_besideSheaves _).trans ?_
  split
  · exact progress_besideSheaves ..
  · exact (passOn_besideSheaves ..).trans (progress_besideSheaves ..)

theorem Stripping.loseTasks (s : State) (chip : Nat) : Stripping s (s.loseTasks chip) :=
  .foldl (fun s (t : Nat × Nat) => (Stripping.endTask s t.1 t.2 0).trans (.advanceSheaf _ t.1)) _ s

theorem Stripping.redEntries (s : State) (l : List RedEntry) : Stripping s { s with redEntries := l } :=
  .of_same rfl rfl fun _ => rfl

theorem Stripping.dropFlights (s : State) (chip : Nat) : Stripping s (s.dropFlights chip) := by
  unfold State.dropFlights
  refine (Stripping.foldl (fun s y => ?_) _ s).trans ((Stripping.redEntries ..).trans (.foldl (fun s e => ?_) _ _))
  · exact .of_beside ((post_beside ..).trans (modCtx_beside ..))
  · exact .of_beside (post_beside ..)

/-! #### Teams, images and idle cores -/

theorem Stripping.returnPosition (s : State) (slot plot pos chip : Nat) :
    Stripping s (s.returnPosition slot plot pos chip) := by
  obtain ⟨-, hcores, hhub⟩ := returnPosition_leaves s slot plot pos chip
  refine ⟨fun n l h => ?_, fun l => ?_, fun p => ?_⟩
  · cases hs : s.launch slot with
    | none =>
      rw [State.returnPosition, hs]
      exact ⟨l, h, rfl⟩
    | some x =>
      rw [returnPosition_launch hs]
      by_cases hn : n = slot
      · subst hn
        rw [hs] at h
        cases h
        exact ⟨_, State.launch_setLaunch_same .., rfl⟩
      · exact ⟨l, (tget_tput_other _ _ _ _ _ hn).trans h, rfl⟩
  · rw [State.remap, hhub]
    rfl
  · rw [State.core, hcores]
    exact id

theorem Stripping.giveBack (s : State) (chip : Nat) (w : Work) (fresh : Bool) : Stripping s (s.giveBack chip w fresh) := by
  unfold State.giveBack
  split
  · exact .refl s
  split
  · exact .refl s
  split
  · exact .refl s
  split
  · split
    · exact .refl s
    · exact .returnPosition ..
  · split
    · exact .returnPosition ..
    · exact .refl s
  · exact .refl s
  · exact .returnPosition ..

/-- The cores of a chiplet lose all their work, with the owned words and the images of its teams. -/
def State.emptyChip (s : State) (chip : Nat) : State :=
  { s with
    cores := s.cores.map fun (e : Nat × Core) => (e.1, if chipOf e.1 == chip then e.2.emptied else e.2)
    owners := s.owners.filter fun (e : Nat × Nat) => chipOf e.2 != chip
    images := s.images.filter fun i => i.chip != chip }

theorem tfind_map_keyed {α β : Type} (f : Nat → α → β) (t : Table α) (n : Nat) :
    tfind (t.map fun e => (e.1, f e.1 e.2)) n = (tfind t n).map (f n) := by
  induction t with
  | nil => rfl
  | cons e t ih =>
    by_cases hk : e.1 = n
    · simp [tfind, hk]
    · simpa [tfind, hk] using ih

theorem emptyChip_resident (s : State) (chip p : Nat) :
    ((s.emptyChip chip).core p).resident = if chipOf p = chip then false else (s.core p).resident := by
  show (tget Core.reset (s.cores.map fun e => (e.1, if chipOf e.1 == chip then e.2.emptied else e.2)) p).resident = _
  rw [tget, tfind_map_keyed fun k (c : Core) => if chipOf k == chip then c.emptied else c, State.core, tget]
  by_cases hp : chipOf p = chip
  · cases tfind s.cores p <;> simp [hp, Core.emptied, Core.reset]
  · cases tfind s.cores p <;> simp [hp]

theorem Stripping.emptyChip (s : State) (chip : Nat) : Stripping s (s.emptyChip chip) where
  launch _ l h := ⟨l, h, rfl⟩
  phys _ := rfl
  resident p h := by
    rw [emptyChip_resident] at h
    split at h
    · cases h
    · exact h

/-- A fenced chiplet's work is lost: what could be given back is, and then its cores are emptied. -/
theorem loseWork_eq (s : State) (chip : Nat) : ∃ u, Stripping s u ∧ s.loseWork chip = u.emptyChip chip := by
  refine ⟨_, ?_, rfl⟩
  refine (Stripping.foldl (fun s (e : Nat × Core) => .giveBack ..) _ s).trans
    ((Stripping.foldl (fun s (e : Nat × Core) => ?_) _ _).trans (Released.stripping
      ((Released.foldl (fun s (e : Nat × Core) => .dropTeam s e.1) _ _).trans
        (.foldl (fun s (i : Image) => .of_besideLocks (releaseAll_besideLocks ..)) _ _))))
  split
  · split
    · exact .refl s
    · exact .giveBack ..
  · exact .refl s

theorem Stripping.loseWork (s : State) (chip : Nat) : Stripping s (s.loseWork chip) := by
  obtain ⟨u, hu, h⟩ := loseWork_eq s chip
  rw [h]
  exact hu.trans (.emptyChip u chip)

theorem loseWork_resident (s : State) {chip p : Nat} (h : chipOf p = chip) :
    ((s.loseWork chip).core p).resident = false := by
  obtain ⟨u, -, hu⟩ := loseWork_eq s chip
  rw [hu, emptyChip_resident, if_pos h]

/-! #### Locks, slices and remap entries -/

theorem fillLocks_locks (s : State) (team : Nat) (fills : List (Nat × Nat)) (w : W64) :
    (s.fillLocks team fills w).locks = s.locks := by
  unfold State.fillLocks
  split
  · rfl
  · refine foldl_leaves State.locks (fun s x => ?_) fills s
    exact (State.modCore_locks ..).trans (State.modCtx_locks ..)

theorem loseLocks_locks (s : State) (chip : Nat) :
    (s.loseLocks chip).locks = s.locks.filter fun e => e.name.home.1 != chip :=
  foldl_leaves State.locks (fun _ _ => fillLocks_locks ..) _ (s.dropLocks chip)

theorem Stripping.loseLocks (s : State) (chip : Nat) : Stripping s (s.loseLocks chip) := by
  have hdrop : Released s (s.dropLocks chip) := ⟨rfl, rfl, fun _ => rfl, fun _ h => h⟩
  exact Released.stripping (hdrop.trans (.foldl (fun s (w : Waiter) => .of_besideLocks (fillLocks_besideLocks ..)) _ _))

/-- What stands beside memory, and the locks. -/
def State.besideAndLocks (s : State) : Beside × List LockEntry := (s.beside, s.locks)

theorem post_locks (s : State) (ty cause source addr detail : Nat) : (s.post ty cause source addr detail).locks = s.locks := by
  obtain ⟨m, o, h⟩ := post_eq s ty cause source addr detail
  rw [h]
  rfl

theorem poisonSector_leaves (s : State) (pa : Nat) : (s.poisonSector pa).besideAndLocks = s.besideAndLocks := by
  unfold State.poisonSector
  split
  · rfl
  · refine Prod.ext (addPoison_beside ..) ?_
    show (s.addPoison pa).locks = s.locks
    unfold State.addPoison
    dsimp only
    split_ifs
    · rfl
    · rfl
    · exact post_locks ..

/-- Lost slices change memory, marks and poison. -/
theorem loseSlices_leaves (s : State) (chip : Nat) : (s.loseSlices chip).besideAndLocks = s.besideAndLocks := by
  unfold State.loseSlices State.loseTensors
  refine (foldl_leaves State.besideAndLocks (fun s b => poisonSector_leaves ..) _ _).trans
    ((foldl_leaves State.besideAndLocks (fun s e => ?_) _ _).trans (foldl_leaves State.besideAndLocks (fun s e => ?_) _ _))
  · rfl
  · rfl

theorem loseSlices_beside (s : State) (chip : Nat) : (s.loseSlices chip).beside = s.beside :=
  congrArg Prod.fst (loseSlices_leaves s chip)

theorem loseSlices_locks (s : State) (chip : Nat) : (s.loseSlices chip).locks = s.locks :=
  congrArg Prod.snd (loseSlices_leaves s chip)

end Sys2Proof.Machine
end

section
namespace Sys2Proof.Machine

/-- A remap entry stops being VALID where its place lies on a chiplet. -/
def State.clearEntry (chip : Nat) (s : State) (l : Nat) : State :=
  if chipOf (s.remap l).phys == chip then s.setRemap l { s.remap l with valid := false } else s

theorem clearRemap_eq (s : State) (chip : Nat) : s.clearRemap chip = (List.range 4096).foldl (State.clearEntry chip) s := rfl

theorem clearEntry_released (chip : Nat) (s : State) (l : Nat) : Released s (s.clearEntry chip l) := by
  unfold State.clearEntry
  split
  · exact .setRemap s l rfl
  · exact .refl s

theorem clearEntry_locks (chip : Nat) (s : State) (l : Nat) : (s.clearEntry chip l).locks = s.locks := by
  unfold State.clearEntry
  split <;> rfl

theorem clearEntry_keeps {chip l : Nat} {s : State} (h : (s.remap l).valid = false) (n : Nat) :
    ((s.clearEntry chip n).remap l).valid = false := by
  unfold State.clearEntry
  split
  · by_cases hl : l = n
    · rw [hl, State.remap_setRemap_same]
    · rwa [remap_setRemap_other _ _ hl]
  · exact h

theorem clearEntry_clears {chip l : Nat} {s : State} (h : chipOf (s.remap l).phys = chip) :
    ((s.clearEntry chip l).remap l).valid = false := by
  rw [State.clearEntry, if_pos (beq_iff_eq.2 h), State.remap_setRemap_same]

/-- The remap entries of a list whose places lie on a chiplet stop being VALID. -/
theorem clearEntries_valid {chip l : Nat} {ls : List Nat} {s : State} (h : l ∈ ls) (hp : chipOf (s.remap l).phys = chip) :
    ((ls.foldl (State.clearEntry chip) s).remap l).valid = false := by
  have hkeep : ∀ (ls : List Nat) (s : State), (s.remap l).valid = false →
      ((ls.foldl (State.clearEntry chip) s).remap l).valid = false := by
    intro ls s hs
    exact List.foldlRecOn (motive := fun t : State => (t.remap l).valid = false) ls _ hs
      fun t ht n _ => clearEntry_keeps ht n
  induction ls generalizing s with
  | nil => cases h
  | cons n ls ih =>
    rcases List.mem_cons.1 h with rfl | h
    · exact hkeep ls _ (clearEntry_clears hp)
    · exact ih h (by rw [(clearEntry_released chip s n).phys, hp])

theorem clearRemap_released (s : State) (chip : Nat) : Released s (s.clearRemap chip) := by
  rw [clearRemap_eq]
  exact .foldl (clearEntry_released chip) _ s

theorem clearRemap_locks (s : State) (chip : Nat) : (s.clearRemap chip).locks = s.locks := by
  rw [clearRemap_eq]
  exact foldl_leaves State.locks (clearEntry_locks chip) _ s

/-! #### All that a fence takes -/

theorem stripping_loseWork (s : State) (chip : Nat) :
    Stripping s (((s.loseTasks chip).dropFlights chip).loseWork chip) :=
  ((Stripping.loseTasks s chip).trans (.dropFlights _ chip)).trans (.loseWork _ chip)

theorem stripping_slices (s : State) (chip : Nat) : Stripping s ((s.loseLocks chip).loseSlices chip) :=
  (Stripping.loseLocks s chip).trans (.of_beside (loseSlices_beside ..))

/-- What a fence takes once the chiplet's work is lost. -/
theorem stripping_afterWork (s : State) (chip : Nat) : Stripping s (((s.loseLocks chip).loseSlices chip).clearRemap chip) :=
  (stripping_slices s chip).trans (clearRemap_released ..).stripping

theorem stripping_stripped (s : State) (chip : Nat) : Stripping s (s.stripped chip) :=
  (stripping_loseWork s chip).trans (stripping_afterWork ..)

theorem stripped_resident (s : State) {chip p : Nat} (h : chipOf p = chip) :
    ((s.stripped chip).core p).resident = false := (stripping_afterWork ..).not_resident (loseWork_resident _ h)

theorem afterWork_locks (s : State) (chip : Nat) : (((s.loseLocks chip).loseSlices chip).clearRemap chip).locks =
    s.locks.filter fun e => e.name.home.1 != chip := by rw [clearRemap_locks, loseSlices_locks, loseLocks_locks]

theorem stripped_locks (s : State) (chip : Nat) : ∀ e ∈ (s.stripped chip).locks, e.name.home.1 ≠ chip := by
  intro e he
  rw [State.stripped, afterWork_locks] at he
  simpa using (List.mem_filter.1 he).2

theorem stripped_remap (s : State) {chip l : Nat} (hl : l < 4096) (h : chipOf (s.remap l).phys = chip) :
    ((s.stripped chip).remap l).valid = false := by
  have hphys := ((stripping_loseWork s chip).trans (stripping_slices _ chip)).phys l
  rw [State.stripped, clearRemap_eq]
  exact clearEntries_valid (List.mem_range.2 hl) (by rw [hphys, h])

end Sys2Proof.Machine
end

section
namespace Sys2Proof.Machine

/-! ### CHIPLET_FATAL (R135, R137) -/

/-- A chiplet marked fenced, beside the work that was taken from it. -/
theorem fence_shuts (u : State) {chip : Nat} (cause : Nat) (hc : chip < 16) :
    let t := (u.shut chip).post evFENCE cause (srcChip chip) 0 chip
    (t.chip chip).live = false ∧ (t.chip chip).fifo = [] ∧ t.hub.fencemask.getLsbD chip = true ∧
      t.hub.livemask.getLsbD chip = false ∧ t.cores = u.cores ∧ t.locks = u.locks ∧ t.hub.remap = u.hub.remap ∧
      t.launches = u.launches.map fun e => (e.1, e.2.map fun l => l.fenced chip) := by
  obtain ⟨m, o, h⟩ := post_eq (u.shut chip) evFENCE cause (srcChip chip) 0 chip
  have hchip := State.chip_setChip_same u chip { u.chip chip with live := false, fifo := [], stlb := [], throttled := none }
  rw [h]
  refine ⟨congrArg Chip.live hchip, congrArg Chip.fifo hchip, ?_, ?_, rfl, rfl, rfl, rfl⟩
  · show (u.hub.fencemask ||| (1#16 <<< chip)).getLsbD chip = true
    simp [hc]
  · show (u.hub.livemask &&& ~~~(1#16 <<< chip)).getLsbD chip = false
    simp

/-- A running launch that loses a member elects, and owes that member's share. -/
theorem fenced_electing {l m : Launch} {chip : Nat} (hc : chip < 16) (hm : m.membership = l.membership)
    (hs : l.inS chip = true) (he : l.ended = none) : (m.fenced chip).electing = true ∧
      (m.fenced chip).toGlean.getLsbD chip = true ∧ (m.fenced chip).inS chip = false := by
  obtain ⟨hchips, hlost, hended⟩ : m.chips = l.chips ∧ m.lost = l.lost ∧ m.ended = l.ended := by
    simpa [Launch.membership] using hm
  have hin : m.inS chip = true := by rw [Launch.inS, hchips, hlost]; exact hs
  have hrun : m.ended.isNone = true := by rw [hended, he]; rfl
  unfold Launch.fenced
  rw [if_neg (by simp [hin])]
  dsimp only
  rw [if_pos hrun]
  exact ⟨rfl, by simp [hc], by simp [Launch.inS, hc]⟩

/-- A chiplet that is fenced: what stands of it, of what it homed, and of the launches it was a member of. -/
structure Fenced (s : State) (chip : Nat) (t : State) : Prop where
  live : (t.chip chip).live = false
  fifo : (t.chip chip).fifo = []
  fencemask : t.hub.fencemask.getLsbD chip = true
  livemask : t.hub.livemask.getLsbD chip = false
  resident : ∀ p, chipOf p = chip → (t.core p).resident = false
  locks : ∀ e, e ∈ t.locks → e.name.home.1 ≠ chip
  remap : ∀ l, l < 4096 → chipOf (s.remap l).phys = chip → (t.remap l).valid = false
  launch : ∀ slot l, s.launch slot = some l → l.inS chip = true → l.ended = none →
    ∃ m, t.launch slot = some m ∧ m.electing = true ∧ m.toGlean.getLsbD chip = true ∧ m.inS chip = false

theorem fence_fenced (s : State) {chip : Nat} (cause : Nat) (hc : chip < 16) : Fenced s chip (s.fence chip cause) := by
  obtain ⟨hlive, hfifo, hfence, hmask, hcores, hlocks, hremap, hlaunches⟩ := fence_shuts (s.stripped chip) cause hc
  rw [fence_eq]
  refine ⟨hlive, hfifo, hfence, hmask, fun p hp => ?_, fun e he => ?_, fun l hl hp => ?_, fun slot l hl hs he => ?_⟩
  · exact (congrArg (fun cs => (tget Core.reset cs p).resident) hcores).trans (stripped_resident s hp)
  · exact stripped_locks s chip e (hlocks ▸ he)
  · exact (congrArg (fun t => ((tfind t l).getD ⟨true, false, l⟩ : Remap).valid) hremap).trans (stripped_remap s hl hp)
  · obtain ⟨m, hm, hmem⟩ := (stripping_stripped s chip).launch slot l hl
    refine ⟨m.fenced chip, ?_, fenced_electing hc hmem hs he⟩
    rw [State.launch, tget, hlaunches, tfind_map_value]
    rw [State.launch, tget] at hm
    cases hx : tfind (s.stripped chip).launches slot with
    | none => simp [hx] at hm
    | some x =>
      obtain rfl : x = some m := by simpa [hx] using hm
      rfl

theorem Fenced.noteWaits {s t : State} {chip : Nat} (h : Fenced s chip t) : Fenced s chip t.noteWaits := by
  refine ⟨h.live, h.fifo, h.fencemask, h.livemask, h.resident, h.locks, h.remap, fun slot l hl hs he => ?_⟩
  obtain ⟨m, hm, hel, hgl, hin⟩ := h.launch slot l hl hs he
  obtain ⟨w, a, hn⟩ := noteWaits_launch_some hm
  exact ⟨_, hn, hel, hgl, hin⟩

/-- A state without its records of poison. -/
def State.apartPoison (s : State) : State := { s with poison := [] }

/-- Quarantined frames beyond a stack's list are forgotten, and nothing else. -/
theorem capFrames_leaves (s : State) (chip : Nat) : (s.capFrames chip).apartPoison = s.apartPoison :=
  foldl_leaves State.apartPoison (fun s k => by split <;> rfl) _ s

theorem Fenced.of_apartPoison {s u t : State} {chip : Nat} (hp : u.apartPoison = s.apartPoison) (h : Fenced u chip t) :
    Fenced s chip t := by
  have hlaunch : ∀ slot, u.launch slot = s.launch slot := fun slot => (congrArg (fun s : State => s.launch slot) hp :)
  have hremap : ∀ l, u.remap l = s.remap l := fun l => (congrArg (fun s : State => s.remap l) hp :)
  exact ⟨h.live, h.fifo, h.fencemask, h.livemask, h.resident, h.locks,
    fun l hl hp => h.remap l hl (by rw [hremap, hp]), fun slot l hl => h.launch slot l (by rw [hlaunch, hl])⟩

theorem noteWaits_lastEvent {s : State} {ty cause source addr detail : Nat} (h : s.lastEvent ty cause source addr detail) :
    s.noteWaits.lastEvent ty cause source addr detail := h

/-- CHIPLET_FATAL of a live chiplet beside another one fences it. -/
theorem chipletFatal_fences {s : State} {chip : Nat} (cause : BitVec 8) (hc : chip < 16) (hf : s.hub.fatal = false)
    (hl : (s.chip chip).live = true) (ho : ∃ c, c < 16 ∧ c ≠ chip ∧ (s.chip c).live = true) :
    ∃ t : State, exec (.chipletFatal chip cause false) s = .next t ∧ Fenced s chip t ∧
      t.lastEvent evFENCE cause.toNat (srcChip chip) 0 chip := by
  have hnext := chipletFatal_exec (s := s) hc cause false
  rw [chipletFatal_live cause.toNat false hf hl ho, if_neg Bool.false_ne_true] at hnext
  have hevent : ((s.capFrames chip).fence chip cause.toNat).lastEvent evFENCE cause.toNat (srcChip chip) 0 chip := by
    rw [fence_eq]
    exact post_lastEvent ..
  exact ⟨_, hnext, (fence_fenced _ cause.toNat hc).noteWaits.of_apartPoison (capFrames_leaves s chip),
    noteWaits_lastEvent hevent⟩

end Sys2Proof.Machine
end

section
namespace Sys2Proof.Machine

/-! ### Positions dealt over members (R118, R137) -/

theorem insertNat_perm (x : Nat) (l : List Nat) : (insertNat x l).Perm (x :: l) := by
  induction l with
  | nil => exact .refl _
  | cons y l ih =>
    rw [insertNat]
    split
    · exact .refl _
    · exact (ih.cons y).trans (.swap x y l)

theorem sortNats_perm (l : List Nat) : (sortNats l).Perm l := by
  induction l with
  | nil => exact .refl _
  | cons x l ih => exact (insertNat_perm x (sortNats l)).trans (ih.cons x)

/-- The shares of consecutive members follow each other in the list. -/
theorem flatMap_segments {α : Type} (l : List α) {f : Nat → Nat} (h0 : f 0 = 0) (hf : ∀ j, f j ≤ f (j + 1)) (k : Nat) :
    (List.range k).flatMap (fun j => (l.drop (f j)).take (f (j + 1) - f j)) = l.take (f k) := by
  induction k with
  | zero => simp [h0]
  | succ k ih =>
    rw [List.range_succ, List.flatMap_append, ih, List.flatMap_singleton, ← List.take_add,
      Nat.add_sub_cancel' (hf k)]

/-- A list sorted into classes by a number keeps its members. -/
theorem flatMap_classes_perm {α : Type} (l : List α) (f : α → Nat) (k : Nat) :
    ((List.range k).flatMap fun j => l.filter fun x => f x == j).Perm (l.filter fun x => f x < k) := by
  induction k with
  | zero => simp
  | succ k ih =>
    have hlow : (l.filter fun x => f x < k + 1).filter (fun x => f x < k) = l.filter fun x => f x < k := by
      rw [List.filter_filter]
      exact List.filter_congr fun x _ => by simp; omega
    have hlast : (l.filter fun x => f x < k + 1).filter (fun x => !decide (f x < k)) = l.filter fun x => f x == k := by
      rw [List.filter_filter]
      exact List.filter_congr fun x _ => by
        rw [Bool.eq_iff_iff]
        simp
        omega
    have hsplit := List.filter_append_perm (fun x => decide (f x < k)) (l.filter fun x => f x < k + 1)
    rw [hlow, hlast] at hsplit
    rw [List.range_succ, List.flatMap_append, List.flatMap_singleton]
    exact (ih.append_right _).trans hsplit

/-- The share of the j-th of c members. -/
def dealtShare (r : Rec) (ps : List Nat) (c j : Nat) : List Nat :=
  if launchWalk r == 3 then (ps.zipIdx.filter fun e => e.2 % c == j).map Prod.fst
  else (ps.drop (j * ps.length / c)).take ((j + 1) * ps.length / c - j * ps.length / c)

theorem dealPositions_eq (r : Rec) (ps cs : List Nat) : dealPositions r ps cs =
    ((cs.zipIdx).map fun e => Range.mk e.1 0 1 0 (dealtShare r ps cs.length e.2)).filter Range.more := by
  unfold dealPositions dealtShare
  dsimp only
  congr 2
  funext e
  split <;> rfl

theorem dealtShares_perm (r : Rec) (ps : List Nat) {c : Nat} (hc : 0 < c) :
    ((List.range c).flatMap (dealtShare r ps c)).Perm ps := by
  unfold dealtShare
  split
  · have hclasses := (flatMap_classes_perm ps.zipIdx (fun e => e.2 % c) c).map Prod.fst
    rw [List.map_flatMap, List.filter_eq_self.2 fun e _ => by simpa using Nat.mod_lt _ hc, List.zipIdx_map_fst] at hclasses
    exact hclasses
  · rw [flatMap_segments ps (f := fun j => j * ps.length / c) (by simp)
      (fun j => Nat.div_le_div_right (Nat.mul_le_mul_right _ (Nat.le_succ j))) c]
    rw [Nat.mul_div_cancel_left _ hc, List.take_length]

theorem positions_of_not_more {r : Range} (h : r.more = false) : r.positions = [] := by
  obtain ⟨hcount, hret⟩ : r.count = 0 ∧ r.returned = [] := by simpa [Range.more] using h
  simp [Range.positions, hcount, hret]

theorem flatMap_positions_more (l : List Range) :
    (l.filter Range.more).flatMap Range.positions = l.flatMap Range.positions := by
  induction l with
  | nil => rfl
  | cons r l ih =>
    cases h : r.more with
    | true => rw [List.filter_cons_of_pos h, List.flatMap_cons, List.flatMap_cons, ih]
    | false => rw [List.filter_cons_of_neg (by simp [h]), List.flatMap_cons, positions_of_not_more h, ih, List.nil_append]

/-- Dealing over at least one member loses no position. -/
theorem dealPositions_perm (r : Rec) (ps : List Nat) {cs : List Nat} (h : cs ≠ []) :
    ((dealPositions r ps cs).flatMap Range.positions).Perm ps := by
  have hshares : ((cs.zipIdx).map fun e => Range.mk e.1 0 1 0 (dealtShare r ps cs.length e.2)).flatMap Range.positions =
      (List.range cs.length).flatMap (dealtShare r ps cs.length) := by
    rw [List.range_eq_range', ← List.zipIdx_map_snd 0 cs, List.flatMap_map, List.flatMap_map]
    simp [Range.positions]
  rw [dealPositions_eq, flatMap_positions_more, hshares]
  exact dealtShares_perm r ps (List.length_pos_iff.2 h)

theorem dealPositions_chip {r : Rec} {ps cs : List Nat} {x : Range} (h : x ∈ dealPositions r ps cs) : x.chip ∈ cs := by
  rw [dealPositions_eq] at h
  obtain ⟨e, he, rfl⟩ := List.mem_map.1 (List.mem_filter.1 h).1
  exact List.fst_mem_of_mem_zipIdx he

end Sys2Proof.Machine
end

section
namespace Sys2Proof.Machine

/-! ### GLEANER (R135 to R138) -/

/-- The log notes a plot returned. -/
def returnLog (t : Table PlotState) (plot : Nat) : Table PlotState :=
  match (tfind t plot).bind PlotState.age with
  | some a => tput t plot (.returned a)
  | none => t

theorem returnLog_keeps {t : Table PlotState} {plot a : Nat} (h : tfind t plot = some (.returned a)) (n : Nat) :
    tfind (returnLog t n) plot = some (.returned a) := by
  unfold returnLog
  by_cases hn : plot = n
  · subst hn
    rw [h]
    exact tfind_tput_same ..
  · split
    · rw [tfind_tput_other _ _ _ _ hn, h]
    · exact h

theorem returnLog_started {t : Table PlotState} {plot a c : Nat} (h : tfind t plot = some (.started a c)) (n : Nat) :
    tfind (returnLog t n) plot = some (if plot = n then .returned a else .started a c) := by
  unfold returnLog
  by_cases hn : plot = n
  · subst hn
    rw [h, if_pos rfl]
    exact tfind_tput_same ..
  · rw [if_neg hn]
    split
    · rw [tfind_tput_other _ _ _ _ hn, h]
    · exact h

/-- A started plot among those that return is noted returned, with its age. -/
theorem returnLogs_started {t : Table PlotState} {l : List Nat} {plot a c : Nat} (hl : plot ∈ l)
    (h : tfind t plot = some (.started a c)) : tfind (l.foldl returnLog t) plot = some (.returned a) := by
  induction l generalizing t with
  | nil => cases hl
  | cons n l ih =>
    have hstep := returnLog_started h n
    by_cases hn : plot = n
    · rw [if_pos hn] at hstep
      exact List.foldlRecOn (motive := fun t => tfind t plot = some (PlotState.returned a)) l returnLog hstep
        fun _ ht m _ => returnLog_keeps ht m
    · rw [if_neg hn] at hstep
      exact ih ((List.mem_cons.1 hl).resolve_left hn) hstep

/-- The plots that the log has on a chiplet. -/
def Launch.plotsOn (l : Launch) (chip : Nat) : List Nat :=
  l.log.filterMap fun e => if e.2.chip == some chip then some e.1 else none

theorem plotsOn_started {l : Launch} {plot a c : Nat} (h : tfind l.log plot = some (.started a c)) :
    plot ∈ l.plotsOn (chipOf c) :=
  List.mem_filterMap.2 ⟨_, mem_of_tfind h, by simp [PlotState.chip]⟩

/-- A launch whose share on a chiplet the Gleaner takes up. -/
def Launch.gleaning (l : Launch) (chip : Nat) : Launch := { l with toGlean := l.toGlean &&& ~~~(1#16 <<< chip) }

/-- A launch whose share on a chiplet is dealt to other members. -/
def Launch.gleaned (l : Launch) (chip : Nat) (cs : List Nat) : Launch :=
  { l.gleaning chip with
    log := (l.plotsOn chip).foldl returnLog l.log
    ranges := (l.ranges.filter fun r => r.chip != chip) ++
      dealPositions l.record (sortNats ((l.ranges.filter fun r => r.chip == chip).flatMap Range.positions)) cs }

theorem gleaned_positions (l : Launch) (chip : Nat) {cs : List Nat} (h : cs ≠ []) :
    ((l.gleaned chip cs).ranges.flatMap Range.positions).Perm (l.ranges.flatMap Range.positions) := by
  have hdealt := (dealPositions_perm l.record (sortNats ((l.ranges.filter fun r => r.chip == chip).flatMap
    Range.positions)) h).trans (sortNats_perm _)
  have hsplit := (List.filter_append_perm (fun r : Range => r.chip == chip) l.ranges).flatMap_right Range.positions
  rw [List.flatMap_append] at hsplit
  show ((_ ++ _ : List Range).flatMap Range.positions).Perm _
  rw [List.flatMap_append]
  exact (hdealt.append_left _).trans (List.perm_append_comm.trans hsplit)

theorem gleaned_chip {l : Launch} {chip : Nat} {cs : List Nat} (h : chip ∉ cs) {r : Range}
    (hr : r ∈ (l.gleaned chip cs).ranges) : r.chip ≠ chip := by
  rcases List.mem_append.1 hr with hr | hr
  · simpa using (List.mem_filter.1 hr).2
  · exact fun hc => h (hc ▸ dealPositions_chip hr)

/-- One launch's share of a chiplet is to be dealt anew. -/
def Launch.awaitsGleaner (chip : Nat) (l : Launch) : Bool := l.toGlean.getLsbD chip && !l.electing && l.ended.isNone

/-- The Gleaner's work for a table entry. -/
def State.gleanEntry (chip : Nat) (s : State) (e : Nat × Option Launch) : State :=
  match e.2 with
  | some l => s.glean chip e.1 l
  | none => s

theorem gleaner_eq (chip : Nat) (s : State) : exec (.gleaner chip) s =
    .next ((s.launches.filter fun e => e.2.any (Launch.awaitsGleaner chip)).foldl (State.gleanEntry chip) s).noteWaits := by
  show execGleaner chip s = _
  unfold execGleaner concludePlacing
  rw [List.foldl_filter]
  refine congrArg (fun f => Host.Outcome.next (s.launches.foldl f s).noteWaits) (funext fun u => funext fun e => ?_)
  obtain ⟨n, o⟩ := e
  cases o <;> rfl

section
variable {s : State} {chip slot : Nat} {l : Launch}

theorem gleaner_one (h : (s.launches.filter fun e => e.2.any (Launch.awaitsGleaner chip)) = [(slot, some l)]) :
    exec (.gleaner chip) s = .next (s.glean chip slot l).noteWaits := by
  rw [gleaner_eq, h]
  rfl

theorem ended_of_awaitsGleaner (h : (s.launches.filter fun e => e.2.any (Launch.awaitsGleaner chip)) = [(slot, some l)]) :
    l.ended = none := by
  have hmem : (slot, some l) ∈ s.launches.filter fun e => e.2.any (Launch.awaitsGleaner chip) := by
    rw [h]
    exact List.mem_singleton_self _
  have hl : l.awaitsGleaner chip = true := (List.mem_filter.1 hmem).2
  simp only [Launch.awaitsGleaner, Bool.and_eq_true, Option.isNone_iff_eq_none] at hl
  exact hl.2

theorem glean_lost {plot : Nat} (h : l.lostPlot chip = some plot) :
    s.glean chip slot l = (s.setLaunch slot (some (l.gleaning chip))).faultLaunch slot 0 plot := by
  unfold State.glean
  dsimp only
  split
  case h_1 n hn =>
    obtain rfl : n = plot := Option.some.inj (hn.symm.trans h)
    rfl
  case h_2 hn => cases hn.symm.trans h

theorem glean_deals (h : l.lostPlot chip = none) (hp : launchPersist l.record = false) (hs : s.survivors l ≠ []) :
    s.glean chip slot l = (s.setLaunch slot (some (l.gleaning chip))).setLaunch slot
      (some (l.gleaned chip (s.survivors l))) := by
  unfold State.glean
  dsimp only
  split
  case h_1 hn => cases hn.symm.trans h
  case h_2 =>
    refine (if_neg (mt List.isEmpty_iff.1 hs)).trans ?_
    simp only [hp, Bool.false_eq_true, ↓reduceIte]
    rfl

end

end Sys2Proof.Machine
end

section
namespace Sys2Proof.Machine

section
variable {s : State} {chip slot : Nat} {l : Launch}

/-- The Gleaner ends a launch FAULT for a plot that it may not reissue. -/
theorem gleaner_faults {plot : Nat}
    (h : (s.launches.filter fun e => e.2.any (Launch.awaitsGleaner chip)) = [(slot, some l)])
    (hp : l.lostPlot chip = some plot) : ∃ (t : State) (m : Launch), exec (.gleaner chip) s = .next t ∧
      t.launch slot = some m ∧ m.ended = some (3, 0, plot % 2 ^ 24) := by
  have hl : (s.setLaunch slot (some (l.gleaning chip))).launch slot = some (l.gleaning chip) :=
    State.launch_setLaunch_same ..
  obtain ⟨w, a, hn⟩ := noteWaits_launch_some (faultLaunch_launch hl 0 plot)
  have hnext := gleaner_one h
  have hend : l.ended = none := ended_of_awaitsGleaner h
  rw [glean_lost hp] at hnext
  exact ⟨_, _, hnext, hn, Launch.faulted_ended (l := l.gleaning chip) hend 0 plot⟩

/-- The Gleaner deals a lost share to the members that live. -/
theorem gleaner_deals (h : (s.launches.filter fun e => e.2.any (Launch.awaitsGleaner chip)) = [(slot, some l)])
    (hp : l.lostPlot chip = none) (hr : launchPersist l.record = false) (hs : s.survivors l ≠ []) :
    ∃ (t : State) (w a : Table Nat), exec (.gleaner chip) s = .next t ∧ t.mem = s.mem ∧
      t.launch slot = some { l.gleaned chip (s.survivors l) with waitSince := w, asked := a } := by
  have hl := State.launch_setLaunch_same (s.setLaunch slot (some (l.gleaning chip))) slot
    (some (l.gleaned chip (s.survivors l)))
  obtain ⟨w, a, hn⟩ := noteWaits_launch_some hl
  have hnext := gleaner_one h
  rw [glean_deals hp hr hs] at hnext
  exact ⟨_, w, a, hnext, rfl, hn⟩

theorem mem_survivors {c : Nat} : c ∈ s.survivors l ↔ c < 16 ∧ l.inS c = true ∧ (s.chip c).live = true := by
  simp [State.survivors]

end

/-! ### FENCECTL for one chiplet (R139) -/

theorem fencectlFence_single {s : State} {port : BitVec 1} {chip : Nat} (hc : chip < 16)
    (hl : s.portUp port.toNat = true) (ho : s.ownerNow = port.toNat + 1) :
    exec (.fencectlFence port (1#64 <<< chip)) s = .next (s.fenceDrawn chip).noteWaits := by
  have hpow : 2 ^ chip < 2 ^ 16 := Nat.pow_lt_pow_right (by decide) hc
  have hv := toNat_shiftLeft_one hc
  have hnext := fencectlFence_owner (v := 1#64 <<< chip) hl ho
    (by rw [hv, Nat.mod_eq_of_lt hpow]; exact (Nat.two_pow_pos chip).ne') (by rw [hv]; omega)
  rwa [filter_shiftLeft_one hc, List.foldl_cons, List.foldl_nil] at hnext

theorem fenceDrawn_exec (s : State) {chip : Nat} (hc : chip < 16) :
    exec (.chipletFatal chip 0 (Config.scanFails s.freeSeed)) s.draw = .next (s.fenceDrawn chip).noteWaits := by
  have h0 : (0 : BitVec 8).toNat = 0 := rfl
  rw [chipletFatal_exec hc, h0, State.fenceDrawn]

/-! ### ELECTION (R120) -/

/-- A launch with its roles settled. -/
def Launch.elected (l : Launch) (cs : List Nat) : Launch :=
  { l with electing := false, master := cs.headD l.master, deputy := cs[1]? }

section
variable {s : State} {slot : Nat} {l : Launch} (hl : s.launch slot = some l) (he : l.electing = true)
include hl he

theorem election_elects (h : (l.inS l.master && (s.chip l.master).live) = true ∨
    ∃ d, l.deputy = some d ∧ (l.inS d && (s.chip d).live) = true) : exec (.election slot) s =
      .next ((s.setLaunch slot (some (l.elected (s.survivors l)))).post evELECT 0 srcHub 0
        (slot * 2 ^ 32 + (l.elected (s.survivors l)).master)).noteWaits := by
  show execElection slot s = _
  unfold execElection concludePlacing
  simp only [hl, he, Bool.not_true, Bool.false_eq_true, ↓reduceIte]
  rw [if_neg]
  · rfl
  · rcases h with h | ⟨d, hd, h⟩
    · rw [← Bool.not_and, h]
      simp
    · rw [hd]
      dsimp only
      rw [← Bool.not_and, ← Bool.not_and, h]
      simp

theorem election_fails (hm : (l.inS l.master && (s.chip l.master).live) = false)
    (hd : ∀ d, l.deputy = some d → (l.inS d && (s.chip d).live) = false) : exec (.election slot) s =
      .next ((s.setLaunch slot (some { l with electing := false })).faultLaunch slot 0 0).noteWaits := by
  show execElection slot s = _
  unfold execElection concludePlacing
  simp only [hl, he, Bool.not_true, Bool.false_eq_true, ↓reduceIte]
  rw [if_pos]
  rw [← Bool.not_and, hm]
  cases hdep : l.deputy with
  | none => rfl
  | some d =>
    dsimp only
    rw [← Bool.not_and, hd d hdep]
    rfl

/-- An election that finds a role alive takes the lowest members, and logs it. -/
theorem election_settles (h : (l.inS l.master && (s.chip l.master).live) = true ∨
    ∃ d, l.deputy = some d ∧ (l.inS d && (s.chip d).live) = true) : ∃ (t : State) (w a : Table Nat),
      exec (.election slot) s = .next t ∧ t.mem = s.mem ∧
      t.launch slot = some { l.elected (s.survivors l) with waitSince := w, asked := a } ∧
      t.lastEvent evELECT 0 srcHub 0 (slot * 2 ^ 32 + (l.elected (s.survivors l)).master) := by
  have hnext := election_elects hl he h
  generalize l.elected (s.survivors l) = m at hnext
  have hpost : ((s.setLaunch slot (some m)).post evELECT 0 srcHub 0 (slot * 2 ^ 32 + m.master)).launch slot = some m := by
    rw [State.launch, launches_of_beside (post_beside ..)]
    exact State.launch_setLaunch_same ..
  have hmem : ((s.setLaunch slot (some m)).post evELECT 0 srcHub 0 (slot * 2 ^ 32 + m.master)).mem = s.mem := by
    obtain ⟨o, b, hp⟩ := post_eq (s.setLaunch slot (some m)) evELECT 0 srcHub 0 (slot * 2 ^ 32 + m.master)
    rw [hp]
    rfl
  obtain ⟨w, a, hn⟩ := noteWaits_launch_some hpost
  exact ⟨_, w, a, hnext, hmem, hn, noteWaits_lastEvent (post_lastEvent ..)⟩

/-- An election that finds both roles lost ends the launch FAULT. -/
theorem election_faults (hm : (l.inS l.master && (s.chip l.master).live) = false)
    (hd : ∀ d, l.deputy = some d → (l.inS d && (s.chip d).live) = false) (hend : l.ended = none) :
    ∃ (t : State) (m : Launch), exec (.election slot) s = .next t ∧ t.launch slot = some m ∧ m.electing = false ∧
      m.ended = some (3, 0, 0) := by
  have hset : (s.setLaunch slot (some { l with electing := false })).launch slot = some { l with electing := false } :=
    State.launch_setLaunch_same ..
  obtain ⟨w, a, hn⟩ := noteWaits_launch_some (faultLaunch_launch hset 0 0)
  have hended := Launch.faulted_ended (l := { l with electing := false }) hend 0 0
  exact ⟨_, _, election_fails hl he hm hd, hn, rfl, hended⟩

end

end Sys2Proof.Machine
end

section
namespace Sys2Proof.Laws
open Machine

/-- Settles O52: each operation's equation, then what the state it leaves shows. -/
theorem fencingRuns : Obligations.FencingRuns := by
  unfold Obligations.FencingRuns
  refine ⟨?_, ?_, ?_, ?_, ?_, ?_, ?_, ?_⟩
  · intro s cause hf
    obtain ⟨hmem, hpoison, hlaunches, hsheaves, hlocks, himages, -⟩ := deadDevice_parts s cause.toNat
    exact ⟨_, deviceFatal_eq hf cause, hmem, hpoison, rfl, rfl, hlaunches, hsheaves, hlocks, himages,
      deadDevice_resident s cause.toNat, deadDevice_lastEvent s cause.toNat⟩
  · intro s chip cause hc hf hl ho
    obtain ⟨t, hnext, ht, hevent⟩ := chipletFatal_fences cause hc hf hl ho
    exact ⟨t, hnext, ht.live, ht.fifo, ht.fencemask, ht.livemask, ht.resident, ht.locks, ht.remap, ht.launch, hevent⟩
  · intro s port chip hc hl ho
    exact ⟨_, fencectlFence_single hc hl ho, fenceDrawn_exec s hc⟩
  · intro s port v hv hl
    refine ⟨fun ho hb => fencectlFence_owner hl ho hv hb, fun ho => ?_⟩
    obtain ⟨n, r, hdrop⟩ := dropWrite_eq s port.toNat 0x2020
    refine ⟨_, fencectlFence_other hl ho hv, ?_, ?_, ?_, noteWaits_lastEvent (dropWrite_lastEvent ..)⟩
    · exact (congrArg State.mem hdrop :)
    · exact (congrArg State.chips hdrop :)
    · exact (congrArg (fun s : State => s.hub.fencemask) hdrop :)
  · intro s port v hl ho hb
    exact unfence_owner hl ho hb
  · intro s chip hc hu
    exact ⟨unfenceComplete_opens hc hu, unfenceComplete_stays hc hu⟩
  · intro s slot l hl he here cs
    refine ⟨fun h => ?_, fun hm hd hend => election_faults hl he hm hd hend⟩
    obtain ⟨t, w, a, hnext, hmem, ht, hevent⟩ := election_settles hl he h
    exact ⟨t, _, hnext, hmem, ht, rfl, rfl, rfl, rfl, hevent⟩
  · intro s chip slot l hl hone
    refine ⟨fun plot hp => gleaner_faults hone hp, fun hp hr hdead hs => ?_⟩
    obtain ⟨c, hc⟩ := hs
    have hne : s.survivors l ≠ [] := List.ne_nil_of_mem (mem_survivors.2 hc)
    have hout : chip ∉ s.survivors l := fun h => by
      obtain ⟨-, hin, hlive⟩ := mem_survivors.1 h
      simp [hin, hlive] at hdead
    obtain ⟨t, w, a, hnext, hmem, ht⟩ := gleaner_deals hone hp hr hne
    have hend : l.ended = none := ended_of_awaitsGleaner hone
    refine ⟨t, _, hnext, hmem, ht, hend, ?_, fun r => gleaned_chip hout,
      gleaned_positions l chip hne, fun plot b c h hb => ?_⟩
    · show (l.toGlean &&& ~~~(1#16 <<< chip)).getLsbD chip = false
      simp
    · subst hb
      exact returnLogs_started (plotsOn_started h) h

end Sys2Proof.Laws
end

/-! SUPPORT. Proofs about fetching and encoding: the round trip of syllables, the operands and results of the scalar
syllables, transfers, memory syllables at issue, and how a step issues a stream syllable or a bundle. -/

section
namespace Sys2Proof.Laws

/-! ### The round trip of the encoding (R147, R153, R169 to R176) -/

/-- The fields of every instruction parse back to it; a step of the device is not well formed. -/
theorem roundTrip : ∀ i : Instr, RoundTrip.Statement i
  | .nop => RoundTrip.nop | .add d a b => RoundTrip.add d a b | .sub d a b => RoundTrip.sub d a b
  | .and d a b => RoundTrip.and d a b | .or d a b => RoundTrip.or d a b | .xor d a b => RoundTrip.xor d a b
  | .andn d a b => RoundTrip.andn d a b | .shl d a b => RoundTrip.shl d a b | .shr d a b => RoundTrip.shr d a b
  | .sar d a b => RoundTrip.sar d a b | .rol d a b => RoundTrip.rol d a b | .min d a b => RoundTrip.min d a b
  | .minn d a b => RoundTrip.minn d a b | .max d a b => RoundTrip.max d a b | .maxn d a b => RoundTrip.maxn d a b
  | .mul d a b => RoundTrip.mul d a b | .mulh d a b => RoundTrip.mulh d a b | .mulhn d a b => RoundTrip.mulhn d a b
  | .div d a b => RoundTrip.div d a b | .divn d a b => RoundTrip.divn d a b | .rem d a b => RoundTrip.rem d a b
  | .remn d a b => RoundTrip.remn d a b | .mov d a => RoundTrip.mov d a | .abs d a => RoundTrip.abs d a
  | .clz d a => RoundTrip.clz d a | .ctz d a => RoundTrip.ctz d a | .popc d a => RoundTrip.popc d a
  | .sel d a b neg p => RoundTrip.sel d a b neg p | .lea d a b shift => RoundTrip.lea d a b shift
  | .cmp cc pd a b => RoundTrip.cmp cc pd a b | .cmpi cc pd a imm => RoundTrip.cmpi cc pd a imm
  | .addi d a imm => RoundTrip.addi d a imm | .andi d a imm => RoundTrip.andi d a imm
  | .ori d a imm => RoundTrip.ori d a imm | .xori d a imm => RoundTrip.xori d a imm
  | .shli d a n => RoundTrip.shli d a n | .shri d a n => RoundTrip.shri d a n | .sari d a n => RoundTrip.sari d a n
  | .li d imm => RoundTrip.li d imm | .lih d a imm => RoundTrip.lih d a imm
  | .pand pd pa pb => RoundTrip.pand pd pa pb | .por pd pa pb => RoundTrip.por pd pa pb
  | .pxor pd pa pb => RoundTrip.pxor pd pa pb | .pandn pd pa pb => RoundTrip.pandn pd pa pb
  | .pnot pd pa => RoundTrip.pnot pd pa | .pmov pd pa => RoundTrip.pmov pd pa | .br disp => RoundTrip.br disp
  | .bri a => RoundTrip.bri a | .call d disp => RoundTrip.call d disp | .ret a => RoundTrip.ret a
  | .loop counter disp stages => RoundTrip.loop counter disp stages | .split disp => RoundTrip.split disp
  | .join disp => RoundTrip.join disp | .brq sense disp => RoundTrip.brq sense disp
  | .pushb neg p => RoundTrip.pushb neg p | .csrr d csr => RoundTrip.csrr d csr | .csrw csr a => RoundTrip.csrw csr a
  | .csrx d csr a => RoundTrip.csrx d csr a | .halt => RoundTrip.halt | .waiti => RoundTrip.waiti
  | .fencei => RoundTrip.fencei | .trap code => RoundTrip.trap code | .eret => RoundTrip.eret
  | .commit => RoundTrip.commit | .yield => RoundTrip.yield | .rplrel => RoundTrip.rplrel
  | .phase marker => RoundTrip.phase marker | .segb id => RoundTrip.segb id | .sege id a => RoundTrip.sege id a
  | .ld ty d m => RoundTrip.ld ty d m | .st ty x_s m => RoundTrip.st ty x_s m | .vldr f d m => RoundTrip.vldr f d m
  | .vstr f x_s m => RoundTrip.vstr f x_s m | .vldc f d m => RoundTrip.vldc f d m
  | .vstc f x_s m => RoundTrip.vstc f x_s m | .vgth f d m => RoundTrip.vgth f d m
  | .vsct f x_s m => RoundTrip.vsct f x_s m | .mark => RoundTrip.mark | .fence scope => RoundTrip.fence scope
  | .amo op ty scope order a b => RoundTrip.amo op ty scope order a b
  | .red op ty scope release a b => RoundTrip.red op ty scope release a b
  | .lock mode domain level a => RoundTrip.lock mode domain level a
  | .unlock domain level a => RoundTrip.unlock domain level a | .bsig scope a b => RoundTrip.bsig scope a b
  | .bwait scope a b => RoundTrip.bwait scope a b | .rset ring a => RoundTrip.rset ring a
  | .rclaim ring d => RoundTrip.rclaim ring d | .rpub ring a => RoundTrip.rpub ring a
  | .rtake ring d => RoundTrip.rtake ring d | .rfree ring a => RoundTrip.rfree ring a
  | .rwaitf ring a => RoundTrip.rwaitf ring a | .rwaite ring a => RoundTrip.rwaite ring a
  | .rstat ring d a => RoundTrip.rstat ring d a | .evsig ev a b => RoundTrip.evsig ev a b
  | .evwait ev a => RoundTrip.evwait ev a | .evstat ev d => RoundTrip.evstat ev d | .enq q a => RoundTrip.enq q a
  | .chlink q a => RoundTrip.chlink q a | .chkick q a => RoundTrip.chkick q a | .engstat q d => RoundTrip.engstat q d
  | .sheaf a => RoundTrip.sheaf a | .vadd f r d a b mask => RoundTrip.vadd f r d a b mask
  | .vsub f r d a b mask => RoundTrip.vsub f r d a b mask | .vmul f r d a b mask => RoundTrip.vmul f r d a b mask
  | .vmin f d a b mask => RoundTrip.vmin f d a b mask | .vmax f d a b mask => RoundTrip.vmax f d a b mask
  | .vfma f r d a b c => RoundTrip.vfma f r d a b c | .vfms f r d a b c => RoundTrip.vfms f r d a b c
  | .vabs f d a mask => RoundTrip.vabs f d a mask | .vneg f d a mask => RoundTrip.vneg f d a mask
  | .vrcp f r d a mask => RoundTrip.vrcp f r d a mask | .vrsq f r d a mask => RoundTrip.vrsq f r d a mask
  | .vsqrt f r d a mask => RoundTrip.vsqrt f r d a mask | .vexp2 f r d a mask => RoundTrip.vexp2 f r d a mask
  | .vlog2 f r d a mask => RoundTrip.vlog2 f r d a mask | .vtanh f r d a mask => RoundTrip.vtanh f r d a mask
  | .viadd f uns sat d a b mask => RoundTrip.viadd f uns sat d a b mask
  | .visub f uns sat d a b mask => RoundTrip.visub f uns sat d a b mask
  | .vimul f uns sat d a b mask => RoundTrip.vimul f uns sat d a b mask
  | .vimulh f uns d a b mask => RoundTrip.vimulh f uns d a b mask | .vand f d a b mask => RoundTrip.vand f d a b mask
  | .vor f d a b mask => RoundTrip.vor f d a b mask | .vxor f d a b mask => RoundTrip.vxor f d a b mask
  | .vshl f d a b mask => RoundTrip.vshl f d a b mask | .vshr f d a b mask => RoundTrip.vshr f d a b mask
  | .vsar f d a b mask => RoundTrip.vsar f d a b mask | .vimin f uns d a b mask => RoundTrip.vimin f uns d a b mask
  | .vimax f uns d a b mask => RoundTrip.vimax f uns d a b mask
  | .vcmp cc f d a b mask => RoundTrip.vcmp cc f d a b mask | .vsel f d a b c => RoundTrip.vsel f d a b c
  | .vcvt fd fs r part d a => RoundTrip.vcvt fd fs r part d a
  | .vtobi fd fs r part d a => RoundTrip.vtobi fd fs r part d a
  | .vfrombi fd fs r part d a => RoundTrip.vfrombi fd fs r part d a | .vrotr d a b => RoundTrip.vrotr d a b
  | .vrotc d a b => RoundTrip.vrotc d a b | .vbcr d a b => RoundTrip.vbcr d a b | .vbcc d a b => RoundTrip.vbcc d a b
  | .vscanr f r d a mask => RoundTrip.vscanr f r d a mask
  | .vredr op f r uns d a mask => RoundTrip.vredr op f r uns d a mask
  | .vredc op f r uns d a mask => RoundTrip.vredc op f r uns d a mask | .vperm d a bw => RoundTrip.vperm d a bw
  | .pset bw a => RoundTrip.pset bw a | .vtopkr f d a b mask => RoundTrip.vtopkr f d a b mask
  | .vbuck f uns d a b c => RoundTrip.vbuck f uns d a b c | .vmov d a => RoundTrip.vmov d a
  | .vget f d a b => RoundTrip.vget f d a b | .vput f d a b c => RoundTrip.vput f d a b c
  | .vli f d imm => RoundTrip.vli f d imm | .oclaim first count => RoundTrip.oclaim first count
  | .orelease first count => RoundTrip.orelease first count | .mstr a b => RoundTrip.mstr a b
  | .mwait n => RoundTrip.mwait n | .mcfg d a => RoundTrip.mcfg d a | .mstat d => RoundTrip.mstat d
  | .rwaitEnd .. | .evwaitEnd .. | .bwaitEnd .. | .mwaitEnd .. | .waitiEnd .. | .wedge .. | .enqAppend ..
  | .commandStart .. | .copy .. | .fill .. | .convert .. | .gather .. | .scatter .. | .encode .. | .a2a ..
  | .a2aDelivery .. | .commandRetire .. | .chainFetch .. | .streamAppend .. | .streamStart .. | .recordFetch ..
  | .mma .. | .mmaz .. | .maddz .. | .mscl .. | .mconv .. | .streamComplete .. | .sequencerTrap .. | .accessPerform ..
  | .redEntryPerform .. | .lineWriteback .. | .storeFaultReport .. | .bankRetention .. | .bsigArrival ..
  | .evsigArrival .. | .lockRequest .. | .lockRelease .. | .wound .. | .trapEntry .. | .tctlRequeue .. | .tctlFatal ..
  | .codesetWrite .. | .lkmtxWrite .. | .commitWindowExpiry .. | .plotRetire .. | .pairCompare .. | .claim ..
  | .leaseRenew .. | .ownershipLapse | .handover .. | .queueEnable .. | .queueDisable .. | .abort .. | .poke ..
  | .qtail .. | .sqEnable .. | .sqDisable .. | .sqtail .. | .launchCheck .. | .waitdepRecheck | .dispatch
  | .costSort .. | .launchComplete .. | .steal .. | .coreHandout .. | .plotStart .. | .walkerPreempt ..
  | .persistentSwap .. | .teamResume .. | .election .. | .gleaner .. | .chipletFatal .. | .deviceFatal ..
  | .sheafSubmit .. | .sheafTake | .sheafSplit .. | .returnArrival .. | .sheafTimeout .. | .invalidationStart ..
  | .invalidationDelivery | .invalidationDrain | .warm .. | .fencectlFence .. | .unfence .. | .unfenceComplete ..
  | .bankClear .. | .injectionArm .. | .sensorForce .. | .registerWrite .. | .hostWrite .. | .hostRead ..
  | .migrationRequest .. | .migrationRetry .. | .migrationTimeout .. | .migration .. | .lease .. | .leaseLapse
  | .railChange .. | .optTableLearn .. | .thermalThrottle .. | .thermalTrip .. | .hbmRefresh .. | .hbmTrip ..
  | .portRetrain .. | .coldReset | .perst .. | .bringUp .. | .telemetry | .errbank .. | .events .. | .fwupdate ..
  | .reset | .getVersion | .getCapabilities | .negotiateAlgorithms | .getDigests | .getCertificate | .challenge ..
  | .getMeasurements | .sensorBelow85 .. | .linkUp .. | .rowNeighbourLinkDown .. | .fabricWindowArrival ..
  | .podTaskArrival .. => RoundTrip.of_not_wf rfl

theorem layout_bits_lt (l : Layout) : l.bits < 2 ^ 49 := by
  cases l <;> simp only [Layout.bits] <;> omega

theorem layout_major_lt (i : Instr) : i.layout.1 < 128 := by
  cases i <;> exact Nat.le_of_ble_eq_true rfl

theorem encode_toNat (y : Syllable) :
    y.encode.toNat = flagNat y.y * 2 ^ 63 + y.op.layout.1 * 2 ^ 56 + y.guard.toNat * 2 ^ 50
      + flagNat y.gneg * 2 ^ 49 + y.op.layout.2.bits := by
  have hm := layout_major_lt y.op
  have hy := flagNat_lt y.y
  have hn := flagNat_lt y.gneg
  have hb := layout_bits_lt y.op.layout.2
  rw [Syllable.encode, BitVec.toNat_ofNat]
  omega

/-- The major field of an encoded syllable is its instruction's. -/
theorem encode_major (y : Syllable) : y.encode.toNat / 2 ^ 56 % 128 = y.op.layout.1 := by
  have hm := layout_major_lt y.op
  have hn := flagNat_lt y.gneg
  have hb := layout_bits_lt y.op.layout.2
  rw [encode_toNat]
  omega

/-- A word parses as the fields of its major's format do. -/
theorem parseWord_of_fields {w : W64} {major : Nat} {f : Format} {i : Instr} (hm : (slice w 56 7).toNat = major)
    (hf : Format.ofMajor major = .ok f) (hp : parseLayout major (f.read w) = .ok i) :
    parseWord w = .ok ⟨slice w 63 1 == 1, slice w 50 6, slice w 49 1 == 1, i⟩ := by
  simp only [parseWord, hm, hf, hp, bind, Except.bind, pure, Except.pure]

/-- What the encoder lays out is parsed back, field by field. -/
theorem parseWord_encode {y : Syllable} (h : y.op.wf = true) : parseWord y.encode = .ok y := by
  obtain ⟨hf, hp⟩ := roundTrip y.op h
  have hm := layout_major_lt y.op
  have hn := flagNat_lt y.gneg
  have hb := layout_bits_lt y.op.layout.2
  have he := encode_toNat y
  have hmajor : (slice y.encode 56 7).toNat = y.op.layout.1 := by rw [slice_toNat]; exact encode_major y
  have hread : y.op.layout.2.format.read y.encode = y.op.layout.2 := by
    rw [Syllable.encode]; exact format_read _ _ _ _ _
  have hy : (slice y.encode 63 1 == 1) = y.y := slice_flag _ _ _ (by omega)
  have hgn : (slice y.encode 49 1 == 1) = y.gneg := slice_flag _ _ _ (by omega)
  have hg : slice y.encode 50 6 = y.guard := BitVec.eq_of_toNat_eq (by rw [slice_toNat]; omega)
  rw [parseWord_of_fields hmajor hf (by rw [hread]; exact hp), hy, hgn, hg]

/-- Settles O1: the fields of a well-formed syllable parse back to it, and the check of the must-be-zero bits passes. -/
theorem decodeUndoesEncode : Obligations.DecodeUndoesEncode := by
  unfold Obligations.DecodeUndoesEncode
  intro y h
  have hop : y.op.wf = true := by
    simp only [Syllable.wf, Bool.and_eq_true] at h
    exact h.1
  exact (decodeWord_eq_ok_iff ..).2 ⟨parseWord_encode hop, h, rfl⟩

/-! ### Words that decode, and words that do not -/

/-- A word that is the encoding of a well-formed syllable decodes to it. -/
theorem decodeWord_of_encode {w : W64} {y : Syllable} (h : y.wf = true) (he : y.encode = w) :
    decodeWord w = .ok y := he ▸ decodeUndoesEncode y h

/-- A word that decodes has a major that names a format (R169). -/
theorem ofMajor_of_decode {w : W64} {y : Syllable} (h : decodeWord w = .ok y) :
    ∃ f, Format.ofMajor (w.toNat / 2 ^ 56 % 128) = .ok f := by
  obtain ⟨hp, -, -⟩ := (decodeWord_eq_ok_iff w y).1 h
  have hs : w.toNat / 2 ^ 56 % 128 = (slice w 56 7).toNat := (slice_toNat w 56 7).symm
  rw [hs]
  cases hf : Format.ofMajor (slice w 56 7).toNat with
  | ok f => exact ⟨f, rfl⟩
  | error e => simp only [parseWord, hf, bind, Except.bind, reduceCtorEq] at hp

/-- The majors that the opcode map reserves (R169). -/
theorem ofMajor_reserved {m : Nat} (hm : m < 128) (h : (0x09 ≤ m ∧ m ≤ 0x0F) ∨ (0x11 ≤ m ∧ m ≤ 0x1F) ∨
    (0x2C ≤ m ∧ m ≤ 0x2F) ∨ (0x40 ≤ m ∧ m ≤ 0x4F) ∨ (0x5D ≤ m ∧ m ≤ 0x6F) ∨ 0x72 ≤ m) :
    Format.ofMajor m = .error .major := by
  revert m
  decide

/-- A word of major 0 has no fields but those of every syllable (R170). -/
theorem parseWord_of_major_zero {w : W64} (h : (slice w 56 7).toNat = 0) :
    parseWord w = .ok ⟨slice w 63 1 == 1, slice w 50 6, slice w 49 1 == 1, .nop⟩ :=
  parseWord_of_fields (f := .rrr) h rfl rfl

/-- NOP is the one syllable of major 0 (R170). -/
theorem op_eq_nop_iff_major {w : W64} {y : Syllable} (h : decodeWord w = .ok y) :
    y.op = .nop ↔ w.toNat / 2 ^ 56 % 128 = 0 := by
  obtain ⟨hp, hwf, rfl⟩ := (decodeWord_eq_ok_iff w y).1 h
  simp only [Syllable.wf, Bool.and_eq_true] at hwf
  constructor
  · intro hop
    rw [encode_major, hop]
    rfl
  · intro hm
    rw [parseWord_of_major_zero (by rw [slice_toNat]; exact hm), Except.ok.injEq] at hp
    rw [← hp]

/-- NOP's word holds nothing but Y (R170). -/
theorem encode_nop (b : Bool) : (Syllable.mk b 0 false .nop).encode.toNat = flagNat b * 2 ^ 63 := by
  cases b <;> rfl

/-- A word of major 0 decodes exactly if it has no other bit but Y (R170). -/
theorem decodes_of_major_zero {w : W64} (hm : w.toNat / 2 ^ 56 % 128 = 0) :
    (∃ y, decodeWord w = .ok y) ↔ w.toNat % 2 ^ 56 = 0 := by
  constructor
  · rintro ⟨y, h⟩
    have hop := (op_eq_nop_iff_major h).2 hm
    obtain ⟨-, hwf, rfl⟩ := (decodeWord_eq_ok_iff w y).1 h
    obtain ⟨b, g, n, i⟩ := y
    cases hop
    have hg : (g == 0 && !n) = true := hwf
    simp only [Bool.and_eq_true, beq_iff_eq, Bool.not_eq_true'] at hg
    obtain ⟨rfl, rfl⟩ := hg
    rw [encode_nop]
    omega
  · intro h0
    have hw := w.isLt
    obtain ⟨b, hb⟩ : ∃ b, flagNat b = w.toNat / 2 ^ 63 := by
      rcases (by omega : w.toNat / 2 ^ 63 = 0 ∨ w.toNat / 2 ^ 63 = 1) with h | h
      · exact ⟨false, h.symm⟩
      · exact ⟨true, h.symm⟩
    refine ⟨⟨b, 0, false, .nop⟩, decodeWord_of_encode rfl (BitVec.eq_of_toNat_eq ?_)⟩
    rw [encode_nop]
    omega

/-- Settles O3: each word is the encoding of its syllable; a reserved major names no format, and a NOP has no other bit. -/
theorem wordsDecode : Obligations.WordsDecode := by
  unfold Obligations.WordsDecode
  refine ⟨⟨decodeWord_of_encode rfl rfl, decodeWord_of_encode rfl rfl, decodeWord_of_encode rfl rfl,
    decodeWord_of_encode rfl rfl, decodeWord_of_encode rfl rfl, decodeWord_of_encode rfl rfl,
    decodeWord_of_encode rfl rfl, decodeWord_of_encode rfl rfl, decodeWord_of_encode rfl rfl⟩, fun w h => ?_⟩
  cases hd : decodeWord w with
  | error r => exact ⟨r, rfl⟩
  | ok y =>
    obtain ⟨f, hf⟩ := ofMajor_of_decode hd
    by_cases hz : w.toNat / 2 ^ 56 % 128 = 0
    · exact absurd ((decodes_of_major_zero hz).1 ⟨y, hd⟩) (by omega)
    · rw [ofMajor_reserved (by omega) (by omega)] at hf
      cases hf

end Sys2Proof.Laws
end

section
namespace Sys2Proof.Machine

/-! ### What a scalar source gives (R187) -/

theorem readSrc_z {f : Src} (s : State) (h : f.reg.toNat = 63) : readSrc f s = .ok (0, s) :=
  readSrc_ok.2 (by simp only [readSrcP, Act.bind_apply, Act.get_apply, h, ↓reduceIte, Act.pure_apply])

theorem readSrc_ctx {f : Src} (s : State) (h : f.reg.toNat = 62) :
    readSrc f s = .ok (s.ctxWord s.issue.core s.issue.ctx, s) :=
  readSrc_ok.2 (by
    simp only [readSrcP, Act.bind_apply, Act.get_apply, h, Nat.reduceEqDiff, ↓reduceIte, Act.pure_apply])

/-- A register that is not DEAD gives its oldest entry, and is left as the mode of the field says. -/
theorem readSrc_oldest {f : Src} {s : State} {v : W64} {es : List SEntry} (h : f.reg.toNat < 62)
    (hd : (s.cur.squeue f.reg.toNat).cond ≠ .dead) (he : (s.cur.squeue f.reg.toNat).entries = .ready v false :: es) :
    readSrc f s = .ok (v, s.notePopped (s.cur.setSqueue f.reg.toNat ((s.cur.squeue f.reg.toNat).take f.reg.toNat f.mode))
      (popsEntry f.mode) ⟨f.reg.toNat, .ready v false, (s.cur.squeue f.reg.toNat).drop⟩) := by
  have h63 : f.reg.toNat ≠ 63 := by omega
  have h62 : f.reg.toNat ≠ 62 := by omega
  exact readSrc_ok.2 (by simp only [readSrcP, Act.bind_apply, Act.get_apply, h63, h62, hd, he, ↓reduceIte,
    Act.set_apply, Act.pure_apply])

@[simp] theorem notePopped_cur (s : State) (c : Ctx) (b : Bool) (x : Popped) : (s.notePopped c b x).cur = c := by
  cases b <;> exact State.cur_setCur s c

/-- Settles O8. -/
theorem sourceReadsOldest : Obligations.SourceReadsOldest := by
  unfold Obligations.SourceReadsOldest
  refine fun s f => ⟨readSrc_z s, readSrc_ctx s, fun v es h hd he => ?_⟩
  have hread := readSrc_oldest h hd he
  have hframe := readSrc_frame hread
  refine ⟨_, hread, hframe.elsewhere, fun r hr => ?_, fun r => ?_, hframe.cur, ?_⟩
  · rw [notePopped_cur]
    exact Ctx.squeue_setSqueue_other _ _ _ _ hr
  · rw [notePopped_cur]
    rfl
  · rw [notePopped_cur, Ctx.squeue_setSqueue_same]
    obtain ⟨m, r⟩ := f
    cases m <;> cases es <;> simp [SQueue.take, condAfter, neverDead, he]

end Sys2Proof.Machine
end

section
namespace Sys2Proof.Machine

/-! ### What settling writes makes of the context at issue (R186, R187) -/

/-- A state that differs from another in the context at issue alone. -/
structure SetsCtx (s t : State) (c : Ctx) : Prop where
  elsewhere : Elsewhere s t
  issue : t.issue = s.issue
  cur : t.cur = c

theorem SetsCtx.refl (s : State) : SetsCtx s s s.cur := ⟨Elsewhere.refl s, rfl, rfl⟩

theorem setsCtx_setCur (s : State) (c : Ctx) : SetsCtx s (s.setCur c) c :=
  ⟨elsewhere_setCur s c s.issue, rfl, State.cur_setCur s c⟩

theorem SetsCtx.trans {s t u : State} {c e : Ctx} (h : SetsCtx s t c) (k : SetsCtx t u e) : SetsCtx s u e :=
  ⟨h.elsewhere.trans k.elsewhere (by rw [h.issue]) (by rw [h.issue]), k.issue.trans h.issue, k.cur⟩

/-- A list of writes settles, and leaves this context. -/
def Settles (s : State) (ds : List Deferred) (c : Ctx) : Prop := ∃ t, settleAll s ds = .ok t ∧ SetsCtx s t c

theorem settles_nil (s : State) : Settles s [] s.cur := ⟨s, rfl, SetsCtx.refl s⟩

theorem settleAll_append (s : State) (ds es : List Deferred) :
    settleAll s (ds ++ es) = match settleAll s ds with | .ok t => settleAll t es | .error e => .error e := by
  induction ds generalizing s with
  | nil => rfl
  | cons d ds ih =>
    simp only [List.cons_append, settleAll]
    cases settleOne s d with
    | error e => rfl
    | ok t => exact ih t

/-- The first writes of a list settle, then the others do. -/
theorem Settles.append {s : State} {ds es : List Deferred} {c e : Ctx} (h : Settles s ds c)
    (hs : ∀ t, SetsCtx s t c → Settles t es e) : Settles s (ds ++ es) e := by
  obtain ⟨t, ht, htc⟩ := h
  obtain ⟨u, hu, huc⟩ := hs t htc
  exact ⟨u, by rw [settleAll_append, ht]; exact hu, htc.trans huc⟩

/-- A write that sets the context at issue. -/
theorem settles_of_setCur {s : State} {d : Deferred} {c : Ctx} (h : settleOne s d = .ok (s.setCur c)) :
    Settles s [d] c := ⟨s.setCur c, by simp only [settleAll, h], setsCtx_setCur s c⟩

theorem settles_scalar {s : State} {cl : Cluster} {d : Dst} {e : SEntry} (h : s.cur.takes cl d = true) :
    Settles s [.scalar cl d e] (s.cur.put cl d e) := by
  obtain ⟨t, ht, hti, htc, hte⟩ := settleScalar_takes s cl d e h
  exact ⟨t, by simp only [settleAll, settleOne, ht], hte, hti, htc⟩

@[simp] theorem Ctx.setCluster_cluster (c : Ctx) (cl : Cluster) : Ctx.setCluster c cl (Ctx.cluster c cl) = c := by
  cases cl <;> rfl

/-- A write of a predicate; p0 stays (R202). -/
theorem settles_pred (s : State) (cl : Cluster) (p : Pred) (b : Bool) :
    Settles s [.pred cl p.toNat b] (s.cur.putPred cl p b) := by
  have hput : s.cur.putPred cl p b = Ctx.setCluster s.cur cl ((Ctx.cluster s.cur cl).setPred p.toNat b) := by
    by_cases hp : p = 0
    · subst hp
      exact (Ctx.setCluster_cluster s.cur cl).symm
    · have hn : p.toNat ≠ 0 := fun h => hp (BitVec.eq_of_toNat_eq h)
      simp only [Ctx.putPred, hp, hn, ↓reduceIte, ClusterState.setPred, setBit64]
  rw [hput]
  exact settles_of_setCur rfl

/-- A taken transfer (R203). -/
theorem settles_jump (s : State) (cl : Cluster) (target : W64) :
    Settles s [.jump cl target] (s.cur.transferred cl target) :=
  settles_of_setCur rfl

/-- A state whose syllable at issue has left these writes. -/
def State.writing (u : State) (ds : List Deferred) : State := { u with issue := { u.issue with writes := ds } }

@[simp] theorem writing_cur (u : State) (ds : List Deferred) : (u.writing ds).cur = u.cur := rfl

theorem elsewhere_writing (u : State) (ds : List Deferred) : Elsewhere u (u.writing ds) := elsewhere_issue u _

section
variable {body : Act Unit} {s u : State} {ds : List Deferred} {c : Ctx} (hf : s.freshIssue = true)
  (hb : body s = .ok ((), u.writing ds)) (hs : Settles (u.writing ds) ds c) (hx : trapAfterOf ds = none)
include hf hb hs hx

/-- A syllable that issues alone settles its writes, and its counter moves past it unless they move it (R186, R210). -/
theorem conclude_settles (hi : u.issue = { s.issue with popped := u.issue.popped }) (hn : u.now = s.now) :
    ∃ t, concludeSyllable body s = .next t ∧ Elsewhere u t ∧
      t.cur = (if ds.any Deferred.moves then c else c.advance s.issue.cluster).counted s.now := by
  obtain ⟨ha, -, hwt, hcl⟩ := fresh_after hf hi
  obtain ⟨v, hv, hvc⟩ := hs
  have hvi : v.issue = { u.issue with writes := ds } := hvc.issue
  let e := (if ds.any Deferred.moves then v.cur else v.cur.advance s.issue.cluster).counted v.now
  have hst : (u.writing ds).settle [s.issue.cluster] = .ok { v.setCur e with
      issue := { v.issue with writes := [], popped := [], waits := [] } } := by
    have hw : (u.writing ds).issue.writes = ds := rfl
    have hvw : v.issue.waits = [] := by rw [hvi]; exact hwt
    simp only [State.settle, hw, hv, hvw, hx, List.any_nil, List.foldl_cons, List.foldl_nil, Bool.false_eq_true,
      ↓reduceIte]
    rfl
  refine ⟨_, conclude_settle ha hb hst, ?_, ?_⟩
  · exact ((elsewhere_writing u ds).trans hvc.elsewhere rfl rfl).trans (elsewhere_setCur v e _) (by rw [hvi]) (by rw [hvi])
  · refine (State.cur_setCur v e).trans ?_
    have hnow : v.now = s.now := hvc.elsewhere.now.trans hn
    simp only [e, hvc.cur, hnow]

/-- The same of a syllable that has read sources and changed nothing else. -/
theorem conclude_reads (hu : ReadFrame s u) : ∃ t, concludeSyllable body s = .next t ∧ Elsewhere s t ∧
    t.cur = (if ds.any Deferred.moves then c else c.advance s.issue.cluster).counted s.now := by
  obtain ⟨t, ht, hte, htc⟩ := conclude_settles hf hb hs hx hu.issue hu.elsewhere.now
  exact ⟨t, ht, hu.elsewhere.trans hte hu.core hu.ctx, htc⟩

end

end Sys2Proof.Machine
end

section
namespace Sys2Proof.Machine

/-! ### Counts of bits (R198) -/

theorem takeWhile_range_succ (f : Nat → Bool) (n : Nat) : ((List.range (n + 1)).takeWhile f).length =
    if f 0 then ((List.range n).takeWhile fun i => f (i + 1)).length + 1 else 0 := by
  rw [List.range_succ_eq_map, List.takeWhile_cons]
  split
  · rw [List.takeWhile_map]; simp [Function.comp_def]
  · rfl

theorem filter_range_succ (f : Nat → Bool) (n : Nat) : ((List.range (n + 1)).filter f).length =
    (if f 0 then 1 else 0) + ((List.range n).filter fun i => f (i + 1)).length := by
  rw [List.range_succ_eq_map, List.filter_cons]
  split
  · rw [List.filter_map]; simp [Function.comp_def, Nat.add_comm]
  · rw [List.filter_map]; simp [Function.comp_def]

/-- CTZ counts the zeros below the lowest one. -/
theorem trailingZeros_eq (n x : Nat) :
    trailingZeros n x = ((List.range n).takeWhile fun i => !x.testBit i).length := by
  induction n generalizing x with
  | zero => rfl
  | succ n ih =>
    rw [takeWhile_range_succ, trailingZeros, ih]
    simp only [Nat.testBit_zero, Nat.testBit_succ]
    by_cases h : x % 2 = 1 <;> simp [h, Nat.add_comm]

/-- POPC counts the ones. -/
theorem countBits_eq (n x : Nat) : countBits n x = ((List.range n).filter fun i => x.testBit i).length := by
  induction n generalizing x with
  | zero => rfl
  | succ n ih =>
    rw [filter_range_succ, countBits, ih]
    simp only [Nat.testBit_zero, Nat.testBit_succ]
    rcases Nat.mod_two_eq_zero_or_one x with h | h <;> simp [h]

/-- CLZ counts the zeros above the highest one. -/
theorem leadingZeros_eq (n x : Nat) (h : x < 2 ^ n) :
    n - bitLength x = (((List.range n).reverse).takeWhile fun i => !x.testBit i).length := by
  induction n with
  | zero => simp
  | succ n ih =>
    rw [List.range_succ, List.reverse_append, List.reverse_singleton, List.singleton_append, List.takeWhile_cons]
    by_cases hn : 2 ^ n ≤ x
    · have ht : x.testBit n = true := Nat.testBit_of_two_pow_le_and_two_pow_add_one_gt hn h
      have hx : x ≠ 0 := by have := Nat.two_pow_pos n; omega
      have hl : x.log2 = n := (Nat.log2_eq_iff hx).2 ⟨hn, h⟩
      simp [ht, bitLength, hx, hl]
    · have hlt : x < 2 ^ n := by omega
      have ht : x.testBit n = false := Nat.testBit_lt_two_pow hlt
      have hb : bitLength x ≤ n := by
        unfold bitLength
        split
        · omega
        · rename_i hx
          exact (Nat.log2_lt hx).2 hlt
      simp only [ht, Bool.not_false, ↓reduceIte, List.length_cons, ← ih hlt]
      omega

/-! ### The results of R198 and R201 -/

theorem sext24_eq (imm : BitVec 24) : sext24 imm = BitVec.ofInt 64 imm.toInt := rfl

theorem shiftLeft_eq_ofNat (x : W64) (n : Nat) : x <<< n = BitVec.ofNat 64 (x.toNat * 2 ^ n) := by
  apply BitVec.eq_of_toNat_eq
  rw [BitVec.toNat_shiftLeft, BitVec.toNat_ofNat, Nat.shiftLeft_eq]

theorem shiftRight_eq_ofNat (x : W64) (n : Nat) : x >>> n = BitVec.ofNat 64 (x.toNat / 2 ^ n) := by
  apply BitVec.eq_of_toNat_eq
  have h : x.toNat / 2 ^ n ≤ x.toNat := Nat.div_le_self ..
  rw [BitVec.toNat_ushiftRight, BitVec.toNat_ofNat, Nat.shiftRight_eq_div_pow,
    Nat.mod_eq_of_lt (Nat.lt_of_le_of_lt h x.isLt)]

theorem sshiftRight_eq_ofInt (x : W64) (n : Nat) : x.sshiftRight n = BitVec.ofInt 64 (x.toInt / 2 ^ n) := by
  rw [BitVec.sshiftRight, Int.shiftRight_eq_div_pow]
  rfl

theorem abs_eq (x : W64) : (if x.toInt < 0 then -x else x) =
    if 0 ≤ x.toInt then x else BitVec.ofInt 64 (-x.toInt) := by
  by_cases h : 0 ≤ x.toInt
  · rw [if_neg (by omega), if_pos h]
  · rw [if_pos (by omega), if_neg h, BitVec.ofInt_neg, BitVec.ofInt_toInt]

/-- LIH: the low 40 bits move up, and imm24 fills the low 24 (R201). -/
theorem lih_eq (x : W64) (imm : BitVec 24) :
    (x <<< 24) ||| imm.zeroExtend 64 = BitVec.ofNat 64 (x.toNat * 2 ^ 24 + imm.toNat) := by
  have hlow : (x <<< 24) &&& imm.zeroExtend 64 = 0 := by
    apply BitVec.eq_of_getLsbD_eq
    intro i hi
    simp only [BitVec.getLsbD_and, BitVec.getLsbD_shiftLeft, BitVec.getLsbD_setWidth]
    by_cases h : i < 24
    · simp [h]
    · simp [BitVec.getLsbD_of_ge imm i (by omega)]
  rw [← BitVec.add_eq_or_of_and_eq_zero _ _ hlow, shiftLeft_eq_ofNat, BitVec.ofNat_add]
  congr 1
  exact BitVec.eq_of_toNat_eq (by rw [BitVec.toNat_setWidth, BitVec.toNat_ofNat])

theorem clz_eq (x : W64) : BitVec.ofNat 64 (leadingZeros x) =
    BitVec.ofNat 64 (((List.range 64).reverse.takeWhile fun i => !x.getLsbD i).length) :=
  congrArg (BitVec.ofNat 64) (leadingZeros_eq 64 x.toNat x.isLt)

theorem ctz_eq (x : W64) : BitVec.ofNat 64 (trailingZeros 64 x.toNat) =
    BitVec.ofNat 64 (((List.range 64).takeWhile fun i => !x.getLsbD i).length) :=
  congrArg (BitVec.ofNat 64) (trailingZeros_eq 64 x.toNat)

theorem popc_eq (x : W64) : BitVec.ofNat 64 (countBits 64 x.toNat) =
    BitVec.ofNat 64 (((List.range 64).filter fun i => x.getLsbD i).length) :=
  congrArg (BitVec.ofNat 64) (countBits_eq 64 x.toNat)

/-- Each one-source syllable is the result the tables give for its source. -/
theorem UnaryRule.exec_eq {i : Instr} {d : Dst} {a : Src} {f : W64 → W64} (h : UnaryRule i d a f) (s : State) :
    exec i s = concludeSyllable (unaryOp d a f) s := by
  have of_eq : ∀ {g h : W64 → W64}, (∀ x, g x = h x) →
      concludeSyllable (unaryOp d a g) s = concludeSyllable (unaryOp d a h) s := by
    intro g h he
    rw [funext he]
  cases h with
  | abs => exact of_eq abs_eq
  | clz => exact of_eq clz_eq
  | ctz => exact of_eq ctz_eq
  | popc => exact of_eq popc_eq
  | addi | andi | ori | xori => rfl
  | shli _ _ n => exact of_eq fun x => shiftLeft_eq_ofNat x n.toNat
  | shri _ _ n => exact of_eq fun x => shiftRight_eq_ofNat x n.toNat
  | sari _ _ n => exact of_eq fun x => sshiftRight_eq_ofInt x n.toNat
  | lih _ _ imm => exact of_eq fun x => lih_eq x imm

/-- Settles O11. -/
theorem scalarUnaryResults : Obligations.ScalarUnaryResults := by
  unfold Obligations.ScalarUnaryResults
  refine ⟨fun i d a f hr s s1 x hf ha ht => ?_, fun d imm s hf ht => ?_, fun d a s s1 x mark hf ha ht => ?_⟩
  · rw [hr.exec_eq]
    exact conclude_scalar hf (readSrc_frame ha) (by simp only [unaryOp, Act.bind_apply, ha, Act.writeDst_apply]) ht
  · exact conclude_scalar (body := writeDst d (sext24 imm)) hf (ReadFrame.refl s) (Act.writeDst_apply ..) ht
  · exact conclude_scalar hf (readSrcP_frame ha) (by simp only [Act.bind_apply, ha, Act.writeEntry_apply]) ht

/-! ### Predicates (R199, R200, R202) -/

/-- A read leaves the predicates. -/
theorem ReadFrame.pred {s t : State} (h : ReadFrame s t) (n : Nat) : t.pred n = s.pred n := by
  have hc : Ctx.cluster t.cur t.issue.cluster = Ctx.cluster s.cur s.issue.cluster := by
    rw [h.cur, h.cluster]
    cases s.issue.cluster <;> rfl
  simp only [State.pred, hc]

/-- A syllable that issues alone, has read sources and writes a predicate. -/
theorem conclude_pred {body : Act Unit} {s u : State} {p : Pred} {b : Bool} (hf : s.freshIssue = true)
    (hu : ReadFrame s u) (hb : body s = writePred p b u) :
    ∃ t, concludeSyllable body s = .next t ∧ Elsewhere s t ∧
      t.cur = (u.cur.putPred s.issue.cluster p b).past s.issue.cluster s.now := by
  obtain ⟨-, hw, -, hcl⟩ := fresh_after hf hu.issue
  rw [Act.writePred_apply, hw, hcl, List.nil_append] at hb
  exact conclude_reads hf hb (settles_pred ..) rfl hu

/-- The condition codes compare as R158 and R200 say. -/
theorem compareWords_eq (cc : Cc) (x y : W64) : compareWords cc x y = ccSays cc x y := by
  cases cc <;> simp only [compareWords, Cc.intHolds, ccSays, ge_iff_le, gt_iff_lt]
  case eq => exact Bool.eq_iff_iff.2 (by simp [BitVec.toNat_inj])
  case ne => exact Bool.eq_iff_iff.2 (by simp [BitVec.toNat_inj])

/-- Each predicate syllable is R202's function of predicates. -/
theorem PredRule.exec_eq {i : Instr} {pd : Pred} {f : State → Bool} (h : PredRule i pd f) (s : State) :
    ∃ body, exec i s = concludeSyllable body s ∧ body s = writePred pd (f s) s := by
  cases h <;> exact ⟨_, rfl, rfl⟩

/-- Settles O12. -/
theorem predicateResults : Obligations.PredicateResults := by
  unfold Obligations.PredicateResults
  refine ⟨fun d a b neg p s s1 s2 x y mx my hf ha hb ht => ?_, fun cc pd a b s s1 s2 x y _ hf ha hb => ?_,
    fun cc pd a imm s s1 x _ hf ha => ?_, fun i pd f hr s hf => ?_⟩
  · have hu := (readSrcP_frame ha).trans (readSrcP_frame hb)
    refine conclude_scalar hf hu ?_ ht
    simp only [Act.bind_apply, ha, hb, Act.getPred_apply, hu.pred]
    cases s.pred p.toNat <;> cases neg <;> rfl
  · refine conclude_pred hf ((readSrc_frame ha).trans (readSrc_frame hb)) ?_
    simp only [Act.bind_apply, ha, hb, compareWords_eq]
  · refine conclude_pred hf (readSrc_frame ha) ?_
    simp only [Act.bind_apply, ha, compareWords_eq, sext24_eq]
  · obtain ⟨body, he, hb⟩ := hr.exec_eq s
    rw [he]
    exact conclude_pred hf (ReadFrame.refl s) hb

/-- Settles O13: NOP's body does nothing, and major 0 is NOP's alone. -/
theorem nopChangesNothing : Obligations.NopChangesNothing := by
  unfold Obligations.NopChangesNothing
  exact ⟨fun s hf => conclude_done (body := pure ()) hf rfl rfl rfl, fun _ _ h => Sys2Proof.Laws.op_eq_nop_iff_major h,
    fun _ hm => Sys2Proof.Laws.decodes_of_major_zero hm⟩

end Sys2Proof.Machine
end

section
namespace Sys2Proof.Machine

/-! ### Transfers (R154, R203) -/

theorem signExtend_shift (disp : BitVec 32) : disp.signExtend 64 <<< 3 = BitVec.ofInt 64 (8 * disp.toInt) := by
  rw [BitVec.shiftLeft_eq_mul_twoPow, BitVec.signExtend, Int.mul_comm, BitVec.ofInt_mul]
  rfl

theorem brTarget_eq (s : State) (disp : BitVec 32) : brTarget s.issue.pc disp = s.brTarget disp := by
  rw [brTarget, signExtend_shift]
  rfl

/-- The return address of CALL, as one number. -/
theorem returnAddress_eq (s : State) : s.returnAddress =
    if s.cur.apart then s.issue.pc + 8 else BitVec.ofNat 64 (s.issue.pc.toNat / 32 * 32 + 32) := by
  rw [State.returnAddress, BitVec.ofNat_add]
  rfl

theorem misaligned_eq (s : State) (target : W64) :
    (target.toNat % s.alignUnit != 0) = !s.cur.targetOk target := rfl

/-- A transfer to an aligned target is deferred. -/
theorem jumpTo_ok {s : State} {target : W64} (h : s.cur.targetOk target = true) :
    jumpTo target s = defer (.jump s.issue.cluster target) s := by
  simp only [jumpTo, Act.bind_apply, Act.get_apply, misaligned_eq, h, Bool.not_true, Act.trapIf_apply,
    Bool.false_eq_true, ↓reduceIte]

/-- A transfer to a misaligned target traps (R203). -/
theorem jumpTo_misaligned {s : State} {target : W64} (h : s.cur.targetOk target = false) :
    jumpTo target s = .error (.trap causeALIGN target) := by
  simp only [jumpTo, Act.bind_apply, Act.get_apply, misaligned_eq, h, Bool.not_false, Act.trapIf_apply, ↓reduceIte]

theorem ReadFrame.apart {s t : State} (h : ReadFrame s t) : t.cur.apart = s.cur.apart := by rw [h.cur]

theorem ReadFrame.targetOk {s t : State} (h : ReadFrame s t) (target : W64) :
    t.cur.targetOk target = s.cur.targetOk target := by simp only [Ctx.targetOk, h.apart]

@[simp] theorem Ctx.transferred_scalars (c : Ctx) (cl : Cluster) (target : W64) :
    (c.transferred cl target).scalars = c.scalars := by
  unfold Ctx.transferred
  split
  · exact Ctx.setCluster_scalars ..
  · rfl

/-- A write after a transfer. -/
theorem settles_call {s : State} {cl : Cluster} {target : W64} {d : Dst} {e : SEntry}
    (h : s.cur.takes cl d = true) :
    Settles s [.jump cl target, .scalar cl d e] ((s.cur.transferred cl target).put cl d e) := by
  refine (settles_jump s cl target).append (es := [_]) fun t ht => ?_
  rw [← ht.cur]
  exact settles_scalar (by rw [ht.cur, Ctx.takes_congr (Ctx.transferred_scalars ..)]; exact h)

section
variable {body : Act Unit} {s u : State} {target : W64} (hf : s.freshIssue = true) (hu : ReadFrame s u)
include hf hu

/-- A syllable whose body ends in a transfer: it is taken where the target is aligned, else ALIGN is raised and nothing
is read or written (R203). -/
theorem conclude_jump (hb : body s = jumpTo target u) :
    (s.cur.targetOk target = true → ∃ t, concludeSyllable body s = .next t ∧ Elsewhere s t ∧
      t.cur = (u.cur.transferred s.issue.cluster target).counted s.now) ∧
    (s.cur.targetOk target = false → concludeSyllable body s = .next (s.trapHere causeALIGN target)) := by
  obtain ⟨ha, hw, -, hcl⟩ := fresh_after hf hu.issue
  constructor
  · intro hok
    rw [jumpTo_ok ((hu.targetOk target).trans hok), Act.defer_apply, hw, hcl, List.nil_append] at hb
    exact conclude_reads hf hb (settles_jump ..) rfl hu
  · intro hbad
    rw [jumpTo_misaligned ((hu.targetOk target).trans hbad)] at hb
    exact conclude_trapHere ha (by decide) hb

end

/-- Settles O14. -/
theorem transfersMoveCounters : Obligations.TransfersMoveCounters := by
  unfold Obligations.TransfersMoveCounters
  refine ⟨fun disp s hf => ?_, fun i a s s1 x hi hf ha => ?_, fun d disp s hf ht => ⟨fun hok => ?_, fun hbad => ?_⟩⟩
  · exact conclude_jump hf (ReadFrame.refl s) (by rw [← brTarget_eq]; rfl)
  · have hjump := conclude_jump (body := do jumpTo (← readSrc a)) (target := x) hf (readSrc_frame ha)
      (by simp only [Act.bind_apply, ha])
    rcases hi with rfl | rfl
    · exact hjump
    · exact hjump
  · show ∃ t, execCall d disp s = .next t ∧ _
    refine conclude_reads hf ?_ (settles_call ht) rfl (ReadFrame.refl s)
    obtain ⟨-, hw, -, -⟩ := fresh_after hf (u := s) rfl
    simp only [Act.bind_apply, Act.get_apply, brTarget_eq, jumpTo_ok hok, Act.defer_apply, Act.writeDst_apply, hw,
      List.nil_append, List.cons_append, returnAddress_eq]
    rfl
  · obtain ⟨ha, -, -, -⟩ := fresh_after hf (u := s) rfl
    refine conclude_trapHere ha (by decide) ?_
    simp only [Act.bind_apply, Act.get_apply, brTarget_eq, jumpTo_misaligned hbad]

end Sys2Proof.Machine
end

section
namespace Sys2Proof.Machine

/-! ### SPLIT and JOIN (R163, R165, R206) -/

theorem settles_split (s : State) (cl : Cluster) (target : W64) : Settles s [.split cl target]
    { Ctx.setCluster s.cur cl { Ctx.cluster s.cur cl with pc := target, status := .running } with apart := true } :=
  settles_of_setCur rfl

/-- The clusters that a JOIN waits for: the active ones but its own (R165). -/
def Ctx.joinOthers (c : Ctx) (cl : Cluster) : List Cluster :=
  Cluster.all.filter fun q => q != cl && (Ctx.cluster c q).status != .resting

/-- Those of them that have joined, with their order of arrival and their target. -/
def Ctx.joinedOthers (c : Ctx) (cl : Cluster) : List (Nat × W64) :=
  (c.joinOthers cl).filterMap fun q => match (Ctx.cluster c q).status with
    | .joined t n _ => some (n, t)
    | _ => none

theorem not_isResting (x : ClusterState) : (!x.isResting) = (x.status != .resting) := rfl

/-- What a JOIN does when it arrives. -/
theorem settleJoin_eq (s : State) (cl : Cluster) (target : W64) : settleJoin s cl target =
    if (s.cur.joinedOthers cl).length < (s.cur.joinOthers cl).length then
      .ok (s.setCur { Ctx.setCluster s.cur cl { Ctx.cluster s.cur cl with
        status := .joined target s.cur.joins s.cycles } with joins := s.cur.joins + 1 })
    else if (s.cur.joinedOthers cl).all (fun w => w.2 == target) then .ok (s.setCur (s.cur.unbind.lockstepAt target))
    else .error (s.cur.joinRaiser cl s.cycles,
      .trap causeJOINX (((earliestJoin (s.cur.joinedOthers cl)).map Prod.snd).getD 0)) := by
  have hothers : (Cluster.all.filter fun x => x != cl && !(Ctx.cluster s.cur x).isResting) = s.cur.joinOthers cl := by
    simp only [not_isResting, Ctx.joinOthers]
  have hjoined : (s.cur.joinOthers cl).filterMap (fun x => (Ctx.cluster s.cur x).joinOf) = s.cur.joinedOthers cl := rfl
  simp only [settleJoin, hothers, hjoined]

/-- The earliest JOIN is among those that wait, and none of them came before it. -/
theorem earliestJoin_spec : ∀ {l : List (Nat × W64)}, l ≠ [] →
    ∃ y, earliestJoin l = some y ∧ y ∈ l ∧ ∀ w ∈ l, y.1 ≤ w.1
  | [], h => absurd rfl h
  | [x], _ => ⟨x, rfl, List.mem_singleton_self x, by simp⟩
  | x :: z :: l, _ => by
    obtain ⟨y, hy, hmem, hmin⟩ := earliestJoin_spec (l := z :: l) (by simp)
    rw [earliestJoin, hy]
    by_cases hle : x.1 ≤ y.1
    · refine ⟨x, by simp [hle], by simp, fun w hw => ?_⟩
      rcases List.mem_cons.1 hw with rfl | hw
      · exact Nat.le_refl _
      · exact Nat.le_trans hle (hmin w hw)
    · refine ⟨y, by simp [hle], List.mem_cons_of_mem x hmem, fun w hw => ?_⟩
      rcases List.mem_cons.1 hw with rfl | hw
      · omega
      · exact hmin w hw

/-- Where no other cluster has arrived in this cycle, the last to arrive raises JOINX (log entry 95). -/
theorem joinRaiser_own {c : Ctx} {cl : Cluster} {cycle : Nat}
    (h : ∀ q t m z, (Ctx.cluster c q).status = .joined t m z → z ≠ cycle) : c.joinRaiser cl cycle = cl := by
  have hno : ∀ q, (Ctx.cluster c q).joinedIn cycle = false := by
    intro q
    unfold ClusterState.joinedIn
    split
    · next t m z hq => exact beq_eq_false_iff_ne.2 (h q t m z hq)
    · rfl
  simp only [Ctx.joinRaiser, hno, Bool.or_false]
  cases cl <;> rfl

section
variable {s : State} {disp : BitVec 32} (hf : s.freshIssue = true) (ha : (s.brTarget disp).toNat % 32 = 0)
include hf ha

theorem join_defers : ∃ body, exec (.join disp) s = concludeSyllable body s ∧
    body s = .ok ((), s.writing [.join s.issue.cluster (s.brTarget disp)]) := by
  obtain ⟨-, hw, -, -⟩ := fresh_after hf (u := s) rfl
  refine ⟨_, rfl, ?_⟩
  simp only [Act.bind_apply, Act.get_apply, brTarget_eq, ha, bne_self_eq_false, Act.trapIf_apply, Bool.false_eq_true,
    ↓reduceIte, Act.defer_apply, hw, List.nil_append]
  rfl

/-- A JOIN that settles. -/
theorem join_settles {c : Ctx} (h : settleJoin (s.writing [.join s.issue.cluster (s.brTarget disp)]) s.issue.cluster
      (s.brTarget disp) = .ok ((s.writing [.join s.issue.cluster (s.brTarget disp)]).setCur c)) :
    ∃ t, exec (.join disp) s = .next t ∧ Elsewhere s t ∧ t.cur = c.counted s.now := by
  obtain ⟨body, he, hb⟩ := join_defers hf ha
  rw [he]
  exact conclude_reads hf hb (settles_of_setCur h) rfl (ReadFrame.refl s)

/-- A JOIN whose target differs from another's raises JOINX with the target of the earliest. -/
theorem join_raises {v : W64} (h : settleJoin (s.writing [.join s.issue.cluster (s.brTarget disp)]) s.issue.cluster
      (s.brTarget disp) = .error (s.issue.cluster, .trap causeJOINX v)) :
    exec (.join disp) s = .next (s.trapHere causeJOINX v) := by
  obtain ⟨body, he, hb⟩ := join_defers hf ha
  obtain ⟨halone, -, -, -⟩ := fresh_after hf (u := s) rfl
  have hst : (s.writing [.join s.issue.cluster (s.brTarget disp)]).settle [s.issue.cluster] =
      .error (s.issue.cluster, .trap causeJOINX v) := by
    simp only [State.settle, settleAll, settleOne, State.writing] at h ⊢
    rw [h]
  simp only [he, concludeSyllable, hb, halone, ↓reduceIte, hst, State.stopped, State.joinSwap, beq_self_eq_true,
    Bool.or_true, State.trapHere]

/-- While another active cluster has not joined, the cluster waits at its JOIN (R165). -/
theorem join_waits (h : (s.cur.joinedOthers s.issue.cluster).length < (s.cur.joinOthers s.issue.cluster).length) :
    ∃ t, exec (.join disp) s = .next t ∧ Elsewhere s t ∧
      t.cur = ({ Ctx.setCluster s.cur s.issue.cluster { Ctx.cluster s.cur s.issue.cluster with
        status := .joined (s.brTarget disp) s.cur.joins s.cycles } with joins := s.cur.joins + 1 } : Ctx).counted s.now :=
  join_settles hf ha ((settleJoin_eq ..).trans (if_pos h))

section
variable (hlast : (s.cur.joinedOthers s.issue.cluster).length = (s.cur.joinOthers s.issue.cluster).length)
include hlast

/-- The last to arrive, all targets equal, puts the clusters in lockstep (R165, R166). -/
theorem join_rejoins (h : ∀ w ∈ s.cur.joinedOthers s.issue.cluster, w.2 = s.brTarget disp) :
    ∃ t, exec (.join disp) s = .next t ∧ Elsewhere s t ∧
      t.cur = (s.cur.unbind.lockstepAt (s.brTarget disp)).counted s.now := by
  have hall : (s.cur.joinedOthers s.issue.cluster).all (fun w => w.2 == s.brTarget disp) = true :=
    List.all_eq_true.2 fun w hw => beq_iff_eq.2 (h w hw)
  exact join_settles hf ha ((settleJoin_eq ..).trans ((if_neg (Nat.not_lt.2 hlast.ge)).trans (if_pos hall)))

/-- The last to arrive, a target differing, raises JOINX with the earliest joiner's target (R165; log entry 95). -/
theorem join_differs {n : Nat} {u : W64} (hmem : (n, u) ∈ s.cur.joinedOthers s.issue.cluster)
    (hmin : ∀ w ∈ s.cur.joinedOthers s.issue.cluster, n ≤ w.1)
    (hu : ∀ w ∈ s.cur.joinedOthers s.issue.cluster, w.1 = n → w.2 = u)
    (hne : ∃ w ∈ s.cur.joinedOthers s.issue.cluster, w.2 ≠ s.brTarget disp)
    (hz : ∀ q t m z, (Ctx.cluster s.cur q).status = .joined t m z → z ≠ s.cycles) :
    exec (.join disp) s = .next (s.trapHere causeJOINX u) := by
  obtain ⟨w, hw, hwne⟩ := hne
  have hdiffer : ¬ (s.cur.joinedOthers s.issue.cluster).all (fun w => w.2 == s.brTarget disp) = true :=
    fun h => hwne (beq_iff_eq.1 (List.all_eq_true.1 h w hw))
  obtain ⟨y, hy, hymem, hymin⟩ := earliestJoin_spec (List.ne_nil_of_mem hmem)
  have hyu : y.2 = u := hu y hymem (Nat.le_antisymm (hymin _ hmem) (hmin _ hymem))
  refine join_raises hf ha ((settleJoin_eq ..).trans ((if_neg (Nat.not_lt.2 hlast.ge)).trans
    ((if_neg hdiffer).trans ?_)))
  have hraiser : (State.writing s [.join s.issue.cluster (s.brTarget disp)]).cur.joinRaiser s.issue.cluster
      (State.writing s [.join s.issue.cluster (s.brTarget disp)]).cycles = s.issue.cluster := joinRaiser_own hz
  rw [hraiser, writing_cur, hy, ← hyu]
  rfl

end

end

/-- Settles O16. -/
theorem splitAndJoin : Obligations.SplitAndJoin := by
  unfold Obligations.SplitAndJoin
  refine ⟨fun disp s hf => ?_, fun disp s hf ha => ⟨join_waits hf ha, join_rejoins hf ha,
    fun n u hlast => join_differs hf ha hlast⟩, fun disp s hf ha => ?_⟩
  · obtain ⟨-, hw, -, -⟩ := fresh_after hf (u := s) rfl
    show ∃ t, execSplit disp s = .next t ∧ _
    refine conclude_reads hf ?_ (settles_split _ s.issue.cluster (s.brTarget disp)) rfl (ReadFrame.refl s)
    simp only [Act.bind_apply, Act.get_apply, brTarget_eq, Act.defer_apply, hw, List.nil_append]
    rfl
  · obtain ⟨halone, -, -, -⟩ := fresh_after hf (u := s) rfl
    refine conclude_trapHere halone (by decide) ?_
    simp only [Act.bind_apply, Act.get_apply, brTarget_eq, bne_iff_ne.2 ha, Act.trapIf_apply, ↓reduceIte]

/-! ### The branch queue (R207) -/

/-- Settles O17. -/
theorem branchQueue : Obligations.BranchQueue := by
  unfold Obligations.BranchQueue
  refine ⟨fun sense disp s s1 b hf hb => ?_, fun neg p s hf ht => ?_⟩
  · have hu := readSrc_frame hb
    have htaken : ((b != 0) ^^ sense) = true → ∃ body, exec (.brq sense disp) s = concludeSyllable body s ∧
        body s = jumpTo (s.brTarget disp) s1 := fun h =>
      ⟨_, rfl, by simp only [pcOf, Act.bind_apply, Act.get_apply, Act.pure_apply, brTarget_eq, bqReg, hb,
        Bool.bne_eq_xor, h, ↓reduceIte]⟩
    refine ⟨fun h hok => ?_, fun h hbad => ?_, fun h => ?_⟩
    · obtain ⟨body, he, hj⟩ := htaken h
      rw [he]
      exact (conclude_jump hf hu hj).1 hok
    · obtain ⟨body, he, hj⟩ := htaken h
      rw [he]
      exact (conclude_jump hf hu hj).2 hbad
    · show ∃ t, execBrq sense disp s = .next t ∧ _
      obtain ⟨-, hw, -, -⟩ := fresh_after hf hu.issue
      refine conclude_reads (u := s1) (ds := []) hf ?_ (settles_nil _) rfl hu
      simp only [pcOf, Act.bind_apply, Act.get_apply, Act.pure_apply, bqReg, hb, Bool.bne_eq_xor, h,
        Bool.false_eq_true, ↓reduceIte, State.writing, ← hw]
  · show ∃ t, execPushb neg p s = .next t ∧ _
    refine conclude_scalar hf (ReadFrame.refl s) ?_ ht
    simp only [Act.bind_apply, Act.getPred_apply, Act.writeDst_apply, Bool.bne_eq_xor]
    rfl

end Sys2Proof.Machine
end

section
namespace Sys2Proof.Machine

/-! ### LOOP (R190, R205) -/

/-- Predicates of a cluster written one after another. -/
def ClusterState.setPreds (x : ClusterState) (l : List (Nat × Bool)) : ClusterState :=
  l.foldl (fun x e => x.setPred e.1 e.2) x

theorem setPreds_pc_next (x : ClusterState) (l : List (Nat × Bool)) :
    (x.setPreds l).pc = x.pc ∧ (x.setPreds l).next = x.next := by
  induction l generalizing x with
  | nil => exact ⟨rfl, rfl⟩
  | cons e l ih =>
    have h : (x.setPred e.1 e.2).pc = x.pc ∧ (x.setPred e.1 e.2).next = x.next := by
      unfold ClusterState.setPred
      split <;> exact ⟨rfl, rfl⟩
    rw [← h.1, ← h.2]
    exact ih _

theorem setBit64_getLsbD (x : W64) (n : Nat) (b : Bool) {j : Nat} (hj : j < 64) (hn : n < 64) :
    (setBit64 x n b).getLsbD j = if j = n then b else x.getLsbD j := by
  unfold setBit64
  by_cases h : j = n
  · subst h; cases b <;> simp [hj]
  · have hne : ¬ (n ≤ j ∧ j - n = 0) := by omega
    cases b <;> simp [hj, h] <;> omega

/-- The stage predicates of a cluster after a LOOP (R205). -/
theorem setPreds_stageBits (x : ClusterState) (y : W64) (newp : Bool) {n j : Nat} (hn : n ≤ 8) (hj : j < 64) :
    (x.setPreds (stageBits y n newp)).preds.getLsbD j =
      if 56 ≤ j ∧ j < 56 + n then (if j = 56 then newp else y.getLsbD (j - 1)) else x.preds.getLsbD j := by
  induction n with
  | zero =>
    rw [if_neg (by omega)]
    rfl
  | succ n ih =>
    have hsplit : x.setPreds (stageBits y (n + 1) newp) =
        (x.setPreds (stageBits y n newp)).setPred (56 + n) (if n = 0 then newp else y.getLsbD (55 + n)) := by
      simp only [ClusterState.setPreds, stageBits, List.range_succ, List.map_append, List.map_cons, List.map_nil,
        List.foldl_append, List.foldl_cons, List.foldl_nil]
    have hbit : 56 + n ≠ 0 := by omega
    rw [hsplit, ClusterState.setPred, if_neg hbit]
    show (setBit64 _ _ _).getLsbD j = _
    rw [setBit64_getLsbD _ _ _ hj (by omega), ih (by omega)]
    by_cases hjn : j = 56 + n
    · subst hjn
      rw [if_pos rfl, if_pos (show 56 ≤ 56 + n ∧ 56 + n < 56 + (n + 1) by omega)]
      by_cases h0 : n = 0
      · rw [if_pos h0, if_pos (by omega)]
      · rw [if_neg h0, if_neg (by omega), show 56 + n - 1 = 55 + n by omega]
    · rw [if_neg hjn]
      have hiff : (56 ≤ j ∧ j < 56 + n) ↔ (56 ≤ j ∧ j < 56 + (n + 1)) := by omega
      simp only [hiff]

/-- Predicates of a cluster of a context written one after another. -/
def Ctx.setPreds (c : Ctx) (q : Cluster) (l : List (Nat × Bool)) : Ctx :=
  Ctx.setCluster c q ((Ctx.cluster c q).setPreds l)

/-- The write of a predicate of a cluster. -/
def predWrite (q : Cluster) (e : Nat × Bool) : Deferred := .pred q e.1 e.2

theorem settles_preds (q : Cluster) (l : List (Nat × Bool)) (s : State) :
    Settles s (l.map (predWrite q)) (s.cur.setPreds q l) := by
  induction l generalizing s with
  | nil =>
    have h : s.cur.setPreds q [] = s.cur := Ctx.setCluster_cluster s.cur q
    rw [h]
    exact settles_nil s
  | cons e l ih =>
    refine (settles_of_setCur (d := predWrite q e) rfl).append (es := l.map _) fun t ht => ?_
    have h : s.cur.setPreds q (e :: l) = t.cur.setPreds q l := by
      rw [ht.cur, Ctx.setPreds, Ctx.setPreds, Ctx.cluster_setCluster_same, Ctx.setCluster_setCluster]
      rfl
    rw [h]
    exact ih t

/-- LOOP's write-back of its counter, in place (R205). -/
def Ctx.putCounter (c : Ctx) (cl : Cluster) (r : Nat) (v : W64) : Ctx :=
  c.setSqueue r { c.squeue r with
    producer := some cl
    retain := false
    entries := match (c.squeue r).entries with | [] => [] | _ :: es => .ready v false :: es }

theorem settles_counter {s : State} {cl : Cluster} {r : Nat} (v : W64)
    (h : bindOk (s.cur.squeue r).producer cl = true) : Settles s [.counter cl r v] (s.cur.putCounter cl r v) := by
  refine settles_of_setCur ?_
  simp only [settleOne, settleCounter, h, Bool.not_true, Bool.false_eq_true, ↓reduceIte]
  rfl

/-- The predicates of several clusters written. -/
def Ctx.setAllPreds (c : Ctx) (qs : List Cluster) (bits : Cluster → List (Nat × Bool)) : Ctx :=
  qs.foldl (fun c q => c.setPreds q (bits q)) c

theorem settles_allPreds (qs : List Cluster) (bits : Cluster → List (Nat × Bool)) (s : State) :
    Settles s (qs.flatMap fun q => (bits q).map (predWrite q)) (s.cur.setAllPreds qs bits) := by
  induction qs generalizing s with
  | nil => exact settles_nil s
  | cons q qs ih =>
    refine (settles_preds q (bits q) s).append fun t ht => ?_
    have h : s.cur.setAllPreds (q :: qs) bits = t.cur.setAllPreds qs bits := by rw [ht.cur]; rfl
    rw [h]
    exact ih t

/-- Deferred writes of a list of syllables' parts, one after another. -/
theorem forM_defers {α : Type} {f : α → Act Unit} {w : α → List Deferred}
    (h : ∀ x s, f x s = .ok ((), s.writing (s.issue.writes ++ w x))) (l : List α) (s : State) :
    l.forM f s = .ok ((), s.writing (s.issue.writes ++ l.flatMap w)) := by
  induction l generalizing s with
  | nil =>
    rw [List.flatMap_nil, List.append_nil]
    rfl
  | cons x l ih =>
    show (f x >>= fun _ => l.forM f) s = _
    rw [Act.bind_apply, h, List.flatMap_cons, ← List.append_assoc]
    exact ih _

/-- The writes of a LOOP: its transfer where it is taken, its counter, and its stage predicates. -/
def loopWrites (cl : Cluster) (jump : Option W64) (r : Nat) (v : W64) (qs : List Cluster)
    (bits : Cluster → List (Nat × Bool)) : List Deferred :=
  (match jump with | some t => [.jump cl t] | none => []) ++ [.counter cl r v] ++
    qs.flatMap fun q => (bits q).map (predWrite q)

theorem peekCounter_ready {s : State} {r : Nat} {n : W64} {es : List SEntry} (hd : (s.cur.squeue r).cond ≠ .dead)
    (he : (s.cur.squeue r).entries = .ready n false :: es) : peekCounter r s = .ok (n, s) := by
  simp only [peekCounter, Act.bind_apply, Act.getCtx_apply, hd, ↓reduceIte, he, Bool.false_eq_true, Act.pure_apply]

/-- What a LOOP with a counter of `n` does to the context at issue: it goes to the target where it is taken. -/
structure LoopPlan where
  newp : Bool
  taken : Bool
  jump : Option W64
  value : W64
  bits : Cluster → List (Nat × Bool)

/-- The plan of R205. -/
def Ctx.loopPlan (c : Ctx) (cl : Cluster) (stages : Nat) (target n : W64) : LoopPlan :=
  let newp := decide (1 < n.toInt)
  let bits := fun q => stageBits (Ctx.cluster c q).preds stages newp
  let taken := newp || (bits cl).any Prod.snd
  ⟨newp, taken, if taken then some target else none, if newp then n - 1 else 0, bits⟩

/-- The context after a transfer, where there is one. -/
def Ctx.jumped (c : Ctx) (cl : Cluster) (jump : Option W64) : Ctx :=
  match jump with
  | some t => c.transferred cl t
  | none => c

/-- The context after a LOOP, its counter not yet past it. -/
def Ctx.looped (c : Ctx) (cl : Cluster) (r : Nat) (qs : List Cluster) (x : LoopPlan) : Ctx :=
  ((c.jumped cl x.jump).putCounter cl r x.value).setAllPreds qs x.bits

theorem Ctx.squeue_congr {c e : Ctx} (h : c.scalars = e.scalars) (r : Nat) : c.squeue r = e.squeue r := by
  unfold Ctx.squeue; rw [h]

theorem jumped_scalars (c : Ctx) (cl : Cluster) (j : Option W64) : (c.jumped cl j).scalars = c.scalars := by
  cases j with
  | none => rfl
  | some t => exact Ctx.transferred_scalars c cl t

theorem settles_loop {s : State} {cl : Cluster} {r : Nat} (qs : List Cluster) (x : LoopPlan)
    (h : bindOk (s.cur.squeue r).producer cl = true) :
    Settles s (loopWrites cl x.jump r x.value qs x.bits) (s.cur.looped cl r qs x) := by
  have hjump : Settles s (match x.jump with | some t => [.jump cl t] | none => []) (s.cur.jumped cl x.jump) := by
    cases x.jump with
    | none => exact settles_nil s
    | some t => exact settles_jump s cl t
  have hcounter : ∀ t, SetsCtx s t (s.cur.jumped cl x.jump) → Settles t [.counter cl r x.value]
      ((s.cur.jumped cl x.jump).putCounter cl r x.value) := by
    intro t ht
    rw [← ht.cur]
    exact settles_counter x.value (by rw [ht.cur, Ctx.squeue_congr (jumped_scalars ..)]; exact h)
  refine (hjump.append hcounter).append fun u hu => ?_
  rw [Ctx.looped, ← hu.cur]
  exact settles_allPreds qs x.bits u

section
variable {r : BitVec 6} {disp : BitVec 32} {stages : BitVec 4} {s : State} {n : W64} {es : List SEntry}
  (hd : (s.cur.squeue r.toNat).cond ≠ .dead) (he : (s.cur.squeue r.toNat).entries = .ready n false :: es)
include hd he

/-- LOOP defers its writes once its target is found aligned (R203, R205). -/
theorem loop_defers {x : LoopPlan} (hx : s.cur.loopPlan s.issue.cluster stages.toNat (s.brTarget disp) n = x)
    (ht : x.taken = true → s.cur.targetOk (s.brTarget disp) = true) :
    ∃ body, exec (.loop r disp stages) s = concludeSyllable body s ∧ body s = .ok ((), s.writing (s.issue.writes ++
      loopWrites s.issue.cluster x.jump r.toNat x.value s.loopClusters x.bits)) := by
  subst hx
  refine ⟨_, rfl, ?_⟩
  have hpreds : ∀ u : State, (s.loopClusters.forM fun q => (stageBits (Ctx.cluster s.cur q).preds stages.toNat
      (decide (1 < n.toInt))).forM fun x => defer (.pred q x.1 x.2)) u = .ok ((), u.writing (u.issue.writes ++
        s.loopClusters.flatMap fun q => (stageBits (Ctx.cluster s.cur q).preds stages.toNat
          (decide (1 < n.toInt))).map (predWrite q))) := by
    refine forM_defers (fun q v => ?_) _
    rw [List.map_eq_flatMap]
    exact forM_defers (fun _ _ => rfl) _ v
  simp only [Act.bind_apply, Act.get_apply, peekCounter_ready hd he, brTarget_eq]
  simp only [Ctx.loopPlan] at ht ⊢
  split
  · next h =>
    simp only [Act.bind_apply, jumpTo_ok (ht h), Act.defer_apply, hpreds, loopWrites, List.append_assoc]
    rfl
  · next h =>
    simp only [Act.bind_apply, Act.defer_apply, hpreds, loopWrites, List.append_assoc, List.nil_append]
    rfl

end

/-- A LOOP moves the counters where it is taken, and raises nothing after it. -/
theorem loopWrites_moves (cl : Cluster) (jump : Option W64) (r : Nat) (v : W64) (qs : List Cluster)
    (bits : Cluster → List (Nat × Bool)) : (loopWrites cl jump r v qs bits).any Deferred.moves = jump.isSome := by
  have hpreds : (qs.flatMap fun q => (bits q).map (predWrite q)).any Deferred.moves = false := by
    simp only [List.any_flatMap, List.any_map, List.any_eq_false]
    exact fun q _ => by simp [predWrite, Deferred.moves]
  cases jump <;> simp only [loopWrites, List.any_append, hpreds] <;> rfl

theorem loopWrites_trapAfter (cl : Cluster) (jump : Option W64) (r : Nat) (v : W64) (qs : List Cluster)
    (bits : Cluster → List (Nat × Bool)) : trapAfterOf (loopWrites cl jump r v qs bits) = none := by
  have hpreds : trapAfterOf (qs.flatMap fun q => (bits q).map (predWrite q)) = none := by
    simp only [trapAfterOf, List.findSome?_eq_none_iff, List.mem_flatMap, List.mem_map]
    rintro d ⟨q, -, e, -, rfl⟩
    rfl
  simp only [trapAfterOf] at hpreds ⊢
  cases jump <;> simp only [loopWrites, List.findSome?_append, hpreds] <;> rfl

/-! ### The context after a LOOP -/

theorem setAllPreds_cons (c : Ctx) (q : Cluster) (qs : List Cluster) (bits : Cluster → List (Nat × Bool)) :
    c.setAllPreds (q :: qs) bits = (c.setPreds q (bits q)).setAllPreds qs bits := rfl

@[simp] theorem setAllPreds_scalars (qs : List Cluster) (bits : Cluster → List (Nat × Bool)) (c : Ctx) :
    (c.setAllPreds qs bits).scalars = c.scalars := by
  induction qs generalizing c with
  | nil => rfl
  | cons q qs ih => rw [setAllPreds_cons, ih]; exact Ctx.setCluster_scalars ..

/-- A LOOP's predicates are written in the clusters it drives. -/
theorem cluster_setAllPreds {qs : List Cluster} (hq : qs.Nodup) (bits : Cluster → List (Nat × Bool)) (c : Ctx)
    (q : Cluster) : Ctx.cluster (c.setAllPreds qs bits) q =
      if q ∈ qs then (Ctx.cluster c q).setPreds (bits q) else Ctx.cluster c q := by
  induction qs generalizing c with
  | nil => rfl
  | cons p qs ih =>
    obtain ⟨hp, hqs⟩ := List.nodup_cons.1 hq
    rw [setAllPreds_cons, ih hqs]
    by_cases hqp : q = p
    · subst hqp
      rw [if_neg hp, if_pos (List.mem_cons_self ..)]
      exact Ctx.cluster_setCluster_same ..
    · have hother : Ctx.cluster (c.setPreds p (bits p)) q = Ctx.cluster c q := Ctx.cluster_setCluster_other _ _ _ _ hqp
      simp only [hother, List.mem_cons, hqp, false_or]

/-- Two contexts whose counters agree; registers and predicates may differ. -/
structure Ctx.SameCounters (e c : Ctx) : Prop where
  apart : e.apart = c.apart
  issued : e.issued = c.issued
  pc : ∀ q, (Ctx.cluster e q).pc = (Ctx.cluster c q).pc
  next : ∀ q, (Ctx.cluster e q).next = (Ctx.cluster c q).next

theorem Ctx.SameCounters.trans {d e c : Ctx} (h : Ctx.SameCounters d e) (k : Ctx.SameCounters e c) :
    Ctx.SameCounters d c :=
  ⟨h.apart.trans k.apart, h.issued.trans k.issued, fun q => (h.pc q).trans (k.pc q),
    fun q => (h.next q).trans (k.next q)⟩

@[simp] theorem Ctx.setCluster_issued (c : Ctx) (cl : Cluster) (x : ClusterState) :
    (Ctx.setCluster c cl x).issued = c.issued := by cases cl <;> rfl

/-- A cluster set to a state with the same counter. -/
theorem sameCounters_setCluster (c : Ctx) (cl : Cluster) {x : ClusterState} (hp : x.pc = (Ctx.cluster c cl).pc)
    (hn : x.next = (Ctx.cluster c cl).next) : Ctx.SameCounters (Ctx.setCluster c cl x) c := by
  refine ⟨Ctx.setCluster_apart .., Ctx.setCluster_issued .., fun q => ?_, fun q => ?_⟩ <;> by_cases hq : q = cl
  · subst hq; rw [Ctx.cluster_setCluster_same, hp]
  · rw [Ctx.cluster_setCluster_other _ _ _ _ hq]
  · subst hq; rw [Ctx.cluster_setCluster_same, hn]
  · rw [Ctx.cluster_setCluster_other _ _ _ _ hq]

theorem sameCounters_setAllPreds (qs : List Cluster) (bits : Cluster → List (Nat × Bool)) (c : Ctx) :
    Ctx.SameCounters (c.setAllPreds qs bits) c := by
  induction qs generalizing c with
  | nil => exact ⟨rfl, rfl, fun _ => rfl, fun _ => rfl⟩
  | cons q qs ih =>
    obtain ⟨hp, hn⟩ := setPreds_pc_next (Ctx.cluster c q) (bits q)
    exact (ih _).trans (sameCounters_setCluster c q hp hn)

theorem looped_sameCounters (c : Ctx) (cl : Cluster) (r : Nat) (qs : List Cluster) (x : LoopPlan) :
    Ctx.SameCounters (c.looped cl r qs x) (c.jumped cl x.jump) :=
  (sameCounters_setAllPreds qs x.bits _).trans ⟨rfl, rfl, fun q => by cases q <;> rfl, fun q => by cases q <;> rfl⟩

@[simp] theorem advance_scalars (c : Ctx) (cl : Cluster) : (c.advance cl).scalars = c.scalars :=
  Ctx.setCluster_scalars ..

@[simp] theorem resume_preds (x : ClusterState) : x.resume.preds = x.preds := by
  unfold ClusterState.resume
  split <;> rfl

@[simp] theorem advance_preds (c : Ctx) (cl q : Cluster) :
    (Ctx.cluster (c.advance cl) q).preds = (Ctx.cluster c q).preds := by
  unfold Ctx.advance
  by_cases h : q = cl
  · subst h
    rw [Ctx.cluster_setCluster_same]
    exact resume_preds _
  · rw [Ctx.cluster_setCluster_other _ _ _ _ h]

/-- Counters that agree move past a syllable alike. -/
theorem Ctx.SameCounters.advance {e c : Ctx} (h : Ctx.SameCounters e c) (cl : Cluster) :
    Ctx.SameCounters (e.advance cl) (c.advance cl) := by
  unfold Ctx.advance
  refine ⟨by simp [h.apart], by simp [h.issued], fun q => ?_, fun q => ?_⟩ <;> by_cases hq : q = cl
  · subst hq
    simp only [Ctx.cluster_setCluster_same, h.apart, h.pc, h.next]
  · simp only [Ctx.cluster_setCluster_other _ _ _ _ hq, h.pc]
  · subst hq
    simp only [Ctx.cluster_setCluster_same]
  · simp only [Ctx.cluster_setCluster_other _ _ _ _ hq, h.next]

@[simp] theorem transferred_preds (c : Ctx) (cl q : Cluster) (t : W64) :
    (Ctx.cluster (c.transferred cl t) q).preds = (Ctx.cluster c q).preds := by
  unfold Ctx.transferred
  split
  · by_cases h : q = cl
    · subst h
      rw [Ctx.cluster_setCluster_same]
      exact resume_preds _
    · rw [Ctx.cluster_setCluster_other _ _ _ _ h]
  · cases q <;> exact resume_preds _

theorem jumped_preds (c : Ctx) (cl q : Cluster) (j : Option W64) :
    (Ctx.cluster (c.jumped cl j) q).preds = (Ctx.cluster c q).preds := by
  cases j with
  | none => rfl
  | some t => exact transferred_preds c cl q t

/-- The stage predicates after a LOOP, on the clusters it drives; all others stay. -/
theorem looped_preds (c : Ctx) (cl : Cluster) (r : Nat) {qs : List Cluster} (hqs : qs.Nodup) {stages : Nat}
    (hs : stages ≤ 8) (target n : W64) (q : Cluster) {j : Nat} (hj : j < 64) :
    (Ctx.cluster (c.looped cl r qs (c.loopPlan cl stages target n)) q).preds.getLsbD j =
      if q ∈ qs then (if 56 ≤ j ∧ j < 56 + stages then
        (if j = 56 then decide (1 < n.toInt) else (Ctx.cluster c q).preds.getLsbD (j - 1))
        else (Ctx.cluster c q).preds.getLsbD j)
      else (Ctx.cluster c q).preds.getLsbD j := by
  have hput : ∀ (c : Ctx) (v : W64), Ctx.cluster (c.putCounter cl r v) q = Ctx.cluster c q := by
    intro c v
    cases q <;> rfl
  rw [Ctx.looped, cluster_setAllPreds hqs, hput]
  split
  · exact (setPreds_stageBits _ _ _ hs hj).trans (by rw [jumped_preds])
  · rw [jumped_preds]

/-- The counter's register after a LOOP, and the others (R190, R205). -/
theorem looped_squeue_same (c : Ctx) (cl : Cluster) (r : Nat) (qs : List Cluster) (x : LoopPlan) :
    (c.looped cl r qs x).squeue r = { c.squeue r with
      producer := some cl
      retain := false
      entries := match (c.squeue r).entries with | [] => [] | _ :: es => .ready x.value false :: es } := by
  rw [Ctx.looped, Ctx.squeue_congr (setAllPreds_scalars ..), Ctx.putCounter, Ctx.squeue_setSqueue_same,
    Ctx.squeue_congr (jumped_scalars ..)]

theorem looped_squeue_other (c : Ctx) (cl : Cluster) (r : Nat) (qs : List Cluster) (x : LoopPlan) {j : Nat}
    (h : j ≠ r) : (c.looped cl r qs x).squeue j = c.squeue j := by
  rw [Ctx.looped, Ctx.squeue_congr (setAllPreds_scalars ..), Ctx.putCounter, Ctx.squeue_setSqueue_other _ _ _ _ h,
    Ctx.squeue_congr (jumped_scalars ..)]

theorem any_stageBits (y : W64) (n : Nat) (newp : Bool) : (stageBits y n newp).any Prod.snd =
    (List.range n).any fun j => if 56 ≤ 56 + j ∧ 56 + j < 56 + n then
      (if 56 + j = 56 then newp else y.getLsbD (56 + j - 1)) else y.getLsbD (56 + j) := by
  rw [stageBits, List.any_map, Bool.eq_iff_iff, List.any_eq_true, List.any_eq_true]
  refine exists_congr fun j => and_congr_right fun hj => ?_
  have hjn := List.mem_range.1 hj
  rw [if_pos (show 56 ≤ 56 + j ∧ 56 + j < 56 + n by omega), show 56 + j - 1 = 55 + j by omega]
  by_cases h0 : j = 0
  · subst h0; rfl
  · simp only [Function.comp_apply, h0, show ¬ 56 + j = 56 by omega, ↓reduceIte]

@[simp] theorem counted_cluster (c : Ctx) (now : Nat) (q : Cluster) :
    Ctx.cluster (c.counted now) q = Ctx.cluster c q := by cases q <;> rfl

@[simp] theorem transferred_issued (c : Ctx) (cl : Cluster) (t : W64) : (c.transferred cl t).issued = c.issued := by
  unfold Ctx.transferred
  split
  · exact Ctx.setCluster_issued ..
  · rfl

@[simp] theorem advance_issued (c : Ctx) (cl : Cluster) : (c.advance cl).issued = c.issued := Ctx.setCluster_issued ..

/-- What the context is after a LOOP: as its plan leaves it, its counters past it unless it is taken. -/
theorem loop_context {c e : Ctx} {cl : Cluster} {r : Nat} {qs : List Cluster} {x : LoopPlan} {target : W64}
    {past : Ctx → Ctx} (hscalars : ∀ c, (past c).scalars = c.scalars)
    (hpreds : ∀ c q, (Ctx.cluster (past c) q).preds = (Ctx.cluster c q).preds)
    (hpast : ∀ {e c}, Ctx.SameCounters e c → Ctx.SameCounters (past e) (past c))
    (hx : x.jump = if x.taken then some target else none)
    (he : e = if x.jump.isSome then c.looped cl r qs x else past (c.looped cl r qs x)) :
    e.scalars = (c.looped cl r qs x).scalars ∧
    (∀ q, (Ctx.cluster e q).preds = (Ctx.cluster (c.looped cl r qs x) q).preds) ∧
    Ctx.SameCounters e (if x.taken then c.transferred cl target else past c) := by
  have hsame := looped_sameCounters c cl r qs x
  rw [hx] at he hsame
  cases htaken : x.taken with
  | true =>
    simp only [htaken, ↓reduceIte, Option.isSome_some] at he hsame ⊢
    rw [he]
    exact ⟨rfl, fun _ => rfl, hsame⟩
  | false =>
    simp only [htaken, Bool.false_eq_true, ↓reduceIte, Option.isSome_none] at he hsame ⊢
    rw [he]
    exact ⟨hscalars _, hpreds _, hpast hsame⟩

/-- Settles O15. -/
theorem loopCountsDown : Obligations.LoopCountsDown := by
  unfold Obligations.LoopCountsDown
  intro r disp stages s n es hf hr hst hd he hp newp old new driven taken htgt
  let x := s.cur.loopPlan s.issue.cluster stages.toNat (s.brTarget disp) n
  have htaken : x.taken = taken := congrArg (newp || ·) (any_stageBits ..)
  have hqs : s.loopClusters.Nodup := by
    unfold State.loopClusters
    split
    · exact List.nodup_singleton _
    · decide
  have hdriven : ∀ q, q ∈ s.loopClusters ↔ driven q = true := by
    intro q
    simp only [State.loopClusters, driven]
    cases s.cur.apart with
    | true => simp
    | false => cases q <;> simp [Cluster.all]
  have hbind : bindOk (s.cur.squeue r.toNat).producer s.issue.cluster = true := by
    rcases hp with hp | hp <;> simp [bindOk, hp]
  obtain ⟨-, hw, -, -⟩ := fresh_after hf (u := s) rfl
  obtain ⟨body, hexec, hb⟩ := loop_defers hd he (x := x) rfl (by rw [htaken]; exact htgt)
  rw [hw, List.nil_append] at hb
  obtain ⟨t, ht, hte, htc⟩ := conclude_reads hf hb (settles_loop s.loopClusters x hbind) (loopWrites_trapAfter ..)
    (ReadFrame.refl s)
  rw [loopWrites_moves] at htc
  obtain ⟨hscalars, hpreds, hsame⟩ := loop_context (x := x) (target := s.brTarget disp)
    (past := (Ctx.advance · s.issue.cluster)) (fun _ => advance_scalars ..) (fun _ => advance_preds _ _)
    (Ctx.SameCounters.advance · _) rfl rfl
  rw [htaken] at hsame
  have hsqueue := fun j => Ctx.squeue_congr (c := t.cur) ((congrArg Ctx.scalars htc).trans hscalars) j
  refine ⟨t, hexec.trans ht, hte, ?_, ?_, fun j hj => ?_, fun q j hj => ?_, fun q => ?_, ?_⟩
  · rw [hsqueue, looped_squeue_same, writing_cur, he]
    rfl
  · rw [hsqueue, looped_squeue_same]
  · rw [hsqueue, looped_squeue_other _ _ _ _ _ hj]
    rfl
  · rw [htc, counted_cluster, hpreds]
    refine (looped_preds _ _ _ hqs hst _ _ q hj).trans ?_
    simp only [hdriven]
    rfl
  · rw [htc, counted_cluster]
    exact hsame.pc q
  · rw [htc]
    refine (congrArg (· + 1) hsame.issued).trans ?_
    split
    · rw [transferred_issued]; rfl
    · rw [advance_issued]; rfl

end Sys2Proof.Machine
end

section
namespace Sys2Proof.Machine

/-! ### Effective addresses (R155) -/

/-- The base is read first, then the index. -/
theorem memAddress_of_reads {m : MemOp} {n : Nat} {s s1 s2 : State} {b x : W64}
    (hb : readSrc m.base s = .ok (b, s1)) (hx : readSrc m.index s1 = .ok (x, s2)) :
    memAddress m n s = .ok (BitVec.ofInt 64 (b.toInt + x.toInt * n + m.disp.toInt * n), s2) := by
  have hn : BitVec.ofInt 64 n = BitVec.ofNat 64 n := BitVec.ofInt_natCast ..
  simp only [memAddress, Act.bind_apply, hb, hx, Act.pure_apply, BitVec.ofInt_add, BitVec.ofInt_mul,
    BitVec.ofInt_toInt, hn]
  rfl

/-- An address that resolves to a value has only read its sources. -/
theorem memAddress_frame {m : MemOp} {n : Nat} {s t : State} {ea : W64} (h : memAddress m n s = .ok (ea, t)) :
    ReadFrame s t := by
  simp only [memAddress, Act.bind_apply] at h
  cases hb : readSrc m.base s with
  | error e => rw [hb] at h; cases h
  | ok r =>
    obtain ⟨b, s1⟩ := r
    rw [hb] at h
    dsimp only at h
    cases hx : readSrc m.index s1 with
    | error e => rw [hx] at h; cases h
    | ok r =>
      obtain ⟨x, s2⟩ := r
      rw [hx] at h
      cases h
      exact (readSrc_frame hb).trans (readSrc_frame hx)

theorem alignCheck_misaligned {ea : W64} {n : Nat} (s : State) (h : ea.toNat % n ≠ 0) :
    alignCheck ea n s = .error (.trap causeALIGN ea) := by
  simp only [alignCheck, Act.trapIf_apply, bne_iff_ne, ne_eq, h, not_false_eq_true, ↓reduceIte]

theorem alignCheck_aligned {ea : W64} {n : Nat} (s : State) (h : ea.toNat % n = 0) :
    alignCheck ea n s = .ok ((), s) := by
  simp only [alignCheck, Act.trapIf_apply, bne_iff_ne, ne_eq, h, not_true_eq_false, ↓reduceIte]

section
variable {m : MemOp} {n : Nat} {s s1 : State} {ea : W64} (ha : s.issue.alone = true)
  (hm : memAddress m n s = .ok (ea, s1)) (hbad : ea.toNat % n ≠ 0)
include ha hm hbad

/-- A load whose address is misaligned raises ALIGN before it does anything else (R186, R257). -/
theorem load_misaligned (k : W64 → Act Unit) :
    concludeSyllable (do let ea ← memAddress m n; alignCheck ea n; k ea) s = .next (s.trapHere causeALIGN ea) :=
  conclude_trapHere ha (by decide) (by simp only [Act.bind_apply, hm, alignCheck_misaligned s1 hbad])

/-- A store whose address is misaligned raises ALIGN once its source is read, and has popped nothing (R186, R257). -/
theorem store_misaligned {α : Type} {read : Act α} {v : α} {s2 : State} (hv : read s1 = .ok (v, s2))
    (k : W64 → α → Act Unit) :
    concludeSyllable (do let ea ← memAddress m n; let v ← read; alignCheck ea n; k ea v) s =
      .next (s.trapHere causeALIGN ea) :=
  conclude_trapHere ha (by decide) (by simp only [Act.bind_apply, hm, hv, alignCheck_misaligned s2 hbad])

end

theorem vectorAddress_eq (m : MemOp) : vectorAddress m = memAddress m 64 := by
  simp only [vectorAddress]

/-- Settles O18. -/
theorem memoryAddresses : Obligations.MemoryAddresses := by
  unfold Obligations.MemoryAddresses
  refine ⟨fun m n s s1 s2 b x hb hx => memAddress_of_reads hb hx,
    fun ty d m s s1 ea ha hm hbad => load_misaligned ha hm hbad _,
    fun ty d m s s1 s2 ea v ha hm hv hbad => store_misaligned ha hm hbad hv _,
    fun f d m s s1 ea ha hm hbad => ⟨?_, ?_⟩, fun f d m s s1 s2 ea v ha hm hv hbad => ⟨?_, ?_⟩⟩
  · show execVldr f d m s = _
    simp only [execVldr, vectorAddress_eq]
    exact load_misaligned ha hm hbad _
  · show execVldc f d m s = _
    simp only [execVldc, vectorAddress_eq]
    exact load_misaligned ha hm hbad _
  · show execVstr f d m s = _
    simp only [execVstr, vectorAddress_eq]
    exact store_misaligned ha hm hbad hv _
  · show execVstc f d m s = _
    simp only [execVstc, vectorAddress_eq]
    exact store_misaligned ha hm hbad hv _

end Sys2Proof.Machine
end

section
namespace Sys2Proof.Machine

/-! ### Loads at issue (R252, R256, R378) -/

theorem translateA_besideWalks {s t : State} {va : Nat} {kind : AccessKind} {r : Xlated}
    (h : translateA va kind s = .ok (r, t)) : t.besideWalks = s.besideWalks := by
  simp only [translateA, Act.bind_apply, Act.get_apply, Act.set_apply, Act.pure_apply] at h
  cases h
  have hpage := findPage_besideWalks s s.issue.core s.issue.ctx false s.curTeam.asid.toNat va
  unfold State.translate
  split
  · rwa [‹s.findPage _ _ _ _ _ = _›] at hpage
  · rw [‹s.findPage _ _ _ _ _ = _›] at hpage
    split <;> exact hpage

/-- What resolves changes nothing but translations kept and traffic counted (R252). -/
theorem resolveVirtual_besideWalks {s t : State} {agent : Agent} {ea : W64} {kind : AccessKind} {pl : Place}
    (h : resolveVirtual agent ea kind s = .ok (pl, t)) : t.besideWalks = s.besideWalks := by
  unfold resolveVirtual at h
  by_cases hhigh : 2 ^ 56 ≤ ea.toNat
  · rw [if_pos hhigh] at h
    cases h
  rw [if_neg hhigh] at h
  by_cases hw : isWindow ea.toNat = true
  · rw [if_pos hw] at h
    simp only [Act.bind_apply, Act.get_apply, Act.getTeam_apply] at h
    cases hp : s.winPrecise s.curTeam agent ea.toNat with
    | some c =>
      rw [hp] at h
      cases h
    | none =>
      rw [hp] at h
      cases h
      rfl
  rw [if_neg hw] at h
  by_cases hfab : isFabric ea.toNat = true
  · rw [if_pos hfab] at h
    cases h
  rw [if_neg hfab, Act.bind_apply] at h
  split at h
  · have hx := translateA_besideWalks ‹translateA _ _ _ = _›
    split at h
    · cases h
      exact hx
    · cases h
  · cases h

theorem issue_of_besideWalks {s t : State} (h : t.besideWalks = s.besideWalks) : t.issue = s.issue :=
  congrArg (fun b : State × (Nat → Core) × (Nat → Nat → Ctx) => b.1.issue) h

theorem now_of_besideWalks {s t : State} (h : t.besideWalks = s.besideWalks) : t.now = s.now :=
  congrArg (fun b : State × (Nat → Core) × (Nat → Nat → Ctx) => b.1.now) h

theorem orderScope_eq (sp : Space) : orderScope sp = scopeOf sp := by
  cases sp with
  | virt => rfl
  | virtOrdered sc => rfl
  | own o l b => cases o <;> rfl

/-- A load's read goes behind the context's loads, and its destination takes the entry it will fill. -/
theorem queueLoad_apply {u : State} {kind : Nat → AccKind} {d : Dst} {acq : Option Scope} {x : Piece} :
    ∃ v, SetsCtx u v (u.cur.queuedLoad (kind u.cur.nextTag) acq [x]) ∧
      (do let tag ← freshTag
          pushAccess .load (kind tag) acq none [x] [] false []
          writeEntry d (.pending tag) : Act Unit) u =
        .ok ((), { v with issue := { v.issue with
          writes := v.issue.writes ++ [.scalar v.issue.cluster d (.pending u.cur.nextTag)] } }) := by
  let w := u.setCur { u.cur with nextTag := u.cur.nextTag + 1 }
  have hw : SetsCtx u w { u.cur with nextTag := u.cur.nextTag + 1 } := setsCtx_setCur u _
  refine ⟨w.setCur (u.cur.queuedLoad (kind u.cur.nextTag) acq [x]), hw.trans (setsCtx_setCur w _), ?_⟩
  simp only [freshTag, pushAccess, Act.bind_apply, Act.getCtx_apply, Act.setCtxA_apply, Act.pure_apply,
    Act.modCtxA_apply, Act.writeEntry_apply, State.cur_setCur, List.isEmpty_cons, List.isEmpty_nil,
    Bool.false_and, Bool.false_eq_true, ↓reduceIte]
  rfl

/-- LD of an address that is not of the own-scratchpad form. -/
def queueLoad (ty : ScalarTy) (d : Dst) (m : MemOp) : Act Unit := do
  let ea ← memAddress m (ScalarTy.size ty)
  alignCheck ea (ScalarTy.size ty)
  let pl ← resolveVirtual .load ea accRead
  let tag ← freshTag
  pushAccess .load (.loadScalar d.reg.toNat tag ty) (scopeOf m.space) none
    [⟨ea.toNat, some pl, 0, 0, ScalarTy.size ty⟩] [] false []
  writeEntry d (.pending tag)

theorem execLd_queues {ty : ScalarTy} {d : Dst} {m : MemOp} {s : State} (hsp : ∀ o l b, m.space ≠ .own o l b) :
    execLd ty d m s = concludeSyllable (queueLoad ty d m) s := by
  unfold execLd queueLoad
  rw [← orderScope_eq]
  cases hs : m.space with
  | own o l b => exact absurd hs (hsp o l b)
  | virt => rfl
  | virtOrdered sc => rfl

theorem admits_load {b : Buf} (hz : b ≠ .z) : admits .load b = true := by
  cases b with
  | w => rfl
  | y => rfl
  | z => exact absurd rfl hz

theorem ownAddress_fits {agent : Agent} {b : Buf} {ea : W64} {n : Nat} {s : State} (ha : admits agent b = true)
    (hfit : ea.toNat + n ≤ s.curTeam.bufSize b) :
    ownAddress agent b ea n s = .ok (s.curTeam.bufStart b + ea.toNat, s) := by
  have hnot : ¬ s.curTeam.bufSize b < ea.toNat + n := by omega
  simp only [ownAddress, Act.bind_apply, Act.getTeam_apply, Act.trapIf_apply, ha, hnot, Bool.not_true,
    Bool.false_eq_true, decide_false, ↓reduceIte, Act.pure_apply]

theorem ownAddress_protects {agent : Agent} {b : Buf} {ea : W64} {n : Nat} {s : State}
    (h : admits agent b = false ∨ s.curTeam.bufSize b < ea.toNat + n) :
    ownAddress agent b ea n s = .error (.trap causePROT ea) := by
  simp only [ownAddress, Act.bind_apply, Act.getTeam_apply, Act.trapIf_apply]
  cases ha : admits agent b with
  | false => simp only [Bool.not_false, ↓reduceIte]
  | true =>
    have hlong := h.resolve_left (by rw [ha]; decide)
    simp only [Bool.not_true, Bool.false_eq_true, hlong, decide_true, ↓reduceIte]

/-- A context with no access outstanding holds no own-scratchpad read back (R378). -/
theorem holdForOwn_passes {s : State} (hacc : s.cur.accesses = []) (ps : List Piece) :
    holdForOwn ps s = .ok ((), s) := by
  have hempty := hacc
  simp only [Ctx.accesses, List.append_eq_nil_iff] at hempty
  obtain ⟨⟨⟨hload, hstore⟩, hreplay⟩, hparked⟩ := hempty
  simp only [holdForOwn, Act.bind_apply, Act.get_apply, Act.holdUnless_apply, hacc, hload, hreplay, hparked,
    List.append_nil, List.all_nil, List.isEmpty_nil, Bool.and_self, ↓reduceIte]

/-- What a last use leaves of a core whose bytes were read (R229, R230). -/
def Core.ownRead (c : Core) (cyc a n : Nat) (lastUse : Bool) : Core :=
  if lastUse then (c.wake cyc a n).kill a n else c.wake cyc a n

/-- An own-scratchpad read of live bytes, at a context with no access outstanding and a port with no merge entry. -/
theorem loadOwn_reads {ty : ScalarTy} {d : Dst} {ea : W64} {l : Bool} {b : Buf} {u : State} (hz : b ≠ .z)
    (hfit : ea.toNat + ScalarTy.size ty ≤ u.curTeam.bufSize b) (hacc : u.cur.accesses = [])
    (hlive : (u.core u.issue.core).isDead (u.curTeam.bufStart b + ea.toNat) (ScalarTy.size ty) = false)
    (hred : ∀ e ∈ u.redEntries, e.core ≠ some u.issue.core) :
    let c := u.core u.issue.core
    let n := ScalarTy.size ty
    let a := u.curTeam.bufStart b + ea.toNat
    loadOwn ty d ea l b u = writeEntry d (.ready (loadValue ty (c.poolRead a n)) (c.poolPoison a n))
      (u.setCore u.issue.core (c.ownRead u.cycles a n l)) := by
  simp only [loadOwn, ownAddress_fits (admits_load hz) hfit, holdForOwn_passes hacc, checkLive, Act.bind_apply,
    Act.get_apply, Act.trapIf_apply, Act.set_apply, hlive, List.any_cons, List.any_nil, Bool.or_false,
    Bool.false_eq_true, ↓reduceIte, State.readSpot, State.readAt, State.flushSpot, State.flushReds_of_none hred]
  cases l with
  | false => rfl
  | true =>
    simp only [killOwn, ↓reduceIte, Act.modify_apply, State.modCore, State.setCore_issue, State.core_setCore_same,
      State.setCore_setCore, List.foldl_cons, List.foldl_nil, Core.ownRead]

section
variable {ty : ScalarTy} {d : Dst} {m : MemOp} {s s1 : State} {ea : W64} (hf : s.freshIssue = true)
  (hm : memAddress m (ScalarTy.size ty) s = .ok (ea, s1)) (hal : ea.toNat % ScalarTy.size ty = 0)
include hf hm hal

/-- LD of a virtual or window address. -/
theorem ld_queues {s2 : State} {pl : Place} (hsp : ∀ o l b, m.space ≠ .own o l b)
    (hr : resolveVirtual .load ea accRead s1 = .ok (pl, s2)) (ht : s2.cur.takes s.issue.cluster d = true) :
    ∃ t, execLd ty d m s = .next t ∧ Elsewhere s2 t ∧ t.mem = s.mem ∧
      t.cur = (((s2.cur.queuedLoad (.loadScalar d.reg.toNat s2.cur.nextTag ty) (scopeOf m.space)
        [⟨ea.toNat, some pl, 0, 0, ScalarTy.size ty⟩]).put s.issue.cluster d (.pending s2.cur.nextTag)).past
          s.issue.cluster s.now) := by
  have hread := memAddress_frame hm
  have hwalk := resolveVirtual_besideWalks hr
  obtain ⟨v, hv, hb⟩ := queueLoad_apply (u := s2) (kind := fun tag => .loadScalar d.reg.toNat tag ty) (d := d)
    (acq := scopeOf m.space) (x := ⟨ea.toNat, some pl, 0, 0, ScalarTy.size ty⟩)
  have hvi : v.issue = s1.issue := hv.issue.trans (issue_of_besideWalks hwalk)
  have hnow : v.now = s.now := hv.elsewhere.now.trans ((now_of_besideWalks hwalk).trans hread.elsewhere.now)
  have hmem : s2.mem = s.mem := (mem_of_besideWalks hwalk).trans hread.elsewhere.mem
  have htakes : v.cur.takes s.issue.cluster d = true := by rw [hv.cur]; exact ht
  have hb' : queueLoad ty d m s = .ok ((), { v with issue := { v.issue with
      writes := v.issue.writes ++ [.scalar v.issue.cluster d (.pending s2.cur.nextTag)] } }) := by
    rw [queueLoad, Act.bind_apply, hm]
    dsimp only
    rw [Act.bind_apply, alignCheck_aligned s1 hal]
    dsimp only
    rw [Act.bind_apply, hr]
    exact hb
  obtain ⟨t, ht, hte, htc⟩ := conclude_write hf (by rw [hvi]; exact hread.issue) hnow hb' htakes
  refine ⟨t, (execLd_queues hsp).trans ht, hv.elsewhere.trans hte (by rw [hv.issue]) (by rw [hv.issue]),
    hte.mem.trans (hv.elsewhere.mem.trans hmem), ?_⟩
  rw [htc, hv.cur]

omit hf in
/-- LD from the own scratchpad comes down to the read there. -/
theorem execLd_own {o l : Bool} {b : Buf} (hsp : m.space = .own o l b) :
    ∃ body : Act Unit, execLd ty d m s = concludeSyllable body s ∧ body s = loadOwn ty d ea l b s1 := by
  refine ⟨_, rfl, ?_⟩
  simp only [Act.bind_apply, hm, alignCheck_aligned s1 hal, hsp]

/-- LD from the own scratchpad, of bytes that no merge entry holds and whose granules are live. -/
theorem ld_readsOwn {o l : Bool} {b : Buf} (hsp : m.space = .own o l b) (hz : b ≠ .z)
    (hfit : ea.toNat + ScalarTy.size ty ≤ s1.curTeam.bufSize b) (hacc : s1.cur.accesses = [])
    (hlive : (s1.core s.issue.core).isDead (s1.curTeam.bufStart b + ea.toNat) (ScalarTy.size ty) = false)
    (hred : ∀ e ∈ s1.redEntries, e.core ≠ some s.issue.core) (ht : s1.cur.takes s.issue.cluster d = true) :
    let p := s.issue.core
    let n := ScalarTy.size ty
    let a := s1.curTeam.bufStart b + ea.toNat
    let s2 := s1.setCore p ((s1.core p).ownRead s.cycles a n l)
    ∃ t, execLd ty d m s = .next t ∧ Elsewhere s2 t ∧ t.mem = s.mem ∧
      t.cur = (s1.cur.put s.issue.cluster d (.ready (loadValue ty ((s1.core p).poolRead a n))
        ((s1.core p).poolPoison a n))).past s.issue.cluster s.now := by
  intro p n a s2
  have hread := memAddress_frame hm
  have hcycles : s1.cycles = s.cycles := congrArg (· / 72) hread.elsewhere.cycleAcc
  obtain ⟨body, hx, hb⟩ := execLd_own (d := d) hm hal hsp
  have hcur : s2.cur = s1.cur := by
    show s2.ctx s1.issue.core s1.issue.ctx = s1.ctx s1.issue.core s1.issue.ctx
    rw [hread.core]
    show (s2.core p).team.ctx s1.issue.ctx = _
    simp only [s2, State.core_setCore_same]
    cases l <;> rfl
  have hb' : body s = .ok ((), { s2 with issue := { s2.issue with writes := s2.issue.writes ++
      [.scalar s2.issue.cluster d (.ready (loadValue ty ((s1.core p).poolRead a n)) ((s1.core p).poolPoison a n))] } }) := by
    rw [hb, loadOwn_reads hz hfit hacc (by rw [hread.core]; exact hlive) (by rw [hread.core]; exact hred)]
    simp only [s2, p, ← hread.core, ← hcycles]
    rfl
  obtain ⟨t, hnext, hte, htc⟩ := conclude_write hf (u := s2) (d := d) hread.issue hread.elsewhere.now hb'
    (by rw [hcur]; exact ht)
  refine ⟨t, hx.trans hnext, hte, hte.mem.trans hread.elsewhere.mem, ?_⟩
  rw [htc, hcur]

/-- An LD of a buffer it may not read, or past its end (R221, R222). -/
theorem ld_protects {o l : Bool} {b : Buf} (hsp : m.space = .own o l b)
    (hbad : b = .z ∨ s1.curTeam.bufSize b < ea.toNat + ScalarTy.size ty) :
    execLd ty d m s = .next (s.trapHere causePROT ea) := by
  obtain ⟨halone, -, -, -⟩ := fresh_after hf (u := s) rfl
  obtain ⟨body, hx, hb⟩ := execLd_own (d := d) hm hal hsp
  refine hx.trans (conclude_trapHere halone (by decide) (hb.trans ?_))
  simp only [loadOwn, Act.bind_apply, ownAddress_protects (agent := .load) (s := s1) (hbad.imp (by rintro rfl; rfl) id)]

/-- An LD that meets a dead granule (R228). -/
theorem ld_bankDrops {o l : Bool} {b : Buf} (hsp : m.space = .own o l b) (hz : b ≠ .z)
    (hfit : ea.toNat + ScalarTy.size ty ≤ s1.curTeam.bufSize b) (hacc : s1.cur.accesses = [])
    (hdead : (s1.core s.issue.core).isDead (s1.curTeam.bufStart b + ea.toNat) (ScalarTy.size ty) = true) :
    execLd ty d m s = .next (s.trapHere causeBANKDROP ea) := by
  obtain ⟨halone, -, -, -⟩ := fresh_after hf (u := s) rfl
  obtain ⟨body, hx, hb⟩ := execLd_own (d := d) hm hal hsp
  refine hx.trans (conclude_trapHere halone (by decide) (hb.trans ?_))
  rw [← (memAddress_frame hm).core] at hdead
  simp only [loadOwn, Act.bind_apply, ownAddress_fits (admits_load hz) hfit, holdForOwn_passes hacc, checkLive,
    Act.get_apply, Act.trapIf_apply, List.any_cons, hdead, Bool.true_or, ↓reduceIte]

end

/-! ### The value LD pushes (R256) -/

theorem signedOf_eq_toInt {w : Nat} (hw : 0 < w) (n : Nat) : signedOf w n = (BitVec.ofNat w n).toInt := by
  have hpow : 2 ^ w = 2 * 2 ^ (w - 1) := by rw [← Nat.pow_succ']; congr 1; omega
  simp only [signedOf, BitVec.toInt, BitVec.toNat_ofNat]
  have hlt : (n % 2 ^ w < 2 ^ (w - 1)) = (2 * (n % 2 ^ w) < 2 ^ w) := by rw [hpow]; exact propext (by omega)
  simp only [hlt, Int.natCast_pow, Nat.cast_ofNat]

/-- The n types are zero-extended, the i types sign-extended. -/
theorem loadValue_eq (ty : ScalarTy) (bs : List Byte) : loadValue ty bs =
    match ty with
    | .n8 | .n16 | .n32 | .n64 => BitVec.ofNat 64 (leNat bs)
    | .i8 => (BitVec.ofNat 8 (leNat bs)).signExtend 64
    | .i16 => (BitVec.ofNat 16 (leNat bs)).signExtend 64
    | .i32 => (BitVec.ofNat 32 (leNat bs)).signExtend 64
    | .i64 => BitVec.ofNat 64 (leNat bs) := by
  have hsigned : ∀ w, 0 < w → BitVec.ofInt 64 (signedOf w (leNat bs)) = (BitVec.ofNat w (leNat bs)).signExtend 64 :=
    fun w hw => congrArg (BitVec.ofInt 64) (signedOf_eq_toInt hw _)
  cases ty with
  | n8 | n16 | n32 | n64 => rfl
  | i8 => exact hsigned 8 (by decide)
  | i16 => exact hsigned 16 (by decide)
  | i32 => exact hsigned 32 (by decide)
  | i64 => exact (hsigned 64 (by decide)).trans (BitVec.signExtend_eq _)

/-- Settles O19. -/
theorem loadIssues : Obligations.LoadIssues := by
  unfold Obligations.LoadIssues
  refine ⟨fun ty d m s s1 s2 ea pl hf hm hal hsp hr ht => ld_queues hf hm hal hsp hr ht, ?_,
    fun ty d m s s1 ea o l b hf hm hal hsp => ⟨ld_protects hf hm hal hsp, ld_bankDrops hf hm hal hsp⟩⟩
  intro ty d m s s1 s2 ea o l b bs bad hf hm hal hsp hz p n a hfit hacc hlive hred hbs hbad ht hs2
  rw [hs2, hbs, hbad]
  refine (ld_readsOwn (d := d) hf hm hal hsp hz hfit hacc hlive hred ht).imp fun t ⟨hnext, hte, hmem, hcur⟩ =>
    ⟨hnext, hte, hmem, hcur.trans (congrArg (fun v => (s1.cur.put s.issue.cluster d
      (.ready v ((s1.core p).poolPoison a n))).past s.issue.cluster s.now) (loadValue_eq ty _))⟩

end Sys2Proof.Machine
end

section
namespace Sys2Proof.Machine

/-! ### Stores at issue (R256, R378, R434) -/

theorem pairTerm_keeps (s : State) (p kind addr data : Nat) :
    (s.pairTerm p kind addr data).issue = s.issue ∧ (s.pairTerm p kind addr data).now = s.now ∧
      (s.pairTerm p kind addr data).mem = s.mem := by
  unfold State.pairTerm
  split
  · exact ⟨rfl, rfl, rfl⟩
  · exact ⟨rfl, rfl, rfl⟩

/-- A store's write goes behind the context's stores. -/
theorem queueStore_apply (u : State) (data : List Byte) (rel : Option Scope) (x : Piece) (l : Bool) (po : List Nat) :
    pushAccess .store (.store data) none rel [x] [] l po u =
      .ok ((), u.setCur (u.cur.queuedStore (.store data) none rel [x] l po)) := rfl

/-- No store fault that is pending is raised. -/
theorem raiseIfRelease_passes {s : State} {rel : Option Scope} (h : rel = none ∨ s.cur.storeFaults = []) :
    raiseIfRelease rel s = .ok ((), s) := by
  rcases h with rfl | h
  · rfl
  · cases rel with
    | none => rfl
    | some sc =>
      simp only [raiseIfRelease, Option.isSome_some, ↓reduceIte, raisePending, Act.bind_apply, Act.getCtx_apply, h,
        Act.pure_apply]

/-- Where ST writes: a place that is translated or in a window, or its own buffer's. -/
def storePlace (ty : ScalarTy) (m : MemOp) (ea : W64) : Act Place :=
  match m.space with
  | .own _ _ b => do return .pool (← ownAddress .store b ea (ScalarTy.size ty))
  | _ => resolveVirtual .store ea accWrite

/-- Whether an access is the last use of its bytes (R229). -/
def Space.lastUse : Space → Bool
  | .own _ l _ => l
  | _ => false

/-- The write of an ST whose place is known. -/
def queueStore (ty : ScalarTy) (m : MemOp) (ea v : W64) (bad : Bool) (pl : Place) : Act Unit := do
  raiseIfRelease (orderScope m.space)
  let s ← get
  let data := leBytes (ScalarTy.size ty) v.toNat
  let push := pushAccess .store (.store data) none (orderScope m.space) [⟨ea.toNat, some pl, 0, 0, ScalarTy.size ty⟩] []
    (Space.lastUse m.space) (if bad then [0] else [])
  if s.ownPlace s.issue.core pl then push
  else do
    set (s.pairTerm s.issue.core (sizeLog (ScalarTy.size ty)) ea.toNat (leNat data))
    if s.curTeam.suppressed then pure () else push

/-- ST: its address, its source, its place, its write. -/
def storeBody (ty : ScalarTy) (d : Src) (m : MemOp) : Act Unit := do
  let ea ← memAddress m (ScalarTy.size ty)
  let (v, bad) ← readSrcP d
  alignCheck ea (ScalarTy.size ty)
  let pl ← storePlace ty m ea
  queueStore ty m ea v bad pl

theorem execSt_eq (ty : ScalarTy) (d : Src) (m : MemOp) (s : State) :
    execSt ty d m s = concludeSyllable (storeBody ty d m) s := rfl

/-- The state in which a write has its place, or is folded into the signature of a later run (R434, R435). -/
def State.storing (u : State) (ty : ScalarTy) (m : MemOp) (ea v : W64) (bad : Bool) (pl : Place) : State :=
  let data := leBytes (ScalarTy.size ty) v.toNat
  let own := u.ownPlace u.issue.core pl
  let u1 := if own then u else u.pairTerm u.issue.core (sizeLog (ScalarTy.size ty)) ea.toNat (leNat data)
  if own || !u.suppressedHere then
    u1.setCur (u1.cur.queuedStore (.store data) none (scopeOf m.space) [⟨ea.toNat, some pl, 0, 0, ScalarTy.size ty⟩]
      (Space.lastUse m.space) (if bad then [0] else []))
  else u1

theorem queueStore_stores {ty : ScalarTy} {m : MemOp} {ea v : W64} {bad : Bool} {pl : Place} {u : State}
    (h : scopeOf m.space = none ∨ u.cur.storeFaults = []) :
    queueStore ty m ea v bad pl u = .ok ((), u.storing ty m ea v bad pl) := by
  rw [← orderScope_eq] at h
  have hsup : u.curTeam.suppressed = u.suppressedHere := rfl
  simp only [queueStore, Act.bind_apply, raiseIfRelease_passes h, Act.get_apply, State.storing, hsup, ← orderScope_eq]
  cases u.ownPlace u.issue.core pl with
  | true => exact queueStore_apply ..
  | false =>
    simp only [Bool.false_eq_true, ↓reduceIte, Act.bind_apply, Act.set_apply, Bool.false_or]
    cases u.suppressedHere with
    | true => rfl
    | false => exact queueStore_apply ..

section
variable {ty : ScalarTy} {d : Src} {m : MemOp} {s s1 s2 : State} {ea v : W64} {bad : Bool} (hf : s.freshIssue = true)
  (hm : memAddress m (ScalarTy.size ty) s = .ok (ea, s1)) (hv : readSrcP d s1 = .ok ((v, bad), s2))
  (hal : ea.toNat % ScalarTy.size ty = 0)
include hf hm hv hal

/-- ST whose place resolves. -/
theorem st_queues {s3 : State} {pl : Place} (hpl : storePlace ty m ea s2 = .ok (pl, s3))
    (hw : s3.besideWalks = s2.besideWalks) (hrel : scopeOf m.space = none ∨ s3.cur.storeFaults = []) :
    let p := s.issue.core
    let data := leBytes (ScalarTy.size ty) v.toNat
    let own := s3.ownPlace p pl
    let s4 := if own then s3 else s3.pairTerm p (sizeLog (ScalarTy.size ty)) ea.toNat (leNat data)
    ∃ t, execSt ty d m s = .next t ∧ Elsewhere s4 t ∧ t.mem = s.mem ∧
      t.cur = (if own || !s3.suppressedHere then
          s4.cur.queuedStore (.store data) none (scopeOf m.space) [⟨ea.toNat, some pl, 0, 0, ScalarTy.size ty⟩]
            (Space.lastUse m.space) (if bad then [0] else [])
        else s4.cur).past s.issue.cluster s.now := by
  intro p data own s4
  have hread := (memAddress_frame hm).trans (readSrcP_frame hv)
  have hcore : s3.issue.core = p := congrArg Issue.core (issue_of_besideWalks hw) |>.trans hread.core
  have h4 : s4.issue = s3.issue ∧ s4.now = s3.now ∧ s4.mem = s3.mem := by
    show (if own then s3 else s3.pairTerm _ _ _ _).issue = _ ∧ (if own then s3 else s3.pairTerm _ _ _ _).now = _ ∧
      (if own then s3 else s3.pairTerm _ _ _ _).mem = _
    split
    · exact ⟨rfl, rfl, rfl⟩
    · exact pairTerm_keeps ..
  obtain ⟨hi4, hn4, hm4⟩ := h4
  have hi := hi4.trans (issue_of_besideWalks hw)
  have hn := hn4.trans ((now_of_besideWalks hw).trans hread.elsewhere.now)
  have hmem := hm4.trans ((mem_of_besideWalks hw).trans hread.elsewhere.mem)
  let c := if own || !s3.suppressedHere then
      s4.cur.queuedStore (.store data) none (scopeOf m.space) [⟨ea.toNat, some pl, 0, 0, ScalarTy.size ty⟩]
        (Space.lastUse m.space) (if bad then [0] else [])
    else s4.cur
  have hset : SetsCtx s4 (s3.storing ty m ea v bad pl) c := by
    simp only [State.storing, hcore, c]
    split
    · exact setsCtx_setCur s4 _
    · exact SetsCtx.refl s4
  have hb : storeBody ty d m s = .ok ((), s3.storing ty m ea v bad pl) := by
    simp only [storeBody, Act.bind_apply, hm, hv, alignCheck_aligned s2 hal, hpl, queueStore_stores hrel]
  obtain ⟨t, ht, hte, htc⟩ := conclude_done hf (by rw [hset.issue, hi]; exact hread.issue)
    (hset.elsewhere.now.trans hn) hb
  exact ⟨t, (execSt_eq ..).trans ht, hset.elsewhere.trans hte (by rw [hset.issue]) (by rw [hset.issue]),
    hte.mem.trans (hset.elsewhere.mem.trans hmem), htc.trans (by rw [hset.cur])⟩

/-- ST of a buffer it may not write, or past its end (R221, R222). -/
theorem st_protects {o l : Bool} {b : Buf} (hsp : m.space = .own o l b)
    (hbad : b ≠ .y ∨ s2.curTeam.bufSize b < ea.toNat + ScalarTy.size ty) :
    execSt ty d m s = .next (s.trapHere causePROT ea) := by
  obtain ⟨halone, -, -, -⟩ := fresh_after hf (u := s) rfl
  have hplace : storePlace ty m ea s2 = .error (.trap causePROT ea) := by
    simp only [storePlace, hsp, Act.bind_apply, ownAddress_protects (agent := .store) (b := b) (s := s2)
      (hbad.imp beq_false_of_ne id)]
  rw [execSt_eq]
  exact conclude_trapHere halone (by decide)
    (by simp only [storeBody, Act.bind_apply, hm, hv, alignCheck_aligned s2 hal, hplace])

end

/-- Settles O20. -/
theorem storeIssues : Obligations.StoreIssues := by
  unfold Obligations.StoreIssues
  refine ⟨fun ty d m s s1 s2 s3 ea v bad pl hf hm hv hal hplace hrel => ?_,
    fun ty d m s s1 s2 ea v bad o l b hf hm hv hal hsp hbad => st_protects hf hm hv hal hsp hbad⟩
  have hpl : storePlace ty m ea s2 = .ok (pl, s3) ∧ s3.besideWalks = s2.besideWalks := by
    rcases hplace with ⟨hsp, hr⟩ | ⟨⟨o, l, hsp⟩, hfit, rfl, rfl⟩
    · refine ⟨?_, resolveVirtual_besideWalks hr⟩
      unfold storePlace
      cases hs : m.space with
      | own o l b => exact absurd hs (hsp o l b)
      | virt => exact hr
      | virtOrdered sc => exact hr
    · refine ⟨?_, rfl⟩
      simp only [storePlace, hsp, Act.bind_apply, ownAddress_fits (agent := .store) (b := .y) rfl hfit, Act.pure_apply]
  exact st_queues hf hm hv hal hpl.1 hpl.2 hrel

end Sys2Proof.Machine
end

section
namespace Sys2Proof.Machine

/-! ### A cluster that tries to issue (R159 to R164, R167) -/

section
variable {s : State} {p k : Nat} {cl : Cluster} (hres : (s.core p).resident = true)
  (hstop : (s.core p).stopping = false) (hhalt : (s.ctx p k).halted = false) (htrap : (s.ctx p k).trapDue = none)
  (hdue : (s.ctx p k).dueCause cl = none) (hfin : (s.ctx p k).finishing = none)
  (hcsr : (s.ctx p k).csrWaits = false) (hready : (Ctx.cluster (s.ctx p k) cl).ready = true)
include hres hstop hhalt htrap hdue hfin hcsr hready

/-- With nothing due before it, a cluster issues from its stream or from its bundle. -/
theorem issueAt_tries : issueAt exec s p k cl =
    if (s.ctx p k).apart then issueStream exec s p k cl else issueLockstep exec s p k cl := by
  simp only [issueAt, hres, hstop, hhalt, htrap, Bool.not_true, Bool.or_self, Option.isSome_none, Bool.false_eq_true,
    ↓reduceIte, hfin, hdue, ownTrapFirst, tryIssue, hcsr, hready]

variable {ms : List Mover} (ht : s.turn = .issue p k cl :: ms)
include ht

theorem step_tries : step s = if (s.ctx p k).apart then issueStream exec { s with turn := ms } p k cl
    else issueLockstep exec { s with turn := ms } p k cl := by
  have hmove : step s = issueAt exec { s with turn := ms } p k cl := by simp only [step, nextMove, ht, moveWith]
  exact hmove.trans (issueAt_tries (s := { s with turn := ms }) hres hstop hhalt htrap hdue hfin hcsr hready)

theorem step_stream (hapart : (s.ctx p k).apart = true) : step s = issueStream exec { s with turn := ms } p k cl :=
  (step_tries hres hstop hhalt htrap hdue hfin hcsr hready ht).trans (if_pos hapart)

theorem step_lockstep (hapart : (s.ctx p k).apart = false) :
    step s = issueLockstep exec { s with turn := ms } p k cl :=
  (step_tries hres hstop hhalt htrap hdue hfin hcsr hready ht).trans (if_neg (by rw [hapart]; decide))

end

/-- A syllable whose guard holds runs alone. -/
theorem issueAlone_runs {s : State} {p k : Nat} {cl : Cluster} {pc : W64} {x : Slot} {y : Syllable}
    (hx : x.syl = some y)
    (hg : ((s.beginSlot p k cl pc x.word true).pred y.guard.toNat != y.gneg) = true) :
    issueAlone exec s p k cl pc x = finishIssue (exec y.op (s.beginSlot p k cl pc x.word true)) := by
  simp only [issueAlone, hx, runGuarded, hg, ↓reduceIte]

/-- A syllable whose guard does not hold is passed. -/
theorem issueAlone_passes {s : State} {p k : Nat} {cl : Cluster} {pc : W64} {x : Slot} {y : Syllable}
    (hx : x.syl = some y)
    (hg : ((s.beginSlot p k cl pc x.word true).pred y.guard.toNat != y.gneg) = false) :
    issueAlone exec s p k cl pc x = finishIssue (concludeSyllable (pure ()) (s.beginSlot p k cl pc x.word true)) := by
  simp only [issueAlone, hx, runGuarded, hg, Bool.false_eq_true, ↓reduceIte]

theorem slotOf_decoded {w : W64} {y : Syllable} (h : decodeWord w = .ok y) : slotOf w = ⟨w, some y⟩ := by
  simp only [slotOf, h]

/-! ### A bundle in lockstep -/

theorem ready_not_waiting {x : ClusterState} (h : x.ready = true) : x.isWaiting = false := by
  unfold ClusterState.ready at h
  unfold ClusterState.isWaiting
  split at h
  · simp only [*]
  · simp only [*]
  · cases h

/-- A cluster that may issue stands at its own bundle. -/
theorem atBundle_self {c : Ctx} {cl : Cluster} (h : (Ctx.cluster c cl).ready = true) : c.atBundle cl cl = true := by
  simp only [Ctx.atBundle, ready_not_waiting h, Bool.not_false, beq_self_eq_true, Bool.and_self]

/-- A cluster's slot is among those of a bundle it stands at. -/
theorem here_find {c : Ctx} {cl : Cluster} {slots : List Slot} {x : Slot} (hat : c.atBundle cl cl = true)
    (hx : slots[Cluster.index cl]? = some x) :
    ((Cluster.all.zip slots).filter fun y => c.atBundle cl y.1).find? (fun y => y.1 == cl) = some (cl, x) := by
  rw [List.find?_filter]
  match cl, slots, hx with
  | .c, _ :: _, rfl => simp [Cluster.all, hat]
  | .a, _ :: _ :: _, rfl => simp [Cluster.all, hat]
  | .v, _ :: _ :: _ :: _, rfl => simp [Cluster.all, hat]
  | .m, _ :: _ :: _ :: _ :: _, rfl => simp [Cluster.all, hat]

theorem bundleTrap_none {s : State} {p k : Nat} {cl : Cluster} {slots : List Slot}
    (hd : debugSlots (s.ctx p k) (Ctx.cluster (s.ctx p k) cl).pc = []) (hb : badSlots (s.team p).vregs slots = []) :
    bundleTrap s p k cl slots = none := by
  simp only [bundleTrap, hd, hb, Ctx.blamed, List.find?_nil, Option.map_none]

/-- A loose bundle lets a cluster issue its own slot (R160). -/
theorem issueBundle_loose {s : State} {p k : Nat} {cl : Cluster} {pc : W64} {x0 x : Slot} {xs : List Slot}
    {y0 : Syllable} (hready : (Ctx.cluster (s.ctx p k) cl).ready = true) (h0 : x0.syl = some y0) (hy : y0.y = false)
    (hlate : isLate y0.op = false) (hsync : makesSync y0.op = false) (hclash : s.pushClash p k cl (x0 :: xs) = none)
    (hx : (x0 :: xs)[Cluster.index cl]? = some x) : issueBundle exec s p k cl pc (x0 :: xs) =
      if s.trapHeld p k cl (some x) then .next s
      else issueAlone exec s p k cl (pc + BitVec.ofNat 64 (8 * Cluster.index cl)) x := by
  simp only [issueBundle, h0, Option.map_some, Option.getD_some, hy, hlate, hsync, Bool.or_self, Bool.false_eq_true,
    ↓reduceIte, hclash, here_find (atBundle_self hready) hx]

/-- A TRAP whose guard does not hold is not held. -/
theorem trapHeld_guard {s : State} {p k : Nat} {cl : Cluster} {x : Slot} {y : Syllable} {pc w : W64}
    (hx : x.syl = some y) (hg : ((s.beginSlot p k cl pc w true).pred y.guard.toNat != y.gneg) = false) :
    s.trapHeld p k cl (some x) = false := by
  cases cl with
  | c =>
    have hguard : ((s.beginSlot p k .c 0 0 true).pred y.guard.toNat != y.gneg) = false := hg
    simp only [State.trapHeld, Option.bind_some, hx, hguard, Bool.and_false, Bool.false_and]
  | a | v | m => rfl

/-! ### Bundles that do not issue (R162) -/

/-- Where every cluster has still to issue its slot, the first of some slots is to blame. -/
theorem blamed_first {c : Ctx} {cl : Cluster} {i : Nat} {is : List Nat}
    (h : (Ctx.cluster c (clusterOfSlot i)).front ≤ (Ctx.cluster c cl).front) :
    c.blamed cl (i :: is) = some (i, c.atBundle cl (clusterOfSlot i)) := by
  simp only [Ctx.blamed, List.find?_cons, h, decide_true, Option.map_some]

theorem badSlots_lt {vregs i : Nat} {slots : List Slot} (h : i ∈ badSlots vregs slots) : i < slots.length := by
  obtain ⟨⟨x, j⟩, hmem, rfl⟩ := List.mem_map.1 h
  exact (List.mem_zipIdx' (List.mem_filter.1 hmem).1).1

theorem fetchSlots_word (c : Ctx) (pa : Nat) {i : Nat} (h : i < 4) :
    (((fetchSlots c pa)[i]?).map Slot.word).getD 0 = codeWord c (pa + 8 * i) := by
  simp [fetchSlots, h, slotOf]

/-- The bundle of a context whose clusters stand where those of another stand. -/
theorem atBundle_congr {c e : Ctx} (h : ∀ x, Ctx.cluster e x = Ctx.cluster c x) (cl x : Cluster) :
    e.atBundle cl x = c.atBundle cl x := by
  simp only [Ctx.atBundle, h]

theorem issueLockstep_fault {s s1 : State} {p k cause : Nat} {cl : Cluster} (hreach : beyondReach s p k cl = false)
    (hfetch : s.fetchAt p k (Ctx.cluster (s.ctx p k) cl).pc = (.bad cause, s1))
    (hfront : (Ctx.cluster (s1.ctx p k) .c).front ≤ (Ctx.cluster (s1.ctx p k) cl).front) :
    issueLockstep exec s p k cl = .next (if (s1.ctx p k).atBundle cl .c then
      s1.raise p k ⟨cause, (Ctx.cluster (s.ctx p k) cl).pc, .c, false⟩ else s) := by
  simp only [issueLockstep, hreach, Bool.false_eq_true, ↓reduceIte, hfetch, blamed_first (i := 0) hfront, clusterOfSlot]
  cases (s1.ctx p k).atBundle cl .c <;> rfl

theorem issueLockstep_illegal {s s1 : State} {p k pa i : Nat} {is : List Nat} {cached : Bool} {cl : Cluster}
    (hreach : beyondReach s p k cl = false)
    (hfetch : s.fetchAt p k (Ctx.cluster (s.ctx p k) cl).pc = (.ok pa cached, s1))
    (hd : debugSlots (s1.ctx p k) (Ctx.cluster (s1.ctx p k) cl).pc = [])
    (hb : badSlots (s1.team p).vregs (fetchSlots (s1.ctx p k) pa) = i :: is)
    (hfront : (Ctx.cluster (s1.ctx p k) (clusterOfSlot i)).front ≤ (Ctx.cluster (s1.ctx p k) cl).front) :
    issueLockstep exec s p k cl = .next (if (s1.ctx p k).atBundle cl (clusterOfSlot i) then
      s1.raise p k ⟨causeILLEGAL, codeWord (s1.ctx p k) (pa + 8 * i), clusterOfSlot i, false⟩ else s1) := by
  have hi : i < 4 := badSlots_lt (vregs := (s1.team p).vregs) (slots := fetchSlots (s1.ctx p k) pa)
    (by rw [hb]; exact List.mem_cons_self)
  have hdebug : (s1.ctx p k).blamed cl [] = none := rfl
  simp only [issueLockstep, hreach, Bool.false_eq_true, ↓reduceIte, hfetch, bundleTrap, hd, hdebug, hb,
    blamed_first hfront, fetchSlots_word _ _ hi]
  cases (s1.ctx p k).atBundle cl (clusterOfSlot i) <;> rfl

/-- Settles O4. -/
theorem streamStepRunsDecoded : Obligations.StreamStepRunsDecoded := by
  unfold Obligations.StreamStepRunsDecoded
  intro s s1 ms p k cl pa cached y ht hres hstop hhalt htrap hdue hfin hcsr hready hapart hfetch hdebug hdec hok s2
  have hstep : step s = issueAlone exec s1 p k cl (Ctx.cluster (s.ctx p k) cl).pc
      ⟨codeWord (s1.ctx p k) pa, some y⟩ := by
    refine (step_stream hres hstop hhalt htrap hdue hfin hcsr hready ht hapart).trans ?_
    have hfetch' : State.fetchAt { s with turn := ms } p k
        (Ctx.cluster (State.ctx { s with turn := ms } p k) cl).pc = (.ok pa cached, s1) := hfetch
    have hdebug' : (s1.ctx p k).debugs (Ctx.cluster (State.ctx { s with turn := ms } p k) cl).pc = false := hdebug
    simp only [issueStream, hfetch', hdebug', slotOf_decoded hdec, hok, Bool.false_eq_true, ↓reduceIte]
    rfl
  exact ⟨fun hg => hstep.trans (issueAlone_runs rfl hg), fun hg => hstep.trans (issueAlone_passes rfl hg)⟩

/-- Settles O5. -/
theorem looseStepRunsDecoded : Obligations.LooseStepRunsDecoded := by
  unfold Obligations.LooseStepRunsDecoded
  intro s s1 ms p k cl pa cached x0 x xs y0 y ht hres hstop hhalt htrap hdue hfin hcsr hready hapart pc hreach hfetch
    hsame hdebug hslots hbad h0 hy hlate hsync hclash hx hxy s2
  have hready1 : (Ctx.cluster (s1.ctx p k) cl).ready = true := by rw [hsame]; exact hready
  have hstep : step s = if s1.trapHeld p k cl (some x) then .next s1
      else issueAlone exec s1 p k cl (pc + BitVec.ofNat 64 (8 * Cluster.index cl)) x := by
    refine (step_lockstep hres hstop hhalt htrap hdue hfin hcsr hready ht hapart).trans ?_
    have hfetch' : State.fetchAt { s with turn := ms } p k
        (Ctx.cluster (State.ctx { s with turn := ms } p k) cl).pc = (.ok pa cached, s1) := hfetch
    simp only [issueLockstep, hreach, Bool.false_eq_true, ↓reduceIte, hfetch', hslots,
      bundleTrap_none (s := s1) (by rw [hsame]; exact hdebug) hbad]
    exact issueBundle_loose hready1 h0 hy hlate hsync hclash hx
  refine ⟨fun hheld => hstep.trans (if_pos hheld), fun hg hheld => ?_, fun hg => ?_⟩
  · exact (hstep.trans (if_neg (by rw [hheld]; decide))).trans (issueAlone_runs hxy hg)
  · exact (hstep.trans (if_neg (by rw [trapHeld_guard hxy hg]; decide))).trans (issueAlone_passes hxy hg)

/-- Settles O7. -/
theorem illegalSlotStopsBundle : Obligations.IllegalSlotStopsBundle := by
  unfold Obligations.IllegalSlotStopsBundle
  intro s s1 ms p k cl pa i is cached ht hres hstop hhalt htrap hdue hfin hcsr hready hapart pc hreach hsame hfront
  have hstep := step_lockstep hres hstop hhalt htrap hdue hfin hcsr hready ht hapart
  have hfront1 : ∀ x, (Ctx.cluster (s1.ctx p k) x).front ≤ (Ctx.cluster (s1.ctx p k) cl).front := fun x => by
    rw [hsame, hsame]
    exact hfront x
  refine ⟨fun cause hfetch => hstep.trans ?_, fun hfetch hdebug hbad => hstep.trans ?_⟩
  · rw [issueLockstep_fault (s := { s with turn := ms }) hreach hfetch (hfront1 .c), atBundle_congr hsame]
    rfl
  · rw [issueLockstep_illegal (s := { s with turn := ms }) hreach hfetch (by rw [hsame]; exact hdebug) hbad (hfront1 _),
      atBundle_congr hsame]

end Sys2Proof.Machine
end

section
namespace Sys2Proof.Machine

/-! ### Slots that issue together (R159, R160, R186) -/

/-- The cluster of a slot serves its context. -/
def Team.serving (q : Cluster) (k : Nat) (t : Team) : Team := { t with served := tput t.served (Cluster.index q) k }

theorem beginSlot_ctx (s : State) (p k : Nat) (q : Cluster) (pc w : W64) (alone : Bool) (j : Nat) :
    (s.beginSlot p k q pc w alone).ctx p j = s.ctx p j := modTeam_ctx (f := Team.serving q k) rfl p j

theorem beginSlot_now (s : State) (p k : Nat) (q : Cluster) (pc w : W64) (alone : Bool) :
    (s.beginSlot p k q pc w alone).now = s.now := rfl

theorem begunAll_eq (s : State) (p k : Nat) : s.begunAll p k = State.beginSlot (State.beginSlot (State.beginSlot
    (s.beginSlot p k .c 0 0 false) p k .a 0 0 false) p k .v 0 0 false) p k .m 0 0 false := by
  simp only [State.begunAll, Cluster.all, List.foldl_cons, List.foldl_nil]

theorem begunAll_now (s : State) (p k : Nat) : (s.begunAll p k).now = s.now := by
  simp only [begunAll_eq, beginSlot_now]

theorem beginSlot_mem (s : State) (p k : Nat) (q : Cluster) (pc w : W64) (alone : Bool) :
    (s.beginSlot p k q pc w alone).mem = s.mem := rfl

theorem begunAll_mem (s : State) (p k : Nat) : (s.begunAll p k).mem = s.mem := by
  simp only [begunAll_eq, beginSlot_mem]

theorem beginSlot_cycleAcc (s : State) (p k : Nat) (q : Cluster) (pc w : W64) (alone : Bool) :
    (s.beginSlot p k q pc w alone).cycleAcc = s.cycleAcc := rfl

theorem begunAll_cycles (s : State) (p k : Nat) : (s.begunAll p k).cycles = s.cycles := by
  simp only [State.cycles, begunAll_eq, beginSlot_cycleAcc]

theorem beginSlot_core (s : State) (p k : Nat) (q : Cluster) (pc w : W64) (alone : Bool) :
    (s.beginSlot p k q pc w alone).core p = { s.core p with team := (s.team p).serving q k } :=
  State.core_modTeam_same s p (Team.serving q k)

theorem beginSlot_team (s : State) (p k : Nat) (q : Cluster) (pc w : W64) (alone : Bool) :
    (s.beginSlot p k q pc w alone).team p = (s.team p).serving q k := State.team_modTeam_same s p (Team.serving q k)

theorem beginSlot_core_other (s : State) (p k : Nat) (q : Cluster) (pc w : W64) (alone : Bool) {r : Nat} (h : r ≠ p) :
    (s.beginSlot p k q pc w alone).core r = s.core r := State.core_setCore_other s p r _ h

theorem begunAll_commit (s : State) (p k : Nat) : ((s.begunAll p k).team p).commit = (s.team p).commit := by
  simp only [begunAll_eq, beginSlot_team, Team.serving]

/-- What a slot in a bundle has deferred or noted, at its own place. -/
def Issue.inSlot (x i : Issue) (p k : Nat) : Issue :=
  { i with
    core := p
    ctx := k
    alone := false
    writes := x.writes
    raised := x.raised
    blocked := x.blocked
    segClosed := x.segClosed
    spent := x.spent
    waits := x.waits }

/-- What the slots of a bundle have made of the machine and of the issue record (R186): their reads have moved the
context at issue, and the record holds what they have deferred or noted. -/
structure Joined (b v : State) (p k : Nat) (c : Ctx) (x : Issue) : Prop where
  elsewhere : Elsewhere b v
  baseCore : b.issue.core = p
  baseCtx : b.issue.ctx = k
  issue : v.issue = x.inSlot v.issue p k
  cur : v.cur = c

/-- The first slot begins. -/
theorem joined_first {s : State} (h : s.issue = Issue.idle) (p k : Nat) (q : Cluster) (pc w : W64) :
    Joined (s.beginSlot p k q 0 0 false) (s.beginSlot p k q pc w false) p k (s.ctx p k) Issue.idle := by
  refine ⟨elsewhere_issue (s.beginSlot p k q 0 0 false) _, rfl, rfl, ?_, beginSlot_ctx ..⟩
  simp only [State.beginSlot, h]
  rfl

section
variable {b v : State} {p k : Nat} {c : Ctx} {x : Issue} (h : Joined b v p k c x)
include h

theorem Joined.core : v.issue.core = p := congrArg Issue.core h.issue
theorem Joined.ctxId : v.issue.ctx = k := congrArg Issue.ctx h.issue
theorem Joined.alone : v.issue.alone = false := congrArg Issue.alone h.issue

theorem Joined.writes : v.issue.writes = x.writes := by rw [h.issue]; rfl
theorem Joined.waits : v.issue.waits = x.waits := by rw [h.issue]; rfl
theorem Joined.raised : v.issue.raised = x.raised := by rw [h.issue]; rfl
theorem Joined.blocked : v.issue.blocked = x.blocked := by rw [h.issue]; rfl
theorem Joined.segClosed : v.issue.segClosed = x.segClosed := by rw [h.issue]; rfl

theorem Joined.ctx : v.ctx p k = c := by
  have hcur := h.cur
  rw [State.cur, h.core, h.ctxId] at hcur
  exact hcur

/-- The next slot begins. -/
theorem Joined.begin (q : Cluster) (pc w : W64) :
    Joined (b.beginSlot p k q 0 0 false) (v.beginSlot p k q pc w false) p k c x := by
  have hctx := h.ctx
  obtain ⟨he, hp, hk, hi, -⟩ := h
  refine ⟨?_, rfl, rfl, ?_, (beginSlot_ctx ..).trans hctx⟩
  · have hcore := he.core
    have hteam := he.team
    rw [hp] at hcore hteam
    refine { he with cores := fun r hr => ?_, core := ?_, team := ?_, ctxs := fun j hj => ?_ }
    · have hr' : r ≠ p := hr
      rw [beginSlot_core_other _ _ _ _ _ _ _ hr', beginSlot_core_other _ _ _ _ _ _ _ hr']
      exact he.cores r (by rw [hp]; exact hr')
    · refine (beginSlot_core v p k q pc w false).trans ?_
      show _ = { (b.beginSlot p k q 0 0 false).core p with team := (v.beginSlot p k q pc w false).team p }
      rw [beginSlot_core, beginSlot_team, hcore]
    · refine (beginSlot_team v p k q pc w false).trans ?_
      show _ = { (b.beginSlot p k q 0 0 false).team p with ctxs := ((v.beginSlot p k q pc w false).team p).ctxs }
      rw [beginSlot_team, beginSlot_team, hteam]
      rfl
    · refine (beginSlot_ctx v p k q pc w false j).trans (Eq.trans ?_ (beginSlot_ctx b p k q 0 0 false j).symm)
      have hother := he.ctxs j (by rw [hk]; exact hj)
      rwa [hp] at hother
  · simp only [State.beginSlot]
    rw [hi]
    rfl

/-- The slot reads sources. -/
theorem Joined.reads {u : State} (hu : ReadFrame v u) : Joined b u p k u.cur x := by
  refine ⟨h.elsewhere.trans hu.elsewhere (h.core.trans h.baseCore.symm) (h.ctxId.trans h.baseCtx.symm), h.baseCore,
    h.baseCtx, ?_, rfl⟩
  rw [hu.issue, h.issue]
  rfl

/-- The slot notes something in the record. -/
theorem Joined.noting (y : Issue) : Joined b { v with issue := y.inSlot v.issue p k } p k c y :=
  have hctx : v.ctx p k = c := h.ctx
  ⟨h.elsewhere.trans (elsewhere_issue v _) (h.core.trans h.baseCore.symm) (h.ctxId.trans h.baseCtx.symm),
    h.baseCore, h.baseCtx, rfl, hctx⟩

/-- The slot defers writes. -/
theorem Joined.writing (ds : List Deferred) : Joined b (v.writing ds) p k c { x with writes := ds } := by
  have hw : v.writing ds = { v with issue := ({ x with writes := ds } : Issue).inSlot v.issue p k } := by
    show { v with issue := { v.issue with writes := ds } } = _
    rw [h.issue]
    rfl
  rw [hw]
  exact h.noting _

/-- The slot notes a cause, the first of its bundle (R394). -/
theorem Joined.notes (hr : x.raised = none) (r : CauseRec) :
    Joined b (v.noteCause r false) p k c { x with raised := some r, spent := false } := by
  have hv : v.noteCause r false =
      { v with issue := ({ x with raised := some r, spent := false } : Issue).inSlot v.issue p k } := by
    have hraised : (x.inSlot v.issue p k).raised = none := hr
    rw [State.noteCause, h.issue, Issue.note, hraised]
    rfl
  rw [hv]
  exact h.noting _

/-- A later slot's cause is not noted where an earlier one has a precise one (R394). -/
theorem Joined.noted {r : CauseRec} (hr : x.raised = some r) (ha : r.async = false) (r' : CauseRec) :
    v.noteCause r' false = v := by
  have hraised : v.issue.raised = some r := h.raised.trans hr
  rw [State.noteCause, Issue.note, hraised]
  simp only [ha, Bool.false_and, Bool.false_eq_true, ↓reduceIte]

/-- The slot stalls (R188). -/
theorem Joined.blocks (y : List (Cluster × Option (Bool × Nat))) :
    Joined b { v with issue := { v.issue with blocked := v.issue.blocked ++ y } } p k c
      { x with blocked := x.blocked ++ y } := by
  rw [h.issue]
  exact h.noting { x with blocked := x.blocked ++ y }

/-- The slot begins a wait (R214). -/
theorem Joined.beginsWait (y : List (Cluster × WaitFor × List Popped)) :
    Joined b { v with issue := { v.issue with waits := v.issue.waits ++ y } } p k c { x with waits := x.waits ++ y } := by
  rw [h.issue]
  exact h.noting { x with waits := x.waits ++ y }

/-- The context at issue is modified. -/
theorem Joined.mods (f : Ctx → Ctx) : Joined b (v.modCtx p k f) p k (f c) x := by
  have hset : v.modCtx p k f = v.setCur (f v.cur) := by
    rw [State.modCtx, h.ctx, State.setCur, h.core, h.ctxId, h.cur]
  rw [hset, h.cur]
  exact ⟨h.elsewhere.trans (elsewhere_setCur v _ v.issue) (h.core.trans h.baseCore.symm)
    (h.ctxId.trans h.baseCtx.symm), h.baseCore, h.baseCtx, h.issue, State.cur_setCur v _⟩

/-- The bundle is a rendezvous: its registers are bound to none (R166). -/
theorem Joined.unbinds : Joined b (v.modCtx p k Ctx.unbind) p k c.unbind x := h.mods Ctx.unbind

end

/-! ### Running the slots in order -/

/-- In a bundle a syllable that completes leaves what it deferred. -/
theorem conclude_joins {body : Act Unit} {s u : State} (ha : s.issue.alone = false) (hb : body s = .ok ((), u)) :
    concludeSyllable body s = .next u := by
  simp only [concludeSyllable, hb, ha, Bool.false_eq_true, ↓reduceIte]

/-- One that traps leaves its cause, and its reads undone (R186, R394). -/
theorem conclude_notes {body : Act Unit} {s : State} {cause : Nat} {w : W64} (ha : s.issue.alone = false)
    (hb : body s = .error (.trap cause w)) :
    concludeSyllable body s = .next (s.noteCause ⟨cause, w, s.issue.cluster, false⟩ false) := by
  simp only [concludeSyllable, hb, ha, Bool.false_eq_true, ↓reduceIte]

/-- One that stalls says on what (R188). -/
theorem conclude_blocks {body : Act Unit} {s : State} {room : Bool} {r : Nat} (ha : s.issue.alone = false)
    (hb : body s = .error (.stall room r)) : concludeSyllable body s =
      .next { s with issue := { s.issue with blocked := s.issue.blocked ++ [(s.issue.cluster, some (room, r))] } } := by
  simp only [concludeSyllable, hb, ha, Bool.false_eq_true, ↓reduceIte]

section
variable {v : State} {p k : Nat} {pc : W64} {q : Cluster} {rest : List (Cluster × Slot)}

/-- A slot whose guard does not hold does nothing (R148). -/
theorem runSlots_passes {x : Slot} {y : Syllable} (hx : x.syl = some y)
    (hg : (v.beginSlot p k q (pc + BitVec.ofNat 64 (8 * Cluster.index q)) x.word false).pred y.guard.toNat = y.gneg) :
    runSlots exec p k pc ((q, x) :: rest) v =
      runSlots exec p k pc rest (v.beginSlot p k q (pc + BitVec.ofNat 64 (8 * Cluster.index q)) x.word false) := by
  have hpass := conclude_joins (body := pure ())
    (s := v.beginSlot p k q (pc + BitVec.ofNat 64 (8 * Cluster.index q)) x.word false) rfl rfl
  simp only [runSlots, hx, runGuarded, hg, bne_self_eq_false, Bool.false_eq_true, ↓reduceIte, hpass]

variable {w : W64} {i : Instr}

/-- A slot under guard p0 runs its syllable. -/
theorem runSlots_next {u : State}
    (hi : exec i (v.beginSlot p k q (pc + BitVec.ofNat 64 (8 * Cluster.index q)) w false) = .next u) :
    runSlots exec p k pc ((q, ⟨w, some ⟨false, 0, false, i⟩⟩) :: rest) v = runSlots exec p k pc rest u := by
  have hg' : (t : State) → (t.pred ((0 : Pred).toNat) != false) = true := fun t => rfl
  simp only [runSlots, runGuarded, hg', ↓reduceIte, hi]

theorem runSlots_nop : runSlots exec p k pc ((q, ⟨w, some ⟨false, 0, false, .nop⟩⟩) :: rest) v =
    runSlots exec p k pc rest (v.beginSlot p k q (pc + BitVec.ofNat 64 (8 * Cluster.index q)) w false) :=
  runSlots_next (show execNop _ = _ from conclude_joins rfl rfl)

end

/-! ### What a bundle's slots come to (R160, R186, R394) -/

/-- Where every write settles, none is listed. -/
theorem settleEach_of_settleAll {s t : State} {ds : List Deferred} (h : settleAll s ds = .ok t) :
    settleEach s ds = (t, []) := by
  induction ds generalizing s with
  | nil => cases h; rfl
  | cons d ds ih =>
    simp only [settleAll] at h
    cases hd : settleOne s d with
    | error e => rw [hd] at h; cases h
    | ok u =>
      rw [hd] at h
      simp only [settleEach, hd]
      exact ih h

/-- Counters and waits after writes have settled (R160, R161, R393). -/
def Ctx.settled (e old : Ctx) (cls : List Cluster) (moved : Bool) (ws : List (Cluster × WaitFor × List Popped)) : Ctx :=
  ws.foldl (Ctx.enterWait old · moved ·)
    (if moved then e else cls.foldl (fun c cl => if ws.any (fun w => w.1 == cl) then c else c.advance cl) e)

/-- ISSUED counts the slots of a bundle (R210). -/
def Ctx.countedAll (c : Ctx) (now : Nat) : Ctx := { c with issued := c.issued + 4, lastIssue := now }

theorem settle_eq {s t : State} (h : settleAll s s.issue.writes = .ok t) (hx : trapAfterOf s.issue.writes = none) :
    s.settle Cluster.all = .ok { t.setCur ((t.cur.settled s.cur Cluster.all (s.issue.writes.any Deferred.moves)
      t.issue.waits).countedAll t.now) with issue := { t.issue with writes := [], popped := [], waits := [] } } := by
  simp only [State.settle, h, hx]
  rfl

section
variable {b v : State} {p k : Nat} {c e : Ctx} {x : Issue} (h : Joined b v p k c x)
include h

/-- The writes of a bundle settle. -/
theorem Joined.settles (hs : Settles v x.writes e) (hx : trapAfterOf x.writes = none) :
    ∃ t, v.settle Cluster.all = .ok t ∧ (settleEach v v.issue.writes).2 = [] ∧
      Joined b t p k ((e.settled c Cluster.all (x.writes.any Deferred.moves) x.waits).countedAll b.now)
        { x with writes := [], waits := [] } := by
  have hw := h.writes
  obtain ⟨t, ht, hte, hti, htc⟩ := hs
  have hwait : t.issue.waits = x.waits := (congrArg Issue.waits hti).trans h.waits
  have hnow : t.now = b.now := hte.now.trans h.elsewhere.now
  have hbt : Elsewhere b t := h.elsewhere.trans hte (h.core.trans h.baseCore.symm) (h.ctxId.trans h.baseCtx.symm)
  have htcore : t.issue.core = p := (congrArg Issue.core hti).trans h.core
  have htid : t.issue.ctx = k := (congrArg Issue.ctx hti).trans h.ctxId
  refine ⟨_, settle_eq (by rw [hw]; exact ht) (by rw [hw]; exact hx), ?_, ?_⟩
  · rw [hw, settleEach_of_settleAll ht]
  · refine ⟨hbt.trans (elsewhere_setCur t _ _) (htcore.trans h.baseCore.symm) (htid.trans h.baseCtx.symm), h.baseCore,
      h.baseCtx, ?_, ?_⟩
    · show ({ t.issue with writes := [], popped := [], waits := [] } : Issue) = _
      rw [hti, h.issue]
      rfl
    · refine (State.cur_setCur t _).trans ?_
      rw [htc, h.cur, hw, hwait, hnow]

/-- The step that ends a bundle leaves no syllable at issue. -/
theorem Joined.ends : v.endIssue.issue = Issue.idle ∧ Elsewhere b v.endIssue ∧ v.endIssue.ctx p k = c :=
  ⟨rfl, h.elsewhere.trans (elsewhere_issue v _) (h.core.trans h.baseCore.symm) (h.ctxId.trans h.baseCtx.symm), h.ctx⟩

end

section
variable {s v : State} {p k : Nat} {pc : W64} {cls : List (Cluster × Slot)} {c e : Ctx} {x : Issue} {split : Bool}
  (hrun : runSlots exec p k pc cls s.endIssue = .next v) (hj : Joined (s.begunAll p k) v p k c x)
include hrun hj

/-- Slots of which none stalls and none traps end in what settling their writes gives. -/
theorem issueTogether_settle {t : State} (hcls : cls.map Prod.fst = Cluster.all) (hb : x.blocked = [])
    (hr : x.raised = none) (hstops : (settleEach (v.modCtx p k Ctx.unbind) x.writes).2 = [])
    (ht : (v.modCtx p k Ctx.unbind).settle Cluster.all = .ok t) : issueTogether exec s p k pc cls split true =
      .next ((if split then t.modCtx p k fun c => restNops c cls else t).endIssue) := by
  have hu := hj.unbinds
  have hblocked : (v.modCtx p k Ctx.unbind).issue.blocked = [] := hu.blocked.trans hb
  have hraised : (v.modCtx p k Ctx.unbind).issue.raised = none := hu.raised.trans hr
  have hwrites : (v.modCtx p k Ctx.unbind).issue.writes = x.writes := hu.writes
  simp only [issueTogether, hrun, ↓reduceIte, hblocked, hwrites, hstops, hraised, List.isEmpty_nil, List.any_nil,
    List.findSome?_nil, Bool.not_true, Bool.or_self, Bool.false_eq_true, lowerCause, hcls, ht]

/-- Writes that set the context at issue leave it as they say. -/
theorem issueTogether_settles (hcls : cls.map Prod.fst = Cluster.all) (hb : x.blocked = []) (hr : x.raised = none)
    (hs : ∀ u, u.cur = c.unbind → Settles u x.writes e) (hx : trapAfterOf x.writes = none) :
    ∃ t, issueTogether exec s p k pc cls split true =
        .next ((if split then t.modCtx p k fun c => restNops c cls else t).endIssue) ∧
      Joined (s.begunAll p k) t p k
        ((e.settled c.unbind Cluster.all (x.writes.any Deferred.moves) x.waits).countedAll s.now)
        { x with writes := [], waits := [] } := by
  have hu := hj.unbinds
  obtain ⟨t, ht, hstops, htj⟩ := hu.settles (hs _ hu.cur) hx
  rw [begunAll_now] at htj
  rw [hu.writes] at hstops
  exact ⟨t, issueTogether_settle hrun hj hcls hb hr hstops ht, htj⟩

/-- What a bundle that splits no context comes to. -/
theorem issueTogether_ends (hcls : cls.map Prod.fst = Cluster.all) (hb : x.blocked = []) (hr : x.raised = none)
    (hs : ∀ u, u.cur = c.unbind → Settles u x.writes e) (hx : trapAfterOf x.writes = none) :
    ∃ u, issueTogether exec s p k pc cls false true = .next u ∧ u.issue = Issue.idle ∧ Elsewhere (s.begunAll p k) u ∧
      u.ctx p k = (e.settled c.unbind Cluster.all (x.writes.any Deferred.moves) x.waits).countedAll s.now := by
  obtain ⟨t, ht, htj⟩ := issueTogether_settles (split := false) hrun hj hcls hb hr hs hx
  rw [if_neg (by decide)] at ht
  exact ⟨t.endIssue, ht, htj.ends⟩

/-- A bundle that leaves no wait has issued in full. -/
theorem issueTogether_issues (hcls : cls.map Prod.fst = Cluster.all) (hb : x.blocked = []) (hr : x.raised = none)
    (hs : ∀ u, u.cur = c.unbind → Settles u x.writes e) (hx : trapAfterOf x.writes = none) (hw : x.waits = []) :
    ∃ u, issueTogether exec s p k pc cls false true = .next u ∧
      BundleIssued s p k (if x.writes.any Deferred.moves then e else e.pastBundle) u := by
  obtain ⟨u, hnext, hidle, helse, hctx⟩ := issueTogether_ends hrun hj hcls hb hr hs hx
  refine ⟨u, hnext, hidle, helse, hctx.trans ?_⟩
  rw [hw]
  rfl

/-- The cause of a slot is taken, and the other slots have done nothing (R394). -/
theorem issueTogether_raises {r : CauseRec} (hb : x.blocked = []) (hr : x.raised = some r) (ha : r.async = false)
    (hseg : x.segClosed = false) (hs : ∀ u, u.cur = c.unbind → ∃ e, Settles u x.writes e) :
    issueTogether exec s p k pc cls split true = .next (s.raise p k r).endIssue := by
  have hu := hj.unbinds
  obtain ⟨e, t, ht, -⟩ := hs _ hu.cur
  have hstops : (settleEach (v.modCtx p k Ctx.unbind) (v.modCtx p k Ctx.unbind).issue.writes).2 = [] := by
    rw [hu.writes, settleEach_of_settleAll ht]
  have hblocked : (v.modCtx p k Ctx.unbind).issue.blocked = [] := hu.blocked.trans hb
  have hraised : (v.modCtx p k Ctx.unbind).issue.raised = some r := hu.raised.trans hr
  have hclosed : (v.modCtx p k Ctx.unbind).issue.segClosed = false := hu.segClosed.trans hseg
  simp only [issueTogether, hrun, ↓reduceIte, hblocked, hstops, hraised, hclosed, ha, List.isEmpty_nil, List.any_nil,
    List.findSome?_nil, Bool.not_true, Bool.or_self, Bool.false_and, Bool.false_eq_true, lowerCause]

/-- A slot that stalls holds the others (R188). -/
theorem issueTogether_stalls {q : Cluster} {room : Bool} {r : Nat} (hb : x.blocked = [(q, some (room, r))])
    (hs : ∀ u, u.cur = c.unbind → ∃ e, Settles u x.writes e) : issueTogether exec s p k pc cls split true =
      .next (s.modCtx p k (markStalls (cls.map Prod.fst) [(q, some (room, r))] [])).endIssue := by
  have hu := hj.unbinds
  obtain ⟨e, t, ht, -⟩ := hs _ hu.cur
  have hstops : (settleEach (v.modCtx p k Ctx.unbind) (v.modCtx p k Ctx.unbind).issue.writes).2 = [] := by
    rw [hu.writes, settleEach_of_settleAll ht]
  have hblocked : (v.modCtx p k Ctx.unbind).issue.blocked = [(q, some (room, r))] := hu.blocked.trans hb
  simp only [issueTogether, hrun, ↓reduceIte, hblocked, hstops, List.isEmpty_cons, Bool.not_false, Bool.true_or]

end

end Sys2Proof.Machine
end

section
namespace Sys2Proof.Machine

/-! ### Sync bundles (R160, R163, R166, R186, R203 to R207) -/

theorem endIssue_idle {s : State} (h : s.issue = Issue.idle) : s.endIssue = s := by
  rw [State.endIssue, ← h]

theorem slotPc_c (pc : W64) : pc + BitVec.ofNat 64 (8 * Cluster.index .c) = pc := BitVec.add_zero pc

theorem slotTarget_c (s : State) (p k : Nat) (pc w : W64) (disp : BitVec 32) :
    (s.beginSlot p k .c pc w false).brTarget disp = slotTarget pc .c disp := by
  rw [slotTarget, slotPc_c]
  rfl

theorem writing_nil {u : State} (h : u.issue.writes = []) : u.writing [] = u := by
  rw [State.writing, ← h]

theorem bundleOf_clusters (i : Cluster → Instr) (w : Cluster → W64) : (bundleOf i w).map Prod.fst = Cluster.all := rfl

/-- One slot of a bundle: its syllable under guard p0. -/
def slotAt (q : Cluster) (w : W64) (i : Instr) : Cluster × Slot := (q, ⟨w, some ⟨false, 0, false, i⟩⟩)

theorem bundleOf_eq (i : Cluster → Instr) (w : Cluster → W64) : bundleOf i w =
    [slotAt .c (w .c) (i .c), slotAt .a (w .a) (i .a), slotAt .v (w .v) (i .v), slotAt .m (w .m) (i .m)] := rfl

section
variable {s : State} {p k : Nat} {pc : W64} {w : Cluster → W64} {i : Instr} (hidle : s.issue = Issue.idle)
include hidle

/-- Syllables in slots C and A run in that order; NOPs fill the bundle. -/
theorem twoSlots_run {j : Instr} {v1 v2 : State} {c : Ctx} {x : Issue}
    (h1 : exec i (s.beginSlot p k .c pc (w .c) false) = .next v1)
    (h2 : exec j (v1.beginSlot p k .a (pc + 8) (w .a) false) = .next v2)
    (hj : Joined (State.beginSlot (s.beginSlot p k .c 0 0 false) p k .a 0 0 false) v2 p k c x) :
    ∃ v, runSlots exec p k pc (bundleOf (inSlots i j .nop .nop) w) s.endIssue = .next v ∧
      Joined (s.begunAll p k) v p k c x := by
  have hv := hj.begin .v (pc + BitVec.ofNat 64 (8 * Cluster.index .v)) (w .v)
  have hm := hv.begin .m (pc + BitVec.ofNat 64 (8 * Cluster.index .m)) (w .m)
  rw [← begunAll_eq] at hm
  refine ⟨_, ?_, hm⟩
  rw [endIssue_idle hidle, bundleOf_eq]
  refine (runSlots_next (by rw [slotPc_c]; exact h1)).trans ((runSlots_next h2).trans ?_)
  exact runSlots_nop.trans (runSlots_nop.trans rfl)

/-- A syllable in slot C runs; NOPs fill the bundle. -/
theorem oneSlot_runs {v : State} {c : Ctx} {x : Issue}
    (h : exec i (s.beginSlot p k .c pc (w .c) false) = .next v)
    (hj : Joined (s.beginSlot p k .c 0 0 false) v p k c x) :
    ∃ v, runSlots exec p k pc (bundleOf (inSlots i .nop .nop .nop) w) s.endIssue = .next v ∧
      Joined (s.begunAll p k) v p k c x :=
  twoSlots_run hidle h (show execNop _ = _ from conclude_joins rfl rfl) (hj.begin .a (pc + 8) (w .a))

/-- A syllable in slot C that reads sources and defers writes: they settle, and the bundle has issued in full. -/
theorem oneSlot_issues {body : Act Unit} {u : State} {ds : List Deferred} {e : Ctx}
    (hx : ∀ v, exec i v = concludeSyllable body v)
    (hu : ReadFrame (s.beginSlot p k .c pc (w .c) false) u)
    (hb : body (s.beginSlot p k .c pc (w .c) false) = .ok ((), u.writing ds))
    (hs : ∀ t, t.cur = u.cur.unbind → Settles t ds e) (htrap : trapAfterOf ds = none) :
    ∃ t, issueTogether exec s p k pc (bundleOf (inSlots i .nop .nop .nop) w) false true = .next t ∧
      BundleIssued s p k (if ds.any Deferred.moves then e else e.pastBundle) t := by
  have hj := joined_first hidle p k .c pc (w .c)
  obtain ⟨v, hv, hvj⟩ := oneSlot_runs hidle ((hx _).trans (conclude_joins hj.alone hb)) ((hj.reads hu).writing ds)
  exact issueTogether_issues hv hvj (bundleOf_clusters ..) rfl rfl hs htrap rfl

/-- A syllable in slot C that traps: its cause is taken. -/
theorem oneSlot_raises {body : Act Unit} {cause : Nat} {a : W64} (hx : ∀ v, exec i v = concludeSyllable body v)
    (hb : body (s.beginSlot p k .c pc (w .c) false) = .error (.trap cause a)) :
    issueTogether exec s p k pc (bundleOf (inSlots i .nop .nop .nop) w) false true =
      .next (s.raise p k ⟨cause, a, .c, false⟩).endIssue := by
  have hj := joined_first hidle p k .c pc (w .c)
  obtain ⟨v, hv, hvj⟩ := oneSlot_runs hidle ((hx _).trans (conclude_notes hj.alone hb)) (hj.notes rfl _)
  exact issueTogether_raises hv hvj rfl rfl rfl rfl fun u _ => ⟨_, settles_nil u⟩

end

end Sys2Proof.Machine
end

section
namespace Sys2Proof.Machine

/-! ### Transfers of a sync bundle (R161, R203, R207) -/

theorem exec_br_eq (disp : BitVec 32) (v : State) :
    exec (.br disp) v = concludeSyllable (do jumpTo (brTarget (← pcOf) disp)) v := rfl

theorem exec_brq_eq (sense : Bool) (disp : BitVec 32) (v : State) : exec (.brq sense disp) v =
    concludeSyllable (do
      let pc ← pcOf
      let b ← readSrc ⟨.pop, bqReg⟩
      if (b != 0) != sense then jumpTo (brTarget pc disp)) v := rfl

theorem exec_call_eq (d : Dst) (disp : BitVec 32) (v : State) : exec (.call d disp) v =
    concludeSyllable (do
      let s ← get
      jumpTo (brTarget s.issue.pc disp)
      writeDst d s.returnAddress) v := rfl

section
variable {s : State} {p k : Nat} {pc : W64} {w : Cluster → W64} (hidle : s.issue = Issue.idle)
include hidle

/-- A slot C that transfers to an aligned target moves all four counters (R203). -/
theorem oneSlot_jumps {i : Instr} {body : Act Unit} {u : State} {target : W64}
    (hx : ∀ v, exec i v = concludeSyllable body v) (hu : ReadFrame (s.beginSlot p k .c pc (w .c) false) u)
    (hb : body (s.beginSlot p k .c pc (w .c) false) = jumpTo target u) (hok : (s.ctx p k).targetOk target = true) :
    ∃ t, issueTogether exec s p k pc (bundleOf (inSlots i .nop .nop .nop) w) false true = .next t ∧
      BundleIssued s p k (u.cur.unbind.transferred .c target) t := by
  have hj := (joined_first hidle p k .c pc (w .c)).reads hu
  have hcl : u.issue.cluster = .c := hu.cluster
  have hok' : u.cur.targetOk target = true := by
    rw [hu.targetOk, (joined_first hidle p k .c pc (w .c)).cur]
    exact hok
  refine oneSlot_issues (ds := [.jump .c target]) hidle hx hu ?_ (fun t ht => ?_) rfl
  · rw [hb, jumpTo_ok hok', Act.defer_apply, hj.writes, hcl]
    rfl
  · rw [← ht]
    exact settles_jump t .c target

/-- BR, aligned and not. -/
theorem bundle_br (disp : BitVec 32) :
    ((s.ctx p k).targetOk (slotTarget pc .c disp) = true →
      ∃ u, issueTogether exec s p k pc (bundleOf (inSlots (.br disp) .nop .nop .nop) w) false true = .next u ∧
        BundleIssued s p k ((s.ctx p k).unbind.transferred .c (slotTarget pc .c disp)) u) ∧
    ((s.ctx p k).targetOk (slotTarget pc .c disp) = false →
      issueTogether exec s p k pc (bundleOf (inSlots (.br disp) .nop .nop .nop) w) false true =
        .next (s.raise p k ⟨causeALIGN, slotTarget pc .c disp, .c, false⟩).endIssue) := by
  have hcur := (joined_first hidle p k .c pc (w .c)).cur
  have hb : (do jumpTo (brTarget (← pcOf) disp) : Act Unit) (s.beginSlot p k .c pc (w .c) false) =
      jumpTo (slotTarget pc .c disp) (s.beginSlot p k .c pc (w .c) false) := by
    rw [← slotTarget_c s p k pc (w .c), ← brTarget_eq]
    rfl
  refine ⟨fun hok => ?_, fun hbad => ?_⟩
  · have hissues := oneSlot_jumps hidle (exec_br_eq disp) (ReadFrame.refl _) hb hok
    rwa [hcur] at hissues
  · exact oneSlot_raises hidle (exec_br_eq disp) (hb.trans (jumpTo_misaligned (by rw [hcur]; exact hbad)))

/-- BRI and RET. -/
theorem bundle_bri {i : Instr} {a : Src} {s1 : State} {x : W64} (hi : i = .bri a ∨ i = .ret a)
    (ha : readSrc a (s.beginSlot p k .c pc (w .c) false) = .ok (x, s1)) (hok : (s.ctx p k).targetOk x = true) :
    ∃ u, issueTogether exec s p k pc (bundleOf (inSlots i .nop .nop .nop) w) false true = .next u ∧
      BundleIssued s p k (s1.cur.unbind.transferred .c x) u := by
  have hx : ∀ v, exec i v = concludeSyllable (do jumpTo (← readSrc a)) v := by
    rcases hi with rfl | rfl
    · exact fun v => rfl
    · exact fun v => rfl
  exact oneSlot_jumps hidle hx (readSrc_frame ha) (by simp only [Act.bind_apply, ha]) hok

/-- CALL, its link the next bundle. -/
theorem bundle_call {d : Dst} {disp : BitVec 32} (hlock : (s.ctx p k).apart = false)
    (hok : (s.ctx p k).targetOk (slotTarget pc .c disp) = true) (ht : (s.ctx p k).unbind.takes .c d = true) :
    ∃ u, issueTogether exec s p k pc (bundleOf (inSlots (.call d disp) .nop .nop .nop) w) false true = .next u ∧
      BundleIssued s p k (((s.ctx p k).unbind.transferred .c (slotTarget pc .c disp)).put .c d
        (.ready (BitVec.ofNat 64 (pc.toNat / 32 * 32 + 32)) false)) u := by
  have hj := joined_first hidle p k .c pc (w .c)
  have hret : (s.beginSlot p k .c pc (w .c) false).returnAddress = BitVec.ofNat 64 (pc.toNat / 32 * 32 + 32) := by
    rw [returnAddress_eq, hj.cur, if_neg (by rw [hlock]; decide)]
    rfl
  refine oneSlot_issues (e := ((s.ctx p k).unbind.transferred .c (slotTarget pc .c disp)).put .c d
    (.ready (BitVec.ofNat 64 (pc.toNat / 32 * 32 + 32)) false))
    (ds := [.jump .c (slotTarget pc .c disp), .scalar .c d (.ready (BitVec.ofNat 64 (pc.toNat / 32 * 32 + 32)) false)])
    hidle (exec_call_eq d disp) (ReadFrame.refl _) ?_ (fun t htc => ?_) rfl
  · have hok' : (s.beginSlot p k .c pc (w .c) false).cur.targetOk (slotTarget pc .c disp) = true := by
      rw [hj.cur]
      exact hok
    simp only [Act.bind_apply, Act.get_apply, brTarget_eq, slotTarget_c, jumpTo_ok hok', Act.defer_apply,
      Act.writeDst_apply, hret, hj.writes]
    rfl
  · rw [hj.cur] at htc
    rw [← htc] at ht ⊢
    exact settles_call ht

/-- BRQ, taken and not. -/
theorem bundle_brq {sense : Bool} {disp : BitVec 32} {s1 : State} {b : W64}
    (hb : readSrc ⟨.pop, 61⟩ (s.beginSlot p k .c pc (w .c) false) = .ok (b, s1))
    (hok : ((b != 0) ^^ sense) = true → (s.ctx p k).targetOk (slotTarget pc .c disp) = true) :
    ∃ u, issueTogether exec s p k pc (bundleOf (inSlots (.brq sense disp) .nop .nop .nop) w) false true = .next u ∧
      BundleIssued s p k (if ((b != 0) ^^ sense) = true then s1.cur.unbind.transferred .c (slotTarget pc .c disp)
        else s1.cur.unbind.pastBundle) u := by
  have hu := readSrc_frame hb
  have hj := (joined_first hidle p k .c pc (w .c)).reads hu
  cases htaken : ((b != 0) ^^ sense) with
  | true =>
    refine oneSlot_jumps hidle (exec_brq_eq sense disp) hu ?_ (hok htaken)
    simp only [pcOf, Act.bind_apply, Act.get_apply, Act.pure_apply, brTarget_eq, slotTarget_c, bqReg, hb,
      Bool.bne_eq_xor, htaken, ↓reduceIte]
  | false =>
    refine oneSlot_issues (ds := []) hidle (exec_brq_eq sense disp) hu ?_ (fun t ht => ?_) rfl
    · simp only [pcOf, Act.bind_apply, Act.get_apply, Act.pure_apply, bqReg, hb, Bool.bne_eq_xor, htaken,
        Bool.false_eq_true, ↓reduceIte, writing_nil hj.writes]
    · rw [← ht]
      exact settles_nil t

end

end Sys2Proof.Machine
end

section
namespace Sys2Proof.Machine

/-! ### LOOP, COMMIT and HALT in a sync bundle (R205, R212, R214) -/

@[simp] theorem pastBundle_scalars (c : Ctx) : c.pastBundle.scalars = c.scalars := by
  simp only [Ctx.pastBundle, advance_scalars]

@[simp] theorem pastBundle_preds (c : Ctx) (q : Cluster) :
    (Ctx.cluster c.pastBundle q).preds = (Ctx.cluster c q).preds := by
  simp only [Ctx.pastBundle, advance_preds]

@[simp] theorem pastBundle_issued (c : Ctx) : c.pastBundle.issued = c.issued := by
  simp only [Ctx.pastBundle, advance_issued]

theorem Ctx.SameCounters.pastBundle {e c : Ctx} (h : Ctx.SameCounters e c) :
    Ctx.SameCounters e.pastBundle c.pastBundle :=
  (((h.advance .c).advance .a).advance .v).advance .m

theorem unbind_sameCounters (c : Ctx) : Ctx.SameCounters c.unbind c :=
  ⟨rfl, rfl, fun q => by cases q <;> rfl, fun q => by cases q <;> rfl⟩

theorem unbind_cluster (c : Ctx) (q : Cluster) : Ctx.cluster c.unbind q = Ctx.cluster c q := by cases q <;> rfl

/-- A taken transfer in lockstep leaves every counter at its target. -/
theorem transferred_pc {c : Ctx} (h : c.apart = false) (cl q : Cluster) (target : W64) :
    (Ctx.cluster (c.transferred cl target) q).pc = target := by
  rw [Ctx.transferred, if_neg (by rw [h]; decide)]
  cases q <;> rfl

theorem countedAll_cluster (c : Ctx) (now : Nat) (q : Cluster) :
    Ctx.cluster (c.countedAll now) q = Ctx.cluster c q := by cases q <;> rfl

/-- A queue whose binding has ended (R166). -/
def SQueue.unbound (q : SQueue) : SQueue := { q with producer := none }

theorem unbind_squeue (c : Ctx) (r : Nat) : c.unbind.squeue r = (c.squeue r).unbound := by
  refine (congrArg (Option.getD · SQueue.empty) (tfind_map_value SQueue.unbound c.scalars r)).trans ?_
  unfold Ctx.squeue tget
  cases tfind c.scalars r with
  | none => rfl
  | some q => rfl

theorem setPred_preds_congr {x y : ClusterState} (h : x.preds = y.preds) (n : Nat) (b : Bool) :
    (x.setPred n b).preds = (y.setPred n b).preds := by
  unfold ClusterState.setPred
  split
  · exact h
  · exact congrArg (setBit64 · n b) h

/-- Predicates written alike onto like ones. -/
theorem setPreds_preds_congr {x y : ClusterState} (h : x.preds = y.preds) (l : List (Nat × Bool)) :
    (x.setPreds l).preds = (y.setPreds l).preds := by
  induction l generalizing x y with
  | nil => exact h
  | cons e l ih => exact ih (setPred_preds_congr h e.1 e.2)

/-- What a LOOP in a bundle makes of a context: its counter and its stage predicates written, and its counters at the
target or past the bundle (R205). -/
structure LoopIssued (c e : Ctx) (r : Nat) (x : LoopPlan) (target : W64) : Prop where
  counter : e.squeue r = { c.squeue r with
    producer := some .c
    retain := false
    entries := match (c.squeue r).entries with | [] => [] | _ :: es => .ready x.value false :: es }
  others : ∀ j, j ≠ r → e.squeue j = c.unbind.squeue j
  preds : ∀ q, (Ctx.cluster e q).preds = ((Ctx.cluster c q).setPreds (x.bits q)).preds
  pc : ∀ q, (Ctx.cluster e q).pc = if x.taken then target else (Ctx.cluster c.pastBundle q).pc
  issued : e.issued = c.issued + 4

/-- The context after a LOOP of a bundle. -/
theorem loopIssued {c e : Ctx} {r : Nat} {x : LoopPlan} {target : W64} {now : Nat} (hlock : c.apart = false)
    (hx : x.jump = if x.taken then some target else none)
    (he : e = (if x.jump.isSome then c.unbind.looped .c r Cluster.all x
      else (c.unbind.looped .c r Cluster.all x).pastBundle).countedAll now) : LoopIssued c e r x target := by
  let e0 := if x.jump.isSome then c.unbind.looped .c r Cluster.all x else (c.unbind.looped .c r Cluster.all x).pastBundle
  obtain ⟨hscalars, hpreds, hsame⟩ := loop_context (e := e0) (past := Ctx.pastBundle) pastBundle_scalars pastBundle_preds
    Ctx.SameCounters.pastBundle hx rfl
  have hsqueue : ∀ j, e.squeue j = (c.unbind.looped .c r Cluster.all x).squeue j := fun j => by
    rw [he]
    exact Ctx.squeue_congr hscalars j
  have hcluster : ∀ q, Ctx.cluster e q = Ctx.cluster e0 q := fun q => by rw [he, countedAll_cluster]
  refine ⟨?_, fun j hj => ?_, fun q => ?_, fun q => ?_, ?_⟩
  · rw [hsqueue, looped_squeue_same, unbind_squeue]
    rfl
  · rw [hsqueue, looped_squeue_other _ _ _ _ _ hj]
  · have hall : q ∈ Cluster.all := by cases q <;> decide
    rw [hcluster, hpreds, Ctx.looped, cluster_setAllPreds (by decide), if_pos hall]
    have hput : Ctx.cluster ((c.unbind.jumped .c x.jump).putCounter .c r x.value) q =
        Ctx.cluster (c.unbind.jumped .c x.jump) q := by cases q <;> rfl
    rw [hput]
    exact setPreds_preds_congr ((jumped_preds ..).trans (congrArg _ (unbind_cluster c q))) _
  · rw [hcluster]
    refine (hsame.pc q).trans ?_
    cases x.taken with
    | true => exact transferred_pc (c := c.unbind) hlock .c q target
    | false => exact (unbind_sameCounters c).pastBundle.pc q
  · have h0 : e0.issued = c.issued := by
      refine hsame.issued.trans ?_
      split
      · exact transferred_issued ..
      · exact pastBundle_issued ..
    rw [he]
    exact congrArg (· + 4) h0

/-- The counters after a bundle in which C alone has begun a wait (R393). -/
theorem settled_waitC (e old : Ctx) (y : WaitFor) : e.settled old Cluster.all false [(.c, y, [])] =
    Ctx.setCluster (((e.advance .a).advance .v).advance .m) .c
      { Ctx.cluster (((e.advance .a).advance .v).advance .m) .c with status := .waiting y [] } := rfl

section
variable {s : State} {p k : Nat} {pc : W64} {w : Cluster → W64} (hidle : s.issue = Issue.idle)
  (hlock : (s.ctx p k).apart = false)
include hidle hlock

/-- LOOP. -/
theorem bundle_loop {r : BitVec 6} {disp : BitVec 32} {stages : BitVec 4} {n : W64} {es : List SEntry} {x : LoopPlan}
    (hd : ((s.ctx p k).squeue r.toNat).cond ≠ .dead)
    (he : ((s.ctx p k).squeue r.toNat).entries = .ready n false :: es)
    (hx : (s.ctx p k).loopPlan .c stages.toNat (slotTarget pc .c disp) n = x)
    (ht : x.taken = true → (s.ctx p k).targetOk (slotTarget pc .c disp) = true) :
    ∃ u, issueTogether exec s p k pc (bundleOf (inSlots (.loop r disp stages) .nop .nop .nop) w) false true = .next u ∧
      u.issue = Issue.idle ∧ Elsewhere (s.begunAll p k) u ∧
      LoopIssued (s.ctx p k) (u.ctx p k) r.toNat x (slotTarget pc .c disp) := by
  have hj := joined_first hidle p k .c pc (w .c)
  have hclusters : (s.beginSlot p k .c pc (w .c) false).loopClusters = Cluster.all := by
    rw [State.loopClusters, hj.cur, if_neg (by rw [hlock]; decide)]
  have hcur := hj.cur
  obtain ⟨body, hexec, hb⟩ := loop_defers (s := s.beginSlot p k .c pc (w .c) false) (r := r) (disp := disp)
    (stages := stages) (n := n) (es := es) (x := x) (by rw [hcur]; exact hd) (by rw [hcur]; exact he)
    (by rw [hcur, slotTarget_c]; exact hx) (by rw [hcur, slotTarget_c]; exact ht)
  rw [hj.writes, hclusters] at hb
  obtain ⟨v, hv, hvj⟩ := oneSlot_runs hidle (hexec.trans (conclude_joins hj.alone hb))
    (hj.writing (loopWrites .c x.jump r.toNat x.value Cluster.all x.bits))
  obtain ⟨u, hnext, hui, hue, huc⟩ := issueTogether_ends
    (e := (s.ctx p k).unbind.looped .c r.toNat Cluster.all x) hv hvj (bundleOf_clusters ..) rfl rfl
    (fun u hu => by
      rw [← hu]
      exact settles_loop Cluster.all x (by rw [hu, unbind_squeue]; rfl))
    (loopWrites_trapAfter ..)
  refine ⟨u, hnext, hui, hue, loopIssued (now := s.now) hlock ?_ ?_⟩
  · rw [← hx]
    rfl
  · refine huc.trans (congrArg (Ctx.countedAll · s.now) ?_)
    rw [loopWrites_moves]
    rfl

omit hlock

/-- COMMIT: the team's first (R212, R405). -/
theorem bundle_commit (hc : (s.team p).commit = .none) (hl : s.logBusy (s.team p) = false)
    (hd : (s.team p).woundsDue = []) (ht : (s.team p).tctlWaits = false) :
    ∃ u, issueTogether exec s p k pc (bundleOf (inSlots .commit .nop .nop .nop) w) false true = .next u ∧
      u.issue = Issue.idle ∧ u.mem = s.mem ∧ (u.team p).commit = .done s.cycles ∧
      u.ctx p k = { (s.ctx p k).unbind.pastBundle with issued := (s.ctx p k).issued + 4, lastIssue := s.now } := by
  have hj := joined_first hidle p k .c pc (w .c)
  have hteam : (s.beginSlot p k .c pc (w .c) false).curTeam = (s.team p).serving .c k := beginSlot_team ..
  have hgo : (((s.team p).serving .c k).commit != .none || (!(s.beginSlot p k .c pc (w .c) false).logBusy
      ((s.team p).serving .c k) && ((s.team p).serving .c k).woundsDue.isEmpty && !((s.team p).serving .c k).tctlWaits)) =
        true := by
    have hbusy : (s.beginSlot p k .c pc (w .c) false).logBusy ((s.team p).serving .c k) = false := hl
    have hwait : ((s.team p).serving .c k).tctlWaits = false := ht
    have hwound : ((s.team p).serving .c k).woundsDue = [] := hd
    rw [hbusy, hwait, hwound]
    exact Bool.or_true _
  have hrun : exec .commit (s.beginSlot p k .c pc (w .c) false) =
      .next ((s.beginSlot p k .c pc (w .c) false).writing [.commit]) := by
    refine (show execCommit _ = _ from conclude_joins hj.alone ?_)
    simp only [Act.bind_apply, Act.get_apply, hteam, hgo, Act.holdUnless_apply, ↓reduceIte, Act.defer_apply, hj.writes]
    rfl
  obtain ⟨v, hv, hvj⟩ := oneSlot_runs hidle hrun (hj.writing [.commit])
  have hu := hvj.unbinds
  generalize huv : v.modCtx p k Ctx.unbind = u at hu
  have hcommit : (u.team p).commit = .none := by
    have hut := hu.elsewhere.team
    rw [hu.baseCore] at hut
    rw [hut]
    exact (begunAll_commit s p k).trans hc
  have hcycles : u.cycles = s.cycles := (congrArg (· / 72) hu.elsewhere.cycleAcc).trans (begunAll_cycles s p k)
  obtain ⟨l, hlog⟩ := logCommit_first hcommit
  let t : State := { u.modTeam p (Team.committedAt u.cycles) with launches := l }
  have hall : settleAll u [.commit] = .ok t := by
    rw [show t = u.logCommit p from hlog.symm, ← hu.core]
    rfl
  have htcur : t.cur = (s.ctx p k).unbind :=
    (modTeam_ctx (s := u) (f := Team.committedAt u.cycles) rfl _ _).trans hu.cur
  have hsettle := settle_eq (s := u) (by rw [hu.writes]; exact hall) (by rw [hu.writes]; rfl)
  refine ⟨_, issueTogether_settle (split := false) hv hvj (bundleOf_clusters ..) rfl rfl
    (by rw [huv]; exact congrArg Prod.snd (settleEach_of_settleAll hall)) (by rw [huv]; exact hsettle), rfl, ?_, ?_, ?_⟩
  · exact hu.elsewhere.mem.trans (begunAll_mem s p k)
  · rw [← hcycles]
    show ((t.setCtx t.issue.core t.issue.ctx _).team p).commit = _
    rw [show t.issue.core = p from hu.core, State.team_setCtx_same]
    exact congrArg Team.commit (State.team_modTeam_same u p (Team.committedAt u.cycles))
  · have hnow : t.now = s.now := hu.elsewhere.now.trans (begunAll_now s p k)
    rw [hu.writes, show t.issue.waits = [] from hu.waits, htcur, hnow]
    show (t.setCtx t.issue.core t.issue.ctx _).ctx p k = _
    rw [show t.issue.core = p from hu.core, show t.issue.ctx = k from hu.ctxId, State.ctx_setCtx_same]
    have hissued : (s.ctx p k).unbind.pastBundle.issued = (s.ctx p k).issued := pastBundle_issued _
    rw [← hissued]
    rfl

/-- HALT: C waits, and the other clusters go past the bundle (R214). -/
theorem bundle_halt :
    ∃ u, issueTogether exec s p k pc (bundleOf (inSlots .halt .nop .nop .nop) w) false true = .next u ∧
      u.issue = Issue.idle ∧ u.mem = s.mem ∧ (u.ctx p k).waitsFor .c .halt ∧
      (u.ctx p k).issued = (s.ctx p k).issued + 4 ∧
      ∀ q, (Ctx.cluster (u.ctx p k) q).pc = if q = .c then (s.ctx p k).c.pc
        else (Ctx.cluster (s.ctx p k).pastBundle q).pc := by
  have hj := joined_first hidle p k .c pc (w .c)
  obtain ⟨v, hv, hvj⟩ := oneSlot_runs hidle (halt_joins hj.alone) (hj.beginsWait [(.c, .halt, [])])
  obtain ⟨u, hnext, hui, hue, huc⟩ := issueTogether_ends (e := (s.ctx p k).unbind) hv hvj (bundleOf_clusters ..) rfl rfl
    (fun u hu => by rw [← hu]; exact settles_nil u) rfl
  refine ⟨u, hnext, hui, hue.mem.trans (begunAll_mem s p k), ?_⟩
  rw [huc]
  refine ⟨⟨[], rfl⟩, ?_, fun q => by cases q <;> rfl⟩
  have hissued : ((s.ctx p k).unbind.settled (s.ctx p k).unbind Cluster.all false [(.c, .halt, [])]).issued =
      (s.ctx p k).issued := by
    rw [settled_waitC, Ctx.setCluster_issued, advance_issued, advance_issued, advance_issued]
    rfl
  exact congrArg (· + 4) hissued

end

end Sys2Proof.Machine
end

section
namespace Sys2Proof.Machine

/-! ### Guards, two writes, suppression and stalls (R148, R160, R186, R188, R394) -/

/-- The guard of a slot, in the context of its bundle (R148). -/
def Ctx.guardOf (c : Ctx) (q : Cluster) (n : Nat) : Bool := decide (n = 0) || (Ctx.cluster c q).preds.getLsbD n

theorem beginSlot_pred (s : State) (p k : Nat) (q : Cluster) (pc w : W64) (alone : Bool) (n : Nat) :
    (s.beginSlot p k q pc w alone).pred n = (s.ctx p k).guardOf q n := by
  rw [← beginSlot_ctx s p k q pc w alone k]
  rfl

/-- Slots whose guards do not hold pass, one after another. -/
theorem runSlots_allPass {p k : Nat} {pc : W64} {c : Ctx} {x : Issue} (xs : List (Cluster × Slot)) {b v : State}
    (h : Joined b v p k c x)
    (hg : ∀ e ∈ xs, ∃ y, e.2.syl = some y ∧ c.guardOf e.1 y.guard.toNat = y.gneg) :
    ∃ u, runSlots exec p k pc xs v = .next u ∧
      Joined ((xs.map Prod.fst).foldl (fun b q => b.beginSlot p k q 0 0 false) b) u p k c x := by
  induction xs generalizing b v with
  | nil => exact ⟨v, rfl, h⟩
  | cons e xs ih =>
    obtain ⟨y, hy, hpass⟩ := hg e List.mem_cons_self
    obtain ⟨u, hu, huj⟩ := ih (h.begin e.1 (pc + BitVec.ofNat 64 (8 * Cluster.index e.1)) e.2.word)
      fun f hf => hg f (List.mem_cons_of_mem e hf)
    exact ⟨u, (runSlots_passes hy (by rw [beginSlot_pred, h.ctx]; exact hpass)).trans hu, huj⟩

section
variable {s : State} {p k : Nat} {pc : W64} {w : Cluster → W64} (hidle : s.issue = Issue.idle)
include hidle

/-- A bundle whose guards do not hold only counts and moves past. -/
theorem bundle_passes {xs : List (Cluster × Slot)} (hxs : xs.map Prod.fst = Cluster.all)
    (hg : ∀ e ∈ xs, ∃ y, e.2.syl = some y ∧ (s.beginSlot p k e.1 pc 0 false).pred y.guard.toNat = y.gneg) :
    ∃ u, issueTogether exec s p k pc xs false true = .next u ∧ BundleIssued s p k (s.ctx p k).unbind.pastBundle u := by
  have hguards : ∀ e ∈ xs, ∃ y, e.2.syl = some y ∧ (s.ctx p k).guardOf e.1 y.guard.toNat = y.gneg := fun e he =>
    (hg e he).imp fun y ⟨hy, hpass⟩ => ⟨hy, by rw [← hpass, beginSlot_pred]⟩
  obtain ⟨⟨q, x⟩, rest, rfl, rfl, hrest⟩ := List.map_eq_cons_iff.1 hxs
  obtain ⟨y, hy, hpass⟩ := hguards _ List.mem_cons_self
  have hj := joined_first hidle p k .c (pc + BitVec.ofNat 64 (8 * Cluster.index .c)) x.word
  obtain ⟨u, hu, huj⟩ := runSlots_allPass (pc := pc) rest hj fun e he => hguards e (List.mem_cons_of_mem _ he)
  have hrun : runSlots exec p k pc ((.c, x) :: rest) s.endIssue = .next u := by
    rw [endIssue_idle hidle]
    exact (runSlots_passes hy (by rw [beginSlot_pred]; exact hpass)).trans hu
  rw [hrest] at huj
  exact issueTogether_issues (e := (s.ctx p k).unbind) hrun huj hxs rfl rfl
    (fun v hv => by rw [← hv]; exact settles_nil v) rfl rfl

end

/-- ADD reads its sources and defers its write. -/
theorem add_joins {b v s1 s2 : State} {p k : Nat} {c : Ctx} {i : Issue} {d : Dst} {f g : Src} {x y : W64}
    (h : Joined b v p k c i) (hf : readSrc f v = .ok (x, s1)) (hg : readSrc g s1 = .ok (y, s2)) :
    exec (.add d f g) v = .next (s2.writing (i.writes ++ [.scalar v.issue.cluster d (.ready (x + y) false)])) ∧
      Joined b s2 p k s2.cur i := by
  have hu := (readSrc_frame hf).trans (readSrc_frame hg)
  have hj := h.reads hu
  refine ⟨(show execAdd d f g v = _ from conclude_joins h.alone ?_), hj⟩
  rw [← hj.writes, ← hu.cluster]
  simp only [binaryOp, Act.bind_apply, hf, hg, Act.writeDst_apply]
  rfl

theorem exec_add_eq (d : Dst) (f g : Src) (v : State) :
    exec (.add d f g) v = concludeSyllable (binaryOp d f g fun x y => x + y) v := rfl

theorem binaryOp_stops {d : Dst} {f g : Src} {h : W64 → W64 → W64} {v : State} {e : Stop}
    (hf : readSrc f v = .error e) : binaryOp d f g h v = .error e := by
  simp only [binaryOp, Act.bind_apply, hf]

/-- The write of slot C alone would settle. -/
theorem firstAdd_settles {c : Ctx} {d : Dst} {e : SEntry} (ht : c.takes .c d = true) (u : State) (hu : u.cur = c) :
    ∃ c, Settles u [.scalar .c d e] c := ⟨_, settles_scalar (by rw [hu]; exact ht)⟩

/-- A cluster that stalled runs again (R188). -/
def Ctx.resumeAt (c : Ctx) (q : Cluster) : Ctx := Ctx.setCluster c q (Ctx.cluster c q).resume

/-- The mark of the one slot that stalls; the clusters of the others run. -/
theorem markStalls_cons (q x : Cluster) (cls : List Cluster) (room : Bool) (r : Nat) (c : Ctx) :
    markStalls (q :: cls) [(x, some (room, r))] [] c = markStalls cls [(x, some (room, r))] []
      (if q = x then (c.resumeAt q).stallMark q room r else c.resumeAt q) := by
  by_cases h : q = x
  · subst h
    simp only [markStalls, List.foldl_cons, List.find?_cons, beq_self_eq_true, ↓reduceIte]
    rfl
  · have hne : (x == q) = false := beq_false_of_ne (Ne.symm h)
    simp only [markStalls, List.foldl_cons, List.find?_cons, hne, List.find?_nil, h, ↓reduceIte]
    rfl

theorem markStalls_a (c : Ctx) (room : Bool) (r : Nat) : markStalls Cluster.all [(.a, some (room, r))] [] c =
    (Cluster.all.foldl (fun c q => Ctx.setCluster c q (Ctx.cluster c q).resume) c).stallMark .a room r := by
  simp only [Cluster.all, markStalls_cons, reduceCtorEq, ↓reduceIte]
  rfl

section
variable {s s1 s2 : State} {p k : Nat} {pc : W64} {w : Cluster → W64} {d e : Dst} {a b f g : Src} {x y : W64}
  (hidle : s.issue = Issue.idle) (ha : readSrc a (s.beginSlot p k .c pc (w .c) false) = .ok (x, s1))
  (hb : readSrc b s1 = .ok (y, s2))
include hidle ha hb

/-- The ADD of slot C has read its sources, and slot A begins. -/
theorem firstAdd_joins : exec (.add d a b) (s.beginSlot p k .c pc (w .c) false) =
      .next (s2.writing [.scalar .c d (.ready (x + y) false)]) ∧
    Joined (State.beginSlot (s.beginSlot p k .c 0 0 false) p k .a 0 0 false)
      ((s2.writing [.scalar .c d (.ready (x + y) false)]).beginSlot p k .a (pc + 8) (w .a) false) p k s2.cur
      { Issue.idle with writes := [.scalar .c d (.ready (x + y) false)] } := by
  obtain ⟨hrun, hj⟩ := add_joins (d := d) (joined_first hidle p k .c pc (w .c)) ha hb
  exact ⟨hrun, (hj.writing _).begin .a (pc + 8) (w .a)⟩

/-- Two ADDs: both read, then both write (R186). -/
theorem bundle_twoAdds {s3 s4 : State} {v z : W64}
    (hf : readSrc f ((s2.writing [.scalar .c d (.ready (x + y) false)]).beginSlot p k .a (pc + 8) (w .a) false) =
      .ok (v, s3)) (hg : readSrc g s3 = .ok (z, s4)) (hd : s4.cur.unbind.takes .c d = true)
    (he : (s4.cur.unbind.put .c d (.ready (x + y) false)).takes .a e = true) :
    ∃ u, issueTogether exec s p k pc (bundleOf (inSlots (.add d a b) (.add e f g) .nop .nop) w) false true = .next u ∧
      BundleIssued s p k ((s4.cur.unbind.put .c d (.ready (x + y) false)).put .a e (.ready (v + z) false)).pastBundle
        u := by
  obtain ⟨hrun, hj⟩ := firstAdd_joins (d := d) hidle ha hb
  obtain ⟨hrun2, hj2⟩ := add_joins (d := e) hj hf hg
  obtain ⟨u, hu, huj⟩ := twoSlots_run hidle hrun hrun2 (hj2.writing _)
  refine issueTogether_issues hu huj (bundleOf_clusters ..) rfl rfl (fun t ht => ?_) rfl rfl
  rw [← ht] at hd he ⊢
  refine (settles_scalar hd).append (es := [_]) fun t' ht' => ?_
  rw [← ht'.cur] at he ⊢
  exact settles_scalar he

variable (ht : s2.cur.unbind.takes .c d = true)
include ht

/-- A trap in slot A suppresses slot C (R394). -/
theorem bundle_suppressed {cause : Nat} {v : W64}
    (hf : readSrc f ((s2.writing [.scalar .c d (.ready (x + y) false)]).beginSlot p k .a (pc + 8) (w .a) false) =
      .error (.trap cause v)) :
    issueTogether exec s p k pc (bundleOf (inSlots (.add d a b) (.add e f g) .nop .nop) w) false true =
      .next (s.raise p k ⟨cause, v, .a, false⟩).endIssue := by
  obtain ⟨hrun, hj⟩ := firstAdd_joins (d := d) hidle ha hb
  obtain ⟨u, hu, huj⟩ := twoSlots_run hidle hrun
    ((exec_add_eq e f g _).trans (conclude_notes hj.alone (binaryOp_stops hf))) (hj.notes rfl _)
  exact issueTogether_raises hu huj rfl rfl rfl rfl (firstAdd_settles ht)

/-- A stall in slot A holds slot C (R188). -/
theorem bundle_held {room : Bool} {r : Nat}
    (hf : readSrc f ((s2.writing [.scalar .c d (.ready (x + y) false)]).beginSlot p k .a (pc + 8) (w .a) false) =
      .error (.stall room r)) :
    issueTogether exec s p k pc (bundleOf (inSlots (.add d a b) (.add e f g) .nop .nop) w) false true =
      .next (s.modCtx p k fun c => (Cluster.all.foldl (fun c q => Ctx.setCluster c q (Ctx.cluster c q).resume)
        c).stallMark .a room r).endIssue := by
  obtain ⟨hrun, hj⟩ := firstAdd_joins (d := d) hidle ha hb
  obtain ⟨u, hu, huj⟩ := twoSlots_run hidle hrun
    ((exec_add_eq e f g _).trans (conclude_blocks hj.alone (binaryOp_stops hf))) (hj.blocks [(.a, some (room, r))])
  refine (issueTogether_stalls (q := .a) hu huj rfl (firstAdd_settles ht)).trans ?_
  rw [bundleOf_clusters, funext fun c => markStalls_a c room r]

end

/-- Of two slots that trap, the lower's cause is taken (R394). -/
theorem bundle_lowerCause {s : State} {p k : Nat} {pc : W64} {w : Cluster → W64} {d e : Dst} {a b f g : Src}
    (hidle : s.issue = Issue.idle) {cause cause' : Nat} {v v' : W64}
    (ha : readSrc a (s.beginSlot p k .c pc (w .c) false) = .error (.trap cause v))
    (hf : readSrc f (State.beginSlot { s.beginSlot p k .c pc (w .c) false with
      issue := { (s.beginSlot p k .c pc (w .c) false).issue with raised := some ⟨cause, v, .c, false⟩ } } p k .a (pc + 8)
        (w .a) false) = .error (.trap cause' v')) :
    issueTogether exec s p k pc (bundleOf (inSlots (.add d a b) (.add e f g) .nop .nop) w) false true =
      .next (s.raise p k ⟨cause, v, .c, false⟩).endIssue := by
  have hj := joined_first hidle p k .c pc (w .c)
  have hnote : State.noteCause (s.beginSlot p k .c pc (w .c) false) ⟨cause, v, .c, false⟩ false =
      { s.beginSlot p k .c pc (w .c) false with
        issue := { (s.beginSlot p k .c pc (w .c) false).issue with raised := some ⟨cause, v, .c, false⟩ } } := by
    rw [State.noteCause, hj.issue]
    rfl
  have hj2 := (hj.notes rfl ⟨cause, v, .c, false⟩).begin .a (pc + 8) (w .a)
  rw [← hnote] at hf
  obtain ⟨u, hu, huj⟩ := twoSlots_run hidle
    ((exec_add_eq d a b _).trans (conclude_notes hj.alone (binaryOp_stops ha)))
    ((exec_add_eq e f g _).trans ((conclude_notes hj2.alone (binaryOp_stops hf)).trans
      (congrArg _ (hj2.noted rfl rfl _)))) hj2
  exact issueTogether_raises hu huj rfl rfl rfl rfl fun u _ => ⟨_, settles_nil u⟩

end Sys2Proof.Machine
end

section
namespace Sys2Proof.Machine

/-! ### Split bundles (R163) -/

section
variable {p k : Nat} {pc : W64} {i : Cluster → Instr} {disp : Cluster → BitVec 32} {w : Cluster → W64}

/-- What a slot of a split bundle defers. -/
def splitWrites (pc : W64) (i : Cluster → Instr) (disp : Cluster → BitVec 32) (q : Cluster) : List Deferred :=
  if isSplit (i q) then [.split q (slotTarget pc q (disp q))] else []

/-- What it makes of its cluster. -/
def Ctx.splitAt (pc : W64) (i : Cluster → Instr) (disp : Cluster → BitVec 32) (c : Ctx) (q : Cluster) : Ctx :=
  if isSplit (i q) then
    { Ctx.setCluster c q { Ctx.cluster c q with pc := slotTarget pc q (disp q), status := .running } with apart := true }
  else c

theorem settles_splitWrites (qs : List Cluster) (s : State) :
    Settles s (qs.flatMap (splitWrites pc i disp)) (qs.foldl (Ctx.splitAt pc i disp) s.cur) := by
  induction qs generalizing s with
  | nil => exact settles_nil s
  | cons q qs ih =>
    have hfirst : Settles s (splitWrites pc i disp q) (s.cur.splitAt pc i disp q) := by
      unfold splitWrites Ctx.splitAt
      split
      · exact settles_split s q _
      · exact settles_nil s
    rw [List.flatMap_cons, List.foldl_cons]
    refine hfirst.append fun t ht => ?_
    rw [← ht.cur]
    exact ih t

/-- A SPLIT defers its target, a NOP nothing. -/
theorem splitSlot_joins {b v : State} {q : Cluster} {c : Ctx} {x : Issue} (hi : i q = .split (disp q) ∨ i q = .nop)
    (hj : Joined b (v.beginSlot p k q (pc + BitVec.ofNat 64 (8 * Cluster.index q)) (w q) false) p k c x) :
    ∃ u, exec (i q) (v.beginSlot p k q (pc + BitVec.ofNat 64 (8 * Cluster.index q)) (w q) false) = .next u ∧
      Joined b u p k c { x with writes := x.writes ++ splitWrites pc i disp q } := by
  refine ⟨_, ?_, hj.writing _⟩
  rw [← hj.writes]
  rcases hi with hi | hi
  · rw [splitWrites, hi]
    refine (show execSplit (disp q) _ = _ from conclude_joins hj.alone ?_)
    simp only [Act.bind_apply, Act.get_apply, brTarget_eq, Act.defer_apply]
    rfl
  · rw [splitWrites, hi]
    refine (show execNop _ = _ from conclude_joins hj.alone ?_)
    rw [show isSplit .nop = false from rfl, if_neg (by decide), List.append_nil]
    rfl

theorem splitWrites_trapAfter (pc : W64) (i : Cluster → Instr) (disp : Cluster → BitVec 32) :
    trapAfterOf (Cluster.all.flatMap (splitWrites pc i disp)) = none := by
  rw [trapAfterOf, List.findSome?_eq_none_iff]
  intro d hd
  obtain ⟨q, -, hq⟩ := List.mem_flatMap.1 hd
  unfold splitWrites at hq
  split at hq
  · rw [List.mem_singleton.1 hq]
  · cases hq

/-- The cluster of a slot of a split bundle after it (R163). -/
def Ctx.clusterAfterSplit (pc : W64) (i : Cluster → Instr) (disp : Cluster → BitVec 32) (c : Ctx) (q : Cluster) :
    ClusterState :=
  if isSplit (i q) then { Ctx.cluster c q with pc := slotTarget pc q (disp q), status := .running }
  else { Ctx.cluster c q with status := .resting }

/-- The context after a split bundle: it is apart. -/
def Ctx.afterSplit (c : Ctx) (pc : W64) (i : Cluster → Instr) (disp : Cluster → BitVec 32) : Ctx :=
  { c with
    c := c.clusterAfterSplit pc i disp .c
    a := c.clusterAfterSplit pc i disp .a
    v := c.clusterAfterSplit pc i disp .v
    m := c.clusterAfterSplit pc i disp .m
    apart := true }

/-- What rests is one thing, what ISSUED counts another. -/
theorem restNops_countedAll (c : Ctx) (now : Nat) (cls : List (Cluster × Slot)) :
    restNops (c.countedAll now) cls = (restNops c cls).countedAll now := by
  refine List.foldl_hom (Ctx.countedAll · now) fun c x => ?_
  cases x.2.syl with
  | none => rfl
  | some y =>
    dsimp only
    split
    · cases x.1 <;> rfl
    · rfl

theorem isNop_of_not_split {j : Instr} {d : BitVec 32} (h : j = .split d ∨ j = .nop) : isNop j = !isSplit j := by
  rcases h with rfl | rfl <;> rfl

/-- Clusters that split go to their targets, and the others rest. -/
theorem split_context (hc : i .c = .split (disp .c)) (hi : ∀ q, i q = .split (disp q) ∨ i q = .nop) (c : Ctx) :
    restNops (Cluster.all.foldl (Ctx.splitAt pc i disp) c) (bundleOf i w) = c.afterSplit pc i disp := by
  have hsplit : isSplit (i .c) = true := by rw [hc]; rfl
  have hnop : ∀ q, isNop (i q) = !isSplit (i q) := fun q => isNop_of_not_split (hi q)
  cases ha : isSplit (i .a) <;> cases hv : isSplit (i .v) <;> cases hm : isSplit (i .m) <;>
    simp only [restNops, bundleOf_eq, slotAt, Cluster.all, List.foldl_cons, List.foldl_nil, Ctx.splitAt, Ctx.afterSplit,
      Ctx.clusterAfterSplit, hnop, hsplit, ha, hv, hm, Bool.not_true, Bool.not_false, Bool.false_eq_true, ↓reduceIte] <;>
    rfl

variable {s : State} (hidle : s.issue = Issue.idle) (hi : ∀ q, i q = .split (disp q) ∨ i q = .nop)
include hidle hi

/-- The slots of a split bundle run. -/
theorem splitSlots_run : ∃ v, runSlots exec p k pc (bundleOf i w) s.endIssue = .next v ∧
    Joined (s.begunAll p k) v p k (s.ctx p k)
      { Issue.idle with writes := Cluster.all.flatMap (splitWrites pc i disp) } := by
  obtain ⟨v1, h1, hj1⟩ := splitSlot_joins (hi .c)
    (joined_first hidle p k .c (pc + BitVec.ofNat 64 (8 * Cluster.index .c)) (w .c))
  obtain ⟨v2, h2, hj2⟩ := splitSlot_joins (hi .a) (hj1.begin .a (pc + BitVec.ofNat 64 (8 * Cluster.index .a)) (w .a))
  obtain ⟨v3, h3, hj3⟩ := splitSlot_joins (hi .v) (hj2.begin .v (pc + BitVec.ofNat 64 (8 * Cluster.index .v)) (w .v))
  obtain ⟨v4, h4, hj4⟩ := splitSlot_joins (hi .m) (hj3.begin .m (pc + BitVec.ofNat 64 (8 * Cluster.index .m)) (w .m))
  refine ⟨v4, ?_, ?_⟩
  · rw [endIssue_idle hidle, bundleOf_eq]
    exact (runSlots_next h1).trans ((runSlots_next h2).trans ((runSlots_next h3).trans (runSlots_next h4)))
  · have hwrites : Cluster.all.flatMap (splitWrites pc i disp) = ((([] ++ splitWrites pc i disp .c) ++
        splitWrites pc i disp .a) ++ splitWrites pc i disp .v) ++ splitWrites pc i disp .m := by
      simp only [Cluster.all, List.flatMap_cons, List.flatMap_nil, List.append_nil, List.nil_append, List.append_assoc]
    rw [begunAll_eq, hwrites]
    exact hj4

/-- A split bundle. -/
theorem bundle_split (hc : i .c = .split (disp .c)) :
    ∃ u, issueTogether exec s p k pc (bundleOf i w) true true = .next u ∧
      BundleIssued s p k ((s.ctx p k).unbind.afterSplit pc i disp) u := by
  obtain ⟨v, hv, hvj⟩ := splitSlots_run (p := p) (k := k) (pc := pc) (w := w) hidle hi
  have hmoves : (Cluster.all.flatMap (splitWrites pc i disp)).any Deferred.moves = true := by
    refine List.any_eq_true.2 ⟨.split .c (slotTarget pc .c (disp .c)), ?_, rfl⟩
    refine List.mem_flatMap.2 ⟨.c, by decide, ?_⟩
    rw [splitWrites, hc]
    exact List.mem_cons_self
  obtain ⟨t, ht, htj⟩ := issueTogether_settles (split := true)
    (e := Cluster.all.foldl (Ctx.splitAt pc i disp) (s.ctx p k).unbind) hv hvj (bundleOf_clusters ..) rfl rfl
    (fun u hu => by rw [← hu]; exact settles_splitWrites Cluster.all u) (splitWrites_trapAfter ..)
  rw [if_pos rfl] at ht
  obtain ⟨hui, hue, huc⟩ := (htj.mods fun c => restNops c (bundleOf i w)).ends
  refine ⟨_, ht, hui, hue, huc.trans ?_⟩
  show restNops ((if (Cluster.all.flatMap (splitWrites pc i disp)).any Deferred.moves then _ else _ : Ctx).countedAll
    s.now) (bundleOf i w) = _
  rw [if_pos hmoves]
  rw [restNops_countedAll]
  exact congrArg (Ctx.countedAll · s.now) (split_context hc hi _)

end

end Sys2Proof.Machine
end

section
namespace Sys2Proof.Machine

/-! ### A step of a sync bundle (R160) -/

section
variable {s : State} {p k : Nat} {cl : Cluster} {pc : W64} {x0 : Slot} {xs : List Slot} {y0 : Syllable}
  (hall : ∀ q, (s.ctx p k).atBundle cl q = true ∧ (Ctx.cluster (s.ctx p k) q).ready = true)
include hall

/-- Where every cluster stands at a bundle, none is behind it and every slot is still to issue. -/
theorem allHere_front (q : Cluster) : (Ctx.cluster (s.ctx p k) q).front = (Ctx.cluster (s.ctx p k) cl).front := by
  have hat := (hall q).1
  simp only [Ctx.atBundle, Bool.and_eq_true, beq_iff_eq] at hat
  exact hat.2

theorem allHere_slots (slots : List Slot) :
    ((Cluster.all.zip slots).filter fun x => (s.ctx p k).atBundle cl x.1) = Cluster.all.zip slots :=
  List.filter_eq_self.2 fun x _ => (hall x.1).1

theorem allHere_free : (decide ((s.ctx p k).minFront < (Ctx.cluster (s.ctx p k) cl).front) ||
    Cluster.all.any fun x => (Ctx.cluster (s.ctx p k) x).front == (Ctx.cluster (s.ctx p k) cl).front &&
      !(Ctx.cluster (s.ctx p k) x).ready) = false := by
  have hfront := allHere_front hall
  have hmin : (s.ctx p k).minFront = (Ctx.cluster (s.ctx p k) cl).front := by
    have hc := hfront .c
    have ha := hfront .a
    have hv := hfront .v
    have hm := hfront .m
    simp only [Ctx.cluster] at hc ha hv hm
    rw [Ctx.minFront, hc, ha, hv, hm, Nat.min_self, Nat.min_self]
    rfl
  rw [hmin, decide_eq_false (Nat.lt_irrefl _), Bool.false_or, List.any_eq_false]
  intro x _
  rw [(hall x).2]
  simp

/-- A sync bundle at which every cluster stands, with nothing due, issues all its slots. -/
theorem issueBundle_sync (hlen : (x0 :: xs).length = 4) (h0 : x0.syl = some y0) (hlate : isLate y0.op = false)
    (hsync : y0.y = true ∨ makesSync y0.op = true) (hdue : (s.ctx p k).dueAmong Cluster.all = none) :
    issueBundle exec s p k cl pc (x0 :: xs) = finishLate exec p k
      (issueTogether exec s p k pc (Cluster.all.zip (x0 :: xs)) (isSplitBundle (x0 :: xs)) true) := by
  have hfst : (Cluster.all.zip (x0 :: xs)).map Prod.fst = Cluster.all :=
    List.map_fst_zip (by rw [hlen]; decide)
  have hsync' : (y0.y || makesSync y0.op) = true := by
    rcases hsync with h | h
    · rw [h]; rfl
    · rw [h]; exact Bool.or_true _
  simp only [issueBundle, h0, Option.map_some, Option.getD_some, hlate, hsync', allHere_slots hall, allHere_free hall,
    hfst, hdue, ownTrapFirst, Bool.false_eq_true, ↓reduceIte]

end

theorem fetchSlots_length (c : Ctx) (pa : Nat) : (fetchSlots c pa).length = 4 := by
  rw [fetchSlots, List.length_map, List.length_range]

/-- Settles O6. -/
theorem syncBundleIssuesTogether : Obligations.SyncBundleIssuesTogether := by
  unfold Obligations.SyncBundleIssuesTogether
  refine ⟨?_, fun s p k pc xs hidle hxs hg => bundle_passes hidle hxs hg, ?_, ?_, ?_, ?_⟩
  · intro s s1 ms p k cl pa cached x0 xs y0 ht hres hstop hhalt htrap hdue hfin hcsr hready hapart pc hreach hfetch hsame
      hdebug hslots hbad h0 hlate hsync hall hnone
    refine (step_lockstep hres hstop hhalt htrap hdue hfin hcsr hready ht hapart).trans ?_
    have hfetch' : State.fetchAt { s with turn := ms } p k
        (Ctx.cluster (State.ctx { s with turn := ms } p k) cl).pc = (.ok pa cached, s1) := hfetch
    simp only [issueLockstep, hreach, Bool.false_eq_true, ↓reduceIte, hfetch', hslots,
      bundleTrap_none (s := s1) (by rw [hsame]; exact hdebug) hbad]
    exact issueBundle_sync hall (by rw [← hslots]; exact fetchSlots_length ..) h0 hlate hsync hnone
  · intro s s1 s2 s3 s4 p k pc d e a b f g x y v z w hidle ha hb t hf hg hd he
    have hbegun : t = (s2.writing [.scalar .c d (.ready (x + y) false)]).beginSlot p k .a (pc + 8) (w .a) false := rfl
    rw [hbegun] at hf
    exact bundle_twoAdds hidle ha hb hf hg hd he
  · intro s p k pc w hidle hlock c runs
    refine ⟨bundle_br hidle, fun i a s1 x hi ha hok => bundle_bri hidle hi ha hok,
      fun d disp hok ht => bundle_call hidle hlock hok ht, fun sense disp s1 b hb hok => bundle_brq hidle hb hok,
      ?_, fun hc hl hd ht => bundle_commit hidle hc hl hd ht, bundle_halt hidle⟩
    intro r disp stages n es hr hst hd he newp old new taken htgt
    let x := c.loopPlan .c stages.toNat (slotTarget pc .c disp) n
    have htaken : x.taken = taken := congrArg (newp || ·) (any_stageBits ..)
    obtain ⟨u, hnext, hidle', helse, hloop⟩ := bundle_loop (w := w) hidle hlock hd he (x := x) rfl
      (by rw [htaken]; exact htgt)
    refine ⟨u, hnext, hidle', helse, ?_, ?_, hloop.others, fun q j hj => ?_, fun q => ?_, hloop.issued⟩
    · rw [hloop.counter, he]
      rfl
    · rw [hloop.counter]
    · rw [hloop.preds]
      exact setPreds_stageBits _ _ _ hst hj
    · rw [hloop.pc, htaken]
  · intro s p k pc w i disp hidle hc hi c after
    exact bundle_split hidle hi hc
  · intro s s1 s2 p k pc d e a b f g x y w hidle runs u
    refine ⟨fun ha hb ht => ?_, fun cause v cause' v' ha hf => bundle_lowerCause hidle ha hf⟩
    intro t
    have hbegun : t = (s2.writing [.scalar .c d (.ready (x + y) false)]).beginSlot p k .a (pc + 8) (w .a) false := rfl
    rw [hbegun]
    exact ⟨fun cause v hf => bundle_suppressed hidle ha hb ht hf, fun room r hf => bundle_held hidle ha hb ht hf⟩

end Sys2Proof.Machine
end
